-- ==== Sys2Proof/Word.lean ====
section
/-! DEFINITION. The word types of the KQ-7200 and their plainest arithmetic (00 R8: registers are 32 or 64 bits,
little-endian, bit 0 the least significant). -/

namespace Sys2Proof

/-- A 64-bit word: a scalar register, an instruction word, a 64-bit device register. -/
abbrev Word := BitVec 64

/-- A byte of scratchpad, of basin memory or of an item. -/
abbrev Byte := BitVec 8

/-- Bits `hi` down to `lo` of a natural number, as an unsigned integer (R14: x[h:l]). -/
def bits (v hi lo : Nat) : Nat := (v >>> lo) % 2 ^ (hi + 1 - lo)

/-- Bit `i` of a natural number. -/
def bit (v i : Nat) : Bool := v.testBit i

/-- `v` with bits `hi` down to `lo` replaced by the low bits of `f`. -/
def putBits (v hi lo f : Nat) : Nat :=
  v - (bits v hi lo) * 2 ^ lo + (f % 2 ^ (hi + 1 - lo)) * 2 ^ lo

/-- Saturating addition: a count of `w` bits that stays at its largest value. -/
def satAdd (w v n : Nat) : Nat := min (2 ^ w - 1) (v + n)

/-- The bytes of a number, least significant first. -/
def leBytes : Nat → Nat → List Byte
  | 0, _ => []
  | n + 1, v => BitVec.ofNat 8 v :: leBytes n (v / 256)

/-- The number that bytes spell, least significant first. -/
def leNat : List Byte → Nat
  | [] => 0
  | b :: bs => b.toNat + 256 * leNat bs

/-- A 32-bit immediate read as a signed integer and widened to 64 bits (R95: sext(IMM)). -/
def sext32 (v : BitVec 32) : Word := v.signExtend 64

/-- Division rounded up. -/
def ceilDiv (a b : Nat) : Nat := (a + b - 1) / b

end Sys2Proof
end

