-- ==== Sys2Proof/Syntax.lean ====
section
/-! DEFINITION. The commands: one constructor of `Instr` for each row of spec/opcode_table.json, with its operands.
A command is what reaches the block from outside (a host access, a packet, a sensor sample, an instruction that a
stream presents) or an event of its own units (a completion, a limit that ends); log 1 and log 3. -/

namespace Sys2Proof

/-- The two streams of a core (03 R58). -/
inductive Strm where
  | a | x
  deriving DecidableEq, Repr

/-- The words of an instruction (04, first paragraph). Words beyond the count `wc + 1` do not exist and are never read. -/
structure Insn where
  w0 : Word := 0
  w1 : Word := 0
  w2 : Word := 0
  w3 : Word := 0
  deriving DecidableEq, Repr

/-! The fields of word 0 (04 R94). -/

/-- IMM, bits [63:32]. -/
def Insn.imm (i : Insn) : BitVec 32 := i.w0.extractLsb' 32 32
/-- OPT, bits [31:28]. -/
def Insn.opt (i : Insn) : BitVec 4 := i.w0.extractLsb' 28 4
/-- RB, bits [27:24]. -/
def Insn.rb (i : Insn) : BitVec 4 := i.w0.extractLsb' 24 4
/-- RA, bits [23:20]. -/
def Insn.ra (i : Insn) : BitVec 4 := i.w0.extractLsb' 20 4
/-- RD, bits [19:16]. -/
def Insn.rd (i : Insn) : BitVec 4 := i.w0.extractLsb' 16 4
/-- FLG, bits [15:11]. -/
def Insn.flg (i : Insn) : BitVec 5 := i.w0.extractLsb' 11 5
/-- FE, bit [10]. -/
def Insn.fe (i : Insn) : Bool := i.w0.getLsbD 10
/-- WC, bits [9:8]: the number of words less one. -/
def Insn.wc (i : Insn) : BitVec 2 := i.w0.extractLsb' 8 2
/-- OPCODE, bits [7:0]. -/
def Insn.opcode (i : Insn) : Nat := (i.w0.extractLsb' 0 8).toNat

/-- The instruction whose word 0 holds the given fields (04 R94). -/
def Insn.of (opcode : BitVec 8) (imm : BitVec 32 := 0) (opt rb ra rd : BitVec 4 := 0) (flg : BitVec 5 := 0) (fe : Bool := false)
    (wc : BitVec 2 := 0) (w1 w2 w3 : Word := 0) : Insn :=
  { w0 := imm ++ opt ++ rb ++ ra ++ rd ++ flg ++ BitVec.ofBool fe ++ wc ++ opcode, w1 := w1, w2 := w2, w3 := w3 }

/-- Whether the opcode map gives an opcode (04 R101). -/
def opcodeDefined (n : Nat) : Bool :=
  decide (n ≤ 0x0C) || (decide (0x10 ≤ n) && decide (n ≤ 0x1C)) || (decide (0x20 ≤ n) && decide (n ≤ 0x24)) ||
    (decide (0x30 ≤ n) && decide (n ≤ 0x32)) || (decide (0x40 ≤ n) && decide (n ≤ 0x49))

/-- Whether a stream can present the words as the instruction of opcode `n`: they hold it, or an opcode that the map does not
give, which halts the core whatever instruction it is taken for (04 R101; log 16). -/
def Insn.presents (i : Insn) (n : Nat) : Bool := decide (i.opcode = n) || !opcodeDefined i.opcode

/-- Where a fault strikes a residue-checked operation (05 R166, R167): the value that a stage of it forms, the exponent and sign
path, or, in an accumulator cell, the value stored beside its residue. -/
inductive ResStage where
  | stored | multiply | shift | add | round | saturate | exponent
  deriving DecidableEq, Repr

/-- A fault in an arithmetic unit (05 R169): it changes by `delta` what stage `stage` of operation `index` forms. Which
operations a command numbers, and how, its definition says. -/
structure Upset where
  index : Nat
  stage : ResStage
  delta : Int
  deriving DecidableEq, Repr

/-- A stored error that SECDED finds in a 64-bit scratchpad word during a command's reads (03 R67). -/
structure EccHit where
  core : Nat
  addr : Nat
  double : Bool
  deriving DecidableEq, Repr

/-- An instruction that a stream presents for issue: the core's device position 64·y + x (02 R29), the stream and
the words; `ecc` are the stored errors its scratchpad reads meet. -/
structure Issue where
  core : Nat
  strm : Strm
  insn : Insn
  ecc : List EccHit := []
  deriving DecidableEq, Repr

/-- What one core's part of a basin image gives (03 R65, R76; 11 R327). -/
structure CoreImage where
  index : Nat
  base : Nat
  size : Nat
  entryA : Nat
  entryX : Nat
  ring0 : Word := 0
  ring1 : Word := 0
  data : List (Nat × Byte) := []
  deriving DecidableEq, Repr

/-- A resume record of an image, or a checkpoint record of the device, for one core (02 R46, 11 R328). -/
structure CkptRec where
  index : Nat
  aPc : Nat
  xPc : Nat
  aRegs : List (Nat × Word)
  xRegs : List (Nat × Word)
  aTags : BitVec 16
  xTags : BitVec 16
  flags : BitVec 32
  seed : Word
  xstat : Bool
  deriving DecidableEq, Repr

/-- The payload of a basin image as the loader reads it (log 8: the header's layout is 15 R415's, the payload's is
not given): the rectangle it was placed for, the cores' regions and data, and the tables. -/
structure Image where
  col : Nat
  row : Nat
  width : Nat
  height : Nat
  cores : List CoreImage := []
  blocks : List (Word × Word) := []
  gradHeader : Word := 0
  grads : List (Nat × Word) := []
  whsHeader : List Word := []
  whsScheds : List (Nat × List Word) := []
  whsLayers : List (Nat × List Word) := []
  colls : List (List Word) := []
  schedHeader : Word := 0
  segs : List (Nat × (Word × Word)) := []
  lanes : List (Nat × (Word × Word)) := []
  slots : List (Nat × (Nat × Word)) := []
  resumeSeq : Option Nat := none
  resume : List CkptRec := []
  deriving DecidableEq, Repr

/-- The command block of a keyed command but its OPCODE (15 R428). -/
structure KBlock where
  basin : BitVec 8 := 0
  rsv : BitVec 48 := 0
  counter : BitVec 64 := 0
  payload : BitVec 1024 := 0
  tag : BitVec 384 := 0
  tail : BitVec 512 := 0
  deriving DecidableEq, Repr

/-- The function through which host software acts (11 R318). -/
inductive HostFn where
  | pf0
  | vf (b : Nat)
  deriving DecidableEq, Repr

/-- How an SPDM message reaches the responder: a function's DOE mailbox, or MCTP over I3C (15 R440; 17 R471). -/
inductive SpdmPort where
  | doe (fn : HostFn)
  | mctp
  deriving DecidableEq, Repr

/-- A port of a core's scratchpad (03 R62), in the order of their priorities; the fetch port with its stream. -/
inductive SpPort where
  | landing | launch | array | vector | spill
  | fetch (st : Strm)
  deriving DecidableEq, Repr

/-- An access that a port presents to the scratchpad in cc `cc` (0 or 1) of a lattice cycle, to the 64-byte block of `addr`
(03 R61, R62). -/
structure SpAccess where
  core : Nat
  cc : Nat
  port : SpPort
  addr : Nat
  deriving DecidableEq, Repr

/-- What one lattice cycle meets (14 R390, R391; 07 R228): the failed seam flits as (row, eastbound) pairs, the failed link words
as (router, double) pairs at landing, faults in the operations of adder buffers, the stored errors that its reads meet, and
the accesses that the cores' ports present in its two cc (03 R62; log 73). -/
structure SlotEnv where
  seamFail : List (Nat × Bool) := []
  linkErr : List (Nat × Bool) := []
  adderFault : List (Nat × Nat × Upset) := []
  ecc : List EccHit := []
  accesses : List SpAccess := []
  deriving DecidableEq, Repr

/-- How reads of stacks go (09 R265, R266): the 64-byte blocks, counted from the first that the command reads, whose PHY CRC
mismatches, with how often (3 delivers poison), and those that are corrected or uncorrectable. -/
structure ReadEnv where
  crc : List (Nat × Nat) := []
  corrected : List Nat := []
  uncorrectable : List Nat := []
  deriving DecidableEq, Repr

/-- Whose host-tier request a host answer is for (09 R287): a barge's, or that of the tier engine's move, a Whetstone engine, the
collective engine or host software for a page. -/
inductive TierWho where
  | barge (core id : Nat)
  | engine
  deriving DecidableEq, Repr

/-- A read of a queue's ring words for its stage (03 R78), with the stored errors that it meets (R67). -/
structure StageRead where
  queue : Nat
  ecc : List EccHit := []
  deriving DecidableEq, Repr

/-- What happens while an array operation completes: a fault that strikes it (05 R169), and the stored errors that its reads meet (03
R67). -/
structure UnitEvents where
  fault : Option Upset := none
  ecc : List EccHit := []
  deriving DecidableEq, Repr

/-- A write grant of a unit (07 R219), with how the reads of the blocks that the write covers in part go (09 R262). -/
structure PortGrant where
  unit : Nat
  env : ReadEnv := {}
  deriving DecidableEq, Repr

/-- A written block of a stack (09 R265): 32,768·frame + block within the frame. -/
structure StackBlock where
  stack : Nat
  block : Nat
  deriving DecidableEq, Repr

/-- Who calls for a retraining of a stack (09 R271): host software, or the firmware. -/
structure RetrainCall where
  stack : Nat
  firmware : Bool := false
  deriving DecidableEq, Repr

/-- A host-tier request: its page and whose it is (09 R287). -/
structure TierReq where
  page : Nat
  who : TierWho
  deriving DecidableEq, Repr

/-- What happens to a chunk's computation: a fault in the repeat (05 R169; 10 R311), and how the reads of its inputs go (09 R265, R266). -/
structure ChunkEvents where
  fault : Option Upset := none
  env : ReadEnv := {}
  deriving DecidableEq, Repr

/-- A host read of `len` bytes, and how its stack reads (09 R265, R266). -/
structure HostRead where
  len : Nat
  env : ReadEnv := {}
  deriving DecidableEq, Repr

/-- A host write's poison (11 R321), and how the reads of the blocks that it covers in part go (09 R262). -/
structure HostWriteEvents where
  poison : Bool := false
  env : ReadEnv := {}
  deriving DecidableEq, Repr

/-- What the security block and the ROM find at power-on (15 R413, R418, R443): the outcome of the self-test, and the copies of the slot
directory whose CRC fails. -/
structure RomChecks where
  selfTestOk : Bool
  badDir0 : Bool := false
  badDir1 : Bool := false
  deriving DecidableEq, Repr

/-- Limits that the firmware sets itself, tighter than those of the hardware (01 R17; 13 R374, R376): ILIM in A, EMERG and TRIP
in °C. -/
structure FwLimits where
  ilim : Option Nat := none
  emerg : Option Nat := none
  trip : Option Nat := none
  deriving DecidableEq, Repr

/-- How the host answers a host-tier request (09 R287): `lines` are the page's 64-byte lines that it marks poisoned, `lost`
those that it no longer returns after an error (R288). -/
inductive HostAnswer where
  | data
  | poisoned (lines : List Nat)
  | error (lost : List Nat)
  deriving DecidableEq, Repr

/-- A received RoCEv2 write packet (12 R351). -/
structure RdmaPkt where
  group : Nat
  qpn : Nat
  psn : Nat
  rkey : Nat
  offset : Nat
  payload : List Byte
  ce : Bool := false
  deriving DecidableEq, Repr

/-- A received Zynwin frame (12 R348): sequence number, whether its CRC holds, payload, poison bit per block, and the
queue pair its payload is for. -/
structure ZynFrame where
  group : Nat
  seq : Nat
  crcOk : Bool
  qpn : Nat
  payload : List Byte
  poison : List Nat := []
  deriving DecidableEq, Repr

/-- The outcome of a Quarry pair test with its retests (14 R392, R394): the failing phase (0 none), whether each core
differs from the third, and the residue units (1 array, 2 vector, 3 adder) that failed during the test. -/
structure QuarryResult where
  coreA : Nat
  coreB : Nat
  failPhase : Nat := 0
  aDiffers : Bool := false
  bDiffers : Bool := false
  residue : List (Nat × Nat) := []
  deriving DecidableEq, Repr

/-- How a host access reaches basin memory (11 R321). -/
inductive MemPath where
  | cxlMem | bar4
  deriving DecidableEq, Repr

/-- The sensors of PLDM (17 R471). -/
inductive Sensor where
  | tjD0 | tjD1
  | stack (s : Nat)
  | vin | iin | pin1s
  | powerLatch | thermalLatch | thermN | faultN
  deriving DecidableEq, Repr

/-- The MCTP control messages of endpoint discovery and identification (17 R471). -/
inductive MctpControl where
  | setEndpointId (eid : BitVec 8)
  | getEndpointId
  | discovery
  deriving DecidableEq, Repr

/-- The commands of the block, one for each row of spec/opcode_table.json, in the table's order. -/
inductive Instr where
  -- scalar and control instructions (04 R106 to R117)
  | nop (i : Issue)
  | halt (i : Issue)
  | br (i : Issue)
  | brc (i : Issue)
  | loop (i : Issue)
  | fence (i : Issue)
  | fenceRelease (core : Nat) (st : Strm)
  | sluice (i : Issue)
  | qpush (i : Issue)
  | qpop (i : Issue)
  | queueStallRelease (core : Nat) (st : Strm)
  | queueStageRefill (core : Nat) (read : StageRead)
  | waitf (i : Issue)
  | waitfSatisfied (core : Nat) (st : Strm)
  | setf (i : Issue)
  | movs (i : Issue)
  | movsw (i : Issue)
  | add (i : Issue)
  | sub (i : Issue)
  | mul (i : Issue)
  | and (i : Issue)
  | or (i : Issue)
  | xor (i : Issue)
  | shl (i : Issue)
  | shr (i : Issue)
  | sra (i : Issue)
  | min (i : Issue)
  | max (i : Issue)
  | movi (i : Issue)
  | movhi (i : Issue)
  -- barge group
  | brg (i : Issue)
  | brgt (i : Issue)
  | put (i : Issue)
  | reds (i : Issue)
  | bcan (i : Issue)
  -- arrays
  | oparm (i : Issue)
  | opstr (i : Issue) (fault : Option Upset)
  | opdrn (i : Issue)
  -- vector unit
  | vadd (i : Issue)
  | vmul (i : Issue)
  | vfma (i : Issue)
  | vexp (i : Issue)
  | vrsq (i : Issue)
  | vmax (i : Issue)
  | vcvt (i : Issue)
  | vred (i : Issue)
  | vldx (i : Issue)
  | vstx (i : Issue)
  -- completions
  | opstrComplete (core : Nat) (events : UnitEvents)
  | opdrnComplete (core : Nat) (fault : Option Upset) (ecc : List EccHit)
  | vectorComplete (core : Nat) (fault : Option Upset) (ecc : List EccHit)
  | bargeComplete (core id : Nat)
  -- the run of a basin
  | restartResume (basin : Nat)
  | mutualWait (core : Nat)
  | sluiceReady (core : Nat)
  | sluiceComplete (basin : Nat)
  | segmentStart (basin : Nat)
  | sluiceTimeout (basin : Nat)
  | latticeSlot (env : SlotEnv)
  | overtimeStart (basin : Nat)
  | slotOverrun (basin : Nat)
  -- memory ports, stacks and tiers
  | mempRequest (unit : Nat)
  | mergeWindowExpiry (port held : Nat)
  | mempReadData (unit : Nat) (env : ReadEnv)
  | mempWriteGrant (grant : PortGrant)
  | hbmWriteCrcFail (place : StackBlock)
  | stackRetrain (call : RetrainCall)
  | stackRetrainDone (stack : Nat)
  | stackRetrainTimeout (stack : Nat)
  | stackRetire (stack : Nat)
  | stackDrained (stack : Nat)
  | stackRetired (stack : Nat)
  | weirReading (stack temp : Nat)
  | patrolScrub (frame : Nat) (crc : List (Nat × Nat)) (corrected uncorrectable : List Nat)
  | tileCopyDone (move : Nat) (env : ReadEnv)
  | reclaim
  | homingMove (basin page : Nat)
  | frameWaitDone (basin page : Nat)
  | hostTierResponse (basin : Nat) (req : TierReq) (answer : HostAnswer)
  | hostTierTimeout (basin : Nat) (req : TierReq) (lost : List Nat)
  | bargeResume (core id : Nat)
  -- Whetstone engines
  | whetstoneChunk (engine : Nat) (firstFails repeatFails : Bool) (events : ChunkEvents)
  | trustNormCombine (basin layer : Nat)
  -- keyed commands and the binder
  | bind (k : KBlock)
  | rebind (k : KBlock)
  | unbind (k : KBlock)
  | keyedFence (k : KBlock)
  | fwActivate (k : KBlock)
  | keyRotate (k : KBlock)
  | debugUnlock (k : KBlock)
  | zeroize (k : KBlock)
  | binderCompletion (basin : Nat)
  | parkReq (basin : Nat)
  -- host interface
  | launch (basin : Nat) (img : Option Image)
  | resume (basin : Nat) (img : Option Image)
  | launchStart (basin : Nat)
  | bsnLscaleWrite (basin : Nat) (v : BitVec 32)
  | hostMemRead (path : MemPath) (addr : Nat) (read : HostRead)
  | hostMemWrite (path : MemPath) (addr : Nat) (data : List Byte) (events : HostWriteEvents)
  | hostSnoop (line : Nat)
  | biasChange (basin : Nat) (v : Word)
  | biasChangeDone (basin : Nat)
  | ifDeclare (v : BitVec 32)
  | vfFlr (basin : Nat)
  | pf0Flr
  | perstN
  | ideFail
  | tpOutItemRead (basin queue off len : Nat)
  | tpInItemWrite (basin queue off : Nat) (data : List Byte) (ep : Bool)
  | tpInBulkWrite (basin queue slot off : Nat) (data : List Byte) (ep : Bool)
  | advance (basin slot count : Nat)
  | flush (basin slot : Nat)
  | tpCtrlWrite (basin slot : Nat) (v : Word)
  | tpIdleTimeout (basin slot : Nat)
  | tpPtrMismatch (basin slot : Nat)
  | msixUnmask (fn : HostFn) (vector : Nat)
  -- Ethernet
  | ethGroupCtrlWrite (group : Nat) (v : BitVec 32)
  | recal (group : Nat)
  | recalDone (group : Nat)
  | ethLinkNegotiation (group : Nat) (supported : Bool)
  | rdmaWrite (p : RdmaPkt)
  | rdmaWriteImm (p : RdmaPkt) (imm : BitVec 32)
  | ack (qpn psn : Nat)
  | psnSequenceNak (qpn psn : Nat)
  | remoteAccessNak (qpn : Nat)
  | cnpRx (qpn : Nat)
  | pauseFrameRx (group prio : Nat) (pause : Bool)
  | frameDropped (group : Nat)
  | ackTimeout (qpn : Nat)
  | rateIncrease (qpn : Nat)
  | zynwinFrameRx (f : ZynFrame)
  | zynwinReplayRequest (group seq : Nat)
  | zynwinRetrainEnd (group : Nat) (ok : Bool)
  | qpWrite (qset q : Nat) (v : Word)
  | collectiveComplete (basin entry : Nat)
  -- power and clocks
  | powerSample (vin iin : Nat)
  | ilimRecheck
  | powerLimitStep
  | gateRelax
  | junctionReading (d0 d1 : Option Nat)
  | latchClear (thermal : Bool)
  | powerManagerEval (want : Nat × Nat) (limits : FwLimits)
  | clockStepUpDone (die : Nat)
  | dieStepReunion
  | refclkLost
  | refclkHoldoverExpiry
  | refclkReturn
  | watchdogRecovery (component cause : Nat)
  | mgmtRecoveryClassify
  | pwrCapWrite (v : BitVec 32)
  | pwrTjWrite (v : Word)
  | mempWeirThWrite (v : BitVec 32)
  | tierHostExtWrite (entry : Nat) (limit : Bool) (v : Word)
  | quarryDomainOff
  | powerOnResetExit (recoveryStrap : Bool) (rom : RomChecks)
  | powerUpReady
  | pwrgoodFall
  | activationReady
  | activationFallback
  | poweredTimeSave
  -- reliability
  | quarryDue (core : Nat)
  | quarryTestDone (r : QuarryResult)
  | quarryOverdue (basin : Nat)
  | shadowCompare (core : Nat) (first second : Option Upset)
  | errConsumedWrite (v : BitVec 32)
  -- firmware update and security
  | fwuStart
  | fwuBlock (v : Word)
  | fwuBlockDone (flashOk : Bool)
  | fwuVerify
  | fwuVerifyDone
  | fwuAbort
  | recoverBoot
  | newNonce
  | nonceExpiry
  | debugLock
  | fipsError
  | setCmdKey (port : SpdmPort) (secured : Bool) (vendor : BitVec 16) (payload : List Byte)
  | getMeasurements (port : SpdmPort) (index : Nat)
  | getCertificate (port : SpdmPort) (slot : Nat)
  | challenge (port : SpdmPort) (nonce : BitVec 256)
  | keyExchange (port : SpdmPort) (exchange : BitVec 768)
  | pldmSensorRead (sensor : Sensor)
  | sensorRefresh
  -- counters
  | pmcSnapshot
  | pmcRecordWritten
  | pmcCtrlWrite (v : Word)
  | rdOffWrite (v : BitVec 32)
  | registerWrite (fn : HostFn) (off : Nat) (wide : Bool) (v : Word)
  -- pins, link and sideband
  | vioMgtLoss
  | perstNDeassert (cxl : Bool) (width rate : Nat)
  | cxlLinkRetrain (width rate : Nat)
  | ethLinkLoss (group : Nat)
  | ideKmKeyProg (port : SpdmPort) (secured : Bool)
  | spdmKeyUpdate (port : SpdmPort)
  | i3cDynamicAddress (addr : BitVec 7)
  | mctpControlRequest (m : MctpControl)
  | jtagTapOperation (tms tdi : Bool)
  | recoveryGapEnd
  deriving DecidableEq, Repr

end Sys2Proof
end

