-- ==== Sys2Proof/Config.lean ====
section
/-! DEFINITION. What an implementation fixes, and the free values: constants without a body, so that no proof can see
a value of them. Each is named in the assumption log (notes/assumptions). -/

namespace Sys2Proof.Config

/-- FREE VALUE (log 6): the `n`-th value of `w` bits that the spec leaves open where a command meets it. -/
opaque freeBits : (w : Nat) → Nat → BitVec w

/-- FREE VALUE (log 11): which of the admissible FP32 results VEXP gives for an input (05 R174: a fixed function of
the input, the same in every core, within one unit in the last place). -/
opaque vexpPick : BitVec 32 → Nat

/-- FREE VALUE (log 11): which of the admissible FP32 results VRSQ gives for an input (05 R174). -/
opaque vrsqPick : BitVec 32 → Nat

/-- FREE VALUE (log 12): which of the values about 1 − β^u the "one fixed routine" of 10 R298 gives in FP64, for the FP32 bits of β and
for u. -/
opaque powerPick : BitVec 32 → Nat → Nat

/-- FREE VALUE (log 12): which of the values about cos(π·v/PERIOD) the "one fixed cosine routine" of 10 R306 gives in FP64. -/
opaque cosPick : Nat → Nat → Nat

/-- FREE VALUE (log 89): the cells, by key and value, that collection `i` of a basin holds after the `n`-th undefined behaviour (00 R15). -/
opaque freeCells : Nat → Nat → List (Nat × Nat)

/-- FREE VALUE (log 83): what the `n`-th read that the collective engine makes of a basin's memory meets: the mismatches of its blocks on
the PHY link, its corrected blocks and its uncorrectable ones (09 R265, R266). -/
opaque collRead : Nat → List (Nat × Nat) × List Nat × List Nat

/-- FREE VALUE (log 93): the faults that strike the `n`-th addition of a partial by a collective engine, each with the one that strikes its
repetition; an operation is an element (14 R390). -/
opaque channelFaults : Nat → List (Upset × Option Upset)

/-- FREE VALUE (log 13): the fixed 16-bit hash of the basin core index and the pass number (14 R398). -/
opaque shadowHash : Nat → Nat → BitVec 16

/-- CONSTANT (log 9): SHA-384 of the vendor firmware public key, in OTP (15 R414). -/
opaque vendorFwKeyHash : BitVec 384

/-- CONSTANT (log 9): SHA-384 of the vendor debug public key, in OTP (15 R414). -/
opaque vendorDbgKeyHash : BitVec 384

/-- CONSTANT (log 9): the vendor debug public key of the flash, x then y (15 R436). -/
opaque vendorDbgKey : BitVec 768

/-- CONSTANT (log 9): the unique device secret, read by the security block only (15 R414). -/
opaque uds : BitVec 384

/-- CONSTANT (log 9): digest of the mask ROM, measurement 0x01 (15 R441). -/
opaque romDigest : BitVec 384

/-- CONSTANT (log 27): SHA-384 of bytes 0x000 to 0x15F of the header of the firmware image of manufacture (15 R441). -/
opaque factoryHeader : BitVec 384

/-- FREE VALUE (log 9): the private key of the P-384 key pair that a derived secret gives (15 R439 names the secret and the curve). -/
opaque ecScalar : List Byte → Nat

/-- FREE VALUE (log 9): what the `n`-th SPDM answer holds beyond the bytes that the spec gives, a signature by a private key over them
among it (15 R440, R441). -/
opaque spdmSigned : Nat → List Byte → Nat → List Byte

/-- FREE VALUE (log 9): the certificates of the vendor root, the vendor intermediate and a DeviceID key, in DER, of the flash (15 R439,
R440). -/
opaque vendorChain : List Byte → List Byte

/-- FREE VALUE (log 9): the certificate of a public alias key with its measurements, signed by a DeviceID key, in DER (15 R439). -/
opaque aliasCert : Nat → List Byte → List Byte → List Byte

/-- CONSTANT (log 9): vendor ID that PF0 reports at offset 0 of its configuration space (15 R434). -/
opaque vendorId : BitVec 16

/-- FREE VALUE (log 9): the `n`-th 48 bytes that the DRBG gives for a debug nonce (15 R436, R442). -/
opaque nonce : Nat → BitVec 384

/-- FREE VALUE (log 24): bytes of the receive region of a queue pair, which 12 R351 names and does not give. -/
opaque recvRegion : Nat → Nat

end Sys2Proof.Config
end

