-- ==== Sys2Proof/Machine/Float.lean ====
section
/-! DEFINITION. The number formats of the KQ-7200 and their arithmetic (05 R147 to R161, R173, R174): every element is
decoded exactly to a dyadic number, operations are exact, and one rounding ends each of them. -/

namespace Sys2Proof.Machine

/-- A decoded value: NaN, an infinity, or (−1)^neg · m · 2^e exactly (a zero keeps its sign). -/
inductive FVal where
  | nan
  | inf (neg : Bool)
  | fin (neg : Bool) (m : Nat) (e : Int)
  deriving DecidableEq, Repr

/-- A floating-point format (05 R147, R149): exponent and mantissa bits, bias, largest finite pattern, the pattern of
infinity where there is one, and the NaN that the device produces. -/
structure FFmt where
  ebits : Nat
  mbits : Nat
  bias : Nat
  maxPat : Nat
  infPat : Option Nat
  nanPat : Nat
  deriving DecidableEq, Repr

def fp32 : FFmt := ⟨8, 23, 127, 0x7F7FFFFF, some 0x7F800000, 0x7FC00000⟩
def bf16 : FFmt := ⟨8, 7, 127, 0x7F7F, some 0x7F80, 0x7FC0⟩
def fp16 : FFmt := ⟨5, 10, 15, 0x7BFF, some 0x7C00, 0x7E00⟩
def e4m3 : FFmt := ⟨4, 3, 7, 0x7E, none, 0x7F⟩
def e5m2 : FFmt := ⟨5, 2, 15, 0x7B, some 0x7C, 0x7E⟩
def e3m2 : FFmt := ⟨3, 2, 3, 0x1F, none, 0x1F⟩
def e2m3 : FFmt := ⟨2, 3, 1, 0x1F, none, 0x1F⟩
def e2m1 : FFmt := ⟨2, 1, 1, 0x7, none, 0x7⟩
def fp64 : FFmt := ⟨11, 52, 1023, 0x7FEFFFFFFFFFFFFF, some 0x7FF0000000000000, 0x7FF8000000000000⟩

/-- The width of a format in bits. -/
def FFmt.width (f : FFmt) : Nat := 1 + f.ebits + f.mbits

/-- Decodes an element (05 R148, R149). Patterns above the largest finite one are infinity or NaN. -/
def FFmt.decode (f : FFmt) (v : Nat) : FVal :=
  let neg := v.testBit (f.ebits + f.mbits)
  let mag := v % 2 ^ (f.ebits + f.mbits)
  if f.maxPat < mag then
    if f.infPat = some mag then .inf neg else .nan
  else
    let e := mag / 2 ^ f.mbits
    let m := mag % 2 ^ f.mbits
    if e = 0 then .fin neg m (1 - (f.bias : Int) - f.mbits)
    else .fin neg (2 ^ f.mbits + m) ((e : Int) - f.bias - f.mbits)

/-- The exponent of the destination spacing at the magnitude m · 2^e (05 R151, R154). -/
def FFmt.spacing (f : FFmt) (m : Nat) (e : Int) : Int :=
  max ((Nat.log2 m : Int) + e) (1 - (f.bias : Int)) - f.mbits

/-- The multiples of 2^u in m · 2^e: the quotient, the discarded part, and the power of two that scales it. -/
def splitAt (m : Nat) (e u : Int) : Nat × Nat × Nat :=
  if u ≤ e then (m * 2 ^ (e - u).toNat, 0, 0)
  else (m / 2 ^ (u - e).toNat, m % 2 ^ (u - e).toNat, (u - e).toNat)

/-- The pattern of q multiples of the spacing 2^u (a carry into the next binade falls out of the addition). -/
def FFmt.pattern (f : FFmt) (q : Nat) (u : Int) : Nat :=
  q + ((u + f.mbits + f.bias).toNat - 1) * 2 ^ f.mbits

/-- The sign bit of a format. -/
def FFmt.signBit (f : FFmt) (neg : Bool) : Nat := if neg then 2 ^ (f.ebits + f.mbits) else 0

/-- The overflow rule after rounding: infinity, or the largest finite value where the format has none (05 R151). -/
def FFmt.clamp (f : FFmt) (pat : Nat) : Nat := if f.maxPat < pat then f.infPat.getD f.maxPat else pat

/-- An infinity in the format: E4M3 gives NaN (05 R151). -/
def FFmt.encodeInf (f : FFmt) (neg : Bool) : Nat :=
  match f.infPat with
  | some p => f.signBit neg + p
  | none => f.nanPat

/-- The magnitude pattern of m · 2^e rounded to nearest, ties to even, before the overflow rule (05 R151). -/
def FFmt.nearest (f : FFmt) (m : Nat) (e : Int) : Nat :=
  let u := f.spacing m e
  let (q, r, d) := splitAt m e u
  let up := decide (2 ^ d < 2 * r) || (decide (d ≠ 0) && decide (2 * r = 2 ^ d) && decide (q % 2 = 1))
  f.pattern (if up then q + 1 else q) u

/-- The same rounded stochastically with the 16-bit draw `r` (05 R154). -/
def FFmt.drawn (f : FFmt) (r m : Nat) (e : Int) : Nat :=
  let u := f.spacing m e
  let (q, rest, d) := splitAt m e u
  f.pattern (if 65536 ≤ rest * 65536 / 2 ^ d + r then q + 1 else q) u

/-- Round to nearest, ties to even (05 R151, R152). -/
def FFmt.encode (f : FFmt) : FVal → Nat
  | .nan => f.nanPat
  | .inf neg => f.encodeInf neg
  | .fin neg m e => if m = 0 then f.signBit neg else f.signBit neg + f.clamp (f.nearest m e)

/-- Stochastic rounding with the 16-bit draw `r` (05 R154). -/
def FFmt.encodeStoch (f : FFmt) (r : Nat) : FVal → Nat
  | .nan => f.nanPat
  | .inf neg => f.encodeInf neg
  | .fin neg m e => if m = 0 then f.signBit neg else f.signBit neg + f.clamp (f.drawn r m e)

/-- Whether a finite value lies beyond the range after rounding, to nearest or with a draw (05 R151). -/
def FFmt.overflows (f : FFmt) (draw : Option Nat) : FVal → Bool
  | .fin _ m e =>
    decide (m ≠ 0) && decide (f.maxPat < match draw with | some r => f.drawn r m e | none => f.nearest m e)
  | _ => false

/-- The signed integer multiple of 2^e, for e at most the value's own exponent. -/
def toInt (neg : Bool) (m : Nat) (e' e : Int) : Int :=
  let v : Int := (m * 2 ^ (e' - e).toNat : Nat)
  if neg then -v else v

/-- The exact product (05 R157). -/
def FVal.mul : FVal → FVal → FVal
  | .nan, _ | _, .nan => .nan
  | .inf a, .inf b => .inf (a != b)
  | .inf a, .fin b m _ => if m = 0 then .nan else .inf (a != b)
  | .fin a m _, .inf b => if m = 0 then .nan else .inf (a != b)
  | .fin a m e, .fin b n d => .fin (a != b) (m * n) (e + d)

/-- The exact sum; an exact zero is +0 unless both addends are −0 (05 R157). -/
def FVal.add : FVal → FVal → FVal
  | .nan, _ | _, .nan => .nan
  | .inf a, .inf b => if a = b then .inf a else .nan
  | .inf a, _ => .inf a
  | _, .inf b => .inf b
  | .fin a m e, .fin b n d =>
    let lo := min e d
    let v := toInt a m e lo + toInt b n d lo
    if v = 0 then .fin (a && b && decide (m = 0) && decide (n = 0)) 0 0
    else .fin (decide (v < 0)) v.natAbs lo

/-- The value with its sign changed. -/
def FVal.neg : FVal → FVal
  | .nan => .nan
  | .inf a => .inf (!a)
  | .fin a m e => .fin (!a) m e

/-- The value times 2^k, exactly. -/
def FVal.scale (k : Int) : FVal → FVal
  | .fin a m e => .fin a m (e + k)
  | v => v

/-- The magnitude. -/
def FVal.abs : FVal → FVal
  | .nan => .nan
  | .inf _ => .inf false
  | .fin _ m e => .fin false m e

/-- The quotient with 80 bits and a sticky bit: correctly rounded once encoded in any format here. -/
def FVal.div : FVal → FVal → FVal
  | .nan, _ | _, .nan => .nan
  | .inf _, .inf _ => .nan
  | .inf a, .fin b _ _ => .inf (a != b)
  | .fin a _ _, .inf b => .fin (a != b) 0 0
  | .fin a m e, .fin b n d =>
    if n = 0 then (if m = 0 then .nan else .inf (a != b))
    else
      let k := 80 + Nat.log2 n
      let q := m * 2 ^ k / n
      let s := if m * 2 ^ k % n = 0 then 0 else 1
      .fin (a != b) (2 * q + s) (e - d - k - 1)

/-- Integer square root by bits, `k` bits from the top. -/
def isqrtGo (n : Nat) : Nat → Nat → Nat
  | 0, acc => acc
  | k + 1, acc =>
    let c := acc + 2 ^ k
    isqrtGo n k (if c * c ≤ n then c else acc)

/-- The integer square root, rounded down. -/
def isqrt (n : Nat) : Nat := isqrtGo n (Nat.log2 n / 2 + 1) 0

/-- The square root with a sticky bit; negative values give NaN, −0 itself. -/
def FVal.sqrt : FVal → FVal
  | .nan => .nan
  | .inf a => if a then .nan else .inf false
  | .fin a m e =>
    if m = 0 then .fin a 0 0
    else if a then .nan
    else
      let odd := decide (e % 2 ≠ 0)
      let m' := if odd then 2 * m else m
      let e' := if odd then e - 1 else e
      let n := m' * 2 ^ 160
      let q := isqrt n
      let s := if q * q = n then 0 else 1
      .fin false (2 * q + s) (e' / 2 - 80 - 1)

/-- Rounds a value once to FP32 and decodes it again (05 R130: round_fp32). -/
def FVal.toFp32 (v : FVal) : FVal := fp32.decode (fp32.encode v)

/-- Rounds once to FP64 and decodes it again. -/
def FVal.toFp64 (v : FVal) : FVal := fp64.decode (fp64.encode v)

/-- The order of finite values and infinities, −0 below +0 (05 R173). -/
def FVal.lt : FVal → FVal → Bool
  | .nan, _ | _, .nan => false
  | .inf a, .inf b => a && !b
  | .inf a, .fin _ _ _ => a
  | .fin _ _ _, .inf b => !b
  | .fin a m e, .fin b n d =>
    let lo := min e d
    let v := toInt a m e lo
    let w := toInt b n d lo
    decide (v < w) || (decide (v = w) && a && !b && decide (m = 0) && decide (n = 0))

/-- VMAX's greater or lesser: NaN when either is (05 R173). -/
def FVal.maxMin (lesser : Bool) (a b : FVal) : FVal :=
  if a = .nan ∨ b = .nan then .nan
  else if lesser then (if FVal.lt b a then b else a) else (if FVal.lt a b then b else a)

/-- Whether a value is an infinity or NaN. -/
def FVal.special : FVal → Bool
  | .fin _ _ _ => false
  | _ => true

/-! ### VEXP and VRSQ (05 R173, R174) -/

/-- One of the patterns at and above `q` multiples of 2^u, as `pick` says. -/
def pickUlp (q : Nat) (u : Int) (pick : Nat) : Nat := fp32.clamp (fp32.pattern (q + pick % 2) u)

/-- e^x for x = n / 2^320 ≥ 0 below 1, as a multiple of 2^-320: sixteen Taylor terms, from the last. -/
def expTaylor (n : Nat) : Nat → Nat → Nat
  | 0, acc => acc
  | k + 1, acc => expTaylor n k (2 ^ 320 + acc * n / 2 ^ 320 / (k + 1))

/-- The square of a multiple of 2^-320, `k` times over. -/
def squareTimes : Nat → Nat → Nat
  | 0, v => v
  | k + 1, v => squareTimes k (v * v / 2 ^ 320)

/-- e^(m·2^e) as a multiple of 2^-320, by halving the argument sixteen times. -/
def expFixed (m : Nat) (e : Int) : Nat :=
  let x := if 0 ≤ e + 304 then m * 2 ^ (e + 304).toNat else m / 2 ^ (-(e + 304)).toNat
  squareTimes 16 (expTaylor x 40 (2 ^ 320))

/-- VEXP of FP32 bits: the special values of R173, else one of the two FP32 values within one unit in the last place
around e^a, as the free value says (log 11). -/
def vexpBits (v : Nat) : Nat :=
  match fp32.decode v with
  | .nan => fp32.nanPat
  | .inf neg => if neg then 0 else 0x7F800000
  | .fin neg m e =>
    if m = 0 then 0x3F800000
    else if !neg && FVal.lt (.fin false 887228 0) (FVal.mul (.fin false m e) (.fin false 10000 0)) then 0x7F800000
    else if neg && decide (8 ≤ (Nat.log2 m : Int) + e) then pickUlp 0 (-149) (Config.vexpPick (BitVec.ofNat 32 v))
    else
      let y := if neg then 2 ^ 640 / expFixed m e else expFixed m e
      let u := fp32.spacing y (-320)
      pickUlp (splitAt y (-320) u).1 u (Config.vexpPick (BitVec.ofNat 32 v))

/-- VRSQ of FP32 bits: the special values of R173, else one of the two FP32 values within one unit in the last place
around 1/√a, as the free value says (log 11). -/
def vrsqBits (v : Nat) : Nat :=
  match fp32.decode v with
  | .nan => fp32.nanPat
  | .inf neg => if neg then fp32.nanPat else 0
  | .fin neg m e =>
    if m = 0 then fp32.signBit neg + 0x7F800000
    else if neg then fp32.nanPat
    else
      let odd := decide (e % 2 ≠ 0)
      let m' := if odd then 2 * m else m
      let e' := if odd then e - 1 else e
      let q := isqrt (2 ^ 240 / m')
      let k := -120 - e' / 2
      let u := fp32.spacing q k
      pickUlp (splitAt q k u).1 u (Config.vrsqPick (BitVec.ofNat 32 v))

/-! ### W64 (05 R159 to R161) -/

/-- The INVALID encoding. -/
def w64Invalid : Nat := 0x8000000000000000

/-- The largest finite W64 magnitude. -/
def w64Max : Int := 2 ^ 63 - 1

/-- A W64 element as a signed integer. -/
def w64Int (v : Nat) : Int := if v < 2 ^ 63 then v else (v : Int) - 2 ^ 64

/-- The encoding of an integer in range. -/
def w64Enc (n : Int) : Nat := (n % 2 ^ 64).toNat

/-- Saturates to ±(2^63 − 1); the mark says whether it did. -/
def w64Sat (n : Int) : Nat × Bool :=
  if w64Max < n then (w64Enc w64Max, true) else if n < -w64Max then (w64Enc (-w64Max), true) else (w64Enc n, false)

/-- The W64 sum with its EXACT_OVF mark (05 R161). -/
def w64Add (a b : Nat) : Nat × Bool :=
  if a = w64Invalid ∨ b = w64Invalid then (w64Invalid, true) else w64Sat (w64Int a + w64Int b)

/-- m · 2^e rounded to an integer, ties to even. -/
def roundInt (m : Nat) (e : Int) : Nat :=
  let (q, r, d) := splitAt m e 0
  if decide (2 ^ d < 2 * r) || (decide (d ≠ 0) && decide (2 * r = 2 ^ d) && decide (q % 2 = 1)) then q + 1 else q

/-- Quantises a value to the window WEXP (05 R160). -/
def w64Quant (wexp : Nat) : FVal → Nat × Bool
  | .nan => (w64Invalid, true)
  | .inf neg => (w64Enc (if neg then -w64Max else w64Max), true)
  | .fin neg m e =>
    let q : Int := roundInt m (e - ((wexp : Int) - 127))
    w64Sat (if neg then -q else q)

/-- The value of a W64 element in its window (05 R159); INVALID has no numeric value and decodes as NaN. -/
def w64Val (wexp v : Nat) : FVal :=
  if v = w64Invalid then .nan
  else .fin (decide (w64Int v < 0)) (w64Int v).natAbs ((wexp : Int) - 127)

/-! ### Integers -/

/-- Two's complement integer of `w` bits as a value. -/
def intVal (w v : Nat) : FVal :=
  let n : Int := if v < 2 ^ (w - 1) then v else (v : Int) - 2 ^ w
  .fin (decide (n < 0)) n.natAbs 0

/-- Conversion to a two's complement integer of `w` bits, saturating; NaN gives 0 (05 R151). -/
def intEnc (w : Nat) : FVal → Nat
  | .nan => 0
  | .inf neg => if neg then 2 ^ (w - 1) else 2 ^ (w - 1) - 1
  | .fin neg m e =>
    let q := roundInt m e
    if neg then (if 2 ^ (w - 1) ≤ q then 2 ^ (w - 1) else (2 ^ w - q) % 2 ^ w) else min q (2 ^ (w - 1) - 1)

/-! ### The generators of stochastic rounding (05 R155) -/

/-- The restart state of a generator with constant `k`. -/
def genRestart (seed : Word) (ckptSeq : Nat) (k : Word) : Word :=
  let x := seed ^^^ (BitVec.ofNat 64 ckptSeq * 0x9E3779B97F4A7C15#64 ^^^ k)
  if x = 0 then 1 else x

/-- One draw: the next state; the draw is its bits 63 to 48. -/
def genStep (x : Word) : Word :=
  let x := x ^^^ (x <<< 13)
  let x := x ^^^ (x >>> 7)
  x ^^^ (x <<< 17)

/-- The draw that a state gives. -/
def genDraw (x : Word) : Nat := bits x.toNat 63 48

/-- The drain pipeline's generator constant. -/
def kDrain : Word := 0x5555555555555555#64

/-- The vector unit's generator constant. -/
def kVec : Word := 0xAAAAAAAAAAAAAAAA#64

end Sys2Proof.Machine
end

