-- ==== Sys2Proof/Machine/Residue.lean ====
section
/-! DEFINITION. Residue checking (05 R166 to R169): the residue modulo 31 of a significand and modulo 3 of an exponent, the
relations that the checks use, and what a fault of a given difference does to a checked operation. A fault is an operand of
the command in which it strikes (log 17). -/

namespace Sys2Proof.Machine

/-! ### Residues and relations -/

/-- res(x): x modulo 31 (05 R167). -/
def res31 (x : Int) : Nat := (x % 31).toNat

/-- The residue of the exponent and sign paths: x modulo 3 (05 R166). -/
def res3 (x : Int) : Nat := (x % 3).toNat

/-- Multiply: the residue of a product from its factors' (05 R167). -/
def resMul (a b : Nat) : Nat := a * b % 31

/-- Scale by 2^k, or shift left by k: 2^5 ≡ 1 modulo 31 (05 R167). -/
def resScale (r k : Nat) : Nat := r * 2 ^ (k % 5) % 31

/-- Add: the residue of a sum from its terms' (05 R167). -/
def resAdd (a b : Nat) : Nat := (a + b) % 31

/-- A checked step of an operation: the value that a stage forms, and the residue that its relation gives. A right shift checks
kept · 2^`up` + `rest`. -/
structure ResStep where
  stage : ResStage
  value : Int
  expect : Nat
  up : Nat := 0
  rest : Int := 0
  deriving DecidableEq, Repr

/-- Whether a step's check passes where a fault has changed its value by `delta` (05 R167): the residue of what it formed is the one
expected; of a saturation, both copies of the logic agree. -/
def ResStep.passes (p : ResStep) (delta : Int) : Bool :=
  match p.stage with
  | .exponent => decide (res3 (p.value + delta) = p.expect)
  | .saturate => decide (p.value + delta = p.value)
  | _ => decide (res31 ((p.value + delta) * 2 ^ p.up + p.rest) = p.expect)

/-- Whether a fault is caught in an operation of these steps (05 R169). -/
def upsetCaught (u : Upset) (steps : List ResStep) : Bool :=
  steps.any fun p => decide (p.stage = u.stage) && !p.passes u.delta

/-! ### The steps of an operation -/

/-- A value's significand as a signed integer; an infinity or NaN has none (05 R166). -/
def FVal.sig : FVal → Int
  | .fin neg m _ => if neg then -(m : Int) else m
  | _ => 0

/-- A value's exponent. -/
def FVal.exponent : FVal → Int
  | .fin _ _ e => e
  | _ => 0

/-- The steps of a product. -/
def mulSteps (a b : FVal) : List ResStep :=
  [{ stage := .multiply, value := a.sig * b.sig, expect := resMul (res31 a.sig) (res31 b.sig) },
   { stage := .exponent, value := a.exponent + b.exponent, expect := (res3 a.exponent + res3 b.exponent) % 3 }]

/-- The steps of a sum: both terms shifted to one exponent, then added. -/
def addSteps (a b : FVal) : List ResStep :=
  let lo := min a.exponent b.exponent
  let x := (a.exponent - lo).toNat
  let y := (b.exponent - lo).toNat
  [{ stage := .shift, value := a.sig * 2 ^ x, expect := resScale (res31 a.sig) x },
   { stage := .shift, value := b.sig * 2 ^ y, expect := resScale (res31 b.sig) y },
   { stage := .add, value := a.sig * 2 ^ x + b.sig * 2 ^ y,
     expect := resAdd (resScale (res31 a.sig) x) (resScale (res31 b.sig) y) }]

/-- The steps of a rounding to a format: the kept bits of the shifted significand, then the increment. `rounded` is the magnitude
that the rounding gives, in multiples of the spacing. -/
def roundSteps (f : FFmt) (v : FVal) (rounded : Int) : List ResStep :=
  match v with
  | .fin _ m e =>
    let s := splitAt m e (f.spacing m e)
    [{ stage := .shift, value := s.1, expect := if s.2.2 = 0 then res31 s.1 else res31 m, up := s.2.2, rest := s.2.1 },
     { stage := .round, value := rounded, expect := resAdd (res31 s.1) (res31 (rounded - s.1)) }]
  | _ => []

/-- The magnitude of a rounded value in multiples of the spacing at which the exact value was rounded. -/
def FFmt.roundedAt (f : FFmt) (v : FVal) (pat : Nat) : Int :=
  match v, f.decode pat with
  | .fin _ m e, .fin _ n d => toInt false n d (min d (f.spacing m e)) / 2 ^ (f.spacing m e - min d (f.spacing m e)).toNat
  | _, _ => 0

/-- The steps of an integer sum and of its saturation (05 R161, R167). -/
def intSteps (a b : Int) : List ResStep :=
  [{ stage := .add, value := a + b, expect := resAdd (res31 a) (res31 b) }, { stage := .saturate, value := a + b, expect := 0 }]

/-! ### What a fault leaves -/

/-- A value whose significand a fault has changed. -/
def FVal.alter (delta : Int) : FVal → FVal
  | .fin neg m e =>
    let n : Int := (if neg then -(m : Int) else m) + delta
    if n = 0 then .fin neg 0 e else .fin (decide (n < 0)) n.natAbs e
  | v => v

/-- What a fault makes of the value that some stages form. -/
def FVal.struck (v : FVal) (u : Option Upset) (stages : List ResStage) : FVal :=
  match u with
  | none => v
  | some u =>
    if !stages.contains u.stage then v
    else if u.stage = .exponent then v.scale u.delta
    else v.alter u.delta

/-- A pattern whose significand a fault in the rounding has changed. -/
def FFmt.struck (f : FFmt) (pat : Nat) (u : Option Upset) : Nat :=
  match u with
  | none => pat
  | some u => if u.stage = .round then f.encode ((f.decode pat).alter u.delta) else pat

/-- A W64 element, or an exact cell, that a fault in its sum or its quantisation has changed. -/
def struckInt (n : Int) (u : Option Upset) (stages : List ResStage) : Int :=
  match u with
  | none => n
  | some u => if stages.contains u.stage then n + u.delta else n

/-- The part of a fault that strikes operation `i`. -/
def upsetAt (u : Option Upset) (i : Nat) : Option Upset :=
  match u with
  | none => none
  | some u => if u.index = i then some u else none

end Sys2Proof.Machine
end

