-- ==== Sys2Proof/Machine/SMap.lean ====
section
/-! DEFINITION. Sparse maps with natural keys, in one canonical form: keys strictly rising, and no entry equal to what
an unlisted key reads as. Memory, scratchpads and every large collection of the state are such maps. -/

namespace Sys2Proof.Machine

/-- A sparse map: the entries that differ from the default, keys rising. -/
abbrev SMap (α : Type) := List (Nat × α)

/-- What key `k` reads as, `d` where it is not listed. -/
def SMap.get {α : Type} (d : α) : SMap α → Nat → α
  | [], _ => d
  | (k', v) :: m, k => if k' = k then v else SMap.get d m k

/-- The map without key `k`. -/
def SMap.erase {α : Type} (m : SMap α) (k : Nat) : SMap α := m.filter fun e => !decide (e.1 = k)

/-- The map with `v` at key `k`, in its place in the order. -/
def SMap.insert {α : Type} : SMap α → Nat → α → SMap α
  | [], k, v => [(k, v)]
  | (k', v') :: m, k, v =>
    if k < k' then (k, v) :: (k', v') :: m
    else if k = k' then (k, v) :: m
    else (k', v') :: SMap.insert m k v

/-- The map that reads `v` at `k`; writing the default removes the entry. -/
def SMap.set {α : Type} [DecidableEq α] (d : α) (m : SMap α) (k : Nat) (v : α) : SMap α :=
  if v = d then SMap.erase m k else SMap.insert m k v

/-- The map with the value at `k` changed by `f`. -/
def SMap.upd {α : Type} [DecidableEq α] (d : α) (m : SMap α) (k : Nat) (f : α → α) : SMap α :=
  SMap.set d m k (f (SMap.get d m k))

/-- The keys lie above `lo` in strictly rising order, and no entry is `d`. -/
def SMap.wfFrom {α : Type} [DecidableEq α] (d : α) : Nat → SMap α → Bool
  | _, [] => true
  | lo, (k, v) :: m => decide (lo ≤ k) && decide (v ≠ d) && SMap.wfFrom d (k + 1) m

/-- The canonical form. -/
def SMap.wf {α : Type} [DecidableEq α] (d : α) (m : SMap α) : Bool := SMap.wfFrom d 0 m

/-- The entries whose keys lie in `lo ≤ k < hi`. -/
def SMap.range {α : Type} (m : SMap α) (lo hi : Nat) : SMap α :=
  m.filter fun e => decide (lo ≤ e.1) && decide (e.1 < hi)

/-- The map without the entries whose keys lie in `lo ≤ k < hi`. -/
def SMap.clear {α : Type} (m : SMap α) (lo hi : Nat) : SMap α :=
  m.filter fun e => !(decide (lo ≤ e.1) && decide (e.1 < hi))

/-- The map with the value of every listed key changed by `f`, entries that become the default removed. -/
def SMap.mapV {α : Type} [DecidableEq α] (d : α) (m : SMap α) (f : Nat → α → α) : SMap α :=
  m.filterMap fun e =>
    let v := f e.1 (SMap.get d m e.1)
    if v = d then none else some (e.1, v)

/-- Writes the values of a list at consecutive keys. -/
def SMap.setList {α : Type} [DecidableEq α] (d : α) : SMap α → Nat → List α → SMap α
  | m, _, [] => m
  | m, k, v :: vs => SMap.setList d (SMap.set d m k v) (k + 1) vs

/-- Reads `n` consecutive keys. -/
def SMap.getList {α : Type} (d : α) (m : SMap α) : Nat → Nat → List α
  | _, 0 => []
  | k, n + 1 => SMap.get d m k :: SMap.getList d m (k + 1) n

/-- The map of the cells of a list whose keys pass; of two with one key the first counts. -/
def SMap.ofCells {α : Type} [DecidableEq α] (d : α) (ok : Nat → Bool) (f : Nat → α) (l : List (Nat × Nat)) : SMap α :=
  (l.filter fun e => ok e.1).foldr (fun e m => SMap.set d m e.1 (f e.2)) []

end Sys2Proof.Machine
end

