-- ==== Sys2Proof/Machine/State.lean ====
section
/-! DEFINITION. The state of the KQ-7200, as plain data: every register, queue, buffer, counter, mode and pin that the
spec gives the device, and the queue of waiting commands. Default values are the reset values (INVENTORY.md, "State");
those that the spec does not give are named in log 4 and log 5. -/

namespace Sys2Proof.Machine

/-- Why the machine stops with a fault: it never does. What the spec leaves undefined stays within a basin, which goes on with free
values (00 R15; log 89). -/
inductive Fault where
  deriving DecidableEq, Repr

/-- Why a command has no meaning. -/
inductive Refusal where
  /-- The command has no meaning in this model yet; raised by its arm of `exec` only. Safe. -/
  | notModelled (mnemonic : String)
  deriving DecidableEq, Repr

/-- What a command's meaning answers. -/
abbrev Out (σ : Type) := Host.Outcome σ Fault Refusal

/-! ### Cores -/

/-- An open loop level (04 R109). -/
structure LoopLevel where
  start : Nat
  last : Nat
  count : Nat
  it : Nat
  rd : Nat
  deriving DecidableEq, Repr

/-- What a stream waits for (03 R84). `unit rank` records the stall cause of an instruction that its unit could not
take yet; `fence` lists the operations that the FENCE still covers. -/
inductive Wait where
  | none
  | unit (rank : Nat)
  | flags (mask : BitVec 32) (keep : Bool)
  | push (q : Nat) (v : Word) (tag : Bool)
  | pop (q : Nat) (rd : Nat)
  | fence (ops : List Nat)
  | sluice (n : Nat) (ck fe : Bool) (flg : Nat)
  deriving DecidableEq, Repr

/-- One stream of a core (03 R70, R71): registers 1 to 15 (an unlisted one is zero), their poison tags, the
instruction address, the open loops (innermost first), its wait, and the live counters of 04 R112. -/
structure Stream where
  pc : Nat := 0
  regs : SMap Word := []
  tags : BitVec 16 := 0
  loops : List LoopLevel := []
  wait : Wait := .none
  halted : Bool := false
  stopped : Bool := true
  issue : Nat := 0
  doneCc : Nat := 0
  ahead : Nat := 0
  stalls : SMap Nat := []
  deriving DecidableEq, Repr

/-- A data queue (03 R75, R76, R78): the register stage with its poison tags, oldest first; the tags of the entries in
the ring, oldest first, whose values stand in scratchpad; and how many entries the ring has ever taken. -/
structure DQueue where
  stage : List (Word × Bool) := []
  ring : List Bool := []
  tail : Nat := 0
  deriving DecidableEq, Repr

/-- The state of an accumulator tile (04 R126). -/
inductive TileState where
  | free | filling | full
  deriving DecidableEq, Repr

/-- An accumulator tile: 256 cells, cell (r, c) at 16·r + c, FP32 bits or a 64-bit integer, each with its 5-bit residue (05
R166); poison and INVALID marks (05 R158, R170); `ended` marks a pass whose last row has entered and whose tile is not FULL yet (R144); `order` ranks
FULL tiles, oldest lowest. -/
structure Tile where
  st : TileState := .free
  exact : Bool := false
  acc : SMap Word := []
  res : SMap Nat := []
  poison : SMap Bool := []
  invalid : SMap Bool := []
  ended : Bool := false
  order : Nat := 0
  deriving DecidableEq, Repr

/-- The armed set (04 R126). -/
structure Armed where
  arrays : List Nat := []
  rDesc : Word := 0
  k : Nat := 0
  p : Nat := 0
  exact : Bool := false
  deriving DecidableEq, Repr

/-- Dispatched work of the stream pipeline, the drain pipeline or the vector unit (04 R103): the instruction, its
address, the register operands read at issue, and for OPSTR the rows streamed so far, for OPDRN the arrays drained. -/
structure Op where
  id : Nat := 0
  code : Nat := 0
  pc : Nat := 0
  strm : Strm := .x
  insn : Insn := {}
  opA : Word := 0
  opB : Word := 0
  tagA : Bool := false
  tagB : Bool := false
  rows : Nat := 0
  total : Nat := 0
  deriving DecidableEq, Repr

/-- The kinds of transfers the barge engine runs (08, first paragraph). -/
inductive BargeKind where
  | brg | brgTp | brgt | putMem | putLat | putTp | reds
  deriving DecidableEq, Repr

/-- A barge engine descriptor (04 R103, 08 R247): what was issued, the barge engine's copy of the shape record
(R241), and how far it has got; `buf` is a BRGT's transposition buffer (R245); `hostAsks` are the pages that it has asked the
host for, `hostOk` those that the host has returned (09 R287). -/
structure Barge where
  id : Nat := 0
  pc : Nat := 0
  kind : BargeKind := .brg
  lane : Nat := 0
  desc : Word := 0
  desc2 : Word := 0
  mstride : Nat := 0
  ba : Nat := 0
  shape : List Word := []
  flag : Option Nat := none
  grad : Option Nat := none
  queue : Nat := 0
  size : Nat := 0
  transfer : Nat := 0
  requested : Bool := false
  granted : Bool := false
  landed : Nat := 0
  launched : Nat := 0
  buf : List Byte := []
  bufPoison : List Bool := []
  written : Bool := false
  poisoned : Bool := false
  failed : Bool := false
  failCause : Nat := 0
  failAt : Nat := 0
  cancelled : Bool := false
  dropped : Bool := false
  suspended : Bool := false
  hostAsks : List Nat := []
  hostOk : List Nat := []
  deriving DecidableEq, Repr

/-- A core's halt record (03 R89, R90). -/
structure HaltRec where
  latched : Bool := false
  aPc : Nat := 0
  xPc : Nat := 0
  xWait : Nat := 0
  aWait : Nat := 0
  stopped : Bool := false
  detail : Nat := 0
  stream : Nat := 0
  cause : Nat := 0
  deriving DecidableEq, Repr

/-- A shadow capsule (14 R399): the sampled core's pass and array, the resident and streamed elements of the window's rows so far,
each with its poison and with its MX scale applied, and after the last row the array's accumulator tile. -/
structure Capsule where
  core : Nat := 0
  pass : Nat := 0
  array : Nat := 0
  exact : Bool := false
  rows : List (List (FVal × Bool) × List (FVal × Bool)) := []
  tile : Tile := {}
  deriving DecidableEq, Repr

/-- One of the 2,048 cores, at device position 64·y + x; `retry` are the accesses that lost a scratchpad bank in the last cc and are
presented again (03 R62). -/
structure Core where
  a : Stream := {}
  x : Stream := {}
  flags : BitVec 32 := 0
  queues : SMap DQueue := []
  ring0 : Word := 0
  ring1 : Word := 0
  base : Nat := 0
  size : Nat := 0
  sp : SMap Byte := []
  spPoison : SMap Bool := []
  ckseq : Nat := 0
  lscale : Nat := 0
  verdict : Nat := 0
  step : Nat := 0
  seed : Word := 0
  xstat : Bool := false
  cycle : Nat := 0
  genDrain : Word := 0
  genVec : Word := 0
  armed : Armed := {}
  tiles : SMap Tile := []
  fullSeq : Nat := 0
  nextOp : Nat := 0
  streamPipe : List Op := []
  drainPipe : List Op := []
  vecPipe : List Op := []
  barges : List Barge := []
  hrec : HaltRec := {}
  fenced : Bool := false
  passNo : Nat := 0
  capture : Option Capsule := none
  capsule : Option Capsule := none
  retry : List (SpPort × Nat) := []
  deriving DecidableEq, Repr

/-! ### The lattice -/

/-- A header or request that a flit carries (07 R211): destination descriptor and arrival flag, or the barge's memory
side. -/
structure Hdr where
  core : Nat := 0
  barge : Nat := 0
  dest : Word := 0
  arrive : Option Nat := none
  write : Bool := false
  grant : Bool := false
  size : Nat := 0
  deriving DecidableEq, Repr

/-- A non-void flit (07 R203), with the header or request that a first flit carries and the layer of a G-marked transfer
(04 R124). -/
structure Flit where
  basin : Nat := 0
  lane : Nat := 0
  seq : Nat := 0
  first : Bool := false
  last : Bool := false
  sat : Bool := false
  poison0 : Bool := false
  poison1 : Bool := false
  data : List Byte := []
  hdr : Option Hdr := none
  layer : Option Nat := none
  deriving DecidableEq, Repr

/-- A flit on a mesh link: the lattice time at which it enters `router` by input `side` (1 N, 2 E, 3 S, 4 W). -/
structure LinkFlit where
  at_ : Nat := 0
  router : Nat := 0
  side : Nat := 0
  flit : Flit := {}
  deriving DecidableEq, Repr

/-- A flit that waits at a source: a core's launch port, an attached unit, or a portal after transit (07 R209);
`key` is the router or the unit, `notBefore` the earliest lattice time. -/
structure SourceFlit where
  key : Nat := 0
  notBefore : Nat := 0
  flit : Flit := {}
  deriving DecidableEq, Repr

/-- A transit flit (07 R225): the router it is at, the output whose queue it stands in, the earliest lattice time at which it can
leave, and where it goes (a router, and a unit there if it leaves the lattice); `side` is the input by which it came. Outputs 1 to 4 are the mesh links, 5 stands for a
flit still in the attached unit, 6 for the external link, 7 for the portal's handover, 8 for a flit that waits for room in the
portal's queue. -/
structure TransitFlit where
  router : Nat := 0
  side : Nat := 0
  out : Nat := 0
  notBefore : Nat := 0
  dest : Nat := 0
  unit : Option Nat := none
  flit : Flit := {}
  deriving DecidableEq, Repr

/-- An operation of an adder buffer that waits (07 R224): 1 LOAD, 2 ADD, 3 emission; the lane and format of the entry that listed
it, its slot, its input leg, and the flit that it holds. -/
structure AddOp where
  op : Nat := 0
  lane : Nat := 0
  fmt : Nat := 0
  at_ : Nat := 0
  src : Nat := 0
  got : Option Flit := none
  deriving DecidableEq, Repr

/-- An adder buffer of a router (07 R222 to R224): its basin, its contents with their format, whose FP16 sums stand as FP32 until
they leave (05 R164), the operations that wait, and the time of its last one. -/
structure Adder where
  basin : Nat := 0
  fmt : Nat := 0
  flit : Flit := {}
  ops : List AddOp := []
  lastOp : Option Nat := none
  deriving DecidableEq, Repr

/-- What a landing port knows of the transfer that lands on a lane at a core (07 R211, 08 R243). -/
structure Landing where
  hdr : Option Hdr := none
  bytes : Nat := 0
  sat : Bool := false
  arrived : Nat := 0
  deriving DecidableEq, Repr

/-! ### Memory and tiers -/

/-- States of a BA page (09 R274). -/
inductive PageState where
  | unwritten | hbm | host | migrating | shadowed | lost
  deriving DecidableEq, Repr

/-- What an access that waits for an HBM frame needs it for: a frame, a fresh frame, a return, or the rescue of R288 (09 R481);
`again` marks a move that was refused and is tried again when a frame becomes free. -/
inductive Want where
  | none | frame | fresh | ret | rescue | again
  deriving DecidableEq, Repr

/-- A BA page (09 R274): its frame (DA ÷ 2 MiB), host-tier frame, the targets of a move and the tiles switched, the fresh
frame and written tiles of a SHADOWED page, the tile map of a page not yet written in full, lost tiles, the time of the last
access in ms, bias, activation-store charge, the window in which an offloaded page is not evicted (R284), and whether a move, an
engine or host software waits for the host's answer (R287) or has it. -/
structure Page where
  frame : Option Nat := none
  hostFrame : Option Nat := none
  toFrame : Option Nat := none
  toHost : Option Nat := none
  toFresh : Option Nat := none
  moved : Nat := 0
  fresh : Option Nat := none
  committing : Bool := false
  written : SMap Bool := []
  tiles : SMap Bool := []
  filled : Bool := false
  lostTiles : SMap Bool := []
  age : Nat := 0
  hostBias : Bool := false
  act : Bool := false
  guarded : Bool := false
  want : Want := .none
  asked : Bool := false
  got : Bool := false
  deriving DecidableEq, Repr

/-- The old contents of a protected tile written in the interval (02 R47). -/
structure TileSave where
  tile : Nat := 0
  bytes : SMap Byte := []
  poison : SMap Bool := []
  lost : Bool := false
  deriving DecidableEq, Repr

/-- States of a stack (09 R289). -/
inductive StackState where
  | inService | retraining | draining | drained | retired | failed
  deriving DecidableEq, Repr

/-- A tile in a port's merge buffer (07 R220): its tile number in BA, the transfer that holds it, and when its hold
ends. -/
structure MergeTile where
  basin : Nat := 0
  lane : Nat := 0
  tile : Nat := 0
  transfer : Nat := 0
  ends : Nat := 0
  sending : Bool := false
  deriving DecidableEq, Repr

/-- A request at a memory port, a towpath stage or a collective channel (07 R219). -/
structure PortReq where
  basin : Nat := 0
  lane : Nat := 0
  core : Nat := 0
  barge : Nat := 0
  write : Bool := false
  transfer : Nat := 0
  taken : Bool := false
  granted : Bool := false
  readied : Nat := 0
  got : Nat := 0
  deriving DecidableEq, Repr

/-- A memory port with its stack (09 R289): beside its registers, the times in µs of the re-reads and re-sends of the last ms
(R265), the blocks whose writes failed, with how often (3 waits for the retraining, 4 has been sent once more after it), and the
bytes in the write buffer (R264) and those accepted in the running µs (R269). -/
structure Stack where
  temp : Nat := 0
  level : Nat := 0
  st : StackState := .inService
  before : StackState := .inService
  retrains : Nat := 0
  uncorr : Nat := 0
  corr : Nat := 0
  crcRetry : Nat := 0
  crcTimes : List Nat := []
  wfail : SMap Nat := []
  wbuf : Nat := 0
  window : Nat := 0
  busyHere : Bool := false
  merge : List MergeTile := []
  reqs : List PortReq := []
  fencedFrames : List Nat := []
  deriving DecidableEq, Repr

/-- Why a page moves (09 R279). -/
inductive MoveCause where
  | eviction | ret | homing | offload | prefetch | retirement | limit | commit | fence
  deriving DecidableEq, Repr

/-- A move of a page (09 R279); a raw one moves frame `page` of a receive log or a towpath ring (R272). -/
structure Move where
  basin : Nat := 0
  page : Nat := 0
  raw : Bool := false
  cause : MoveCause := .eviction
  deriving DecidableEq, Repr

/-! ### Basins -/

/-- States of a basin (02 R34). -/
inductive BasinPhase where
  | free | binding | idle | running | parked | restarting | halted | unbinding
  deriving DecidableEq, Repr

/-- A bind descriptor's fields (02 R32). -/
structure Desc where
  originCol : Nat := 0
  originRow : Nat := 0
  width : Nat := 0
  height : Nat := 0
  offloadClass : Bool := false
  counterAccess : Bool := false
  offloadDepth : Nat := 0
  baPages : Nat := 0
  guarantee : Nat := 0
  limit : Nat := 0
  actStore : Nat := 0
  qset : Nat := 0x3F
  tpIn : Nat := 0
  tpOut : Nat := 0
  affinity : Nat := 0
  deriving DecidableEq, Repr

/-- A towpath item with its poison bit (11 R338). -/
structure Item where
  data : List Byte := []
  poison : Bool := false
  deriving DecidableEq, Repr

/-- A towpath queue (11 R330 to R342): its registers, the items that wait for the consumer and those held, the item that the
port assembles, the staging area, what the interval has read and pushed (02 R49), and a depth that waits for frames (R330). -/
structure TpQueue where
  timeoutUs : Nat := 0
  notifyLevel : Nat := 0
  vector : Nat := 0
  depthLog2 : Nat := 10
  items : List Item := []
  held : List Item := []
  last : Option Item := none
  head : Nat := 0
  tail : Nat := 0
  asm : SMap Byte := []
  asmPoison : Bool := false
  staged : SMap Byte := []
  stagedPoison : SMap Bool := []
  depthRefused : Bool := false
  ptrErr : Bool := false
  poison : Bool := false
  flushedHeld : Bool := false
  timeout : Bool := false
  underrun : Bool := false
  overrun : Bool := false
  levelFired : Bool := false
  idleFired : Bool := false
  heldLost : Bool := false
  read : Nat := 0
  pushed : List Item := []
  replay : List Item := []
  frames : List Nat := []
  wantDepth : Option Nat := none
  deriving DecidableEq, Repr

/-- A vector of an MSI-X table (11 R344). -/
structure MsixEntry where
  addr : Nat := 0
  data : Nat := 0
  masked : Bool := true
  pending : Bool := false
  deriving DecidableEq, Repr

/-- Counts of the training support unit for one layer in the step in progress (06 R187, R190, R191), with the entries of the
collective table that the layer has triggered and that have ended (12 R355). -/
structure LayerAcct where
  red : Nat := 0
  out : Nat := 0
  outDone : Nat := 0
  redDone : Nat := 0
  collEnded : List Nat := []
  overflow : Bool := false
  poison : Bool := false
  minStep : Option Nat := none
  maxStep : Option Nat := none
  deriving DecidableEq, Repr

/-- The basin's sluice in progress (07 R230; 04 R117): the cores that have arrived, those whose token has entered its router, with
the stamps. -/
structure Sluice where
  n : Nat := 0
  ck : Bool := false
  arrived : List Nat := []
  tokens : List Nat := []
  stamps : SMap Nat := []
  tLast : Nat := 0
  deriving DecidableEq, Repr

/-- The basin's segment (07 R207, R216), with its start in each die's lattice time: the two differ only where the dies' times do
(07 R235). -/
structure Segment where
  cur : Nat := 0
  start : Nat := 0
  start1 : Nat := 0
  started : Bool := false
  overtime : Bool := false
  deriving DecidableEq, Repr

/-- Training registers (06 R198). -/
structure Train where
  lsExp : Nat := 16
  clean : Nat := 0
  step : Nat := 0
  poisonSteps : Nat := 0
  ovfSteps : Nat := 0
  skewLayers : Nat := 0
  last : Nat := 0
  deriving DecidableEq, Repr

/-- A point that the basin returns to: whether there is one, the cores' records by basin core index, the training registers,
CORE_LSCALE, CORE_VERDICT and CORE_STEP, the checkpoint sluice's number, and the segment that follows (02 R46, 04 R113, 06
R197, 07 R207). -/
structure Ckpt where
  valid : Bool := false
  sluice : Option Nat := none
  recs : SMap CkptRec := []
  train : Train := {}
  lscale : Nat := 0
  verdict : Nat := 0
  step : Nat := 0
  next : Nat := 0
  whsDone : List Nat := []
  deriving DecidableEq, Repr

/-- A collective in progress (12 R356, R357): its entry and layer, the messages received so far, the chunks received or
reduced by byte of the buffer with their poison, the merged trailer, and whether it has FAILED (R360). -/
structure Coll where
  entry : Nat := 0
  layer : Option Nat := none
  step : Nat := 0
  sends : Nat := 0
  buf : SMap Byte := []
  bad : SMap Bool := []
  overflow : Bool := false
  poison : Bool := false
  minStep : Option Nat := none
  maxStep : Option Nat := none
  failed : Bool := false
  deriving DecidableEq, Repr

/-- A basin: its control page registers, its MSI-X table, its memory, its program and its run. -/
structure Basin where
  phase : BasinPhase := .free
  desc : Desc := {}
  newDesc : Option Desc := none
  pendingRebind : Option Desc := none
  kcmd : Bool := false
  lastCause : Nat := 0
  restarts : Nat := 0
  restartLimit : Nat := 3
  parkReq : Bool := false
  sluiceTimeout : Nat := 100000
  event : BitVec 32 := 0
  ckptSeq : Nat := 0
  prot : SMap Word := []
  sluiceBlocked : SMap Word := []
  growth : Nat := 2000
  lsFixed : Bool := false
  train : Train := {}
  latLoad : Word := 0
  brgFault : Word := 0
  brgResume : Word := 0
  brgFaultBa : Word := 0
  place : SMap Word := []
  whsFallbacks : Nat := 0
  whsWcSat : Nat := 0
  whsPoison : Nat := 0
  whsAborts : Nat := 0
  whsAbortCause : Nat := 0
  launchBlock : SMap Word := []
  launchOp : Nat := 0
  launchStatus : Nat := 0
  winBase : Nat := 0
  biasPage : Nat := 0
  biasPages : Nat := 0
  biasToHost : Bool := false
  biasRun : Option (Nat × Nat × Bool) := none
  biasResult : Nat := 0
  tp : SMap TpQueue := []
  msix : SMap MsixEntry := []
  mem : SMap Byte := []
  memPoison : SMap Bool := []
  pages : SMap Page := []
  undo : List TileSave := []
  hostWrites : List (Nat × Nat) := []
  logFrames : List Nat := []
  rawMoves : SMap (Nat × Nat) := []
  pushing : List Nat := []
  img : Option Image := none
  measurement : BitVec 384 := 0
  ckpt : Ckpt := {}
  back : Ckpt := {}
  sluice : Option Sluice := none
  seg : Segment := {}
  sluices : Nat := 0
  engGrants : SMap Nat := []
  laneIssued : SMap Nat := []
  legs : SMap Nat := []
  landings : SMap Landing := []
  layers : SMap LayerAcct := []
  verdict : Option Nat := none
  suppressed : List Nat := []
  trainOld : Train := {}
  whsDone : List Nat := []
  colls : List Coll := []
  collRan : List Nat := []
  rxLog : List (Nat × List (Byte × Bool)) := []
  rxTaken : SMap Nat := []
  fencePending : List (Nat × Nat) := []
  testPause : Bool := false
  view : SMap Nat := []
  viewBase : SMap Nat := []
  deriving DecidableEq, Repr

/-! ### The other units -/

/-- Power, clocks and thermal state (13 R388): beside the registers, the samples of the last second, the samples below 40 V and
36 V in a row, the causes present now, the readings at EMERG and TRIP in a row of each die, the supply of the clocks, the pending
step-ups, and the root cycles that the slower die's lattice clock has gathered (13 R380). -/
structure Power where
  vin : Nat := 0
  iin : Nat := 0
  ilim : Nat := 72
  samples : List Nat := []
  low40 : Nat := 0
  low36 : Nat := 0
  undervoltage : Bool := false
  causes : BitVec 32 := 0
  powerLatch : Bool := false
  thermalLatch : Bool := false
  refLost : Bool := false
  ilimNow : Bool := false
  limitNow : Bool := false
  vinNow : Bool := false
  cap : Nat := 2600
  clusterOn : BitVec 64 := 0
  quarryOn : Bool := false
  ethOn : BitVec 4 := 0
  mempOn : BitVec 12 := 0
  latOn : BitVec 2 := 3
  tj0 : Nat := 0
  tj1 : Nat := 0
  throttle : Nat := 95
  emerg : Nat := 105
  trip : Nat := 115
  hot0 : Nat := 0
  hot1 : Nat := 0
  over0 : Nat := 0
  over1 : Nat := 0
  tripped : Bool := false
  holdover : Bool := false
  pllLock : Bool := false
  clocksStopped : Bool := false
  refStop : Bool := false
  slowAcc : Nat := 0
  gate : Nat := 0
  step0 : Nat := 2
  step1 : Nat := 2
  up0 : Option Nat := none
  up1 : Option Nat := none
  heldStep : Option (Nat × Nat) := none
  stepMin : Nat := 0
  thermN : Bool := false
  faultN : Bool := false
  deriving DecidableEq, Repr

/-- The phase of the device (13 R371, 15 R426, 17 R464). -/
inductive DevPhase where
  | inReset | poweringUp | ready | recovery
  deriving DecidableEq, Repr

/-- A host access that waits for the end of a management gap or for READY (13 R386). -/
inductive Held where
  | launch (basin : Nat) (img : Option Image)
  | resume (basin : Nat) (img : Option Image)
  | pwrCap (v : BitVec 32)
  | pwrTj (v : Word)
  | clkCtrl (v : BitVec 32)
  | keyed (opcode : Nat) (k : KBlock)
  deriving DecidableEq, Repr

/-- Management core (13 R364 to R388). -/
structure Mgmt where
  phase : DevPhase := .inReset
  pwrgood : Bool := false
  vioOk : Bool := false
  perst : Bool := true
  recoveryStrap : Bool := false
  gap : Bool := false
  recovering : Bool := false
  gapMs : Nat := 0
  gapUs : Nat := 0
  activations : Nat := 0
  wdog : Nat := 0
  slot : Bool := false
  held : List Held := []
  gapReports : Nat := 0
  recoveries : List Nat := []
  unsettled : List (Nat × Nat) := []
  handoff : Nat := 0
  activating : Option (Bool × Bool) := none
  fallback : Bool := false
  deriving DecidableEq, Repr

/-- Host link and attach (11 R325). -/
structure Link where
  up : Bool := false
  cxl : Bool := false
  width : Nat := 0
  rate : Nat := 0
  ideFail : Bool := false
  ideKeys : Bool := false
  insecure : Bool := false
  devMajor : Nat := 0
  devMinor : Nat := 0
  enabledMinor : Nat := 0
  lastRefused : Bool := false
  attach : Nat := 0
  memErrBasin : Nat := 0
  memErr : Nat := 0
  lanePol : BitVec 32 := 0
  deriving DecidableEq, Repr

/-- Tier engine registers (09 R289). -/
structure Tier where
  weirTh : BitVec 32 := 0x69645F5A
  ctrlResult : Nat := 0
  ctrlBusy : Bool := false
  ctrlStack : Nat := 0
  timeoutMs : Nat := 10
  ext : SMap Word := []
  moves : List Move := []
  retrainWait : List Nat := []
  deriving DecidableEq, Repr

/-- A chunk in a Whetstone engine's queue (10 R294); `norm` marks the norm phase of TRUST_ADAMW. -/
structure Chunk where
  basin : Nat := 0
  layer : Nat := 0
  chunk : Nat := 0
  norm : Bool := false
  deriving DecidableEq, Repr

/-- States of a Whetstone engine (10 R313). -/
inductive WhsState where
  | active | off | fenced
  deriving DecidableEq, Repr

/-- A Whetstone engine (10 R313). -/
structure Whs where
  st : WhsState := .active
  cause : Nat := 0
  retries : Nat := 0
  lastValid : Bool := false
  lastBasin : Nat := 0
  lastLayer : Nat := 0
  lastChunk : Nat := 0
  turn : Nat := 0
  queue : List Chunk := []
  deriving DecidableEq, Repr

/-- The norms that a TRUST_ADAMW layer's chunks have given (10 R299): FP64 bits of the sums of w² and q². -/
structure NormSum where
  basin : Nat := 0
  layer : Nat := 0
  chunk : Nat := 0
  w2 : BitVec 64 := 0
  q2 : BitVec 64 := 0
  poison : Bool := false
  deriving DecidableEq, Repr

/-- The pass of a layer in progress (10 R300, R309): the chunks written, the AMAX that the copy scale follows, the largest
master magnitude so far (FP32 bits), and the update number. -/
structure LayerPass where
  basin : Nat := 0
  layer : Nat := 0
  done : List Nat := []
  amax : Nat := 0
  newAmax : Nat := 0
  poison : Bool := false
  deriving DecidableEq, Repr

/-- An Ethernet lane group (12 R361) with its Zynwin link state (R348): the next sequence number each way, the frames that a
replay can send again, the frame last asked for and how often in succession; what waits for the end of a recalibration (R347); the
payloads in the receive buffer as basin, priority and bytes, with the priorities it has paused (R353); and the queue pair served
last (R354). -/
structure EthGroup where
  xoff : Nat := 0x40
  ecnEn : Bool := false
  pfcEn : BitVec 8 := 0
  pair800 : Bool := false
  mode : Nat := 0
  mac : BitVec 48 := 0
  ip : BitVec 128 := 0
  fecUncorr : Nat := 0
  dropped : Nat := 0
  paused : BitVec 8 := 0
  recalBusy : Bool := false
  link : Bool := false
  zynRx : Nat := 0
  zynTx : List (Nat × Nat × List Byte × List Nat) := []
  zynNext : Nat := 0
  zynAsked : Nat := 0
  zynReplays : Nat := 0
  zynRetraining : Bool := false
  zynRetrains : Nat := 0
  rxWait : List Instr := []
  rxBuf : List (Nat × Nat × Nat) := []
  pauseSent : BitVec 8 := 0
  turn : Nat := 0
  deriving DecidableEq, Repr

/-- States of a queue pair (12 R362). -/
inductive QpState where
  | reset | rts | error
  deriving DecidableEq, Repr

/-- A queue pair (12 R362): its registers, its PSN state, the unacknowledged packets with their immediates, those that
wait to be sent, frames of a striped link that wait for their turn, the times of the last notification sent and of the last
rate cut, and the payloads sent in the interval and those that a re-execution still compares (02 R49). -/
structure Qp where
  ackTimeout : Nat := 0x40
  retryCnt : Nat := 7
  errCause : Nat := 0
  dscp : Nat := 0
  prio : Nat := 0
  ipv6 : Bool := false
  groups : BitVec 4 := 0
  st : QpState := .reset
  remoteRkey : Nat := 0
  remoteQpn : Nat := 0
  localRkey : Nat := 0
  udpSport : Nat := 0
  remoteMac : BitVec 48 := 0
  remoteIp : BitVec 128 := 0
  rxPsn : Nat := 0
  txPsn : Nat := 0
  rxNext : Nat := 0
  txNext : Nat := 0
  unacked : List (Nat × List Byte × Option Nat) := []
  heldTx : List (Nat × List Byte × Option Nat) := []
  rxHeld : List (Nat × List (Byte × Bool)) := []
  retries : Nat := 0
  retrans : Nat := 0
  cnpRx : Nat := 0
  cnpAt : Option Nat := none
  cutAt : Option Nat := none
  ratePct : Nat := 100
  sent : List (List (Byte × Bool)) := []
  replay : List (List (Byte × Bool)) := []
  deriving DecidableEq, Repr

/-- A queue set's registers (12 R363). -/
structure Qset where
  home : Nat := 0
  failedEntry : Nat := 0
  failedQp : Nat := 0
  collFailed : Bool := false
  deriving DecidableEq, Repr

/-- States of a firmware slot (15 R413). -/
inductive SlotState where
  | empty | staging | verified | invalid
  deriving DecidableEq, Repr

/-- A firmware slot: its state, whether it holds the image of manufacture (log 27), contents by byte offset, size, and the
SVN of its header (15 R413, R415). -/
structure FwSlot where
  st : SlotState := .empty
  factory : Bool := false
  bytes : SMap Byte := []
  size : Nat := 0
  svn : Nat := 0
  deriving DecidableEq, Repr

/-- A copy of the slot directory (15 R413): its sequence number, the active slot and the state of each slot. -/
structure DirCopy where
  seq : Nat := 0
  active : Bool := false
  stA : SlotState := .verified
  stB : SlotState := .empty
  deriving DecidableEq, Repr

/-- Firmware staging (15 R444), with the flash's slots and the two copies of their directory: none is one whose CRC-32C is not valid
(R413). -/
structure Fwu where
  size : Nat := 0
  crc : BitVec 32 := 0
  result : Nat := 0
  state : Nat := 0
  stageSlot : Bool := false
  busy : Bool := false
  block : Option (Nat × Nat) := none
  units : SMap Bool := []
  data : SMap Byte := []
  slotA : FwSlot := { st := .verified, factory := true }
  slotB : FwSlot := {}
  active : Bool := false
  dir0 : Option DirCopy := some { seq := 1 }
  dir1 : Option DirCopy := some {}
  digest : BitVec 384 := 0
  deriving DecidableEq, Repr

/-- FIPS states (15 R445). -/
inductive FipsState where
  | selfTest | operational | error
  deriving DecidableEq, Repr

/-- The security block (15 R445). -/
structure Sec where
  buf : SMap Byte := []
  status : Nat := 0
  opcode : Nat := 0
  busy : Bool := false
  droppedGo : Bool := false
  badMac : Nat := 0
  lastCounter : Nat := 0
  cmdKey : Option (BitVec 384) := none
  verifier : Option (BitVec 384) := none
  ownerKeys : SMap (BitVec 384) := []
  svn : Nat := 0
  serial : BitVec 64 := 0
  fips : FipsState := .selfTest
  scope : Nat := 0
  bootScope : Nat := 0
  cdiFw : List Byte := []
  tcbInfo : List Byte := []
  pwFails : Nat := 0
  lockout : Bool := false
  nonce : Option (BitVec 384) := none
  nonceCount : Nat := 0
  sessionFn : Option HostFn := none
  sessionKeys : Nat := 0
  deriving DecidableEq, Repr

/-- A report or health log record (14 R408). -/
structure Report where
  seq : Nat := 0
  event : Nat := 0
  kind : Nat := 0
  cls : Nat := 3
  action : Nat := 0
  basin : Option Nat := none
  time : Nat := 0
  count30 : Nat := 0
  count72 : Nat := 0
  index : Nat := 0
  addr : Nat := 0
  detail : Nat := 0
  deriving DecidableEq, Repr

/-- A charged event of the history (14 R402): unit kind, index, powered second. -/
structure Charge where
  kind : Nat := 0
  index : Nat := 0
  time : Nat := 0
  deriving DecidableEq, Repr

/-- Quarry, health log and reports (14 R412). -/
structure Rel where
  rateLog2 : Nat := 10
  shadowEn : Bool := false
  dueH : Nat := 20
  due : List Nat := []
  overdue : List Nat := []
  fails : Nat := 0
  tests : Nat := 0
  lastTest : SMap Nat := []
  testBase : Nat := 0
  testing : List Nat := []
  routerFenced : SMap Bool := []
  fenceTable : List (Nat × Nat) := []
  fencedNoEntry : List (Nat × Nat) := []
  seq : Nat := 0
  log : List Report := []
  history : List Charge := []
  adderPending : List (Nat × Nat) := []
  ring : SMap Report := []
  produced : Nat := 0
  consumed : Nat := 0
  lost : Nat := 0
  lostPending : Nat := 0
  gapQueue : List Report := []
  powered : Nat := 0
  poweredFlash : Nat := 0
  deriving DecidableEq, Repr

/-- Performance counters and the counter ring (16 R456), with the counts and header that the latest snapshot latched (R449, R454). -/
structure Pmc where
  counters : SMap Nat := []
  tick : Nat := 0
  windowTicks : Nat := 100
  groups : BitVec 8 := 0xFF
  sizeLog2 : Nat := 24
  en : Bool := false
  wait : Option Word := none
  wrOff : Nat := 0
  rdOff : Nat := 0
  effTicks : Nat := 100
  dropped : Nat := 0
  drop : Bool := false
  levelKib : Nat := 0
  levelFired : Bool := false
  seq : Nat := 0
  gapMark : Bool := true
  ring : SMap Byte := []
  writing : Option (List Byte) := none
  latch : SMap Nat := []
  hdr : List Nat := []
  deriving DecidableEq, Repr

/-- States of the IEEE 1149.1 TAP controller (17 R472; log 21). -/
inductive TapState where
  | testLogicReset | runTestIdle
  | selectDr | captureDr | shiftDr | exit1Dr | pauseDr | exit2Dr | updateDr
  | selectIr | captureIr | shiftIr | exit1Ir | pauseIr | exit2Ir | updateIr
  deriving DecidableEq, Repr

/-- Sideband interfaces (17 R471, R472). -/
structure Side where
  i3cAddr : Option (BitVec 7) := none
  eid : BitVec 8 := 0
  sensors : SMap Nat := []
  tap : TapState := .testLogicReset
  ir : BitVec 8 := 0
  irShift : BitVec 8 := 0
  drShift : BitVec 64 := 0
  tdo : Bool := false
  deriving DecidableEq, Repr

/-- What the device sends: interrupts, answers to reads, packets, sideband answers (log 20). -/
inductive Msg where
  | msix (fn : HostFn) (vector addr data : Nat)
  | memData (data : List Byte) (poison : Bool)
  | snoopRsp (line : Nat)
  | itemData (data : List Byte) (ep : Bool)
  | ethAck (qpn psn : Nat)
  | ethNakSeq (qpn psn : Nat)
  | ethNakAccess (qpn psn : Nat)
  | ethCnp (qpn : Nat)
  | ethPause (group prio : Nat) (pause : Bool)
  | ethWrite (qpn psn : Nat) (payload : List Byte) (imm : Option Nat)
  | zynFrame (group seq qpn : Nat) (payload : List Byte) (poison : List Nat)
  | zynReplay (group seq : Nat)
  | hostTier (basin page line lines addr : Nat) (write : Bool)
  | biasResolve (basin page : Nat) (write : Bool)
  | xspiReset
  | spdmRsp (port : SpdmPort) (code : Nat) (payload : List Byte)
  | spdmError (port : SpdmPort)
  | pldm (value : Nat)
  | pldmEvent (thermal on : Bool)
  | mctp (value : Nat)
  | i3cNack
  | tdo (v : Bool)
  | reportPosted (number : Nat)
  deriving DecidableEq, Repr

/-! ### The device -/

/-- A host access to basin memory that waits: a read of `len` bytes, or a write (09 R270, R271, R280). -/
structure HostAcc where
  basin : Nat := 0
  ba : Nat := 0
  write : Bool := false
  len : Nat := 0
  data : List Byte := []
  poison : Bool := false
  env : ReadEnv := {}
  deriving DecidableEq, Repr

/-- The state of the device, with the queue of the commands that wait. -/
structure State where
  pending : List Instr := []
  freeCtr : Nat := 0
  usec : Nat := 0
  outbox : List Msg := []
  glbId : Word := 0x10337200
  mgmt : Mgmt := {}
  power : Power := {}
  link : Link := {}
  pf0Msix : SMap MsixEntry := []
  time0 : Nat := 0
  time1 : Nat := 0
  basins : SMap Basin := []
  cores : SMap Core := []
  links : List LinkFlit := []
  extQ : List SourceFlit := []
  portalQ : List SourceFlit := []
  transit : List TransitFlit := []
  transitTurn : SMap Nat := []
  adders : SMap Adder := []
  seamTaken : List (Nat × Bool × Nat) := []
  seamResent : Nat := 0
  seamPoisoned : Nat := 0
  ports : SMap Stack := []
  stageReqs : List PortReq := []
  hostQ : List HostAcc := []
  tier : Tier := {}
  whs : SMap Whs := []
  norms : List NormSum := []
  trust : List (Nat × Nat × BitVec 32) := []
  passes : List LayerPass := []
  eth : SMap EthGroup := []
  qps : SMap Qp := []
  qsets : SMap Qset := []
  fwu : Fwu := {}
  sec : Sec := {}
  rel : Rel := {}
  pmc : Pmc := {}
  side : Side := {}
  deriving DecidableEq, Repr

/-- The machine right after reset: the device in power-on reset with every register at its reset value, nothing
bound, nothing loaded, memory with nothing listed and no command waiting (00 R13; log 4, log 5). -/
def State.reset : State := {}

end Sys2Proof.Machine
end

