-- ==== Sys2Proof/Machine/Ops.lean ====
section
/-! DEFINITION. The named operations over the state: access to its parts, interrupts, counters, reports and charges,
scratchpad access with poison, halting a core and the basin's response. -/

namespace Sys2Proof.Machine

/-! ### Parts of the state -/

/-- Basin `b`. -/
def State.basin (s : State) (b : Nat) : Basin := SMap.get {} s.basins b

/-- The state with basin `b` replaced. -/
def State.setBasin (s : State) (b : Nat) (v : Basin) : State := { s with basins := SMap.set {} s.basins b v }

/-- The state with basin `b` changed by `f`. -/
def State.updBasin (s : State) (b : Nat) (f : Basin → Basin) : State := s.setBasin b (f (s.basin b))

/-- The core at device position `c` = 64·y + x. -/
def State.core (s : State) (c : Nat) : Core := SMap.get {} s.cores c

/-- The state with core `c` replaced. -/
def State.setCore (s : State) (c : Nat) (v : Core) : State := { s with cores := SMap.set {} s.cores c v }

/-- The state with core `c` changed by `f`. -/
def State.updCore (s : State) (c : Nat) (f : Core → Core) : State := s.setCore c (f (s.core c))

/-- The memory port of stack `n`. -/
def State.port (s : State) (n : Nat) : Stack := SMap.get {} s.ports n

/-- The state with the port of stack `n` changed by `f`. -/
def State.updPort (s : State) (n : Nat) (f : Stack → Stack) : State :=
  { s with ports := SMap.set {} s.ports n (f (s.port n)) }

/-- Whetstone engine `n`. -/
def State.engine (s : State) (n : Nat) : Whs := SMap.get {} s.whs n

/-- The state with Whetstone engine `n` changed by `f`. -/
def State.updEngine (s : State) (n : Nat) (f : Whs → Whs) : State :=
  { s with whs := SMap.set {} s.whs n (f (s.engine n)) }

/-- Lane group `n`. -/
def State.group (s : State) (n : Nat) : EthGroup := SMap.get {} s.eth n

/-- The state with lane group `n` changed by `f`. -/
def State.updGroup (s : State) (n : Nat) (f : EthGroup → EthGroup) : State :=
  { s with eth := SMap.set {} s.eth n (f (s.group n)) }

/-- The queue pair with local number `qpn` (12 R350: queue pair q of set s has number 256 + 32·s + q). -/
def State.qp (s : State) (qpn : Nat) : Qp := SMap.get {} s.qps qpn

/-- The state with queue pair `qpn` changed by `f`. -/
def State.updQp (s : State) (qpn : Nat) (f : Qp → Qp) : State :=
  { s with qps := SMap.set {} s.qps qpn (f (s.qp qpn)) }

/-- Queue set `n`. -/
def State.qset (s : State) (n : Nat) : Qset := SMap.get {} s.qsets n

/-- The state with queue set `n` changed by `f`. -/
def State.updQset (s : State) (n : Nat) (f : Qset → Qset) : State :=
  { s with qsets := SMap.set {} s.qsets n (f (s.qset n)) }

/-- The towpath queue in slot `j` of basin `b`: in-queue n is slot n, out-queue n slot 16 + n (11 R332). -/
def Basin.queue (v : Basin) (j : Nat) : TpQueue := SMap.get {} v.tp j

/-- The basin with towpath queue `j` changed by `f`. -/
def Basin.updQueue (v : Basin) (j : Nat) (f : TpQueue → TpQueue) : Basin :=
  { v with tp := SMap.set {} v.tp j (f (v.queue j)) }

/-- The state with message `m` sent (log 20). -/
def State.emit (s : State) (m : Msg) : State := { s with outbox := s.outbox ++ [m] }

/-- The next free value of `w` bits (log 6). -/
def State.freeVal (s : State) (w : Nat) : BitVec w := Config.freeBits w s.freeCtr

/-- The state after one free value has been taken. -/
def State.tick (s : State) : State := { s with freeCtr := s.freeCtr + 1 }

/-- Powered seconds since manufacture: the time kept in the flash and the 1 µs samples since (14 R408, log 3). -/
def State.powered (s : State) : Nat := s.rel.powered + s.usec / 1000000

/-! ### Interrupts -/

/-- The MSI-X entry of a function (11 R344). -/
def State.msixOf (s : State) (fn : HostFn) (v : Nat) : MsixEntry :=
  match fn with
  | .pf0 => SMap.get {} s.pf0Msix v
  | .vf b => SMap.get {} (s.basin b).msix v

/-- The state with an MSI-X entry replaced. -/
def State.setMsix (s : State) (fn : HostFn) (v : Nat) (e : MsixEntry) : State :=
  match fn with
  | .pf0 => { s with pf0Msix := SMap.set {} s.pf0Msix v e }
  | .vf b => s.updBasin b fun x => { x with msix := SMap.set {} x.msix v e }

/-- Raises a notice on a vector: a masked vector sets its pending bit, another sends its message (11 R344). -/
def State.notify (s : State) (fn : HostFn) (v : Nat) : State :=
  let e := s.msixOf fn v
  if e.masked then s.setMsix fn v { e with pending := true }
  else s.emit (.msix fn v e.addr e.data)

/-- Sets bit `i` of BSN_EVENT without a notice: another bit that the same event sets gives it (11 R344: notices of one vector
that fall together send one message; DEDUCED, log 91). -/
def State.markEvent (s : State) (b i : Nat) : State :=
  s.updBasin b fun x => { x with event := x.event ||| BitVec.ofNat 32 (2 ^ i) }

/-- Sets bit `i` of BSN_EVENT; the basin's event notice goes to its VF's vector 0 and PF0's vector 8
(02 R56, 11 R344). -/
def State.setEvent (s : State) (b i : Nat) : State := ((s.markEvent b i).notify (.vf b) 0).notify .pf0 8

/-! ### Counters -/

/-- The groups of 16 R447. -/
inductive CntGroup where
  | core | router | memp | tier | eth | cxl | device | basin
  deriving DecidableEq, Repr

/-- The place of a group in GROUPS. -/
def CntGroup.num : CntGroup → Nat
  | .core => 0 | .router => 1 | .memp => 2 | .tier => 3 | .eth => 4 | .cxl => 5 | .device => 6 | .basin => 7

/-- The key of counter `i` of instance `n` of a group. -/
def cntKey (g : CntGroup) (n i : Nat) : Nat := (g.num * 4096 + n) * 64 + i

/-- A counter's value (16 R446). -/
def State.counter (s : State) (g : CntGroup) (n i : Nat) : Nat := SMap.get 0 s.pmc.counters (cntKey g n i)

/-- Adds `k` to a counter, modulo 2^64 (16 R446). -/
def State.count (s : State) (g : CntGroup) (n i k : Nat) : State :=
  { s with pmc := { s.pmc with counters := SMap.upd 0 s.pmc.counters (cntKey g n i) fun v => (v + k) % 2 ^ 64 } }

/-! ### Pages -/

/-- The state of a BA page (09 R274). -/
def Page.st (p : Page) : PageState :=
  if p.fresh.isSome then .shadowed
  else if p.toFrame.isSome || p.toHost.isSome then .migrating
  else if !p.lostTiles.isEmpty then .lost
  else if p.frame.isSome then .hbm
  else if p.hostFrame.isSome then .host
  else .unwritten

/-- A page of a basin. -/
def Basin.page (v : Basin) (p : Nat) : Page := SMap.get {} v.pages p

/-- The state with a page of a basin changed by `f`. -/
def State.updPage (s : State) (b p : Nat) (f : Page → Page) : State :=
  s.updBasin b fun v => { v with pages := SMap.set {} v.pages p (f (v.page p)) }

/-! ### Geometry -/

/-- Whether the core at device position `c` lies in the rectangle (02 R28). -/
def Desc.contains (d : Desc) (c : Nat) : Bool :=
  let x := c % 64
  let y := c / 64
  decide (4 * d.originCol ≤ x) && decide (x < 4 * (d.originCol + d.width)) &&
    decide (8 * d.originRow ≤ y) && decide (y < 8 * (d.originRow + d.height))

/-- The basin core index of the core at device position `c` (02 R29). -/
def Desc.coreIndex (d : Desc) (c : Nat) : Nat :=
  (c / 64 - 8 * d.originRow) * (4 * d.width) + (c % 64 - 4 * d.originCol)

/-- The device position of basin core index `i`. -/
def Desc.coreAt (d : Desc) (i : Nat) : Nat :=
  64 * (8 * d.originRow + i / (4 * d.width)) + 4 * d.originCol + i % (4 * d.width)

/-- The cores of a rectangle in basin core index order. -/
def Desc.cores (d : Desc) : List Nat := (List.range (32 * d.width * d.height)).map d.coreAt

/-- Whether the rectangle crosses the seam between lattice columns 31 and 32. -/
def Desc.crossesSeam (d : Desc) : Bool := decide (d.originCol < 8) && decide (8 < d.originCol + d.width)

/-- The bound basin whose rectangle holds a core. -/
def State.basinOf (s : State) (c : Nat) : Option Nat :=
  (s.basins.find? fun e => decide (e.2.phase ≠ .free) && e.2.desc.contains c).map (·.1)

/-- The unfenced cores of a basin. -/
def State.liveCores (s : State) (b : Nat) : List Nat :=
  (s.basin b).desc.cores.filter fun c => !(s.core c).fenced

/-- The state with every core of a list changed by `f`. -/
def State.updCores (s : State) (cs : List Nat) (f : Nat → Core → Core) : State :=
  cs.foldl (fun t c => t.updCore c (f c)) s

/-- The cluster of a core: 16·j + k (02, Cluster geometry). -/
def clusterOf (c : Nat) : Nat := 16 * (c / 64 / 8) + c % 64 / 4

/-- The die of a lattice column. -/
def dieOf (c : Nat) : Nat := if c % 64 < 32 then 0 else 1

/-- Whether bit `n` of the QRY_FENCE_ROUTER map is set. -/
def State.routerFenced (s : State) (r : Nat) : Bool := SMap.get false s.rel.routerFenced r

/-! ### Reports and charges -/

/-- Posts a report to the ring at PF0 BAR0, or keeps it in the log only and counts it lost (14 R411). -/
def State.postReport (s : State) (r : Report) : State :=
  if (s.rel.produced + 2 ^ 32 - s.rel.consumed) % 2 ^ 32 < 256 then
    let rel := { s.rel with
      ring := SMap.set {} s.rel.ring (s.rel.produced % 256) r, produced := (s.rel.produced + 1) % 2 ^ 32 }
    ({ s with rel := rel }.emit (.reportPosted r.seq)).notify .pf0 0
  else
    { s with rel := { s.rel with lost := satAdd 16 s.rel.lost 1, lostPending := s.rel.lostPending + 1 } }

/-- Makes a report: the next number and the powered time, a health log record, and the post, which waits in a buffer
of 256 while a management gap lasts (14 R408, R410, R411; 13 R386). -/
def State.report (s : State) (r0 : Report) : State :=
  let r := { r0 with seq := s.rel.seq, time := s.powered }
  let s := { s with rel := { s.rel with
    seq := (s.rel.seq + 1) % 2 ^ 32, log := (r :: s.rel.log).take 4096 } }
  let s := s.count .device 0 14 1
  if s.mgmt.gap then
    if s.rel.gapQueue.length < 256 then { s with rel := { s.rel with gapQueue := s.rel.gapQueue ++ [r] } }
    else { s with rel := { s.rel with lost := satAdd 16 s.rel.lost 1, lostPending := s.rel.lostPending + 1 } }
  else s.postReport r

/-- The charged events of a unit within the last `window` seconds of powered time. -/
def State.charges (s : State) (kind index window : Nat) : Nat :=
  (s.rel.history.filter fun h =>
    decide (h.kind = kind) && decide (h.index = index) && decide (s.powered ≤ h.time + window)).length

/-- Whether a unit's history makes it permanent: a second charged event within 72 h of powered time, or a third
within 30 days (14 R402). -/
def State.permanent (s : State) (kind index : Nat) : Bool :=
  decide (2 ≤ s.charges kind index 259200) || decide (3 ≤ s.charges kind index 2592000)

/-- Enters a charged event in the history (14 R402, R410). -/
def State.addCharge (s : State) (kind index : Nat) : State :=
  let recent := s.rel.history.filter fun h => decide (s.powered ≤ h.time + 2592000)
  { s with rel := { s.rel with history := { kind := kind, index := index, time := s.powered } :: recent } }

/-! ### Scratchpad -/

/-- One past the last scratchpad byte (03 R60). -/
def spEnd : Nat := 0x60000

/-- Reads scratchpad bytes. -/
def Core.spRead (k : Core) (addr n : Nat) : List Byte := SMap.getList 0 k.sp addr n

/-- Whether any 64-byte block that the bytes touch is poisoned (03 R68). -/
def Core.spPoisoned (k : Core) (addr n : Nat) : Bool :=
  decide (n ≠ 0) && (List.range ((addr + n - 1) / 64 - addr / 64 + 1)).any fun i =>
    SMap.get false k.spPoison (addr / 64 + i)

/-- The poison bit of block `i` after a write of `n` bytes at `addr` (03 R68). -/
def poisonAfter (old : Bool) (addr n i : Nat) (p : Bool) : Bool :=
  let full := decide (addr ≤ 64 * i) && decide (64 * i + 64 ≤ addr + n)
  p || (!full && old)

/-- The poison map after a write of `n` bytes at `addr`, block by block. -/
def poisonWrite (m : SMap Bool) (addr n : Nat) (p : Bool) : SMap Bool :=
  if n = 0 then m
  else (List.range ((addr + n - 1) / 64 - addr / 64 + 1)).foldl
    (fun m j => SMap.upd false m (addr / 64 + j) fun old => poisonAfter old addr n (addr / 64 + j) p) m

/-- Writes scratchpad bytes with their poison (03 R68). -/
def Core.spWrite (k : Core) (addr : Nat) (bs : List Byte) (p : Bool) : Core :=
  { k with sp := SMap.setList 0 k.sp addr bs, spPoison := poisonWrite k.spPoison addr bs.length p }

/-- The queue ring word of queue `q` (03 R76). -/
def Core.ringWord (k : Core) (q : Nat) : Nat :=
  if q < 4 then bits k.ring0.toNat (16 * q + 15) (16 * q) else bits k.ring1.toNat (16 * (q - 4) + 15) (16 * (q - 4))

/-- Ring entries of a SIZE: none for 0 and for the values that are invalid (03 R76). -/
def ringEntries (size : Nat) : Nat := if size = 0 ∨ 5 < size then 0 else 2 ^ (size + 3)

/-- The ring of queue `q`: its start and its number of entries (03 R76). -/
def Core.ring (k : Core) (q : Nat) : Nat × Nat :=
  (bits (k.ringWord q) 7 0 * 2048, ringEntries (bits (k.ringWord q) 15 13))

/-- Whether two ranges (start, length) share a byte. -/
def rangesMeet (r q : Nat × Nat) : Bool := decide (r.1 < q.1 + q.2) && decide (q.1 < r.1 + r.2)

/-- Whether one queue's ring word breaks R77 by itself: SIZE, its reserved field, BASE without a ring, and where the ring
lies (03 R76, R77). -/
def Core.ringWordBad (k : Core) (q : Nat) : Bool :=
  let w := k.ringWord q
  let r := k.ring q
  decide (5 < bits w 15 13) || decide (bits w 12 8 ≠ 0) || (decide (bits w 15 13 = 0) && decide (bits w 7 0 ≠ 0)) ||
    decide (0x60000 < r.1 + 8 * r.2) || rangesMeet (r.1, 8 * r.2) (k.base, k.size)

/-- Whether a core's queue ring words are invalid (03 R77). -/
def Core.ringsBad (k : Core) : Bool :=
  decide (bits k.ring1.toNat 63 32 ≠ 0) || (List.range 6).any fun q => k.ringWordBad q ||
    (List.range q).any fun p => rangesMeet ((k.ring p).1, 8 * (k.ring p).2) ((k.ring q).1, 8 * (k.ring q).2)

/-- The protected areas: the program region and the queue rings (03 R65), as (start, length). -/
def Core.protectedAreas (k : Core) : List (Nat × Nat) :=
  (k.base, k.size) :: (List.range 6).map fun q => ((k.ring q).1, 8 * (k.ring q).2)

/-- Whether a write of `n` bytes at `addr` covers a byte of a protected area (03 R65). -/
def Core.hitsProtected (k : Core) (addr n : Nat) : Bool :=
  k.protectedAreas.any fun r => decide (addr < r.1 + r.2) && decide (r.1 < addr + n)

/-! ### Streams -/

/-- A stream of a core. -/
def Core.stream (k : Core) : Strm → Stream
  | .a => k.a
  | .x => k.x

/-- The core with a stream replaced. -/
def Core.setStream (k : Core) (st : Strm) (v : Stream) : Core :=
  match st with
  | .a => { k with a := v }
  | .x => { k with x := v }

/-- The other stream. -/
def otherStrm : Strm → Strm
  | .a => .x
  | .x => .a

/-- STREAM's code of a stream (03 R90). -/
def strmCode : Strm → Nat
  | .a => 0
  | .x => 1

/-- A register: register 0 reads zero (03 R70). -/
def Stream.reg (t : Stream) (n : Nat) : Word := if n = 0 then 0 else SMap.get 0 t.regs n

/-- A register's poison tag: register 0 has none (03 R70). -/
def Stream.tag (t : Stream) (n : Nat) : Bool := if n = 0 then false else t.tags.getLsbD n

/-- Bit `n` of a vector set to `v`. -/
def setBit {w : Nat} (t : BitVec w) (n : Nat) (v : Bool) : BitVec w :=
  if v then t ||| BitVec.ofNat w (2 ^ n) else t &&& ~~~(BitVec.ofNat w (2 ^ n))

/-- Writes a register with its tag; a write to register 0 is discarded (03 R70). -/
def Stream.setReg (t : Stream) (n : Nat) (v : Word) (p : Bool) : Stream :=
  if n = 0 then t else { t with regs := SMap.set 0 t.regs n v, tags := setBit t.tags n p }

/-! ### Stopping and halting -/

/-- What a core keeps in flight when it stops (03 R87): vector work completes, an OPSTR stops at the row boundary,
an OPDRN completes its current tile, and barges go on with their reads dropped. A PUT or REDS that has launched goes on; one
that has launched nothing is dropped (DESIGN CHOICE, log 74: R87 names only those already launched). -/
def Core.stop (k : Core) : Core :=
  { k with
    a := { k.a with stopped := true, wait := .none }
    x := { k.x with stopped := true, wait := .none }
    streamPipe := []
    drainPipe := k.drainPipe.take 1
    barges := k.barges.map fun g =>
      match g.kind with
      | .brg | .brgt | .brgTp => { g with dropped := true }
      | _ => if g.requested then g else { g with dropped := true } }

/-- The halt reason codes (03 R92, 04 R139). -/
def cIllegal : Nat := 0x01
def cBadDesc : Nat := 0x02
def cMisaligned : Nat := 0x03
def cFormat : Nat := 0x04
def cLoopDepth : Nat := 0x05
def cQueue : Nat := 0x06
def cMutual : Nat := 0x07
def cPoison : Nat := 0x08
def cResidue : Nat := 0x09
def cSluice : Nat := 0x0A
def cOverrun : Nat := 0x0B
def cSchedule : Nat := 0x0C
def cFenced : Nat := 0x0D
def cTier : Nat := 0x0E
def cHaltInstr : Nat := 0x0F
def cWatchdog : Nat := 0x10
def cPrivilege : Nat := 0x11
def cRange : Nat := 0x12
def cArray : Nat := 0x13
def cTied : Nat := 0x14

/-- The record of a core that stops only because its basin stops (03 R89). -/
def HaltRec.stop (h : HaltRec) (k : Core) : HaltRec :=
  if h.latched then h
  else { aPc := k.a.pc, xPc := k.x.pc, stopped := true, stream := 3, cause := 0 }

/-- Latches a halt cause, unless the core's record has latched one (03 R89). -/
def HaltRec.latch (h : HaltRec) (r : HaltRec) : HaltRec := if h.latched then h else { r with latched := true }

/-- CORE_HALT_PC (03 R90). -/
def HaltRec.pcWord (h : HaltRec) : Nat := h.xPc * 2 ^ 32 + h.aPc

/-- CORE_HALT_CAUSE (03 R90). -/
def HaltRec.causeWord (h : HaltRec) : Nat :=
  h.xWait * 2 ^ 40 + h.aWait * 2 ^ 32 + (if h.stopped then 2 ^ 24 else 0) + h.detail * 2 ^ 16 + h.stream * 2 ^ 8 + h.cause

/-- Stops every core of a basin (02 R50, 03 R89). -/
def State.stopCores (s : State) (b : Nat) : State :=
  s.updCores (s.liveCores b) fun _ k => { k.stop with hrec := k.hrec.stop k }

/-! ### Domains and tests -/

/-- Whether either emergency latch is set (13 R378). -/
def State.latched (s : State) : Bool := s.power.powerLatch || s.power.thermalLatch

/-- Cluster domains switch on or off (13 R370; 16 R448). -/
def State.switchClusters (s : State) (on : Bool) (cs : List Nat) : State :=
  cs.foldl (fun s c =>
    if s.power.clusterOn.getLsbD c = on then s
    else ({ s with power := { s.power with clusterOn := setBit s.power.clusterOn c on } }).count .device 0 9 1) s

/-- The Quarry domain switches on or off (13 R370; 16 R448). -/
def State.switchQuarry (s : State) (on : Bool) : State :=
  if s.power.quarryOn = on then s
  else ({ s with power := { s.power with quarryOn := on } }).count .device 0 9 1

/-- Whether a mode of a lane group is on: Ethernet or Zynwin (12 R361). -/
def modeOn (m : Nat) : Bool := decide (m = 1) || decide (m = 2)

/-- The domain of a lane group follows its MODE (13 R370; 16 R448): the power manager switches it on while no latch is set, and every
domain stands still in a management gap and before READY (R371, R378, R386). -/
def State.ethDomain (s : State) (n : Nat) : State :=
  let on := modeOn (s.group n).mode
  if s.power.ethOn.getLsbD n = on ∨ s.mgmt.phase ≠ .ready ∨ s.mgmt.gap ∨ (on ∧ s.latched) then s
  else ({ s with power := { s.power with ethOn := setBit s.power.ethOn n on } }).count .device 0 9 1

/-- The domains of the four lane groups. -/
def State.ethDomains (s : State) : State := (List.range 4).foldl State.ethDomain s

/-- Whether Quarry may start a test: not during a management gap (13 R386; 14 R395), and the clocks run. -/
def State.canTest (s : State) : Bool := !s.mgmt.gap && !s.power.clocksStopped && decide (s.mgmt.phase = .ready)

/-- Whether Quarry tests cores of the basin now. -/
def State.inTest (s : State) (b : Nat) : Bool := s.rel.testing.any fun c => (s.basin b).desc.contains c

/-- Whether a core of the basin is due for a test (14 R395). -/
def State.anyDue (s : State) (b : Nat) : Bool := (s.liveCores b).any fun c => s.rel.due.contains c

/-- Quarry begins its test of a basin's unfenced cores; a RUNNING basin pauses for it (14 R395, R396). -/
def State.startTest (s : State) (b : Nat) : State :=
  let s := { s with rel := { s.rel with testing := (s.rel.testing ++ s.liveCores b).dedup } }.switchQuarry true
  if (s.basin b).phase = .running then s.updBasin b fun v => { v with testPause := true } else s

/-- Quarry tests the due cores of unbound clusters at once, switching their clusters on; while a latch is set it waits with those
that are off (13 R370, R378; 14 R395). -/
def State.testUnbound (s : State) : State :=
  if !s.canTest then s
  else
    let cs := s.rel.due.filter fun c => (s.basinOf c).isNone && !(s.core c).fenced && !s.rel.testing.contains c &&
      (!s.latched || s.power.clusterOn.getLsbD (clusterOf c))
    if cs.isEmpty then s
    else ({ s with rel := { s.rel with testing := s.rel.testing ++ cs } }.switchQuarry true).switchClusters true
      (cs.map clusterOf).dedup

/-- A PENDING re-bind takes effect: the binder works on it (02 R40). -/
def State.takeRebind (s : State) (b : Nat) : State :=
  match (s.basin b).pendingRebind with
  | some d => s.updBasin b fun x => { x with phase := .binding, newDesc := some d, pendingRebind := none }
  | none => s

/-- A basin has come to rest: a due test of its cores starts at once, and a PENDING re-bind, which waits for a test, takes effect
where there is none (02 R40; 14 R395, R396). -/
def State.restTest (s : State) (b : Nat) : State :=
  if s.inTest b then s else if s.anyDue b && s.canTest then s.startTest b else s.takeRebind b

/-- The basin enters PARKED at a checkpoint sluice (02 R35, R40, R56). -/
def State.enterParked (s : State) (b : Nat) : State :=
  ((s.updBasin b fun x => { x with phase := .parked, sluice := none, parkReq := false, testPause := false }).setEvent b
    3).restTest b

/-- A Quarry test of a basin's cores ends without a result (14 R396). -/
def State.dropTest (s : State) (b : Nat) : State :=
  { s with rel := { s.rel with testing := s.rel.testing.filter fun c => !(s.basin b).desc.contains c } }

/-- An unbind stops the basin at once; the binder's steps end with its completion (02 R35, R38). It cancels a PENDING
re-bind (R40) and ends a test (14 R396). -/
def State.beginUnbind (s : State) (b : Nat) : State :=
  ((s.dropTest b).stopCores b).updBasin b fun x =>
    { x with phase := .unbinding, sluice := none, pendingRebind := none, newDesc := none, testPause := false,
             parkReq := false }

/-- Enters a fence: the core, or the core and its router, are never used again, and the fence table takes an entry while
it has room (02 R53; 14 R404, R407). -/
def State.enterFence (s : State) (b : Option Nat) (kind c : Nat) : State :=
  let s := s.updCore c fun k => { k.stop with fenced := true }
  let full := decide (1024 ≤ s.rel.fenceTable.length)
  let rel := s.rel
  let rel := { rel with
    routerFenced := if kind = 2 then SMap.set false rel.routerFenced c true else rel.routerFenced
    fenceTable := if full then rel.fenceTable else rel.fenceTable ++ [(kind, c)]
    fencedNoEntry := if full then rel.fencedNoEntry ++ [(kind, c)] else rel.fencedNoEntry }
  ({ s with rel := rel }).report
    { event := 0x10, kind := kind, cls := 1, action := 3, basin := b, index := c, detail := if full then 1 else 0,
      count30 := s.charges kind c 2592000, count72 := s.charges kind c 259200 }

/-- The record of a core that a fence stops (02 R53, 03 R89). -/
def fencedRec (k : Core) : HaltRec := { aPc := k.a.pc, xPc := k.x.pc, stream := 3, cause := cFenced }

/-- A basin's pending fences take effect at a checkpoint sluice (02 R53): every core of the basin whose record has not latched a
cause, the fenced ones among them, records FENCED, and the basin enters PARKED, or is unbound when no unfenced core is left (14
R405). -/
def State.applyFences (s : State) (b : Nat) : State :=
  let fs := (s.basin b).fencePending
  let s := s.updBasin b fun x => { x with fencePending := [] }
  let s := fs.foldl (fun s f => s.enterFence (some b) f.1 f.2) s
  if (s.liveCores b).isEmpty then s.beginUnbind b
  else
    let s := s.updCores (s.basin b).desc.cores fun _ k => { k.stop with hrec := k.hrec.latch (fencedRec k) }
    let s := s.updBasin b fun x => { x with lastCause := cFenced }
    (s.markEvent b 5).enterParked b

/-- What waits for the basin's rest takes effect: its pending fences (log 22), then a due test, then a PENDING re-bind (02 R40;
14 R395, R396). -/
def State.settle (s : State) (b : Nat) : State :=
  if (s.basin b).fencePending = [] then s.restTest b else s.applyFences b

/-- The basin enters HALTED: every core stops, BSN_EVENT.HALTED is set, and what waits takes effect (02 R40, R50, R56). -/
def State.haltBasin (s : State) (b cause : Nat) : State :=
  (((s.stopCores b).updBasin b fun x =>
    { x with phase := .halted, lastCause := cause, sluice := none, parkReq := false, testPause := false }).setEvent b
      2).settle b

/-- The basin enters IDLE (03 R88), and what waits takes effect (02 R40). -/
def State.enterIdle (s : State) (b : Nat) : State :=
  (s.updBasin b fun x => { x with phase := .idle, sluice := none, parkReq := false }).settle b

/-- Causes after which the basin restarts (02 R50): POISON_IN_CONTROL, RESIDUE_MISMATCH, SLOT_OVERRUN, and TIER_ERROR
of a failed lower tier (DETAIL 0x02). -/
def restarts (cause detail : Nat) : Bool :=
  decide (cause = cPoison) || decide (cause = cResidue) || decide (cause = cOverrun) ||
    (decide (cause = cTier) && decide (detail = 0x02))

/-- Begins a restart: every core stops and the basin returns to its last checkpoint sluice; at RESTART_LIMIT it
enters HALTED instead (02 R50, R51). -/
def State.beginRestart (s : State) (b cause : Nat) : State :=
  let x := s.basin b
  if x.restartLimit ≤ x.restarts then s.haltBasin b cause
  else (s.stopCores b).updBasin b fun x => { x with phase := .restarting, lastCause := cause, sluice := none }

/-- The event bit of a refused write: ACT_STORE_FULL or CKPT_SPACE (02 R42, R48, R56). -/
def State.tierEvent (s : State) (b cause detail : Nat) : State :=
  if cause = cTier ∧ detail = 0x01 then s.markEvent b 6
  else if cause = cTier ∧ detail = 0x05 then s.markEvent b 7
  else s

/-- The basin's response to a core's halt (02 R50, 03 R92). Only a RUNNING basin responds. -/
def State.respond (s : State) (b cause detail : Nat) : State :=
  match (s.basin b).phase with
  | .running =>
    let s := s.tierEvent b cause detail
    if restarts cause detail then s.beginRestart b cause else s.haltBasin b cause
  | _ => s

/-- Halts a core with a halt record, and gives the basin's response (03 R87, R89; 02 R50). -/
def State.haltWith (s : State) (c : Nat) (r : HaltRec) : State :=
  let s := s.updCore c fun k => { k.stop with hrec := k.hrec.latch r }
  match s.basinOf c with
  | some b => s.respond b r.cause r.detail
  | none => s

/-- Halts a core at the issue of an instruction of a stream (03 R87): both PC fields hold the streams' addresses. -/
def State.haltCore (s : State) (c : Nat) (st : Strm) (cause detail : Nat) : State :=
  let k := s.core c
  s.haltWith c { aPc := k.a.pc, xPc := k.x.pc, detail := detail, stream := strmCode st, cause := cause }

/-- Halts a core for a cause that a unit detects after dispatch (04 R105): the PC of the stream is the dispatched
instruction's address. -/
def State.haltAt (s : State) (c : Nat) (st : Strm) (pc cause detail : Nat) : State :=
  let k := s.core c
  s.haltWith c
    { aPc := if st = .a then pc else k.a.pc, xPc := if st = .x then pc else k.x.pc,
      detail := detail, stream := strmCode st, cause := cause }

/-- Halts a core for a cause of the core and no single instruction, or of both streams (03 R90, STREAM 0b11, 0b10). -/
def State.haltBoth (s : State) (c code cause detail : Nat) : State :=
  let k := s.core c
  s.haltWith c { aPc := k.a.pc, xPc := k.x.pc, detail := detail, stream := code, cause := cause }

/-- Stops a basin for an engine that found no page (02 R48, 09 R481): every core records STOPPED, LAST_CAUSE reads
TIER_ERROR, and the basin enters HALTED; CKPT_SPACE is set where the page was for a protected tile or the receive log, not for
a tile of an UNWRITTEN or LOST page (`detail` 0x04). -/
def State.stopForTier (s : State) (b detail : Nat) : State :=
  (if detail = 0x04 then s else s.markEvent b 7).haltBasin b cTier

/-! ### Fencing a unit -/

/-- Whether a basin stands at a checkpoint sluice or at rest, so that a fence takes effect at once (log 22). -/
def Basin.atRest (x : Basin) : Bool :=
  match x.phase with
  | .idle | .parked | .halted => true
  | .running => x.testPause
  | _ => false

/-- Fences a core, with its router where `kind` is 2: at once in an unbound cluster, else at the basin's next checkpoint
sluice or the one it restarts from (02 R52; 14 R404, R405). -/
def State.fenceCore (s : State) (kind c : Nat) : State :=
  if (s.core c).fenced && (decide (kind ≠ 2) || s.routerFenced c) then s
  else
    match s.basinOf c with
    | none => s.enterFence none kind c
    | some b =>
      let s := s.updBasin b fun x =>
        { x with fencePending := if x.fencePending.contains (kind, c) then x.fencePending else x.fencePending ++ [(kind, c)] }
      if (s.basin b).atRest then s.applyFences b else s

/-- The effect of a permanent classification of a core, router or seam link (14 R404). -/
def State.fenceUnit (s : State) (kind index : Nat) : State :=
  match kind with
  | 1 => s.fenceCore 1 index
  | 2 => s.fenceCore 2 index
  | 8 => (s.fenceCore 2 (64 * index + 31)).fenceCore 2 (64 * index + 32)
  | _ => s

/-- The ACTION of a permanent classification: a fence at the next checkpoint sluice, or at once (14 R408). -/
def State.fenceAction (s : State) (kind c : Nat) : Nat :=
  if kind = 9 then 0
  else
    match s.basinOf c with
    | some b => if (s.basin b).atRest then 3 else 2
    | none => 3

/-- Charges a failed check to a unit that is classified by history (14 R390, R402, R404): a health log record and
report, and the fence where the unit is permanent. `act` is the ACTION where it is not. -/
def State.charge (s : State) (kind index event addr detail act : Nat) (b : Option Nat) : State :=
  let s := s.addCharge kind index
  let p := s.permanent kind index
  let c := if kind = 8 then 64 * index + 31 else index
  let s := s.report
    { event := event, kind := kind, cls := if p then 1 else 0, action := if p then s.fenceAction kind c else act,
      basin := b, index := index, addr := addr, detail := detail, count30 := s.charges kind index 2592000,
      count72 := s.charges kind index 259200 }
  if p then s.fenceUnit kind index else s

/-- Applies the stored errors that SECDED finds: a single-bit error is corrected and counted, a double-bit error
poisons its block and is counted, reported and charged to the core (03 R67, 14 R390). -/
def State.applyEcc (s : State) : List EccHit → State
  | [] => s
  | e :: es =>
    let s :=
      if e.double then
        (s.updCore e.core fun k => { k with spPoison := SMap.set false k.spPoison (e.addr / 64) true }).charge 1 e.core
          0x05 e.addr 0 0 (s.basinOf e.core)
      else s.count .core e.core 33 1
    State.applyEcc s es

/-- A failed residue check of a core's array (DETAIL 0x01) or vector unit (0x02): the core halts with
RESIDUE_MISMATCH, the basin restarts, and the event is charged to the core (05 R168; 14 R390, R409). -/
def State.residueHalt (s : State) (c : Nat) (st : Strm) (pc event detail : Nat) : State :=
  let b := s.basinOf c
  let s := s.haltAt c st pc cResidue detail
  let h := (s.core c).hrec
  let act := match b with
    | some b => if (s.basin b).phase = .restarting then 1 else 0
    | none => 0
  s.charge 1 c event h.causeWord h.pcWord act b

/-! ### Undefined behaviour -/

/-- A stream whose address, registers and tags are free values (log 89). -/
def Stream.undefine (t : Stream) (n i : Nat) : Stream :=
  { t with
    pc := (Config.freeBits 19 (n + i)).toNat
    regs := SMap.ofCells 0 (fun k => decide (1 ≤ k) && decide (k < 16)) (BitVec.ofNat 64) (Config.freeCells n i)
    tags := Config.freeBits 16 (n + i) }

/-- A core whose streams, flags and scratchpad are free values (log 89). -/
def Core.undefine (k : Core) (n i : Nat) : Core :=
  { k with
    a := k.a.undefine n (8 * i), x := k.x.undefine n (8 * i + 1), flags := Config.freeBits 32 (n + i)
    sp := SMap.ofCells 0 (fun a => decide (a < 0x60000)) (BitVec.ofNat 8) (Config.freeCells n (8 * i + 2))
    spPoison := SMap.ofCells false (fun a => decide (a < 0x1800)) (fun v => decide (v ≠ 0)) (Config.freeCells n (8 * i + 3)) }

/-- A basin whose memory, counts and training registers are free values (log 89). -/
def Basin.undefine (v : Basin) (n : Nat) : Basin :=
  let free := fun w i => (Config.freeBits w (n + i)).toNat
  { v with
    lastCause := free 8 0, restarts := free 8 1, event := (Config.freeBits 9 n).setWidth 32
    mem := SMap.ofCells 0 (fun a => decide (a < v.desc.baPages * 2097152)) (BitVec.ofNat 8) (Config.freeCells n 4)
    memPoison := SMap.ofCells false (fun k => decide (k < v.desc.baPages * 32768)) (fun x => decide (x ≠ 0)) (Config.freeCells n 5)
    train := { v.train with lsExp := min 24 (free 5 2), clean := free 16 3, step := free 32 4, last := free 2 5 } }

/-- The device after a violation whose response no chapter states: the behaviour of the basin is undefined, without effect on any other
basin (00 R15). What its cores compute and what its memory holds are free values, and it may halt; its binding stays (log 89). -/
def State.undefine (s : State) (b : Nat) : State :=
  let n := s.freeCtr
  let s := s.updBasin b fun v => v.undefine n
  let s := s.updCores (s.basin b).desc.cores fun c k => k.undefine n c
  let s := if (s.basin b).phase = .running ∧ (Config.freeBits 1 n).getLsbD 0 then s.haltBasin b (Config.freeBits 8 n).toNat else s
  s.tick

end Sys2Proof.Machine
end

