-- ==== Sys2Proof/Machine/Schedule.lean ====
section
/-! DEFINITION. The compiled schedule of a basin as the image carries it: the segment table (07 R207), slot entries
(R208, R209) and the lane table (R210, R480), and the tracing of a leg's tree (R209, R213 rule 7). -/

namespace Sys2Proof.Machine

/-- An entry of the segment table (07 R207). -/
structure SegRec where
  base : Nat
  frame : Nat
  nframes : Nat
  ck : Bool
  overtime : Nat
  next : Nat
  deriving DecidableEq, Repr

/-- Reads a segment-table entry. -/
def segRec (w : Word × Word) : SegRec :=
  { base := bits w.1.toNat 59 48, frame := bits w.1.toNat 44 32, nframes := bits w.1.toNat 31 0,
    ck := bit w.2.toNat 32, overtime := bits w.2.toNat 31 16, next := bits w.2.toNat 11 0 }

/-- The kinds of lanes (07 R211). -/
inductive LaneKind where
  | core | memRd | memWr | reduce | tpIn | tpOut | engine | invalid
  deriving DecidableEq, Repr

/-- KIND's codes (07 R211). -/
def laneKind : Nat → LaneKind
  | 0 => .core | 1 => .memRd | 2 => .memWr | 3 => .reduce | 4 => .tpIn | 5 => .tpOut | 6 => .engine | _ => .invalid

/-- A record of the lane table (07 R210). -/
structure LaneRec where
  cu : Nat
  kind : LaneKind
  transfers : Nat
  size : Nat
  planLat : Nat
  arriveFe : Bool
  arriveFlg : Nat
  mergeWin : Nat
  members : Nat
  port : Nat
  deriving DecidableEq, Repr

/-- Reads a lane record. -/
def laneRec (w : Word × Word) : LaneRec :=
  { cu := bits w.1.toNat 63 60, kind := laneKind (bits w.1.toNat 59 56), transfers := bits w.1.toNat 55 32,
    size := bits w.1.toNat 31 0, planLat := bits w.2.toNat 47 32, arriveFe := bit w.2.toNat 31,
    arriveFlg := bits w.2.toNat 30 26, mergeWin := bits w.2.toNat 24 16,
    members := if laneKind (bits w.1.toNat 59 56) = .memRd then bits w.2.toNat 15 4 else 1,
    port := bits w.2.toNat 3 0 }

/-- Whether the kind has a memory side (07 R480: PLAN_LAT and PORT are used). -/
def LaneKind.memSide : LaneKind → Bool
  | .memRd | .memWr | .tpIn | .tpOut | .engine => true
  | _ => false

/-- Flits of a transfer on the source leg (07 R211). -/
def LaneRec.srcFlits (l : LaneRec) : Nat :=
  match l.kind with
  | .memRd | .tpIn => 1
  | _ => 1 + ceilDiv l.size 128

/-- Flits of a transfer on the return leg (07 R211). -/
def LaneRec.retFlits (l : LaneRec) : Nat :=
  match l.kind with
  | .memRd | .tpIn => ceilDiv l.size 128
  | .memWr | .tpOut | .engine => 1
  | _ => 0

/-- A slot-table entry (07 R208). -/
structure SlotRec where
  lane : Nat
  cu : Bool
  addBuf : Nat
  addFmt : Nat
  addOp : Nat
  addSrc : Nat
  tx : Nat
  outX : Nat
  outL : Nat
  outW : Nat
  outS : Nat
  outE : Nat
  outN : Nat
  deriving DecidableEq, Repr

/-- Reads a slot-table entry. -/
def slotRec (w : Word) : SlotRec :=
  let v := w.toNat
  { lane := bits v 63 48, cu := bit v 47, addBuf := bits v 39 36, addFmt := bits v 35 34, addOp := bits v 33 32,
    addSrc := bits v 31 28, tx := bits v 27 24, outX := bits v 23 20, outL := bits v 19 16, outW := bits v 15 12,
    outS := bits v 11 8, outE := bits v 7 4, outN := bits v 3 0 }

/-- Source codes of R209. -/
def srcExt : Nat := 5
def srcLaunch : Nat := 6
def srcAdder : Nat := 7
def srcTransit : Nat := 8

/-- The outputs of an entry on mesh links, as (side, source): 1 N, 2 E, 3 S, 4 W. -/
def SlotRec.mesh (e : SlotRec) : List (Nat × Nat) := [(1, e.outN), (2, e.outE), (3, e.outS), (4, e.outW)]

/-- Every source code that an entry names. -/
def SlotRec.sources (e : SlotRec) : List Nat :=
  [e.outN, e.outE, e.outS, e.outW, e.outL, e.outX, e.tx] ++ (if e.addOp = 0 then [] else [e.addSrc])

/-- Whether the entry names a lane (07 R208, LANE). -/
def SlotRec.names (e : SlotRec) : Bool :=
  e.cu || decide (e.addOp ≠ 0) || e.sources.any fun c => decide (5 ≤ c) && decide (c ≤ 8)

/-- Slot-table entry `i` of router `r`; an entry the image does not list is zero. -/
def imgSlotWord (m : Image) (r i : Nat) : Word :=
  match m.slots.find? fun e => decide (e.1 = r) && decide (e.2.1 = i) with
  | some e => e.2.2
  | none => 0

/-- Slot-table entry `i` of router `r`, read. -/
def imgSlot (m : Image) (r i : Nat) : SlotRec := slotRec (imgSlotWord m r i)

/-- Lane record `l` of an image. -/
def imgLane (m : Image) (l : Nat) : Option LaneRec := (m.lanes.find? fun e => decide (e.1 = l)).map fun e => laneRec e.2

/-- Segment-table entry `n` of an image. -/
def imgSeg (m : Image) (n : Nat) : Option SegRec := (m.segs.find? fun e => decide (e.1 = n)).map fun e => segRec e.2

/-- The router that the output on `side` of router `r` leads to, with the side by which a flit enters it. -/
def neighbour (r side : Nat) : Option (Nat × Nat) :=
  let x := r % 64
  let y := r / 64
  match side with
  | 1 => if 0 < y then some (r - 64, 3) else none
  | 2 => if x < 63 then some (r + 1, 4) else none
  | 3 => if y < 31 then some (r + 64, 1) else none
  | 4 => if 0 < x then some (r - 1, 2) else none
  | _ => none

/-- Whether the output on `side` of router `r` is a seam link (07 R202). -/
def isSeam (r side : Nat) : Bool :=
  (decide (r % 64 = 31) && decide (side = 2)) || (decide (r % 64 = 32) && decide (side = 4))

/-- Lattice cycles that a link takes (07 R209). -/
def linkDelay (r side : Nat) : Nat := if isSeam r side then 16 else 2

/-- The unit attached to a router (07 R205): 0 to 11 the memory port of that stack, 12 the CXL interface, 13 + n lane
group n. -/
def attached (r : Nat) : Option Nat :=
  let x := r % 64
  let y := r / 64
  let d := if x < 32 then 0 else 1
  let m := x % 4
  if y = 0 then
    if m < 3 then some (6 * d + m)
    else if d = 0 then (if x < 16 then some 13 else some 12)
    else if x < 48 then some 15 else none
  else if y = 31 then
    if m < 3 then some (6 * d + 3 + m)
    else if d = 0 then (if x < 16 then some 14 else none)
    else if x < 48 then some 16 else none
  else none

/-- Where a path of a leg's tree ends: a landing port, an external link, a transit queue or an adder buffer. -/
inductive Endpoint where
  | land (r i : Nat)
  | ext (r i : Nat)
  | tx (r i : Nat)
  | adder (r i buf : Nat)
  | lost (r i : Nat)
  deriving DecidableEq, Repr

/-- The ends of the paths that source code `code` of router `r` starts in slot `i` of a frame (07 R209). Slots are
counted within the frame; `lost` marks an output without a reader on the other side. -/
def traceFrom (m : Image) (g : SegRec) : Nat → Nat → Nat → Nat → List Endpoint
  | 0, r, i, _ => [.lost r i]
  | fuel + 1, r, i, code =>
    let e := imgSlot m r (g.base + i)
    (if e.outL = code then [Endpoint.land r i] else []) ++
    (if e.outX = code then [Endpoint.ext r i] else []) ++
    (if e.tx = code then [Endpoint.tx r i] else []) ++
    (if e.addOp ≠ 0 ∧ e.addSrc = code then [Endpoint.adder r i e.addBuf] else []) ++
    (e.mesh.flatMap fun o =>
      if o.2 = code then
        match neighbour r o.1 with
        | some (r', side) => traceFrom m g fuel r' ((i + linkDelay r o.1) % g.frame) side
        | none => [Endpoint.lost r i]
      else [])

/-- Fuel for a trace: a tree passes each router at most once. -/
def traceFuel : Nat := 2049

/-- The slots of a segment's frame in which router `r` has a source of lane `l` with code `code`. -/
def sourceSlots (m : Image) (g : SegRec) (r l code : Nat) : List Nat :=
  (List.range g.frame).filter fun i =>
    let e := imgSlot m r (g.base + i)
    decide (e.lane = l) && e.sources.any fun c => decide (c = code)

/-- The routers that the image has slot tables for. -/
def imgRouters (m : Image) : List Nat :=
  (List.range (32 * m.width * m.height)).map fun i =>
    64 * (8 * m.row + i / (4 * m.width)) + 4 * m.col + i % (4 * m.width)

/-- The source cores of a lane (07 R211): the cores whose LAUNCH slots feed it in a segment. -/
def sourceCores (m : Image) (g : SegRec) (l : Nat) : List Nat :=
  (imgRouters m).filter fun r => !(sourceSlots m g r l srcLaunch).isEmpty

/-- The cores at which a lane lands in a segment (07 R209, R211): the ends of the paths from any of its sources. -/
def landingCores (m : Image) (g : SegRec) (l : Nat) : List Nat :=
  ((imgRouters m).flatMap fun r =>
    [srcLaunch, srcExt, srcTransit, srcAdder].flatMap fun code =>
      (sourceSlots m g r l code).flatMap fun i =>
        (traceFrom m g traceFuel r i code).filterMap fun p =>
          match p with
          | .land r' _ => some r'
          | _ => none).dedup

/-- The landing slots of a lane at a core within the frame, in order (08 R245). -/
def landingSlots (m : Image) (g : SegRec) (l c : Nat) : List Nat :=
  ((imgRouters m).flatMap fun r =>
    [srcLaunch, srcExt, srcTransit, srcAdder].flatMap fun code =>
      (sourceSlots m g r l code).flatMap fun i =>
        (traceFrom m g traceFuel r i code).filterMap fun p =>
          match p with
          | .land r' j => if r' = c then some j else none
          | _ => none).dedup

/-- The segment in which a basin is (07 R207). -/
def Basin.segRec (v : Basin) : Option SegRec := v.img.bind fun m => imgSeg m v.seg.cur

/-- Lane `l` of a basin's loaded schedule. -/
def Basin.lane (v : Basin) (l : Nat) : Option LaneRec := v.img.bind fun m => imgLane m l

/-- The lanes of a basin that its current segment's window names. -/
def Basin.segLanes (v : Basin) : List Nat :=
  match v.img, v.segRec with
  | some m, some g =>
    (m.slots.filterMap fun e =>
      if g.base ≤ e.2.1 ∧ e.2.1 < g.base + g.frame ∧ (slotRec e.2.2).names then some (slotRec e.2.2).lane else none).dedup
  | _, _ => []

/-- The key of a lane at a core in `landings`, and of a source of a lane in `legs`. -/
def laneKey (c l : Nat) : Nat := c * 65536 + l

/-- The lattice time of a router's die (07 R204). -/
def State.latTime (s : State) (r : Nat) : Nat := if dieOf r = 0 then s.time0 else s.time1

/-- The start of a segment in the lattice time of a router's die. -/
def Segment.startAt (g : Segment) (r : Nat) : Nat := if dieOf r = 0 then g.start else g.start1

/-- The start of a basin's segment in the lattice time of its first column's die. -/
def Basin.segStart (v : Basin) : Nat := v.seg.startAt (4 * v.desc.originCol)

end Sys2Proof.Machine
end

