-- ==== Sys2Proof/Machine/Operands.lean ====
section
/-! DEFINITION. The operand forms of instructions: operand descriptors (04 R97 to R100), elements in every format (R98,
05 R150), the memory-side word and shape record (04 R118, 08 R239, R241), and the order of an instruction's checks
(04 R96, R479). -/

namespace Sys2Proof.Machine

/-! ### Operand descriptors -/

/-- The fields of an operand descriptor, with counts decoded (04 R97). -/
structure OpDesc where
  fmt : Nat := 0
  rows : Nat := 0
  stride : Nat := 0
  rsv : Bool := false
  rowlen : Nat := 0
  addr : Nat := 0
  deriving DecidableEq, Repr

/-- A 12-bit count in which 0 encodes 4,096 (04 R97). -/
def count12 (n : Nat) : Nat := if n = 0 then 4096 else n

/-- Reads an operand descriptor (04 R97). -/
def opDesc (w : Word) : OpDesc :=
  { fmt := bits w.toNat 63 60, rows := count12 (bits w.toNat 59 48), stride := bits w.toNat 47 32,
    rsv := bit w.toNat 31, rowlen := count12 (bits w.toNat 30 19), addr := bits w.toNat 18 0 }

/-- FMT codes (04 R98). -/
def fFp32 : Nat := 0x0
def fBf16 : Nat := 0x1
def fFp16 : Nat := 0x2
def fE4m3 : Nat := 0x3
def fE5m2 : Nat := 0x4
def fInt8 : Nat := 0x5
def fMx8e4 : Nat := 0x6
def fMx8e5 : Nat := 0x7
def fMx6e3 : Nat := 0x8
def fMx6e2 : Nat := 0x9
def fMx4 : Nat := 0xA
def fW64 : Nat := 0xB
def fInt32 : Nat := 0xC
def fRaw : Nat := 0xD

/-- Bits per element (04 R98). -/
def fmtBits (f : Nat) : Nat :=
  match f with
  | 0x0 | 0xC => 32
  | 0x1 | 0x2 => 16
  | 0x8 | 0x9 => 6
  | 0xA => 4
  | 0xB => 64
  | _ => 8

/-- Alignment in bytes (04 R98). -/
def fmtAlign (f : Nat) : Nat :=
  match f with
  | 0x0 | 0xC => 4
  | 0x1 | 0x2 => 2
  | 0xB => 8
  | _ => 1

/-- Whether a format is an MX format (04 R98). -/
def isMx (f : Nat) : Bool := decide (0x6 ≤ f) && decide (f ≤ 0xA)

/-- Element columns (04 R100). -/
def OpDesc.cols (d : OpDesc) : Nat := ceilDiv (d.rowlen * 8) (fmtBits d.fmt)

/-- The physical row of an element row (04 R100). -/
def OpDesc.physRow (d : OpDesc) (r : Nat) : Nat := if isMx d.fmt then 33 * (r / 32) + r % 32 else r

/-- Physical rows (04 R100). Where ROWS of an MX format is not a multiple of 32, which is refused with DETAIL 0x03, the rows of
the last, partial group count without a scale row: it decides only whether DETAIL 0x02, a lower one, applies too (DESIGN CHOICE, log
78). -/
def OpDesc.phys (d : OpDesc) : Nat := if isMx d.fmt then 33 * (d.rows / 32) + d.rows % 32 else d.rows

/-- The width of a physical row (04 R100). -/
def OpDesc.width (d : OpDesc) (p : Nat) : Nat := if isMx d.fmt ∧ p % 33 = 32 then d.cols else d.rowlen

/-- The width of the last physical row (04 R100). -/
def OpDesc.lastWidth (d : OpDesc) : Nat := d.width (d.phys - 1)

/-- The bytes that a descriptor spans from ADDR: its extent less ADDR, plus one (04 R100). -/
def OpDesc.span (d : OpDesc) : Nat := (d.phys - 1) * d.stride + d.lastWidth

/-- The sum of the widths of the physical rows (08 R238). -/
def OpDesc.bytes (d : OpDesc) : Nat := ((List.range d.phys).map d.width).sum

/-- The byte address of a physical row. -/
def OpDesc.rowAddr (d : OpDesc) (p : Nat) : Nat := d.addr + p * d.stride

/-! ### Checks of an instruction -/

/-- A halt condition that holds: its cause and DETAIL. -/
abbrev Cond := Nat × Nat

/-- The condition, where it holds. -/
def cond (b : Bool) (cause detail : Nat) : List Cond := if b then [(cause, detail)] else []

/-- The step of R96 that a cause belongs to (04 R96, R479). -/
def checkStep (cause : Nat) : Nat :=
  if cause = cIllegal then 2 else if cause = cPoison then 3 else if cause = cBadDesc then 4
  else if cause = cMisaligned then 5 else if cause = cFormat then 6 else if cause = cRange then 7 else 8

/-- The condition with the lowest DETAIL. -/
def lowest : List Cond → Option Cond
  | [] => none
  | c :: cs =>
    match lowest cs with
    | none => some c
    | some d => if c.2 ≤ d.2 then some c else some d

/-- The condition that the device reports (04 R479): of the first step with one, the lowest DETAIL; of step 8, the
first in its stated order, in which the conditions are listed. -/
def firstFail (cs : List Cond) : Option Cond :=
  match [2, 3, 4, 5, 6, 7].findSome? fun n => lowest (cs.filter fun c => decide (checkStep c.1 = n)) with
  | some c => some c
  | none => (cs.filter fun c => decide (checkStep c.1 = 8)).head?

/-- The conditions of one descriptor (04 R97 to R100, 03 R60); `dest` marks a destination. -/
def OpDesc.conds (d : OpDesc) (dest : Bool) : List Cond :=
  cond (decide (0xE ≤ d.fmt)) cBadDesc 0x01 ++
  cond (decide (spEnd < d.addr + d.span)) cBadDesc 0x02 ++
  cond (decide (d.rowlen * 8 % fmtBits d.fmt ≠ 0) || (isMx d.fmt && decide (d.rows % 32 ≠ 0))) cBadDesc 0x03 ++
  cond (isMx d.fmt && decide (d.stride < d.cols)) cBadDesc 0x04 ++
  cond (dest && decide (1 < d.rows) && decide (d.stride < d.rowlen)) cBadDesc 0x05 ++
  cond d.rsv cBadDesc 0x06 ++
  cond (decide (d.addr % fmtAlign d.fmt ≠ 0) || decide (d.stride % fmtAlign d.fmt ≠ 0)) cMisaligned 0x02

/-! ### Elements -/

/-- Bits `n` of element `c` of a row at byte address `a`: elements lie little-endian in the row's bytes (05 R150). -/
def elemBits (k : Core) (a c w : Nat) : Nat :=
  let lo := c * w / 8
  let n := (c * w + w - 1) / 8 + 1 - lo
  bits (leNat (k.spRead (a + lo) n)) (c * w % 8 + w - 1) (c * w % 8)

/-- Whether a block that element `c` lies in is poisoned. -/
def elemPoison (k : Core) (a c w : Nat) : Bool :=
  let lo := c * w / 8
  k.spPoisoned (a + lo) ((c * w + w - 1) / 8 + 1 - lo)

/-- The floating-point format of an FMT code, as an element (05 R147); integer formats have none. -/
def fmtFloat (f : Nat) : Option FFmt :=
  match f with
  | 0x0 => some fp32
  | 0x1 => some bf16
  | 0x2 => some fp16
  | 0x3 | 0x6 => some e4m3
  | 0x4 | 0x7 => some e5m2
  | 0x8 => some e3m2
  | 0x9 => some e2m3
  | 0xA => some e2m1
  | _ => none

/-- The value of an E8M0 scale byte: NaN, or the power of two by which its block scales (05 R148, R149). -/
def scaleBy (e : Nat) (v : FVal) : FVal := if e = 0xFF then .nan else v.scale ((e : Int) - 127)

/-- The value of an element's bits (05 R148): W64 under window exponent `wexp` (R159). -/
def elemValue (f wexp v : Nat) : FVal :=
  match fmtFloat f with
  | some g => g.decode v
  | none => if f = fW64 then w64Val wexp v else intVal (fmtBits f) v

/-- Element (r, c) of a descriptor: its value with its block scale applied, and whether it or its scale comes from a
poisoned block (04 R99, R100; 05 R148, R170). -/
def loadElem (k : Core) (d : OpDesc) (wexp r c : Nat) : FVal × Bool :=
  let w := fmtBits d.fmt
  let a := d.rowAddr (d.physRow r)
  let v := elemValue d.fmt wexp (elemBits k a c w)
  if isMx d.fmt then
    let sa := d.rowAddr (33 * (r / 32) + 32) + c
    (scaleBy (leNat (k.spRead sa 1)) v, elemPoison k a c w || k.spPoisoned sa 1)
  else (v, elemPoison k a c w)

/-- The raw bits of element (r, c), and its poison. -/
def loadRaw (k : Core) (d : OpDesc) (r c : Nat) : Nat × Bool :=
  let a := d.rowAddr (d.physRow r)
  (elemBits k a c (fmtBits d.fmt), elemPoison k a c (fmtBits d.fmt))

/-- The little-endian number of packed elements (05 R150). -/
def packElems (w : Nat) : List Nat → Nat
  | [] => 0
  | v :: vs => v % 2 ^ w + 2 ^ w * packElems w vs

/-- Writes packed elements at `a` as one write (03 R68): a block becomes poisoned when it takes a bit of a poisoned element, and a
block written in full by clean elements becomes clean. -/
def storeElems (k : Core) (a w : Nat) (vs : List (Nat × Bool)) : Core :=
  let n := (vs.length * w + 7) / 8
  let bytes := leBytes n (packElems w (vs.map (·.1)))
  let bad := (vs.zipIdx.filter fun e => e.1.2).flatMap fun e =>
    [(a + e.2 * w / 8) / 64, (a + (e.2 * w + w - 1) / 8) / 64]
  let blocks := if n = 0 then [] else (List.range ((a + n - 1) / 64 - a / 64 + 1)).map fun j => a / 64 + j
  { k with
    sp := SMap.setList 0 k.sp a bytes
    spPoison := blocks.foldl (fun m b =>
      SMap.upd false m b fun old => poisonAfter old a n b (bad.contains b)) k.spPoison }

/-! ### The memory-side word and the shape record -/

/-- The fields of a memory-side word (04 R118). -/
structure MemSide where
  rsv : Nat := 0
  shape : Nat := 0
  mstride : Nat := 0
  deriving DecidableEq, Repr

/-- Reads a memory-side word (04 R118). -/
def memSide (w : Word) : MemSide :=
  { rsv := bits w.toNat 63 51, shape := bits w.toNat 50 32, mstride := bits w.toNat 31 0 }

/-- The fields of a shape record (08 R239), with one step in both dimensions where there is none. -/
structure Shape where
  rsv : Bool := false
  count4 : Nat := 1
  count3 : Nat := 1
  mstride3 : Nat := 0
  mstride4 : Nat := 0
  sstride3 : Nat := 0
  sstride4 : Nat := 0
  deriving DecidableEq, Repr

/-- Reads a shape record's four words (08 R239); none is SHAPE = 0. -/
def shapeOf : List Word → Shape
  | [w0, w1, w2, w3] =>
    { rsv := decide (bits w0.toNat 63 48 ≠ 0) || decide (bits w0.toNat 31 16 ≠ 0) || decide (bits w1.toNat 63 48 ≠ 0) ||
        decide (bits w2.toNat 63 48 ≠ 0) || decide (bits w3.toNat 63 51 ≠ 0) || decide (bits w3.toNat 31 19 ≠ 0)
      count4 := bits w0.toNat 47 32, count3 := bits w0.toNat 15 0, mstride3 := bits w1.toNat 47 0,
      mstride4 := bits w2.toNat 47 0, sstride4 := bits w3.toNat 50 32, sstride3 := bits w3.toNat 18 0 }
  | _ => {}

/-- The four words of the shape record at a scratchpad address, with the poison of their block (08 R241). -/
def readShape (k : Core) (a : Nat) : List Word × Bool :=
  ((List.range 4).map fun i => BitVec.ofNat 64 (leNat (k.spRead (a + 8 * i) 8)), k.spPoisoned a 32)

/-- Whether the shape record at SHAPE is read (08 R241). -/
def MemSide.reads (m : MemSide) : Bool :=
  decide (m.shape ≠ 0) && decide (m.shape < spEnd) && decide (m.shape % 32 = 0)

/-- One row of a stream: scratchpad address, memory address, width. -/
abbrev Row := Nat × Nat × Nat

/-- The rows of a barge's stream in its order (08 R238, R240). -/
def streamRows (d : OpDesc) (sh : Shape) (ba mstride : Nat) : List Row :=
  (List.range sh.count4).flatMap fun i4 => (List.range sh.count3).flatMap fun i3 => (List.range d.phys).map fun r =>
    (d.addr + i4 * sh.sstride4 + i3 * sh.sstride3 + r * d.stride,
     ba + i4 * sh.mstride4 + i3 * sh.mstride3 + r * mstride, d.width r)

/-- One past the greatest scratchpad byte of the stream. -/
def streamSpEnd (d : OpDesc) (sh : Shape) : Nat :=
  d.addr + (sh.count4 - 1) * sh.sstride4 + (sh.count3 - 1) * sh.sstride3 + d.span

/-- One past the greatest memory byte of the stream: the greatest over its rows at their widths. -/
def streamBaEnd (d : OpDesc) (sh : Shape) (ba mstride : Nat) : Nat :=
  ba + (sh.count4 - 1) * sh.mstride4 + (sh.count3 - 1) * sh.mstride3 +
    ((List.range d.phys).map fun r => r * mstride + d.width r).foldl max 0

/-- The stream's length (08 R238). -/
def streamLen (d : OpDesc) (sh : Shape) : Nat := d.bytes * sh.count3 * sh.count4

/-- The extent of one dimension-3 step and of COUNT3 steps (08 R241). -/
def shapeOverlaps (d : OpDesc) (sh : Shape) : Bool :=
  (decide (1 < sh.count3) && decide (sh.sstride3 < d.span)) ||
    (decide (1 < sh.count4) && decide (sh.sstride4 < (sh.count3 - 1) * sh.sstride3 + d.span))

/-- The conditions of the memory-side word and its shape record (04 R118; 08 R241), for a transfer between descriptor
`d` and memory at `ba`; `dest` marks a scratchpad destination, `limit` is BA_SIZE_PAGES × 2 MiB. -/
def memSideConds (k : Core) (d : OpDesc) (m : MemSide) (ba limit : Nat) (dest : Bool) : List Cond :=
  let al := fmtAlign d.fmt
  let rd := readShape k m.shape
  let sh := if m.reads then shapeOf rd.1 else {}
  cond (decide (m.rsv ≠ 0)) cBadDesc 0x06 ++
  cond (decide (spEnd ≤ m.shape)) cBadDesc 0x02 ++
  cond (decide (m.shape % 32 ≠ 0)) cMisaligned 0x05 ++
  cond (decide (ba % al ≠ 0) || decide (m.mstride % al ≠ 0)) cMisaligned 0x03 ++
  (if m.reads then
    cond rd.2 cPoison 0x02 ++
    cond (sh.rsv || decide (sh.count3 = 0) || decide (sh.count4 = 0)) cRange 0x05 ++
    cond (decide (sh.sstride3 % al ≠ 0) || decide (sh.sstride4 % al ≠ 0)) cMisaligned 0x02 ++
    cond (decide (sh.mstride3 % al ≠ 0) || decide (sh.mstride4 % al ≠ 0)) cMisaligned 0x03 ++
    cond (decide (spEnd < streamSpEnd d sh)) cBadDesc 0x02 ++
    cond (dest && shapeOverlaps d sh) cBadDesc 0x05
  else []) ++
  cond (decide (limit < streamBaEnd d sh ba m.mstride)) cTier 0x03

/-- The scratchpad bytes of rows, in stream order. -/
def rowsBytes (rows : List (Nat × Nat)) : List Nat := rows.flatMap fun r => (List.range r.2).map fun i => r.1 + i

/-- Whether, of the bytes that one cc of a landing writes, two blocks lie in one bank (08 R244; 03 R61). -/
def bankClash (addrs : List Nat) : Bool :=
  let blocks := (addrs.map fun a => a / 64).dedup
  !decide ((blocks.map fun b => b % 32).Nodup)

/-- Splits a list into pieces of `n`. -/
def chunksOf {α : Type} (n : Nat) : Nat → List α → List (List α)
  | 0, _ => []
  | _ + 1, [] => []
  | fuel + 1, l => l.take n :: chunksOf n fuel (l.drop n)

/-- Whether a landing breaks R244's rule in some cc. -/
def landingClash (rows : List (Nat × Nat)) : Bool :=
  let bs := rowsBytes rows
  (chunksOf 64 (bs.length + 1) bs).any bankClash

/-! ### Issue -/

/-- What an instruction's word 0 may hold (04 R94, R101): its opcode, the word counts and stream that the opcode map allows, the
fields it uses, whether FE is allowed, and whether an option value is reserved. -/
structure Fields where
  op : Nat
  words : List Nat
  only : Option Strm := none
  imm : BitVec 32 := 0
  opt : BitVec 4 := 0
  rb : Bool := false
  ra : Bool := false
  rd : Bool := false
  fe : Bool := false
  reserved : Bool := false

/-- The ILLEGAL_OPCODE conditions (04 R94, R101, R109; 03 R59). -/
def Fields.conds (f : Fields) (i : Insn) (st : Strm) (t : Stream) : List Cond :=
  cond (!opcodeDefined i.opcode) cIllegal 0x01 ++ cond (!f.words.contains (i.wc.toNat + 1)) cIllegal 0x02 ++
  cond (match f.only with | some o => decide (o ≠ st) | none => false) cIllegal 0x03 ++
  cond (f.reserved || decide (i.imm &&& ~~~f.imm ≠ 0) || decide (i.opt &&& ~~~f.opt ≠ 0) ||
    (!f.rb && decide (i.rb ≠ 0)) || (!f.ra && decide (i.ra ≠ 0)) || (!f.rd && decide (i.rd ≠ 0)) ||
    (i.fe && !f.fe) || (!i.fe && decide (i.flg ≠ 0))) cIllegal 0x04 ++
  cond (t.loops.any fun l =>
    decide (l.start ≤ t.pc) && decide (t.pc ≤ l.last) && decide (l.last < t.pc + 8 * i.wc.toNat)) cIllegal 0x05

/-- The conditions of step 1 of R96: a poisoned fetched block, and a word outside the program region. -/
def fetchCond (k : Core) (i : Insn) (t : Stream) : Option Cond :=
  let n := 8 * (i.wc.toNat + 1)
  if k.spPoisoned t.pc n then some (cPoison, 0x01)
  else if t.pc < k.base ∨ k.base + k.size < t.pc + n then some (cPrivilege, 0x01)
  else none

/-- Whether a stream can issue: its core is an unfenced core of a RUNNING basin that is not paused for a test, the
clocks run, and the stream runs and waits for nothing but its unit (03 R58, R84; log 16). -/
def State.canIssue (s : State) (c : Nat) (st : Strm) : Bool :=
  let k := s.core c
  let t := k.stream st
  (match s.basinOf c with
   | some b => decide ((s.basin b).phase = .running) && !(s.basin b).testPause
   | none => false) &&
  !s.power.clocksStopped && !k.fenced && !t.stopped && !t.halted &&
  (match t.wait with
   | .none | .unit _ => true
   | _ => false)

/-- Presents an instruction: the stored errors that its reads meet, the checks of R96 in their order, and its effect
where none fails. A stream that cannot issue takes nothing, nor does one whose words hold the opcode of another instruction
(log 16). -/
def State.present (s : State) (i : Issue) (f : State → Core → Fields) (conds : State → Core → Stream → List Cond)
    (act : State → State) : State :=
  if s.canIssue i.core i.strm && i.insn.presents (f s (s.core i.core)).op then
    let s := s.applyEcc i.ecc
    let k := s.core i.core
    let t := k.stream i.strm
    match fetchCond k i.insn t with
    | some c => s.haltCore i.core i.strm c.1 c.2
    | none =>
      match firstFail ((f s k).conds i.insn i.strm t ++ conds s k t) with
      | some c => s.haltCore i.core i.strm c.1 c.2
      | none => act s
  else s

/-- A stream after the instruction whose last word lies at `last` (03 R82, 04 R109): the innermost level that ends
there advances, and a level that is done closes and lets the enclosing one that shares `last` advance. -/
def Stream.after (t : Stream) (last next : Nat) : List LoopLevel → Stream
  | [] => { t with loops := [], pc := next }
  | l :: ls =>
    if l.last = last then
      if l.it + 1 < l.count then
        ({ t with loops := { l with it := l.it + 1 } :: ls, pc := l.start }).setReg l.rd (BitVec.ofNat 64 (l.it + 1)) false
      else Stream.after t last next ls
    else { t with loops := l :: ls, pc := next }

/-- A stream after an instruction of `wc + 1` words that took `cc` cycles of issue (04 R102). -/
def Stream.retire (t : Stream) (wc cc : Nat) : Stream :=
  let last := t.pc + 8 * wc
  let t := { t with wait := .none, issue := t.issue + cc, ahead := t.ahead + cc }
  t.after last (last + 8) t.loops

/-- The state after an instruction of a stream of core `c` has issued. -/
def State.retire (s : State) (c : Nat) (st : Strm) (wc cc : Nat) : State :=
  (s.updCore c fun k => k.setStream st ((k.stream st).retire wc cc)).count .core c (if st = .a then 1 else 2) cc

/-- Levels that a taken branch to `target` leaves (03 R83). -/
def leaveLoops (target : Nat) : List LoopLevel → List LoopLevel
  | [] => []
  | l :: ls => if l.start ≤ target ∧ target ≤ l.last then l :: ls else leaveLoops target ls

/-- A stream after a taken branch (04 R102, R108; 03 R83): one cc of issue and two of FETCH. -/
def Stream.branch (t : Stream) (target : Nat) : Stream :=
  { t with
    pc := target, loops := leaveLoops target t.loops, wait := .none, issue := t.issue + 1, ahead := t.ahead + 3
    stalls := SMap.upd 0 t.stalls 13 (· + 2) }

/-- The state after a taken branch. -/
def State.branch (s : State) (c : Nat) (st : Strm) (target : Nat) : State :=
  ((s.updCore c fun k => k.setStream st ((k.stream st).branch target)).count .core c (if st = .a then 1 else 2) 1).count
    .core c (if st = .a then 17 else 30) 2

/-- The conditions of a branch target (03 R66): alignment, and the program region. -/
def targetConds (k : Core) (target : Word) : List Cond :=
  cond (decide (target.toNat % 8 ≠ 0)) cMisaligned 0x01 ++
  cond (decide (target.toNat < k.base) || decide (k.base + k.size ≤ target.toNat)) cPrivilege 0x01

/-- A stream that its unit cannot serve yet waits, counting the cause of that rank (03 R84, 04 R103; log 16). -/
def State.unitWait (s : State) (c : Nat) (st : Strm) (rank : Nat) : State :=
  s.updCore c fun k => k.setStream st { k.stream st with wait := .unit rank }

end Sys2Proof.Machine
end

