-- ==== Sys2Proof/Machine/Flags.lean ====
section
/-! DEFINITION. The event flags of a core (03 R72 to R74), nominal slots and lateness of a leg (07 R214, R219; 08 R249),
and a stream that is blocked on the other (03 R85). -/

namespace Sys2Proof.Machine

/-- Sets a flag of a core (03 R72). -/
def State.setFlag (s : State) (c f : Nat) : State := s.updCore c fun k => { k with flags := setBit k.flags f true }

/-- Sets the flag that a dispatched instruction names, where FE is 1 (04 R102). -/
def State.setInsnFlag (s : State) (c : Nat) (i : Insn) : State := if i.fe then s.setFlag c i.flg.toNat else s

/-! ### Nominal slots -/

/-- The key of a leg's source: router, lane and source code (07 R210). -/
def legKey (r l code : Nat) : Nat := (r * 65536 + l) * 32 + code

/-- Flits that a source of lane `l` has sent in the segment. -/
def Basin.sent (v : Basin) (r l code : Nat) : Nat := SMap.get 0 v.legs (legKey r l code)

/-- The own slots of a source that are not marked CU, within a frame (07 R214, R215). -/
def plainSlots (m : Image) (g : SegRec) (r l code : Nat) : List Nat :=
  (sourceSlots m g r l code).filter fun i => !(imgSlot m r (g.base + i)).cu

/-- The nominal slot of flit `k` of a source, as a lattice time: the k-th own slot not marked CU, counted from the start
of the segment (07 R214). -/
def nominalTime (v : Basin) (m : Image) (g : SegRec) (r l code k : Nat) : Option Nat :=
  let ps := plainSlots m g r l code
  (ps[k % ps.length]?).map fun p => v.seg.startAt r + k / ps.length * g.frame + p

/-- Own slots per frame that a unit has for a lane at a router, at its external link or through transit. -/
def unitSlots (m : Image) (g : SegRec) (r l : Nat) : Nat :=
  (sourceSlots m g r l srcExt).length + (sourceSlots m g r l srcTransit).length

/-- Whether the source leg of an ENGINE lane starts at a router, and not its return leg: the leg that carries the data has the most
own slots; the lower router on ties (07 R211; DEDUCED, log 84). -/
def engineStarts (m : Image) (g : SegRec) (r l : Nat) : Bool :=
  (imgRouters m).all fun q => decide (unitSlots m g q l < unitSlots m g r l) || (decide (unitSlots m g q l = unitSlots m g r l) && decide (r ≤ q))

/-- The source of an ENGINE lane's source leg, as (router, code). -/
def engineSource (m : Image) (g : SegRec) (l : Nat) : Option (Nat × Nat) :=
  ((imgRouters m).find? fun r => decide (unitSlots m g r l ≠ 0) && engineStarts m g r l).map fun r =>
    (r, if (sourceSlots m g r l srcExt).isEmpty then srcTransit else srcExt)

/-- The source of an ENGINE lane's return leg. -/
def engineReturn (m : Image) (g : SegRec) (l : Nat) : Option (Nat × Nat) :=
  ((imgRouters m).find? fun r => decide (unitSlots m g r l ≠ 0) && !engineStarts m g r l).map fun r =>
    (r, if (sourceSlots m g r l srcExt).isEmpty then srcTransit else srcExt)

/-- Flits per transfer of a source: requests and data leave a core, returns a unit or a portal (07 R211). -/
def legFlits (m : Image) (g : SegRec) (lr : LaneRec) (r l code : Nat) : Nat :=
  if code = srcExt ∨ code = srcTransit then
    (match lr.kind with | .engine => if engineStarts m g r l then lr.srcFlits else lr.retFlits | _ => lr.retFlits)
  else lr.srcFlits

/-- The nominal time of flit `k` of a source; a return's first flit is due PLAN_LAT after its request's nominal slot, the
latest request where there are several (07 R219). -/
def dueTime (v : Basin) (m : Image) (g : SegRec) (lr : LaneRec) (r l code k : Nat) : Option Nat :=
  match nominalTime v m g r l code k with
  | none => none
  | some t =>
    if lr.kind = .engine then
      match (if engineStarts m g r l then none else engineSource m g l) with
      | some q => (match nominalTime v m g q.1 l q.2 (k * lr.srcFlits) with | some u => some (max t (u + lr.planLat)) | none => some t)
      | none => some t
    else if (code = srcExt ∨ code = srcTransit) ∧ (lr.kind = .memRd ∨ lr.kind = .tpIn) then
      some ((sourceCores m g l).foldl (fun acc c =>
        match nominalTime v m g c l srcLaunch (k / lr.retFlits) with
        | some q => max acc (q + lr.planLat)
        | none => acc) t)
    else some t

/-- The sources of a lane in a segment, as (router, code): LAUNCH, EXT and TRANSIT sources. -/
def laneSources (m : Image) (g : SegRec) (l : Nat) : List (Nat × Nat) :=
  (imgRouters m).flatMap fun r => ([srcLaunch, srcExt, srcTransit].filter fun code =>
    !(sourceSlots m g r l code).isEmpty).map fun code => (r, code)

/-- Whether a source of lane `l` owes a flit of transfer `t`: its next flit not sent lies in that transfer or follows
it, and a flit of the transfer is past its nominal slot and not sent (07 R214, 08 R249). -/
def State.owesTransfer (s : State) (v : Basin) (m : Image) (g : SegRec) (l : Nat) (lr : LaneRec) (r code t : Nat) : Bool :=
  let n := legFlits m g lr r l code
  let k := max (v.sent r l code) (t * n)
  decide (k < (t + 1) * n) &&
    (match dueTime v m g lr r l code k with
     | some due => decide (due < s.latTime r)
     | none => false)

/-! ### Armed flags -/

/-- Whether lane `l` lands at core `c` with an arrival flag `f` that is still armed (07 R480). -/
def laneArms (v : Basin) (m : Image) (g : SegRec) (c f l : Nat) : Bool :=
  match imgLane m l with
  | some lr =>
    (decide (lr.kind = .core) || decide (lr.kind = .reduce)) && lr.arriveFe && decide (lr.arriveFlg = f) &&
      decide ((SMap.get {} v.landings (laneKey c l) : Landing).arrived < lr.transfers) &&
      (landingCores m g l).contains c
  | none => false

/-- Whether a scheduled arrival arms flag `f` at core `c`. -/
def State.armedByLane (s : State) (b c f : Nat) : Bool :=
  let v := s.basin b
  match v.img, v.segRec with
  | some m, some g => v.segLanes.any fun l => laneArms v m g c f l
  | _, _ => false

/-- Whether a SLUICE that a stream waits on names flag `f` (03 R74). -/
def Stream.armsBySluice (t : Stream) (f : Nat) : Bool :=
  match t.wait with
  | .sluice _ _ fe flg => fe && decide (flg = f)
  | _ => false

/-- Whether array work in flight names flag `f` (03 R74). -/
def Core.armedByArray (k : Core) (f : Nat) : Bool :=
  (k.streamPipe ++ k.drainPipe).any fun o => o.insn.fe && decide (o.insn.flg.toNat = f)

/-- The barges that arm flag `f`: not cancelled (04 R125, 03 R74). -/
def Core.armingBarges (k : Core) (f : Nat) : List Barge :=
  k.barges.filter fun g => decide (g.flag = some f) && !g.cancelled

/-- Whether a barge, a scheduled arrival or a sluice arms flag `f` at a core (03 R74). -/
def State.armedByTransfer (s : State) (b c f : Nat) : Bool :=
  let k := s.core c
  !(k.armingBarges f).isEmpty || s.armedByLane b c f || k.a.armsBySluice f || k.x.armsBySluice f

/-- The flags of a mask that are clear. -/
def clearFlags (flags mask : BitVec 32) : List Nat :=
  (List.range 32).filter fun f => mask.getLsbD f && !flags.getLsbD f

/-- Whether what a stream waits for in a queue has come: an entry to pop, in the stage or in the ring, or room to push
(03 R78, R79). -/
def Core.queueReady (k : Core) (t : Stream) : Bool :=
  match t.wait with
  | .pop q _ => let v : DQueue := SMap.get {} k.queues q; !(v.stage.isEmpty && v.ring.isEmpty)
  | .push q _ _ =>
    let v : DQueue := SMap.get {} k.queues q
    (v.ring.isEmpty && decide (v.stage.length < 8)) || decide (v.ring.length < (k.ring q).2)
  | _ => false

/-- Whether a stream is blocked on the other stream (03 R85): it stalls with FLAG_WAIT, since a flag that it waits for is armed by
nothing and none by a transfer, or with QUEUE_EMPTY or QUEUE_FULL, and the entry or the room has not come. -/
def State.blocked (s : State) (b c : Nat) (st : Strm) : Bool :=
  let k := s.core c
  let t := k.stream st
  match t.wait with
  | .flags mask _ =>
    let fs := clearFlags k.flags mask
    !(fs.any (s.armedByTransfer b c)) && fs.any fun f => !k.armedByArray f
  | .pop _ _ | .push _ _ _ => !k.queueReady t
  | _ => false

end Sys2Proof.Machine
end

