-- ==== Sys2Proof/Machine/Gradient.lean ====
section
/-! DEFINITION. Gradient contributions: the gradient layer table of an image (06 R186), the counts and refusals of the
training support unit (R187), what it records of a contribution (R190, R191), and the closing sluice that could never
complete (R196). -/

namespace Sys2Proof.Machine

/-- An entry of the gradient layer table (06 R186). -/
structure GradRec where
  expectOut : Nat
  expectRed : Nat
  wexp : Nat
  exact : Bool
  collective : Bool
  valid : Bool
  deriving DecidableEq, Repr

/-- Reads an entry of the gradient layer table. -/
def gradRec (w : Word) : GradRec :=
  { expectOut := bits w.toNat 63 48, expectRed := bits w.toNat 47 24, wexp := bits w.toNat 23 16, exact := bit w.toNat 2,
    collective := bit w.toNat 1, valid := bit w.toNat 0 }

/-- An image's list as a map: the first entry of a key counts. -/
def imgMap {α : Type} (l : List (Nat × α)) : SMap α := l.foldr (fun e m => SMap.insert m e.1 e.2) []

/-- The gradient layer table of a basin's program. -/
def Basin.grads (v : Basin) : SMap Word := match v.img with | some m => imgMap m.grads | none => []

/-- Entry `n` of the gradient layer table. -/
def Basin.grad (v : Basin) (n : Nat) : GradRec := gradRec (SMap.get 0 v.grads n)

/-- The layers that receive a gradient in every step, ascending (06 R186, VALID). -/
def Basin.validLayers (v : Basin) : List Nat := (v.grads.filter fun e => (gradRec e.2).valid).map (·.1)

/-- CLOSE_SLUICE (06 R186). -/
def Basin.closeSluice (v : Basin) : Nat := match v.img with | some m => bits m.gradHeader.toNat 15 0 | none => 0

/-- The counts of layer `n`. -/
def Basin.layer (v : Basin) (n : Nat) : LayerAcct := SMap.get {} v.layers n

/-- The basin with the counts of layer `n` changed. -/
def Basin.updLayer (v : Basin) (n : Nat) (f : LayerAcct → LayerAcct) : Basin :=
  { v with layers := SMap.set {} v.layers n (f (v.layer n)) }

/-- The format that a layer requires of a contribution (06 R187): `out` marks a memory PUT. -/
def GradRec.needs (r : GradRec) (out : Bool) : Nat := if r.exact && (!out || r.collective) then fW64 else fFp16

/-- The conditions of a contribution that come before every SCHEDULE_FAULT (06 R187): VALID = 0, and the format. -/
def Basin.gradConds (v : Basin) (layer : Option Nat) (out : Bool) (fmt : Nat) : List Cond :=
  match layer with
  | none => []
  | some n =>
    let r := v.grad n
    cond (r.valid && decide (fmt ≠ r.needs out)) cFormat 0x07 ++ cond (!r.valid) cRange 0x06

/-- TIED_GRADIENT: the layer's count stands at what it expects (06 R187; 04 R124). -/
def Basin.tiedConds (v : Basin) (layer : Option Nat) (out : Bool) : List Cond :=
  match layer with
  | none => []
  | some n =>
    cond (if out then decide ((v.grad n).expectOut ≤ (v.layer n).out) else decide ((v.grad n).expectRed ≤ (v.layer n).red))
      cTied 0x00

/-- The lesser of an optional number and a number. -/
def minOpt (a : Option Nat) (n : Nat) : Option Nat := some (match a with | some m => min m n | none => n)

/-- The greater of an optional number and a number. -/
def maxOpt (a : Option Nat) (n : Nat) : Option Nat := some (match a with | some m => max m n | none => n)

/-- A contribution issues: its count advances, its step count is recorded, and a memory PUT to an EXACT layer without a
collective records its core's EXACT_OVF (06 R187, R190, R191). -/
def Basin.contribute (v : Basin) (layer : Option Nat) (out : Bool) (step : Nat) (xstat : Bool) : Basin :=
  match layer with
  | none => v
  | some n =>
    let r := v.grad n
    v.updLayer n fun a =>
      { a with
        red := if out then a.red else a.red + 1
        out := if out then a.out + 1 else a.out
        minStep := minOpt a.minStep step
        maxStep := maxOpt a.maxStep step
        overflow := a.overflow || (out && r.exact && !r.collective && xstat) }

/-- Splits bytes into little-endian numbers of `n` bytes. -/
def leWords (n : Nat) : Nat → List Byte → List Nat
  | 0, _ => []
  | fuel + 1, bs => if bs.length < n ∨ n = 0 then [] else leNat (bs.take n) :: leWords n fuel (bs.drop n)

/-- Whether data in a format holds an FP16 infinity or NaN, or an INVALID W64 value (06 R190). -/
def badData (fmt : Nat) (bs : List Byte) : Bool :=
  if fmt = fFp16 then (leWords 2 bs.length bs).any fun h => decide (bits h 14 10 = 31)
  else if fmt = fW64 then (leWords 8 bs.length bs).any fun h => decide (h = w64Invalid)
  else false

/-- The training support unit inspects data of a layer (06 R190). -/
def Basin.inspect (v : Basin) (layer : Option Nat) (fmt : Nat) (bs : List Byte) (poison sat : Bool) : Basin :=
  match layer with
  | none => v
  | some n => v.updLayer n fun a => { a with poison := a.poison || poison, overflow := a.overflow || sat || badData fmt bs }

/-- Halts every core of a basin with a cause of the basin, and moves it to HALTED (02 R55, 06 R196). -/
def State.haltCores (s : State) (b stream cause detail : Nat) : State :=
  (s.updCores (s.liveCores b) fun _ k =>
    let r : HaltRec := { aPc := k.a.pc, xPc := k.x.pc, detail := detail, stream := stream, cause := cause }
    { k with hrec := k.hrec.latch r }).haltBasin b cause

/-- Whether a VALID layer's count lies below what it expects (06 R196). -/
def Basin.short (v : Basin) : Bool :=
  v.validLayers.any fun n => decide ((v.layer n).red < (v.grad n).expectRed) || decide ((v.layer n).out < (v.grad n).expectOut)

/-- Whether a G-marked transfer is in flight (06 R196). -/
def Basin.gradsInFlight (v : Basin) : Bool :=
  v.layers.any fun e => decide (e.2.redDone < e.2.red) || decide (e.2.outDone < e.2.out)

/-- Once every core has arrived at the closing sluice and no transfer can still contribute, a layer short of its count
halts the basin (06 R196). -/
def State.checkClosing (s : State) (b : Nat) : State :=
  let v := s.basin b
  match v.sluice with
  | some q =>
    if v.phase = .running ∧ q.n = v.closeSluice ∧ q.arrived.length = (s.liveCores b).length ∧ v.short ∧ !v.gradsInFlight then
      s.haltCores b 2 cSluice 0x05
    else s
  | none => s

end Sys2Proof.Machine
end

