-- ==== Sys2Proof/Machine/Scalar.lean ====
section
/-! DEFINITION. Scalar instructions: arithmetic (04 R106), immediates (R107) and special registers (R112 to R114). -/

namespace Sys2Proof.Machine

/-- The fields of an arithmetic instruction: IMM in place of RB when OPT[0] is 1 (04 R106). -/
def aluFields (op : Nat) (i : Insn) : Fields :=
  { op := op, words := [1], imm := if i.opt.getLsbD 0 then BitVec.allOnes 32 else 0, opt := 1, rb := !i.opt.getLsbD 0,
    ra := true, rd := true }

/-- The second operand, with its tag: reg[RB], or sext(IMM) when OPT[0] is 1 (04 R106). -/
def aluB (t : Stream) (i : Insn) : Word × Bool :=
  if i.opt.getLsbD 0 then (sext32 i.imm, false) else (t.reg i.rb.toNat, t.tag i.rb.toNat)

/-- The stream with the result written; it carries a poison tag if either source does (04 R106, 03 R69). -/
def Stream.alu (t : Stream) (i : Insn) (f : Word → Word → Word) : Stream :=
  t.setReg i.rd.toNat (f (t.reg i.ra.toNat) (aluB t i).1) (t.tag i.ra.toNat || (aluB t i).2)

/-- An arithmetic instruction of opcode `op` that computes `f` and takes `cc` cycles to issue (04 R106). -/
def State.alu (s : State) (i : Issue) (op cc : Nat) (f : Word → Word → Word) : State :=
  s.present i (fun _ _ => aluFields op i.insn) (fun _ _ _ => []) fun s =>
    (s.updCore i.core fun k => k.setStream i.strm ((k.stream i.strm).alu i.insn f)).retire i.core i.strm 0 cc

/-- ADD (04 R106). -/
def execAdd (i : Issue) (s : State) : Out State := .next (s.alu i 0x10 1 fun a b => a + b)

/-- SUB (04 R106). -/
def execSub (i : Issue) (s : State) : Out State := .next (s.alu i 0x11 1 fun a b => a - b)

/-- MUL (04 R106): the low 64 bits of the product; takes 2 cc. -/
def execMul (i : Issue) (s : State) : Out State := .next (s.alu i 0x12 2 fun a b => a * b)

/-- AND (04 R106). -/
def execAnd (i : Issue) (s : State) : Out State := .next (s.alu i 0x13 1 fun a b => a &&& b)

/-- OR (04 R106). -/
def execOr (i : Issue) (s : State) : Out State := .next (s.alu i 0x14 1 fun a b => a ||| b)

/-- XOR (04 R106). -/
def execXor (i : Issue) (s : State) : Out State := .next (s.alu i 0x15 1 fun a b => a ^^^ b)

/-- SHL (04 R106): by b[5:0]. -/
def execShl (i : Issue) (s : State) : Out State := .next (s.alu i 0x16 1 fun a b => a <<< (bits b.toNat 5 0))

/-- SHR (04 R106): by b[5:0], zero fill. -/
def execShr (i : Issue) (s : State) : Out State := .next (s.alu i 0x17 1 fun a b => a >>> (bits b.toNat 5 0))

/-- SRA (04 R106): by b[5:0], sign fill. -/
def execSra (i : Issue) (s : State) : Out State := .next (s.alu i 0x18 1 fun a b => a.sshiftRight (bits b.toNat 5 0))

/-- MIN (04 R106): the signed lesser. -/
def execMin (i : Issue) (s : State) : Out State := .next (s.alu i 0x19 1 fun a b => if b.slt a then b else a)

/-- MAX (04 R106): the signed greater. -/
def execMax (i : Issue) (s : State) : Out State := .next (s.alu i 0x1A 1 fun a b => if a.slt b then b else a)

/-- The fields of MOVI and MOVHI (04 R107). -/
def moviFields (op : Nat) : Fields := { op := op, words := [1], imm := BitVec.allOnes 32, rd := true }

/-- MOVI (04 R107): sext(IMM), and the poison tag cleared. -/
def execMovi (i : Issue) (s : State) : Out State :=
  .next (s.present i (fun _ _ => moviFields 0x1B) (fun _ _ _ => []) fun s =>
    (s.updCore i.core fun k => k.setStream i.strm
      ((k.stream i.strm).setReg i.insn.rd.toNat (sext32 i.insn.imm) false)).retire i.core i.strm 0 1)

/-- MOVHI's result: IMM above the register's low half (04 R107). -/
def movhiVal (imm : BitVec 32) (v : Word) : Word := imm ++ v.setWidth 32

/-- MOVHI (04 R107): the upper half from IMM; the lower half and the poison tag stay. -/
def execMovhi (i : Issue) (s : State) : Out State :=
  .next (s.present i (fun _ _ => moviFields 0x1C) (fun _ _ _ => []) fun s =>
    (s.updCore i.core fun k =>
      let t := k.stream i.strm
      let rd := i.insn.rd.toNat
      k.setStream i.strm (t.setReg rd (movhiVal i.insn.imm (t.reg rd)) (t.tag rd))).retire i.core i.strm 0 1)

/-! ### Special registers -/

/-- Special register numbers that are counters (04 R112, COUNTER_ACCESS). -/
def isCounterSpecial (n : Nat) : Bool := decide (n = 0x10) || (decide (0x40 ≤ n) && decide (n ≤ 0x4D))

/-- Special register numbers that exist (04 R112). -/
def isSpecial (n : Nat) : Bool := decide (n ≤ 0x06) || decide (n = 0x08) || decide (n = 0x09) || isCounterSpecial n

/-- ACTIVE_CORES: the unfenced cores of a basin (02 R56). -/
def State.activeCores (s : State) (b : Nat) : Nat := (s.liveCores b).length

/-- CORE_GEOM of a core of a rectangle (04 R112). -/
def Desc.geom (d : Desc) (c : Nat) : Nat :=
  (c % 64 - 4 * d.originCol) + (c / 64 - 8 * d.originRow) * 2 ^ 8 + 4 * d.width * 2 ^ 16 + 8 * d.height * 2 ^ 24

/-- The value of a special register as a stream reads it (04 R112). -/
def State.special (s : State) (b c : Nat) (st : Strm) (n : Nat) : Word :=
  let k := s.core c
  let t := k.stream st
  let d := (s.basin b).desc
  match n with
  | 0x00 => BitVec.ofNat 64 (d.coreIndex c)
  | 0x01 => BitVec.ofNat 64 (d.geom c)
  | 0x02 => BitVec.ofNat 64 (s.activeCores b)
  | 0x03 => BitVec.ofNat 64 k.ckseq
  | 0x04 => BitVec.ofNat 64 k.lscale
  | 0x05 => BitVec.ofNat 64 k.verdict
  | 0x06 => BitVec.ofNat 64 k.step
  | 0x08 => k.seed
  | 0x09 => if k.xstat then 1 else 0
  | 0x10 => BitVec.ofNat 64 k.cycle
  | 0x40 => BitVec.ofNat 64 t.issue
  | _ => BitVec.ofNat 64 (SMap.get 0 t.stalls (n - 0x40))

/-- The basin of a core that issues; 0 where it has none, which issues nothing. -/
def State.basinAt (s : State) (c : Nat) : Nat := (s.basinOf c).getD 0

/-- The halt conditions of MOVS (04 R112). -/
def movsConds (s : State) (i : Issue) : List Cond :=
  let n := bits i.insn.imm.toNat 7 0
  cond (!isSpecial n) cRange 0x03 ++
  cond (isCounterSpecial n && !(s.basin (s.basinAt i.core)).desc.counterAccess) cPrivilege 0x04

/-- MOVS (04 R112). -/
def execMovs (i : Issue) (s : State) : Out State :=
  .next (s.present i (fun _ _ => { op := 0x0B, words := [1], imm := 0xFF, rd := true }) (fun s _ _ => movsConds s i) fun s =>
    let v := s.special (s.basinAt i.core) i.core i.strm (bits i.insn.imm.toNat 7 0)
    (s.updCore i.core fun k => k.setStream i.strm
      ((k.stream i.strm).setReg i.insn.rd.toNat v false)).retire i.core i.strm 0 1)

/-- Whether a stochastic conversion executes or waits in the drain pipeline or the vector unit (04 R114). -/
def Core.stochastic (k : Core) : Bool :=
  (k.drainPipe.any fun o => o.insn.opt.getLsbD 2) || k.vecPipe.any fun o => o.insn.opt.getLsbD 1 && decide (o.code < 0x48)

/-- Both generators restarted from CORE_SEED and CKPT_SEQ (04 R114, 05 R155). -/
def Core.restartGens (k : Core) : Core :=
  { k with genDrain := genRestart k.seed k.ckseq kDrain, genVec := genRestart k.seed k.ckseq kVec }

/-- The halt conditions of MOVSW (04 R112). -/
def movswConds (i : Issue) : List Cond :=
  let n := bits i.insn.imm.toNat 7 0
  cond (!isSpecial n) cRange 0x03 ++ cond (decide (n ≠ 0x08) && decide (n ≠ 0x09)) cPrivilege 0x05

/-- A core with a writable special register written: CORE_SEED restarts the generators, CORE_XSTAT clears the bits
written 1 (04 R112, R114). -/
def Core.writeSpecial (k : Core) (n : Nat) (v : Word) : Core :=
  if n = 0x08 then { k with seed := v }.restartGens else { k with xstat := k.xstat && !v.getLsbD 0 }

/-- MOVSW (04 R112, R114). -/
def execMovsw (i : Issue) (s : State) : Out State :=
  .next (s.present i (fun _ _ => { op := 0x0C, words := [1], imm := 0xFF, ra := true }) (fun _ _ _ => movswConds i) fun s =>
    let n := bits i.insn.imm.toNat 7 0
    if n = 0x08 ∧ (s.core i.core).stochastic then s.unitWait i.core i.strm 11
    else
      (s.updCore i.core fun k => k.writeSpecial n ((k.stream i.strm).reg i.insn.ra.toNat)).retire i.core i.strm 0 1)

/-- NOP (04 R115). -/
def execNop (i : Issue) (s : State) : Out State :=
  .next (s.present i (fun _ _ => { op := 0x00, words := [1] }) (fun _ _ _ => []) fun s => s.retire i.core i.strm 0 1)

end Sys2Proof.Machine
end

