-- ==== Sys2Proof/Machine/Control.lean ====
section
/-! DEFINITION. Control instructions: HALT (03 R88), branches and loops (04 R108, R109), queues (R110, 03 R75 to R79),
flags (R111), FENCE (R116) and SLUICE (R117), and the mutual-wait halt (03 R85, R86). -/

namespace Sys2Proof.Machine

/-! ### HALT -/

/-- Whether both streams of a core have executed HALT (03 R88). -/
def Core.finished (k : Core) : Bool := k.a.halted && k.x.halted

/-- The record of a core that finishes (03 R88). -/
def haltInstrRec (k : Core) : HaltRec := { aPc := k.a.pc, xPc := k.x.pc, stream := 3, cause := cHaltInstr }

/-- A core that both streams have left records HALT_INSTR, and the basin enters IDLE when every unfenced core has
finished (03 R88). -/
def State.finishCore (s : State) (c : Nat) : State :=
  if (s.core c).finished then
    let s := s.updCore c fun k => { k with hrec := k.hrec.latch (haltInstrRec k) }
    match s.basinOf c with
    | some b => if (s.liveCores b).all fun c => (s.core c).finished then s.enterIdle b else s
    | none => s
  else s

/-- HALT (04 R115, 03 R88): the stream stops; its instruction address stays. -/
def execHalt (i : Issue) (s : State) : Out State :=
  .next (s.present i (fun _ _ => { op := 0x01, words := [1] }) (fun _ _ _ => []) fun s =>
    ((s.updCore i.core fun k =>
      let t := k.stream i.strm
      k.setStream i.strm { t with halted := true, wait := .none, issue := t.issue + 1, ahead := t.ahead + 1 }).count .core
        i.core (if i.strm = .a then 1 else 2) 1).finishCore i.core)

/-! ### Branches and loops -/

/-- The target of BR (04 R108). -/
def brTarget (t : Stream) (i : Insn) : Word :=
  (if i.opt.getLsbD 0 then t.reg i.ra.toNat else BitVec.ofNat 64 t.pc) + 8 * sext32 i.imm

/-- The target of BRC (04 R108). -/
def brcTarget (t : Stream) (i : Insn) : Word := BitVec.ofNat 64 t.pc + 8 * sext32 i.imm

/-- BR (04 R108; 03 R66, R83). -/
def execBr (i : Issue) (s : State) : Out State :=
  let rel := i.insn.opt.getLsbD 0
  .next (s.present i (fun _ _ => { op := 0x02, words := [1], imm := BitVec.allOnes 32, opt := 1, ra := rel })
    (fun _ k t => cond (rel && t.tag i.insn.ra.toNat) cPoison 0x04 ++ targetConds k (brTarget t i.insn))
    fun s => s.branch i.core i.strm (brTarget ((s.core i.core).stream i.strm) i.insn).toNat)

/-- BRC's condition (04 R108); codes 6 and 7 are refused before it is taken. -/
def brcTaken (op : Nat) (a b : Word) : Bool :=
  match op with
  | 0 => decide (a = b)
  | 1 => decide (a ≠ b)
  | 2 => a.slt b
  | 3 => !a.slt b
  | 4 => a.ult b
  | _ => !a.ult b

/-- Whether BRC is taken in a stream. -/
def Stream.brc (t : Stream) (i : Insn) : Bool :=
  brcTaken (bits i.opt.toNat 2 0) (t.reg i.ra.toNat) (t.reg i.rb.toNat)

/-- BRC (04 R108; 03 R66, R83). -/
def execBrc (i : Issue) (s : State) : Out State :=
  .next (s.present i
    (fun _ _ => { op := 0x03, words := [1], imm := BitVec.allOnes 32, opt := 7, ra := true, rb := true,
                  reserved := decide (6 ≤ bits i.insn.opt.toNat 2 0) })
    (fun _ k t => cond (t.tag i.insn.ra.toNat || t.tag i.insn.rb.toNat) cPoison 0x04 ++
      if t.brc i.insn then targetConds k (brcTarget t i.insn) else [])
    fun s =>
      let t := (s.core i.core).stream i.strm
      if t.brc i.insn then s.branch i.core i.strm (brcTarget t i.insn).toNat else s.retire i.core i.strm 0 1)

/-- LOOP's count: reg[RA][31:0] (03 R81). -/
def loopCount (t : Stream) (i : Insn) : Nat := bits (t.reg i.ra.toNat).toNat 31 0

/-- LOOP's halt conditions (04 R109; 03 R69, R80). -/
def loopConds (t : Stream) (i : Insn) : List Cond :=
  let body := bits i.imm.toNat 15 0
  cond (t.tag i.ra.toNat) cPoison 0x03 ++ cond (decide (body = 0)) cRange 0x02 ++
  cond (decide (loopCount t i ≠ 0) && decide (4 ≤ t.loops.length)) cLoopDepth 0x01 ++
  cond (match t.loops with | l :: _ => decide (l.last < t.pc + 8 * body) | [] => false) cLoopDepth 0x03

/-- A stream after LOOP (04 R109): the body skipped, or a level opened. A skipped body whose last word is the last one of an
enclosing level ends that level's pass too, as if the word had finished (DESIGN CHOICE, log 78: the pseudocode gives only the
address). -/
def Stream.loop (t : Stream) (i : Insn) : Stream :=
  let body := bits i.imm.toNat 15 0
  let n := loopCount t i
  let t := { t with wait := .none, issue := t.issue + 1, ahead := t.ahead + 1 }
  if n = 0 then t.after (t.pc + 8 * body) (t.pc + 8 * (body + 1)) t.loops
  else
    { t with
      loops := { start := t.pc + 8, last := t.pc + 8 * body, count := n, it := 0, rd := i.rd.toNat } :: t.loops
      pc := t.pc + 8 }.setReg i.rd.toNat 0 false

/-- LOOP (04 R109). -/
def execLoop (i : Issue) (s : State) : Out State :=
  .next (s.present i (fun _ _ => { op := 0x04, words := [1], imm := 0xFFFF, ra := true, rd := true })
    (fun _ _ t => loopConds t i.insn)
    fun s => (s.updCore i.core fun k => k.setStream i.strm ((k.stream i.strm).loop i.insn)).count .core i.core
      (if i.strm = .a then 1 else 2) 1)

/-! ### Data queues -/

/-- A data queue of a core. -/
def Core.queue (k : Core) (q : Nat) : DQueue := SMap.get {} k.queues q

/-- A core with a data queue replaced. -/
def Core.setQueue (k : Core) (q : Nat) (v : DQueue) : Core := { k with queues := SMap.set {} k.queues q v }

/-- Whether the producer's next entry goes to the register stage (03 R78). -/
def DQueue.toStage (v : DQueue) : Bool := v.ring.isEmpty && decide (v.stage.length < 8)

/-- Whether a queue can take an entry (03 R76, R79): in its stage, or at the ring's tail. -/
def Core.canPush (k : Core) (q : Nat) : Bool :=
  let v := k.queue q
  v.toStage || decide (v.ring.length < (k.ring q).2)

/-- A core with an entry pushed (03 R76, R78): a ring entry's value is written to scratchpad, its tag kept beside. -/
def Core.push (k : Core) (q : Nat) (w : Word) (p : Bool) : Core :=
  let v := k.queue q
  if v.toStage then k.setQueue q { v with stage := v.stage ++ [(w, p)] }
  else
    let r := k.ring q
    (k.spWrite (r.1 + 8 * (v.tail % r.2)) (leBytes 8 w.toNat) false).setQueue q
      { v with ring := v.ring ++ [p], tail := v.tail + 1 }

/-- Whether a queue's stage holds an entry to pop (03 R78, R79). -/
def Core.canPop (k : Core) (q : Nat) : Bool := !(k.queue q).stage.isEmpty

/-- A core with the head of a queue popped into a register of a stream (04 R110). -/
def Core.pop (k : Core) (st : Strm) (q rd : Nat) : Core :=
  let v := k.queue q
  match v.stage with
  | [] => k
  | e :: es => (k.setQueue q { v with stage := es }).setStream st ((k.stream st).setReg rd e.1 e.2)

/-- Whether a stream feeds a queue: the A-stream q0 to q3, the X-stream q4 and q5 (03 R75). -/
def feeds (st : Strm) (q : Nat) : Bool := match st with | .a => decide (q < 4) | .x => decide (4 ≤ q)

/-- The queue number of QPUSH and QPOP (04 R110). -/
def queueNum (i : Insn) : Nat := bits i.imm.toNat 2 0

/-- The halt conditions of QPUSH and QPOP (04 R110, 03 R75). -/
def queueConds (i : Issue) (push : Bool) : List Cond :=
  let q := queueNum i.insn
  if 6 ≤ q then [(cQueue, 0x04)] else cond (feeds i.strm q != push) cQueue 0x01

/-- QPUSH (04 R110; 03 R78, R79). -/
def execQpush (i : Issue) (s : State) : Out State :=
  .next (s.present i (fun _ _ => { op := 0x07, words := [1], imm := 7, ra := true }) (fun _ _ _ => queueConds i true) fun s =>
    let q := queueNum i.insn
    let k := s.core i.core
    let t := k.stream i.strm
    let w := t.reg i.insn.ra.toNat
    let p := t.tag i.insn.ra.toNat
    if k.canPush q then (s.setCore i.core (k.push q w p)).retire i.core i.strm 0 1
    else s.setCore i.core (k.setStream i.strm { t with wait := .push q w p }))

/-- QPOP (04 R110; 03 R78, R79). -/
def execQpop (i : Issue) (s : State) : Out State :=
  .next (s.present i (fun _ _ => { op := 0x08, words := [1], imm := 7, rd := true }) (fun _ _ _ => queueConds i false) fun s =>
    let q := queueNum i.insn
    let k := s.core i.core
    let t := k.stream i.strm
    if k.canPop q then (s.setCore i.core (k.pop i.strm q i.insn.rd.toNat)).retire i.core i.strm 0 1
    else s.setCore i.core (k.setStream i.strm { t with wait := .pop q i.insn.rd.toNat }))

/-- Whether a stream of a RUNNING basin's core is at work, so that an event of its wait can reach it. -/
def State.active (s : State) (c : Nat) (st : Strm) : Bool :=
  let k := s.core c
  let t := k.stream st
  (match s.basinOf c with
   | some b => decide ((s.basin b).phase = .running) && !(s.basin b).testPause
   | none => false) && !s.power.clocksStopped && !k.fenced && !t.stopped && !t.halted

/-- QUEUE_STALL_RELEASE (03 R79): a stalled QPUSH or QPOP proceeds once room or an entry is there. -/
def execQueueStallRelease (c : Nat) (st : Strm) (s : State) : Out State :=
  let k := s.core c
  .next (if s.active c st then
    match (k.stream st).wait with
    | .push q w p => if k.canPush q then (s.setCore c (k.push q w p)).retire c st 0 1 else s
    | .pop q rd => if k.canPop q then (s.setCore c (k.pop st q rd)).retire c st 0 1 else s
    | _ => s
  else s)

/-- A core with the head of a queue's ring moved to the register stage, where the stage has room (03 R78). An entry read
from a poisoned block carries poison (R69). -/
def Core.refill (k : Core) (q : Nat) : Core :=
  let v := k.queue q
  match v.ring with
  | [] => k
  | p :: ps =>
    if v.stage.length < 8 then
      let r := k.ring q
      let a := r.1 + 8 * ((v.tail - v.ring.length) % r.2)
      k.setQueue q { v with
        stage := v.stage ++ [(BitVec.ofNat 64 (leNat (k.spRead a 8)), p || k.spPoisoned a 8)], ring := ps }
    else k

/-- Whether a queue's ring holds an entry that its stage has room for (03 R78). -/
def Core.canRefill (k : Core) (q : Nat) : Bool := !(k.queue q).ring.isEmpty && decide ((k.queue q).stage.length < 8)

/-- QUEUE_STAGE_REFILL (03 R67, R78). -/
def execQueueStageRefill (c : Nat) (r : StageRead) (s : State) : Out State :=
  .next (if (s.active c .a || s.active c .x) && (s.core c).canRefill r.queue then (s.applyEcc r.ecc).updCore c fun k => k.refill r.queue
  else s)

/-! ### Flags -/

/-- The fields of WAITF and SETF (04 R111). -/
def maskFields (op : Nat) (i : Insn) : Fields :=
  { op := op, words := [1], imm := if i.opt.getLsbD 1 then 0 else BitVec.allOnes 32, opt := 3, ra := i.opt.getLsbD 1 }

/-- The mask of WAITF and SETF (04 R111). -/
def flagMask (t : Stream) (i : Insn) : BitVec 32 :=
  if i.opt.getLsbD 1 then (t.reg i.ra.toNat).setWidth 32 else i.imm

/-- Their halt condition: a tagged mask (03 R69). -/
def maskConds (t : Stream) (i : Insn) : List Cond := cond (i.opt.getLsbD 1 && t.tag i.ra.toNat) cPoison 0x05

/-- Whether a WAITF on a mask is satisfied (03 R73). -/
def satisfied (flags mask : BitVec 32) : Bool := decide (flags &&& mask = mask)

/-- The flags after a satisfied WAITF (03 R73). -/
def consume (flags mask : BitVec 32) (keep : Bool) : BitVec 32 := if keep then flags else flags &&& ~~~mask

/-- Whether the A-stream's waiting WAITF is satisfied too and one of the two would clear a flag of both: the A-stream's
completes first (03 R73). -/
def Core.aFirst (k : Core) (m : BitVec 32) (keep : Bool) : Bool :=
  match k.a.wait with
  | .flags ma keepA => satisfied k.flags ma && (!keep || !keepA) && decide (ma &&& m ≠ 0)
  | _ => false

/-- WAITF (04 R111, 03 R73). Where the A-stream's waiting WAITF is satisfied in the same cc by flags that either would clear, it
completes first, and the X-stream's waits. -/
def execWaitf (i : Issue) (s : State) : Out State :=
  .next (s.present i (fun _ _ => maskFields 0x09 i.insn) (fun _ _ t => maskConds t i.insn) fun s =>
    let k := s.core i.core
    let t := k.stream i.strm
    let m := flagMask t i.insn
    let keep := i.insn.opt.getLsbD 0
    if satisfied k.flags m && !(decide (i.strm = .x) && k.aFirst m keep) then
      (s.setCore i.core { k with flags := consume k.flags m keep }).retire i.core i.strm 0 1
    else s.setCore i.core (k.setStream i.strm { t with wait := .flags m keep }))

/-- WAITF_SATISFIED (03 R73): a waiting WAITF completes when its flags are all set. -/
def execWaitfSatisfied (c : Nat) (st : Strm) (s : State) : Out State :=
  let k := s.core c
  .next (if s.active c st then
    match (k.stream st).wait with
    | .flags m keep =>
      if satisfied k.flags m && !(decide (st = .x) && k.aFirst m keep) then
        (s.setCore c { k with flags := consume k.flags m keep }).retire c st 0 1
      else s
    | _ => s
  else s)

/-- SETF (04 R111): sets the flags of the mask, or clears them with OPT[0] = 1. -/
def execSetf (i : Issue) (s : State) : Out State :=
  .next (s.present i (fun _ _ => maskFields 0x0A i.insn) (fun _ _ t => maskConds t i.insn) fun s =>
    (s.updCore i.core fun k =>
      let m := flagMask (k.stream i.strm) i.insn
      { k with flags := if i.insn.opt.getLsbD 0 then k.flags &&& ~~~m else k.flags ||| m }).retire i.core i.strm 0 1)

/-! ### FENCE -/

/-- The FENCE kinds of a barge: [1] memory, [2] lattice, [3] towpath (04 R116). -/
def BargeKind.fenceBit : BargeKind → Nat
  | .brg | .brgt | .putMem => 1
  | .putLat | .reds => 2
  | .brgTp | .putTp => 3

/-- Whether a barge holds a FENCE of its kind: a cancelled barge from memory does not (04 R116). -/
def Barge.holds (g : Barge) : Bool := !(g.cancelled && decide (g.kind.fenceBit = 1))

/-- The operations in flight of the named kinds that a FENCE covers (04 R116). -/
def Core.covered (k : Core) (kinds : BitVec 4) (st : Strm) (both : Bool) : List Nat :=
  (if kinds.getLsbD 0 then
    ((k.streamPipe ++ k.drainPipe ++ k.vecPipe).filter fun o => both || decide (o.strm = st)).map (·.id) else []) ++
  ((k.barges.filter fun g => (both || decide (st = .a)) && kinds.getLsbD g.kind.fenceBit && g.holds).map (·.id))

/-- The operations in flight that still hold a FENCE. -/
def Core.inFlight (k : Core) : List Nat :=
  (k.streamPipe ++ k.drainPipe ++ k.vecPipe).map (·.id) ++ (k.barges.filter (·.holds)).map (·.id)

/-- FENCE (04 R116). -/
def execFence (i : Issue) (s : State) : Out State :=
  .next (s.present i (fun _ _ => { op := 0x05, words := [1], imm := 1, opt := 0xF }) (fun _ _ _ => []) fun s =>
    let k := s.core i.core
    match k.covered i.insn.opt i.strm (i.insn.imm.getLsbD 0) with
    | [] => s.retire i.core i.strm 0 1
    | ops => s.setCore i.core (k.setStream i.strm { k.stream i.strm with wait := .fence ops }))

/-- FENCE_RELEASE (04 R116): a waiting FENCE completes once every covered operation has reached its point. -/
def execFenceRelease (c : Nat) (st : Strm) (s : State) : Out State :=
  let k := s.core c
  .next (if s.active c st then
    match (k.stream st).wait with
    | .fence ops => if ops.any fun o => k.inFlight.contains o then s else s.retire c st 0 1
    | _ => s
  else s)

/-! ### SLUICE -/

/-- What a stream that waits at a sluice gave: its number and its CK. -/
def Stream.atSluice (t : Stream) : Option (Nat × Bool) :=
  match t.wait with
  | .sluice n ck _ _ => some (n, ck)
  | _ => none

/-- The checks of a core whose streams have both issued SLUICE (04 R117, 02 R45), in their order. -/
def sluiceConds (v : Basin) (k : Core) (a x : Nat × Bool) : List Cond :=
  cond (decide (a ≠ x)) cSluice 0x01 ++
  cond (decide (a.1 ≠ v.seg.cur)) cSluice 0x03 ++
  cond (match v.segRec with | some g => a.2 != g.ck | none => true) cSluice 0x04 ++
  cond (a.2 && ((List.range 6).any fun q => !((k.queue q).stage.isEmpty && (k.queue q).ring.isEmpty))) cQueue 0x02

/-- A core arrives at a sluice: the first arrival starts the timeout (02 R55, 07 R230). -/
def Basin.arrive (v : Basin) (c n : Nat) (ck : Bool) : Basin :=
  match v.sluice with
  | some q => { v with sluice := some { q with arrived := q.arrived ++ [c] } }
  | none => { v with sluice := some { n := n, ck := ck, arrived := [c] } }

/-- Once both streams of a core have issued SLUICE, the core's checks run and it arrives (04 R117). -/
def State.sluiceArrival (s : State) (c : Nat) : State :=
  let k := s.core c
  let b := s.basinAt c
  match k.a.atSluice, k.x.atSluice with
  | some a, some x =>
    match (sluiceConds (s.basin b) k a x).head? with
    | some e => s.haltBoth c 2 e.1 e.2
    | none => (s.updBasin b fun v => v.arrive c a.1 a.2).checkClosing b
  | _, _ => s

/-- SLUICE (04 R117): the stream waits from its issue until the sluice completes. -/
def execSluice (i : Issue) (s : State) : Out State :=
  let ck := i.insn.opt.getLsbD 0
  .next (s.present i (fun _ _ => { op := 0x06, words := [1], imm := 0xFFFF, opt := 1, fe := true })
    (fun _ k t => cond (ck && !t.loops.isEmpty) cLoopDepth 0x02 ++
      cond (k.stream (otherStrm i.strm)).halted cSluice 0x02)
    fun s =>
      ((s.updCore i.core fun k =>
        let t := k.stream i.strm
        k.setStream i.strm { t with
          wait := .sluice (bits i.insn.imm.toNat 15 0) ck i.insn.fe i.insn.flg.toNat
          issue := t.issue + 1, ahead := t.ahead + 1 }).count .core i.core (if i.strm = .a then 1 else 2) 1).sluiceArrival
            i.core)

/-! ### Mutual wait -/

/-- A stream's wait condition as the halt record encodes it (03 R91). -/
def waitCode (k : Core) (t : Stream) : Nat :=
  if t.halted then 0xE0
  else
    match t.wait with
    | .pop q _ => 0x80 + q
    | .push q _ _ => 0xA0 + q
    | .flags m _ => 0xC0 + (clearFlags k.flags m).headD 0
    | _ => 0

/-- MUTUAL_WAIT (03 R85, R86): both streams have been blocked on each other, or one while the other has executed HALT,
for 4,096 cc; the command marks the end of that time. -/
def execMutualWait (c : Nat) (s : State) : Out State :=
  let k := s.core c
  .next (match s.basinOf c with
    | none => s
    | some b =>
      let ba := s.active c .a && s.blocked b c .a
      let bx := s.active c .x && s.blocked b c .x
      let code := if ba && bx then some 2 else if ba && k.x.halted then some 0 else if bx && k.a.halted then some 1 else none
      match code with
      | some n =>
        s.haltWith c { aPc := k.a.pc, xPc := k.x.pc, aWait := waitCode k k.a, xWait := waitCode k k.x, stream := n,
                       cause := cMutual }
      | none => s)

end Sys2Proof.Machine
end

