-- ==== Sys2Proof/Machine/Arrays.lean ====
section
/-! DEFINITION. The outer-product arrays: OPARM, OPSTR and OPDRN (04 R126 to R131; 05 R141 to R162, R168, R170), and the
capsules of shadow sampling (14 R398, R399). -/

namespace Sys2Proof.Machine

/-- Sets CORE_XSTAT.EXACT_OVF of a core, and counts the setting (04 R112; 16 R448). -/
def State.setXstat (s : State) (c : Nat) (ov : Bool) : State :=
  if ov then (s.updCore c fun k => { k with xstat := true }).count .basin (s.basinAt c) 11 1 else s

/-- The indices of the bits of a mask. -/
def maskBits (m n : Nat) : List Nat := (List.range n).filter fun j => m.testBit j

/-! ### Operand pairs -/

/-- FP8 formats. -/
def isFp8 (f : Nat) : Bool := decide (f = fE4m3) || decide (f = fE5m2)

/-- BF16, FP16 or either FP8. -/
def isHalfOrFp8 (f : Nat) : Bool := decide (f = fBf16) || decide (f = fFp16) || isFp8 f

/-- BF16 or FP16. -/
def isHalf (f : Nat) : Bool := decide (f = fBf16) || decide (f = fFp16)

/-- Whether the arrays accept an operand pair (04 R128): the pair is unordered. -/
def pairOk (exact : Bool) (a b : Nat) : Bool :=
  if exact then (decide (a = fInt8) && decide (b = fInt8)) || (decide (a = fE4m3) && decide (b = fE4m3))
  else (isFp8 a && isFp8 b) || (decide (a = fInt8) && decide (b = fInt8)) || (isMx a && isMx b) ||
    (isHalf a && isHalfOrFp8 b) || (isHalf b && isHalfOrFp8 a) ||
    (decide (a = fFp32) && (decide (b = fFp32) || isHalfOrFp8 b)) || (decide (b = fFp32) && isHalfOrFp8 a)

/-- Whether a format appears in some operand pair (04 R127, R128). -/
def inSomePair (f : Nat) : Bool := decide (f ≤ 0xA)

/-! ### Tiles -/

/-- Tile `t` of array `j`. -/
def Core.tile (k : Core) (j t : Nat) : Tile := SMap.get {} k.tiles (2 * j + t)

/-- A core with a tile replaced. -/
def Core.setTile (k : Core) (j t : Nat) (v : Tile) : Core := { k with tiles := SMap.set {} k.tiles (2 * j + t) v }

/-- A tile of array `j` that a new pass can take: in exact mode the array has one tile (04 R126, 05 R145). -/
def Core.freeTile (k : Core) (exact : Bool) (j : Nat) : Option Nat :=
  if exact then
    if (k.tile j 0).st = .free ∧ (k.tile j 1).st = .free then some 0 else none
  else [0, 1].find? fun t => decide ((k.tile j t).st = .free)

/-- The tile of array `j` that the pass in progress fills. -/
def Core.fillTile (k : Core) (j : Nat) : Option Nat :=
  [0, 1].find? fun t => decide ((k.tile j t).st = .filling) && !(k.tile j t).ended

/-- The oldest FULL tile of array `j` (04 R130). -/
def Core.fullTile (k : Core) (j : Nat) : Option Nat :=
  let a := k.tile j 0
  let b := k.tile j 1
  match decide (a.st = .full), decide (b.st = .full) with
  | true, true => if b.order < a.order then some 1 else some 0
  | true, false => some 0
  | false, true => some 1
  | false, false => none

/-! ### OPARM -/

/-- Whether an array holds a FULL tile of the other mode (05 R146). -/
def Core.modeClash (k : Core) (exact : Bool) (j : Nat) : Bool :=
  [0, 1].any fun t => decide ((k.tile j t).st = .full) && ((k.tile j t).exact != exact)

/-- OPARM's halt conditions (04 R127; 05 R146); those of array state are met once the stream pipeline is empty. -/
def oparmConds (k : Core) (i : Insn) : List Cond :=
  let d := opDesc i.w1
  let m := maskBits i.imm.toNat 4
  let exact := i.opt.getLsbD 0
  d.conds false ++
  cond (decide (d.rowlen * 8 ≠ 16 * fmtBits d.fmt)) cBadDesc 0x05 ++
  cond (!inSomePair d.fmt) cFormat 0x01 ++
  cond (exact && decide (d.fmt ≠ fInt8) && decide (d.fmt ≠ fE4m3)) cFormat 0x02 ++
  cond m.isEmpty cRange 0x07 ++
  (if k.streamPipe.isEmpty then
    cond (decide (k.armed.p ≠ 0)) cArray 0x01 ++ cond (m.any fun j => k.modeClash exact j) cArray 0x05
  else [])

/-- OPARM (04 R127): waits until the stream pipeline holds no earlier OPSTR. -/
def execOparm (i : Issue) (s : State) : Out State :=
  .next (s.present i (fun _ _ => { op := 0x30, words := [2], only := some .x, imm := 0xF, opt := 1 })
    (fun _ k _ => oparmConds k i.insn)
    fun s =>
      if !(s.core i.core).streamPipe.isEmpty then s.unitWait i.core i.strm 10
      else
        (s.updCore i.core fun k => { k with
          armed := { arrays := maskBits i.insn.imm.toNat 4, rDesc := i.insn.w1, k := (opDesc i.insn.w1).rows, p := 0,
                     exact := i.insn.opt.getLsbD 0 } }).retire i.core i.strm 1 1)

/-! ### OPSTR -/

/-- One multiply-accumulate on an FP32 accumulator (05 R157): fused, rounded once. -/
def macFp32 (acc : Word) (a w : FVal) : Word :=
  BitVec.ofNat 64 (fp32.encode (FVal.add (fp32.decode (bits acc.toNat 31 0)) (FVal.mul a w)))

/-- An exact product as a multiple of 2^-18 (05 R158); none for a NaN. -/
def exactProduct (a w : FVal) : Option Int :=
  match FVal.mul a w with
  | .fin neg m e => some (toInt neg (if e + 18 < 0 then m / 2 ^ (-(e + 18)).toNat else m) (max (e + 18) 0) 0)
  | _ => none

/-- The residue that a cell stores beside its value: of the integer in exact mode, else of the FP32 significand (05 R166). -/
def cellRes (exact : Bool) (v : Word) : Nat := if exact then res31 v.toInt else res31 (fp32.decode (bits v.toNat 31 0)).sig

/-- A tile with new cell values and the residues that they carry. -/
def Tile.setAcc (t : Tile) (vs : List Word) : Tile :=
  { t with acc := SMap.setList 0 [] 0 vs, res := SMap.setList 0 [] 0 (vs.map (cellRes t.exact)) }

/-- A tile with one streamed row added (04 R129; 05 R141, R157, R158, R170). -/
def Tile.mac (t : Tile) (as ws : List (FVal × Bool)) : Tile :=
  let cells := (List.range 256).map fun i => (as.getD (i / 16) (.nan, false), ws.getD (i % 16) (.nan, false))
  let poison := cells.zipIdx.map fun e => SMap.get false t.poison e.2 || e.1.1.2 || e.1.2.2
  if t.exact then
    { t.setAcc (cells.zipIdx.map fun e =>
        match exactProduct e.1.1.1 e.1.2.1 with
        | some p => SMap.get 0 t.acc e.2 + BitVec.ofInt 64 p
        | none => SMap.get 0 t.acc e.2) with
      invalid := SMap.setList false [] 0 (cells.zipIdx.map fun e =>
        SMap.get false t.invalid e.2 || (exactProduct e.1.1.1 e.1.2.1).isNone)
      poison := SMap.setList false [] 0 poison }
  else
    { t.setAcc (cells.zipIdx.map fun e => macFp32 (SMap.get 0 t.acc e.2) e.1.1.1 e.1.2.1) with
      poison := SMap.setList false [] 0 poison }

/-- The 16 elements of a row from column `c0` on. -/
def elems16 (k : Core) (d : OpDesc) (r c0 : Nat) : List (FVal × Bool) :=
  (List.range 16).map fun c => loadElem k d 0 r (c0 + c)

/-- Array `j`, of rank `rank` in the armed set, takes row `row` of the weight descriptor and row p of the resident one;
`last` marks the last row of the OPSTR, whose pass becomes FULL when the OPSTR completes (04 R129; 05 R144). -/
def Core.streamArray (k : Core) (w : OpDesc) (row : Nat) (last : Bool) (j rank : Nat) : Core :=
  let ar := k.armed
  let t := if ar.p = 0 then k.freeTile ar.exact j else k.fillTile j
  match t with
  | none => k
  | some t =>
    let v : Tile := if ar.p = 0 then { st := .filling, exact := ar.exact } else k.tile j t
    let v := v.mac (elems16 k (opDesc ar.rDesc) ar.p 0) (elems16 k w (row % w.rows) (16 * rank))
    let v :=
      if ar.p + 1 = ar.k then
        { v with st := if last then .filling else .full, ended := last, order := k.fullSeq }
      else v
    k.setTile j t v

/-- A core that streams row `row` through the armed set (04 R129). -/
def Core.streamRow (k : Core) (w : OpDesc) (row : Nat) (last : Bool) : Core :=
  let k := k.armed.arrays.zipIdx.foldl (fun k e => k.streamArray w row last e.1 e.2) k
  let ar := k.armed
  if ar.p + 1 = ar.k then { k with armed := { ar with p := 0 }, fullSeq := k.fullSeq + 1, passNo := k.passNo + 1 }
  else { k with armed := { ar with p := ar.p + 1 } }

/-- The tile that the next row of array `j` enters, and its contents as the row finds it (04 R129). -/
def Core.rowTile (k : Core) (j : Nat) : Option (Nat × Tile) :=
  let ar := k.armed
  if ar.p = 0 then (k.freeTile ar.exact j).map fun t => (t, { st := .filling, exact := ar.exact })
  else (k.fillTile j).map fun t => (t, k.tile j t)

/-- The operands of a multiply-accumulate of a row: the cell's accumulator, its activation and its weight. Operation 256·k + i of
a row is that of cell i of the k-th array of the armed set. -/
def Core.macOperands (k : Core) (w : OpDesc) (row index : Nat) : Option (Nat × Nat × Tile × FVal × FVal) :=
  match k.armed.arrays[index / 256]? with
  | none => none
  | some j => (k.rowTile j).map fun t =>
      (j, t.1, t.2, ((elems16 k (opDesc k.armed.rDesc) k.armed.p 0).getD (index % 256 / 16) (.nan, false)).1,
        ((elems16 k w (row % w.rows) (16 * (index / 256))).getD (index % 16) (.nan, false)).1)

/-- The checked steps of a multiply-accumulate (05 R157, R158, R167). -/
def macSteps (exact : Bool) (acc : Word) (a w : FVal) : List ResStep :=
  if exact then mulSteps a w ++ intSteps acc.toInt ((exactProduct a w).getD 0)
  else
    let s := fp32.decode (bits acc.toNat 31 0)
    let v := FVal.add s (FVal.mul a w)
    mulSteps a w ++ addSteps s (FVal.mul a w) ++ roundSteps fp32 v (fp32.roundedAt v (fp32.encode v))

/-- A multiply-accumulate that a fault has struck and no check has caught. -/
def macStruck (exact : Bool) (acc : Word) (a w : FVal) (u : Option Upset) : Word :=
  if exact then
    match exactProduct a w with
    | some p => BitVec.ofInt 64 (struckInt (acc.toInt + p) u [.multiply, .add])
    | none => acc
  else
    let p := (FVal.mul a w).struck u [.multiply, .exponent]
    BitVec.ofNat 64 (fp32.struck (fp32.encode ((FVal.add (fp32.decode (bits acc.toNat 31 0)) p).struck u [.shift, .add])) u)

/-- Whether a fault in a row's operations is caught (05 R168). -/
def Core.rowCaught (k : Core) (w : OpDesc) (row : Nat) (u : Option Upset) : Bool :=
  match u with
  | none => false
  | some u =>
    match k.macOperands w row u.index with
    | some (_, _, t, a, b) => upsetCaught u (macSteps t.exact (SMap.get 0 t.acc (u.index % 256)) a b)
    | none => false

/-- A core after a row in whose operations a fault has escaped its check (05 R169). -/
def Core.strikeRow (k0 k : Core) (w : OpDesc) (row : Nat) (u : Option Upset) : Core :=
  match u with
  | none => k
  | some u =>
    match k0.macOperands w row u.index with
    | some (j, t, v, a, b) =>
      let x := macStruck v.exact (SMap.get 0 v.acc (u.index % 256)) a b (some u)
      let t' := k.tile j t
      k.setTile j t { t' with
        acc := SMap.set 0 t'.acc (u.index % 256) x, res := SMap.set 0 t'.res (u.index % 256) (cellRes v.exact x) }
    | none => k

/-- Whether every array of the armed set has a tile for the next row (04 R129: at p = 0 it waits until a tile is
free). -/
def Core.rowFits (k : Core) : Bool :=
  decide (k.armed.p ≠ 0) || k.armed.arrays.all fun j => (k.freeTile k.armed.exact j).isSome

/-- The partner core of a pair test and of shadow sampling: column x XOR 1, then x XOR 2 and x XOR 3 of the row, then
any unfenced core of the cluster (14 R393); `ok` says which cores may serve. -/
def partnerOf (ok : Nat → Bool) (c : Nat) : Option Nat :=
  let x := c % 64
  let row := c - x
  let near := [row + Nat.xor x 1, row + Nat.xor x 2, row + Nat.xor x 3]
  let cl := (List.range 32).map fun i => 64 * (8 * (c / 512) + i / 4) + 4 * (x / 4) + i % 4
  (near ++ cl).find? fun d => decide (d ≠ c) && ok d

/-- The partner in shadow sampling: an unfenced core. -/
def State.partner (s : State) (c : Nat) : Option Nat := partnerOf (fun d => !(s.core d).fenced) c

/-- Whether shadow sampling selects the pass of a core (14 R398). -/
def State.selects (s : State) (b c : Nat) : Bool :=
  s.rel.shadowEn &&
    decide ((Config.shadowHash ((s.basin b).desc.coreIndex c) (s.core c).passNo).toNat < 2 ^ (16 - s.rel.rateLog2))

/-- The array of the armed set that shadow sampling takes in the core's pass n, as its rank n % A and its number (14 R398). -/
def Core.sampledArray (k : Core) : Option (Nat × Nat) :=
  let r := k.passNo % k.armed.arrays.length
  (k.armed.arrays[r]?).map fun j => (r, j)

/-- What the sampled array's decode stage has copied once a row has entered: the elements of the rows of the window, which is the first
min(K, 128) rows of a pass that `sel` selects (14 R398, R399). -/
def Core.gather (k : Core) (c : Nat) (sel : Bool) (w : OpDesc) (row : Nat) : Option Capsule :=
  let ar := k.armed
  match k.sampledArray with
  | none => none
  | some (rank, j) =>
    let g := if ar.p = 0 then (if sel then some { core := c, pass := k.passNo, array := j, exact := ar.exact } else none)
      else k.capture
    if min ar.k 128 ≤ ar.p then none
    else g.map fun g => { g with
      rows := g.rows ++ [(elems16 k (opDesc ar.rDesc) ar.p 0, elems16 k w (row % w.rows) (16 * rank))] }

/-- After row W − 1 of a selected pass the capsule takes the array's tile and lands in the partner's buffer, or is skipped where that is
occupied (14 R399); `k` is the core before the row. -/
def State.sample (s : State) (c : Nat) (k : Core) : State :=
  match (s.core c).capture with
  | some g =>
    if g.rows.length = min k.armed.k 128 then
      let tile := match k.rowTile g.array with
        | some t => (s.core c).tile g.array t.1
        | none => {}
      let s := s.updCore c fun q => { q with capture := none }
      match s.partner c with
      | some d =>
        if (s.core d).capsule.isSome then s.count .device 0 13 1
        else s.updCore d fun q => { q with capsule := some { g with tile := tile } }
      | none => s
    else s
  | none => s

/-- A core streams one row, in one of whose operations a fault may strike that no check catches (04 R129; 05 R169; 14 R399). -/
def State.enterRow (s : State) (c : Nat) (w : OpDesc) (row : Nat) (last : Bool) (u : Option Upset) : State :=
  let k := s.core c
  let g := k.gather c (s.selects (s.basinAt c) c) w row
  ((s.updCore c fun q => { k.strikeRow (q.streamRow w row last) w row u with capture := g }).count .core c 31 1).sample c k

/-- Streams up to `n` rows of an OPSTR from row `row` on, until a tile is missing; gives the next row. -/
def opstrGo (c : Nat) (w : OpDesc) : Nat → Nat → State → State × Nat
  | 0, row, s => (s, row)
  | n + 1, row, s =>
    if (s.core c).rowFits then opstrGo c w n (row + 1) (s.enterRow c w row (decide (n = 0)) none) else (s, row)

/-- The stream pipeline goes on: its OPSTRs stream in issue order, each after the last row of the one before (04 R103,
R129). -/
def State.runStream (s : State) (c : Nat) : State :=
  ((s.core c).streamPipe.foldl (fun (acc : State × Bool) o =>
    if acc.2 then acc
    else
      let r := opstrGo c (opDesc o.insn.w1) (o.total - o.rows) o.rows acc.1
      (r.1.updCore c fun k => { k with
        streamPipe := k.streamPipe.map fun q => if q.id = o.id then { q with rows := r.2 } else q },
       decide (r.2 < o.total))) (s, false)).1

/-- Rows that the stream pipeline still holds. -/
def Core.rowsPending (k : Core) : Nat := (k.streamPipe.map fun o => o.total - o.rows).sum

/-- OPSTR's row count: reg[RA] (04 R129). -/
def opstrRows (t : Stream) (i : Insn) : Nat := (t.reg i.ra.toNat).toNat

/-- OPSTR's halt conditions (04 R128, R129, R479). -/
def opstrConds (k : Core) (t : Stream) (i : Insn) : List Cond :=
  let d := opDesc i.w1
  let ar := k.armed
  let r := opDesc ar.rDesc
  cond (t.tag i.ra.toNat) cPoison 0x03 ++ d.conds false ++
  cond (decide (2 ^ 24 ≤ opstrRows t i)) cRange 0x01 ++
  (if ar.arrays.isEmpty then [(cArray, 0x02)]
  else
    cond (decide (d.rowlen * 8 ≠ 16 * ar.arrays.length * fmtBits d.fmt)) cBadDesc 0x05 ++
    cond (!pairOk ar.exact r.fmt d.fmt) cFormat 0x01 ++
    cond ((isMx r.fmt || isMx d.fmt) && decide ((ar.p + k.rowsPending) % ar.k % 32 ≠ 0)) cArray 0x04)

/-- A core with array work dispatched. -/
def Core.dispatchStream (k : Core) (o : Op) : Core :=
  { k with streamPipe := k.streamPipe ++ [{ o with id := k.nextOp }], nextOp := k.nextOp + 1 }

/-- OPSTR (04 R129): streams its rows, pausing while no tile is free; with n = 0 it completes at once. `fault` strikes an
operation of its first row, where that enters at once: a failed check halts the core and writes nothing (05 R168, R169). -/
def execOpstr (i : Issue) (fault : Option Upset) (s : State) : Out State :=
  .next (s.present i (fun _ _ => { op := 0x31, words := [2], only := some .x, ra := true, fe := true })
    (fun _ k t => opstrConds k t i.insn)
    fun s =>
      let k := s.core i.core
      let t := k.stream i.strm
      let n := opstrRows t i.insn
      if n = 0 then (s.retire i.core i.strm 1 1).setInsnFlag i.core i.insn
      else if 2 ≤ k.streamPipe.length then s.unitWait i.core i.strm 10
      else
        let w := opDesc i.insn.w1
        let u := if k.streamPipe.isEmpty && k.rowFits then fault else none
        if k.rowCaught w 0 u then (s.retire i.core i.strm 1 1).residueHalt i.core i.strm t.pc 0x01 0x01
        else
          let s := if u.isSome then s.enterRow i.core w 0 (decide (n = 1)) u else s
          ((s.updCore i.core fun k => k.dispatchStream
            { code := 0x31, pc := t.pc, strm := i.strm, insn := i.insn, opA := BitVec.ofNat 64 n, total := n
              rows := if u.isSome then 1 else 0 }).retire i.core i.strm 1 1).runStream i.core)

/-- A core whose ended passes are FULL (04 R129, 05 R144). -/
def Core.endPasses (k : Core) : Core :=
  { k with tiles := SMap.mapV {} k.tiles fun _ t => if t.ended then { t with st := .full, ended := false } else t }

/-- The tile that the latest row of array `j` entered: one whose pass has ended, or the one that fills. -/
def Core.lastTile (k : Core) (j : Nat) : Option Nat :=
  [0, 1].find? fun t => decide ((k.tile j t).st = .filling) && ((k.tile j t).ended || decide (k.armed.p ≠ 0))

/-- A tile in one of whose cells a fault has changed the value, beside its residue (05 R169). -/
def Tile.strike (v : Tile) (u : Upset) : Tile :=
  let i := u.index % 256
  let x := SMap.get 0 v.acc i
  let y := if v.exact then BitVec.ofInt 64 (x.toInt + u.delta)
    else BitVec.ofNat 64 (fp32.encode ((fp32.decode (bits x.toNat 31 0)).alter u.delta))
  { v with acc := SMap.set 0 v.acc i y }

/-- The partner's recompute of a capsule's window into its shadow tile, which a fault may strike (14 R400). -/
def Capsule.recompute (g : Capsule) (u : Option Upset) : Tile :=
  let t := g.rows.foldl (fun t r => t.mac r.1 r.2) { exact := g.exact }
  match u with
  | some u => t.strike u
  | none => t

/-- Whether two tiles hold the same values, residues, poison bits and INVALID marks (14 R399, R400). -/
def Tile.agrees (t v : Tile) : Bool :=
  decide (t.acc = v.acc) && decide (t.res = v.res) && decide (t.poison = v.poison) && decide (t.invalid = v.invalid)

/-- The cell that operation `index` of the latest row formed, as (array, tile). -/
def Core.lastCell (k : Core) (index : Nat) : Option (Nat × Nat) :=
  (k.armed.arrays[index / 256]?).bind fun j => (k.lastTile j).map fun t => (j, t)

/-- Whether a fault in the value that the latest row formed in a cell is caught: its residue came with it (05 R166 to R168). -/
def Core.cellCaught (k : Core) (u : Option Upset) : Bool :=
  match u with
  | none => false
  | some u =>
    match k.lastCell u.index with
    | some (j, t) =>
      let v := k.tile j t
      let x := SMap.get 0 v.acc (u.index % 256)
      let value := if v.exact then x.toInt else (fp32.decode (bits x.toNat 31 0)).sig
      upsetCaught u [{ stage := u.stage, value := value, expect := SMap.get 0 v.res (u.index % 256) }]
    | none => false

/-- A core after a fault in a cell's value that its check did not catch. -/
def Core.strikeCell (k : Core) (u : Option Upset) : Core :=
  match u with
  | none => k
  | some u =>
    match k.lastCell u.index with
    | some (j, t) =>
      k.setTile j t ((k.tile j t).strike u)
    | none => k

/-- OPSTR_COMPLETE (04 R129): the first OPSTR of the pipeline, all of whose rows have entered, completes. A fault strikes the
last operation on a cell of its latest row (05 R168, R169). -/
def execOpstrComplete (c : Nat) (e : UnitEvents) (s : State) : Out State :=
  .next (match (s.core c).streamPipe with
    | [] => s
    | o :: os =>
      if o.rows < o.total then s
      else
        let s := s.applyEcc e.ecc
        if (s.core c).cellCaught e.fault then s.residueHalt c o.strm o.pc 0x01 0x01
        else ((s.updCore c fun k => { (k.strikeCell e.fault).endPasses with streamPipe := os }).setInsnFlag c o.insn).runStream c)

/-! ### OPDRN -/

/-- Output formats of OPDRN (04 R130). -/
def drainFmt (f : Nat) : Bool := decide (f ≤ fE5m2) || decide (f = fW64)

/-- Formats that stochastic rounding may produce (04 R130, R133). -/
def stochFmt (f : Nat) : Bool := isHalfOrFp8 f

/-- Whether the stream pipeline will bring array `j` to a FULL tile (04 R130, R140). -/
def Core.willFill (k : Core) (j : Nat) : Bool :=
  ([0, 1].any fun t => (k.tile j t).ended) ||
    (k.armed.arrays.contains j && decide (k.armed.k ≤ k.armed.p + k.rowsPending) && !k.streamPipe.isEmpty)

/-- OPDRN's halt conditions (04 R130). -/
def opdrnConds (k : Core) (i : Insn) : List Cond :=
  let d := opDesc i.w1
  let m := maskBits i.imm.toNat 4
  d.conds true ++
  cond (decide (d.rows ≠ 16) || decide (d.rowlen * 8 ≠ 16 * m.length * fmtBits d.fmt)) cBadDesc 0x05 ++
  cond (!drainFmt d.fmt || (i.opt.getLsbD 2 && !stochFmt d.fmt) || (i.opt.getLsbD 1 && decide (d.fmt = fW64))) cFormat
    0x04 ++
  cond (m.any fun j => (k.fullTile j).isNone && !k.willFill j) cArray 0x03

/-- OPDRN (04 R130). -/
def execOpdrn (i : Issue) (s : State) : Out State :=
  .next (s.present i (fun _ _ => { op := 0x32, words := [2], only := some .x, imm := 0xFF0F, opt := 7, ra := i.insn.opt.getLsbD 1,
                                   fe := true })
    (fun _ k _ => opdrnConds k i.insn)
    fun s =>
      let k := s.core i.core
      let t := k.stream i.strm
      if 2 ≤ k.drainPipe.length then s.unitWait i.core i.strm 10
      else
        (s.updCore i.core fun k => { k with
          drainPipe := k.drainPipe ++ [{ id := k.nextOp, code := 0x32, pc := t.pc, strm := i.strm, insn := i.insn,
                                         opA := t.reg i.insn.ra.toNat, tagA := t.tag i.insn.ra.toNat }]
          nextOp := k.nextOp + 1 }).retire i.core i.strm 1 1)

/-- The value of a cell (05 R157, R162). -/
def Tile.cell (t : Tile) (i : Nat) : FVal :=
  let v := SMap.get 0 t.acc i
  if t.exact then
    if SMap.get false t.invalid i then .nan else .fin (decide (v.toInt < 0)) v.toInt.natAbs (-18)
  else fp32.decode (bits v.toNat 31 0)

/-- What a drain needs to know of its instruction. -/
structure Drain where
  fmt : Nat
  add : Bool
  scale : Option FVal
  stoch : Bool
  wexp : Nat

/-- Reads a drain's options from its dispatched instruction (04 R130). -/
def drainOf (o : Op) : Drain :=
  { fmt := (opDesc o.insn.w1).fmt, add := o.insn.opt.getLsbD 0
    scale := if o.insn.opt.getLsbD 1 then some (fp32.decode (bits o.opA.toNat 31 0)) else none
    stoch := o.insn.opt.getLsbD 2, wexp := bits o.insn.imm.toNat 15 8 }

/-- A drained value after SCALE, which a fault may strike. -/
def Drain.scaled (d : Drain) (v : FVal) (u : Option Upset) : FVal :=
  match d.scale with
  | some f => FVal.toFp32 ((FVal.mul v f).struck u [.multiply, .exponent])
  | none => v

/-- An output's bits from its cell, the destination's old bits and a draw, with its EXACT_OVF mark (04 R130; 05 R160 to
R162). `u` is a fault that no check has caught. -/
def Drain.output (d : Drain) (v : FVal) (old draw : Nat) (u : Option Upset) : Nat × Bool :=
  let v := d.scaled (v.struck u [.stored]) u
  if d.fmt = fW64 then
    let q := w64Quant d.wexp v
    let q := if u.isSome then (w64Enc (struckInt (w64Int q.1) u [.round]), q.2) else q
    if d.add then
      let a := w64Add q.1 old
      (if u.isSome then w64Enc (struckInt (w64Int a.1) u [.add]) else a.1, q.2 || a.2)
    else q
  else
    let v := if d.add then FVal.toFp32 ((FVal.add v (elemValue d.fmt 0 old)).struck u [.shift, .add]) else v
    match fmtFloat d.fmt with
    | some g => (g.struck (if d.stoch then g.encodeStoch draw v else g.encode v) u, false)
    | none => (0, false)

/-- The checked steps of an output: the stored cell against its residue, SCALE, ADD, and the conversion (05 R166, R167). -/
def Drain.steps (d : Drain) (v : FVal) (cell : Int) (stored old draw : Nat) : List ResStep :=
  let x := d.scaled v none
  let y := if d.add ∧ d.fmt ≠ fW64 then FVal.toFp32 (FVal.add x (elemValue d.fmt 0 old)) else x
  { stage := .stored, value := cell, expect := stored } ::
  (match d.scale with | some f => mulSteps v f | none => []) ++
  (if d.fmt = fW64 then
    let q := w64Int (w64Quant d.wexp v).1
    { stage := .round, value := q, expect := res31 q } :: if d.add then intSteps q (w64Int old) else []
  else
    (if d.add then addSteps x (elemValue d.fmt 0 old) else []) ++
    (match fmtFloat d.fmt with
     | some g => roundSteps g y (g.roundedAt y (if d.stoch then g.encodeStoch draw y else g.encode y))
     | none => []))

/-- What a drain carries from row to row: the core, whether EXACT_OVF is set, whether a write was refused, and whether a residue
check has failed. -/
structure DrainAcc where
  core : Core
  ov : Bool := false
  refused : Bool := false
  failed : Bool := false

/-- Whether a drain goes no further. -/
def DrainAcc.stopped (acc : DrainAcc) : Bool := acc.refused || acc.failed

/-- The generator's state after `n` draws. -/
def genAfter (x : Word) : Nat → Word
  | 0 => x
  | n + 1 => genAfter (genStep x) n

/-- A cell's stored significand: its integer in exact mode, else that of its FP32 value (05 R166). -/
def Tile.cellSig (t : Tile) (i : Nat) : Int :=
  let v := SMap.get 0 t.acc i
  if t.exact then v.toInt else (fp32.decode (bits v.toNat 31 0)).sig

/-- Whether a fault in the output of a cell is caught (05 R166 to R168). -/
def drainCaught (dr : Drain) (t : Tile) (i old draw : Nat) (u : Option Upset) : Bool :=
  match u with
  | none => false
  | some u => upsetCaught u (dr.steps (t.cell i) (t.cellSig i) (SMap.get 0 t.res i) old draw)

/-- Drains row `r` of tile `t` to the `rank`-th group of 16 outputs of D's row; a write that would touch a protected area
is discarded and ends the drain (03 R65), as a failed residue check does. Output 256·rank + 16·r + c is that of cell (r, c). -/
def drainRow (o : Op) (u : Option Upset) (t : Tile) (rank : Nat) (acc : DrainAcc) (r : Nat) : DrainAcc :=
  if acc.stopped then acc
  else
    let k := acc.core
    let d := opDesc o.insn.w1
    let dr := drainOf o
    let w := fmtBits d.fmt
    let a := d.rowAddr r + 2 * rank * w
    let n := 2 * w
    if k.hitsProtected a n then { acc with refused := true }
    else if (List.range 16).any fun c => drainCaught dr t (16 * r + c) (elemBits k a c w)
        (genDraw (genAfter k.genDrain (c + 1))) (upsetAt u (256 * rank + 16 * r + c)) then
      { acc with failed := true }
    else
      let outs := (List.range 16).map fun c =>
        let old := elemBits k a c w
        let q := dr.output (t.cell (16 * r + c)) old (genDraw (genAfter k.genDrain (c + 1)))
          (upsetAt u (256 * rank + 16 * r + c))
        let p := SMap.get false t.poison (16 * r + c) || (dr.scale.isSome && o.tagA) || (dr.add && elemPoison k a c w)
        (q, p)
      let k := storeElems k a w (outs.map fun q => (q.1.1, q.2))
      { core := if dr.stoch then { k with genDrain := genAfter k.genDrain 16 } else k
        ov := acc.ov || outs.any fun q => q.1.2, refused := false }

/-- Drains the oldest FULL tile of array `j`, of rank `rank` in the mask, and frees it (04 R130). -/
def drainArray (o : Op) (u : Option Upset) (acc : DrainAcc) (j rank : Nat) : DrainAcc :=
  if acc.stopped then acc
  else
    match acc.core.fullTile j with
    | none => acc
    | some t =>
      let acc := (List.range 16).foldl (drainRow o u (acc.core.tile j t) rank) acc
      if acc.stopped then acc else { acc with core := acc.core.setTile j t {} }

/-- The arrays whose tiles a drain takes now, each with its rank in the mask: in ascending order those not drained yet, up to the
first that has no FULL tile (04 R130); on a core that has stopped the current tile only (03 R87). -/
def Core.drainable (k : Core) (o : Op) : List (Nat × Nat) :=
  let todo := ((maskBits o.insn.imm.toNat 4).zipIdx.drop o.rows).takeWhile fun e => (k.fullTile e.1).isSome
  if (k.stream o.strm).stopped then todo.take 1 else todo

/-- OPDRN_COMPLETE (04 R130): the first drain takes the tiles that are FULL, array by array, and ends with the last array of its
mask; a core that has stopped completes the current tile only (03 R87). `fault` strikes an operation on an output: a failed check
halts the core, and that row is not written (05 R166, R168). -/
def execOpdrnComplete (c : Nat) (fault : Option Upset) (ecc : List EccHit) (s : State) : Out State :=
  .next (match (s.core c).drainPipe with
    | [] => s
    | o :: os =>
      let k := s.core c
      let arrays := k.drainable o
      let rows := o.rows + arrays.length
      let done := decide ((maskBits o.insn.imm.toNat 4).length ≤ rows)
      if arrays.isEmpty then s
      else
        let s := s.applyEcc ecc
        let acc := arrays.foldl (fun acc e => drainArray o fault acc e.1 e.2) { core := s.core c }
        let rest := if acc.stopped || (k.stream o.strm).stopped then [] else if done then os else { o with rows := rows } :: os
        let s := (s.setCore c { acc.core with drainPipe := rest }).setXstat c acc.ov
        if acc.refused then s.haltAt c o.strm o.pc cPrivilege 0x03
        else if acc.failed then s.residueHalt c o.strm o.pc 0x01 0x01
        else (if done then s.setInsnFlag c o.insn else s).runStream c)

end Sys2Proof.Machine
end

