-- ==== Sys2Proof/Machine/Memory.lean ====
section
/-! DEFINITION. Basin memory and the tier engine: the bytes of a BA with their poison (09 R267, R274, R278), protected
ranges (02 R47), the pool of frames (09 R276, R277, R282 to R284, R481), moves of pages (R279, R280), commits (R281), the
activation store (06 R183), offload (R184), stack failure (09 R273) and frame fences (14 R404). -/

namespace Sys2Proof.Machine

/-! ### Addresses -/

/-- Bytes of a page (02 R31). -/
def pageBytes : Nat := 0x200000

/-- Bytes of a tile (09 R259). -/
def tileBytes : Nat := 8192

/-- Tiles of a page. -/
def pageTiles : Nat := 256

/-- The units of size `u` that `n` bytes at `a` touch. -/
def span (u a n : Nat) : List Nat :=
  if n = 0 then [] else (List.range ((a + n - 1) / u - a / u + 1)).map fun i => a / u + i

/-- Whether a tile of the basin is lost (09 R273). -/
def Basin.tileLost (v : Basin) (t : Nat) : Bool := SMap.get false (v.page (t / pageTiles)).lostTiles (t % pageTiles)

/-- Whether a 64-byte block of a BA reads as poison: its bit, or its tile is lost (09 R267, R273). -/
def Basin.blockPoison (v : Basin) (blk : Nat) : Bool := SMap.get false v.memPoison blk || v.tileLost (blk / 128)

/-- Reads bytes at a BA; unwritten bytes read as zero (02 R36, 09 R278). -/
def Basin.readMem (v : Basin) (ba n : Nat) : List Byte := SMap.getList 0 v.mem ba n

/-- Whether any block that the bytes touch is poisoned. -/
def Basin.memPoisoned (v : Basin) (ba n : Nat) : Bool := (span 64 ba n).any v.blockPoison

/-- Bytes of a basin's address space (02 R31). -/
def Basin.memBytesTotal (v : Basin) : Nat := v.desc.baPages * pageBytes

/-! ### Protected ranges and the activation pages -/

/-- The enabled BSN_PROT entries, as page ranges (02 R56, R57). -/
def Basin.protRanges (v : Basin) : List (Nat × Nat) :=
  (List.range 16).filterMap fun n =>
    let w := (SMap.get 0 v.prot (2 * n)).toNat
    if bit w 0 then some (bits w 63 21, bits (SMap.get 0 v.prot (2 * n + 1)).toNat 63 21) else none

/-- Whether a page lies in a protected range (02 R47). -/
def Basin.protected (v : Basin) (p : Nat) : Bool :=
  v.protRanges.any fun r => decide (r.1 ≤ p) && decide (p < r.2)

/-- Whether an interval runs, so that a first write to a protected tile keeps the old one (02 R47; log 23). -/
def Basin.inInterval (v : Basin) : Bool := decide (v.phase = .running) || decide (v.phase = .restarting)

/-- An entry of the block table (06 R181). -/
structure BlockRec where
  page : Nat
  pages : Nat
  offload : Nat
  prefetch : Nat
  layer : Nat

/-- The entries of an image's block table, 1,024 at most, up to the first with VALID = 0 (06 R181). -/
def imgBlocks (m : Image) : List BlockRec :=
  ((m.blocks.take 1024).takeWhile fun e => bit e.2.toNat 0).map fun e =>
    { page := bits e.1.toNat 63 32, pages := bits e.1.toNat 31 0, offload := bits e.2.toNat 63 48,
      prefetch := bits e.2.toNat 47 32, layer := bits e.2.toNat 31 20 }

/-- The block table of a basin's program. -/
def Basin.blocks (v : Basin) : List BlockRec := match v.img with | some m => imgBlocks m | none => []

/-- Whether a page is an activation page (06 R182). -/
def Basin.activation (v : Basin) (p : Nat) : Bool :=
  v.blocks.any fun e => decide (e.page ≤ p) && decide (p < e.page + e.pages)

/-- Pages that the activation store holds (06 R183). -/
def Basin.actUsed (v : Basin) : Nat := (v.pages.filter fun e => e.2.act).length

/-! ### Frames and the pool -/

/-- Frames of a stack (09 R258). -/
def stackFrames : Nat := 49152

/-- The stack of a frame. -/
def stackOf (f : Nat) : Nat := f / stackFrames

/-- Whether a stack's frames belong to the pool: in service, or retraining from service (09 R272, R273). -/
def Stack.pooled (p : Stack) : Bool :=
  decide (p.st = .inService) || (decide (p.st = .retraining) && decide (p.before = .inService))

/-- Whether a stack is retired or failed (09 R273, R276). -/
def Stack.gone (p : Stack) : Bool := decide (p.st = .retired) || decide (p.st = .failed)

/-- The stacks of the pool. -/
def State.pooledStacks (s : State) : List Nat := (List.range 12).filter fun n => (s.port n).pooled

/-- Reserve frames on a stack: the 2,048 of R33, spread evenly over the pool's stacks (02 R33; log 10). -/
def State.reserveOn (s : State) (n : Nat) : Nat :=
  let ps := s.pooledStacks
  if ps.contains n then 2048 / ps.length + (if ps.idxOf n < 2048 % ps.length then 1 else 0) else 0

/-- The HBM frames that a page holds (09 R282). -/
def Page.frames (p : Page) : List Nat :=
  p.frame.toList ++ p.toFrame.toList ++ p.fresh.toList ++ p.toFresh.toList

/-- The HBM frames that a basin holds: its pages', its receive log's and its large towpath rings', and those to which a frame of the
latter two moves (09 R282; 11 R330; 12 R359). -/
def Basin.frames (v : Basin) : List Nat :=
  (v.pages.flatMap fun e => e.2.frames) ++ v.logFrames ++ (v.tp.flatMap fun e => e.2.frames) ++ v.rawMoves.map fun e => e.2.1

/-- How many HBM frames a basin holds. -/
def Basin.held (v : Basin) : Nat := v.frames.length

/-- Every frame in use. -/
def State.usedFrames (s : State) : List Nat := s.basins.flatMap fun e => e.2.frames

/-- Frames of a stack that cannot be given out. -/
def State.takenOn (s : State) (n : Nat) : List Nat :=
  ((s.usedFrames.filter fun f => decide (stackOf f = n)) ++ (s.port n).fencedFrames).dedup

/-- Free frames of a stack (09 R289). -/
def State.freeOn (s : State) (n : Nat) : Nat :=
  if (s.port n).pooled then stackFrames - s.reserveOn n - (s.takenOn n).length else 0

/-- Free frames of the pool (09 R289). -/
def State.freeFrames (s : State) : Nat := ((List.range 12).map s.freeOn).sum

/-- Owed frames (09 R282). -/
def State.owed (s : State) : Nat :=
  (s.basins.map fun e => if e.2.phase = .free then 0 else e.2.desc.guarantee - e.2.held).sum

/-- Frames of the pool that binds may guarantee (02 R33; 14 R404). -/
def State.capacity (s : State) : Nat :=
  (s.pooledStacks.map fun n => stackFrames - (s.port n).fencedFrames.length).sum - 2048

/-- The first number from `n` on that a list does not hold. -/
def firstFree (taken : List Nat) : Nat → Nat → Nat
  | 0, n => n
  | fuel + 1, n => if taken.contains n then firstFree taken fuel (n + 1) else n

/-- The frame that an allocation on stack `n` takes: the lowest free one above the reserve (log 10). -/
def State.frameOn (s : State) (n : Nat) : Nat :=
  let t := s.takenOn n
  firstFree t t.length (n * stackFrames + s.reserveOn n)

/-- A word of TIER_PLACE: word 0 of an entry resets with RUN_LOG2 = 9 (09 R290). -/
def Basin.placeWord (v : Basin) (i : Nat) : Word := SMap.get (if i % 2 = 0 then 0x900 else 0) v.place i

/-- The stack list and the home of a page (09 R276). -/
def State.homes (s : State) (v : Basin) (p : Nat) : List Nat × Nat :=
  let hit := (List.range 8).find? fun n =>
    let w := (v.placeWord (2 * n)).toNat
    bit w 0 && decide (bits w 63 32 ≤ p) && decide (p < bits (v.placeWord (2 * n + 1)).toNat 63 32)
  let (set, rel, run) := match hit with
    | some n =>
      let w := (v.placeWord (2 * n)).toNat
      (if bits w 27 16 = 0 then v.desc.affinity else bits w 27 16, p - bits w 63 32, bits w 11 8)
    | none => (v.desc.affinity, p, 9)
  let set := if set = 0 then 0xFFF else set
  let l := (List.range 12).filter fun n => set.testBit n && !(s.port n).gone
  let l := if l.isEmpty then (List.range 12).filter fun n => !(s.port n).gone else l
  (l, (l[(rel >>> run) % l.length]?).getD 0)

/-- The stack with the most free frames, the lower number on ties; none where no frame is free. -/
def State.mostFree (s : State) (l : List Nat) : Option Nat :=
  l.foldl (fun best n =>
    if s.freeOn n = 0 then best
    else match best with
      | some m => if s.freeOn m < s.freeOn n then some n else best
      | none => some n) none

/-- Where a page's frame is placed: its home stack, else the home list's stack with the most free frames, else any other
(09 R276, R277). -/
def State.placeFrame (s : State) (b p : Nat) : Option Nat :=
  let h := s.homes (s.basin b) p
  if s.freeOn h.2 ≠ 0 then some (s.frameOn h.2)
  else match s.mostFree h.1 with
    | some n => some (s.frameOn n)
    | none => (s.mostFree (List.range 12)).map s.frameOn

/-! ### Host-tier frames -/

/-- The words of extent `n` of TIER_HOST_EXT: base and limit (09 R289). -/
def State.extent (s : State) (n : Nat) : Nat × Nat :=
  ((SMap.get 0 s.tier.ext (2 * n)).toNat, (SMap.get 0 s.tier.ext (2 * n + 1)).toNat)

/-- Whether the host tier is there: not in PCIe mode (11 R317). -/
def State.hostTier (s : State) : Bool := s.link.up && s.link.cxl

/-- The enabled extents joined in entry order, as (entry, first frame, frames) (09 R285). -/
def State.hostSpans (s : State) : List (Nat × Nat × Nat) :=
  ((List.range 8).foldl (fun (acc : List (Nat × Nat × Nat) × Nat) n =>
    let e := s.extent n
    if bit e.1 0 then
      let c := min (bits e.2 63 21 - bits e.1 63 21) (2097152 - acc.2)
      (acc.1 ++ [(n, acc.2, c)], acc.2 + c)
    else acc) ([], 0)).1

/-- Host-tier frames in use. -/
def State.hostUsed (s : State) : List Nat :=
  s.basins.flatMap fun e => e.2.pages.flatMap fun q => q.2.hostFrame.toList ++ q.2.toHost.toList

/-- Host-tier frames in all. -/
def State.hostFrames (s : State) : Nat := if s.hostTier then (s.hostSpans.map fun e => e.2.2).sum else 0

/-- The lowest free host-tier frame (log 10). -/
def State.hostFree (s : State) : Option Nat :=
  let u := s.hostUsed
  let f := firstFree u u.length 0
  if f < s.hostFrames then some f else none

/-! ### Where tiles lie, and the traffic of stacks -/

/-- Whether a tile has been written, so that it stands in a frame (09 R274, R278). -/
def Basin.tileWritten (v : Basin) (t : Nat) : Bool :=
  SMap.get false (v.page (t / pageTiles)).tiles (t % pageTiles) || (v.page (t / pageTiles)).filled

/-- The HBM frame that holds tile `i` of a page: the fresh frame for a tile written in the interval or copied by the commit, the
new frame of a move for a tile that has switched, none for one on the host tier (09 R273, R274, R279, R281). -/
def Page.tileFrame (g : Page) (i : Nat) : Option Nat :=
  let done := decide (i < g.moved)
  if g.fresh.isSome && (SMap.get false g.written i || (g.committing && done)) then
    if g.toFresh.isSome && done then g.toFresh else g.fresh
  else if g.toFrame.isSome && done then g.toFrame
  else if g.toHost.isSome && done then none
  else g.frame

/-- The frame that serves a block of a BA: none for a tile not yet written (09 R278). -/
def Basin.blockFrame (v : Basin) (blk : Nat) : Option Nat :=
  if v.tileWritten (blk / 128) then (v.page (blk / 32768)).tileFrame (blk / 128 % pageTiles) else none

/-- Whether a block's data lies on the host tier. -/
def Basin.blockOnHost (v : Basin) (blk : Nat) : Bool :=
  let g := v.page (blk / 32768)
  v.tileWritten (blk / 128) && (v.blockFrame blk).isNone && !v.tileLost (blk / 128) && (g.hostFrame.isSome || g.toHost.isSome)

/-- Counts 64 bytes for each block read from or written to a stack, and those of the host tier; `port` is the port that
the lane names (16 R448). -/
def State.countIo (s : State) (b : Nat) (write : Bool) (port : Option Nat) (blks : List Nat) : State :=
  blks.foldl (fun s j =>
    let v := s.basin b
    match v.blockFrame j with
    | some f =>
      let n := stackOf f
      let s := s.count .memp n (if write then 1 else 0) 64
      match port with
      | some q => if q = n then s else (s.count .memp q 2 64).count .memp n 2 64
      | none => s
    | none =>
      if v.blockOnHost j then
        (s.count .tier 0 (if write then 4 else 3) 64).count .cxl 0 (if write then 3 else 2) 64
      else s) s

/-- The blocks of which a write covers a part only (09 R262). -/
def partialBlocks (ba n : Nat) : List Nat := (span 64 ba n).filter fun j => !(decide (ba ≤ 64 * j) && decide (64 * j + 64 ≤ ba + n))

/-- The blocks of a tile. -/
def tileBlocks (t : Nat) : List Nat := (List.range 128).map fun i => 128 * t + i

/-- The stack traffic of a write beside its own blocks: the reads of the blocks that it covers in part (09 R262), and where it
covers a tile in part, the rest of a tile written for the first time, or a protected tile's copy to the fresh frame (R273, R278,
R281; 16 R448). -/
def State.countOpen (s : State) (b ba n : Nat) : State :=
  (span tileBytes ba n).foldl (fun s t =>
    let v := s.basin b
    let g := v.page (t / pageTiles)
    let i := t % pageTiles
    let mine := (span 64 ba n).filter fun j => decide (j / 128 = t)
    let rest := fun (s : State) (f : Option Nat) (k : Nat) =>
      match f with | some f => s.count .memp (stackOf f) 1 k | none => s
    if ba ≤ t * tileBytes ∧ (t + 1) * tileBytes ≤ ba + n then s
    else if g.fresh.isSome && !g.committing && !SMap.get false g.written i then
      if v.tileWritten t && !v.tileLost t then rest (s.countIo b false none (tileBlocks t)) g.fresh tileBytes
      else rest s g.fresh (tileBytes - 64 * mine.length)
    else if v.tileWritten t && !v.tileLost t then
      s.countIo b false none ((partialBlocks ba n).filter fun j => decide (j / 128 = t))
    else rest s (if g.fresh.isSome then g.fresh else g.frame) (tileBytes - 64 * mine.length)) s

/-! ### Moves -/

/-- The host physical address of a host-tier frame (09 R285). -/
def State.hostAddr (s : State) (h : Nat) : Nat :=
  match s.hostSpans.find? fun e => decide (e.2.1 ≤ h) && decide (h < e.2.1 + e.2.2) with
  | some e => bits (s.extent e.1).1 63 21 * 2 ^ 21 + (h - e.2.1) * pageBytes
  | none => 0

/-- A request of the device for 64-byte lines of a page on the host tier (09 R277, R285). -/
def State.tierMsg (s : State) (b p line lines : Nat) (write : Bool) : State :=
  let g := (s.basin b).page p
  let h := (match g.toHost with | some h => some h | none => g.hostFrame).getD 0
  s.emit (.hostTier b p line lines (s.hostAddr h + 64 * line) write)

/-- Before a device access to a page in host bias, the device resolves the host's copies (11 R323). -/
def State.resolveBias (s : State) (b p : Nat) (write : Bool) : State :=
  if ((s.basin b).page p).hostBias then s.emit (.biasResolve b p write) else s

/-- Whether a page holds a tile map (09 R274). -/
def Page.hasMap (p : Page) : Bool :=
  decide (p.st = .migrating) || decide (p.st = .shadowed) ||
    (decide (p.st = .hbm) && !p.filled && decide (p.tiles.length < pageTiles))

/-- Tile maps in use, of the pool of 32,768 (09 R274). -/
def State.mapsUsed (s : State) : Nat := (s.basins.map fun e => (e.2.pages.filter fun q => q.2.hasMap).length).sum

/-- The partly written page that was accessed longest ago (09 R274). -/
def State.mapVictim (s : State) : Option (Nat × Nat) :=
  (s.basins.foldl (fun best e =>
    e.2.pages.foldl (fun (best : Option (Nat × Nat × Nat)) q =>
      if q.2.st = .hbm ∧ q.2.hasMap then
        match best with
        | some (a, _, _) => if q.2.age < a then some (q.2.age, e.1, q.1) else best
        | none => some (q.2.age, e.1, q.1)
      else best) best) none).map (·.2)

/-- The engine writes zeros to the tiles of a page that have not been written, which frees its map (09 R274; 16 R448). -/
def State.zeroFill (s : State) (b p : Nat) : State :=
  let g := (s.basin b).page p
  let s := match g.frame with
    | some f => s.count .memp (stackOf f) 1 (tileBytes * (pageTiles - g.tiles.length))
    | none => s
  s.updPage b p fun g => { g with filled := true }

/-- A page that needs a tile map takes one; where none is free, the engine zero-fills a page for it, and where there is none to
fill, the access or the move waits (09 R274; 16 R448). -/
def State.takeMap (s : State) (b p : Nat) : Option State :=
  if ((s.basin b).page p).hasMap || decide (s.mapsUsed < 32768) then some s
  else s.mapVictim.map fun e => (s.count .tier 0 5 1).zeroFill e.1 e.2

/-- The requests of the tile that a move copies next, where it reads from or writes to the host tier (09 R279, R285). -/
def State.askMove (s : State) (b p : Nat) : State :=
  let v := s.basin b
  let g := v.page p
  let t := p * pageTiles + g.moved
  if !v.tileWritten t then s
  else if g.toHost.isSome then (s.tierMsg b p (128 * g.moved) 128 true).updPage b p fun g => { g with asked := true }
  else if v.blockOnHost (128 * t) then (s.tierMsg b p (128 * g.moved) 128 false).updPage b p fun g => { g with asked := true }
  else s

/-- The state with a move of a page queued; the first eight of the queue run (09 R279). A move that can get no tile map does not
start for now (R274). -/
def State.addMove (s : State) (b p : Nat) (c : MoveCause) (f : Page → Page) : State :=
  match s.takeMap b p with
  | none => s
  | some s =>
    let s := s.updPage b p fun g => { f g with moved := 0 }
    let m : Move := { basin := b, page := p, cause := c }
    ({ s with tier := { s.tier with moves := if c = MoveCause.fence then m :: s.tier.moves else s.tier.moves ++ [m] } }).askMove b p

/-- Whether the engine may evict a page (09 R284). -/
def Page.evictable (p : Page) : Bool :=
  p.frame.isSome && (decide (p.st = .hbm) || decide (p.st = .lost)) && !p.act && !p.guarded

/-- The page of oldest access that may be evicted, in the named basins: ties go to the lower basin and page (09 R283). -/
def State.victim (s : State) (ok : Nat → Basin → Bool) : Option (Nat × Nat) :=
  (s.basins.foldl (fun best e =>
    if e.2.phase ≠ .free ∧ ok e.1 e.2 then
      e.2.pages.foldl (fun (best : Option (Nat × Nat × Nat)) q =>
        if q.2.evictable then
          match best with
          | some (a, _, _) => if q.2.age < a then some (q.2.age, e.1, q.1) else best
          | none => some (q.2.age, e.1, q.1)
        else best) best
    else best) none).map fun t => (t.2.1, t.2.2)

/-- Starts an eviction of a page to a host-tier frame (09 R282, R283). -/
def State.evict (s : State) (v : Nat × Nat) (h : Nat) : State :=
  s.addMove v.1 v.2 .eviction fun g => { g with toHost := some h }

/-- Whether a move or commit of the named basins is under way that will free a frame (09 R481). -/
def State.freeing (s : State) (ok : Nat → Bool) : Bool :=
  s.tier.moves.any fun m => ok m.basin && (m.raw || ((s.basin m.basin).page m.page).frame.isSome)

/-- How a need for an HBM frame is met (09 R282, R481). -/
inductive Supply where
  | frame (f : Nat)
  | waits (s : State)
  | none

/-- Supplies an HBM frame for a page of a basin, evicts a page of the basin's own, waits for a move or commit of any basin that
will free a frame, or says that it cannot (09 R282, R481). In a management gap no eviction is chosen: the access waits (13 R386). -/
def State.supply (s : State) (b p : Nat) : Supply :=
  let v := s.basin b
  if v.held < v.desc.guarantee then
    match s.placeFrame b p with
    | some f => .frame f
    | none =>
      if s.freeing (fun _ => true) ||
          ((s.victim fun _ w => decide (w.desc.guarantee < w.held)).isSome && s.hostFree.isSome) then .waits s
      else .none
  else
    match (if v.held < v.desc.limit ∧ s.owed < s.freeFrames then s.placeFrame b p else none) with
    | some f => .frame f
    | none =>
      if s.freeing (fun c => decide (c = b)) then .waits s
      else
        match s.victim (fun c _ => decide (c = b)), s.hostFree with
        | some t, some h => .waits (if s.mgmt.gap then s else s.evict t h)
        | _, _ => if s.freeing (fun _ => true) then .waits s else .none

/-- Starts a page's return to HBM (09 R482). -/
def State.returnTo (s : State) (b p f : Nat) (c : MoveCause) : State :=
  s.addMove b p c fun g => { g with toFrame := some f, want := .none }

/-- Starts the return of a page on the host tier at an access, where a frame is supplied; gives whether the access must
wait for one (09 R481, R482). -/
def State.tryReturn (s : State) (b p : Nat) : State × Bool :=
  let g := (s.basin b).page p
  if g.st = .host then
    match s.supply b p with
    | .frame f => (s.returnTo b p f .ret, false)
    | .waits t => (t.updPage b p fun g => { g with want := .ret }, true)
    | .none => (s.updPage b p fun g => { g with want := .again }, false)
  else (s, false)

/-- Marks an access to a page (09 R283). -/
def State.touch (s : State) (b p : Nat) : State :=
  s.updPage b p fun g => if g = {} then g else { g with age := s.usec / 1000 }

/-! ### Preparing a write -/

/-- Whether a page is ready for a write, waits, or is refused with a TIER_ERROR DETAIL. -/
inductive Prep where
  | ready | waits | refused (detail : Nat)
  deriving DecidableEq, Repr

/-- Whether a first write to a page finds the activation store full (06 R183, 02 R42). -/
def Basin.storeFull (v : Basin) (p : Nat) : Bool :=
  let g := v.page p
  !v.desc.offloadClass && v.activation p && !g.act && decide (g.st = .unwritten) && decide (v.desc.actStore ≤ v.actUsed)

/-- Makes a page ready for a write (02 R47, R48; 06 R183; 09 R278, R281, R481, R482): a fresh frame for a protected
page, a frame for an unwritten or lost one, a return for one on the host tier. -/
def State.prepPage (s : State) (b p : Nat) : State × Prep :=
  let v := s.basin b
  let g := v.page p
  let takes := !v.desc.offloadClass && v.activation p && decide (g.st = .unwritten)
  if v.storeFull p then (s, .refused 0x01)
  else if v.protected p && v.inInterval then
    if g.committing then (s, .waits)
    else if g.fresh.isSome then (s, .ready)
    else
      match s.supply b p with
      | .frame f =>
        match s.takeMap b p with
        | some s => (s.updPage b p fun g => { g with fresh := some f, want := .none, act := g.act || takes }, .ready)
        | none => (s.updPage b p fun g => { g with want := .fresh }, .waits)
      | .waits t => (t.updPage b p fun g => { g with want := .fresh }, .waits)
      | .none => (s, .refused 0x05)
  else if g.frame.isNone && g.hostFrame.isNone && g.toFrame.isNone then
    match s.supply b p with
    | .frame f =>
      match s.takeMap b p with
      | some s => (s.updPage b p fun g => { g with frame := some f, want := .none, act := g.act || takes }, .ready)
      | none => (s.updPage b p fun g => { g with want := .frame }, .waits)
    | .waits t => (t.updPage b p fun g => { g with want := .frame }, .waits)
    | .none => (s, .refused 0x04)
  else
    let r := s.tryReturn b p
    (r.1, if r.2 then .waits else .ready)

/-- Makes every page of a list ready, in order, up to the first that is not. -/
def State.prepPages (s : State) (b : Nat) : List Nat → State × Prep
  | [] => (s, .ready)
  | p :: ps =>
    match s.prepPage b p with
    | (s, .ready) => State.prepPages s b ps
    | r => r

/-! ### Writes -/

/-- The old contents of a tile (02 R47). -/
def Basin.saveTile (v : Basin) (t : Nat) : TileSave :=
  { tile := t, bytes := SMap.range v.mem (t * tileBytes) ((t + 1) * tileBytes),
    poison := SMap.range v.memPoison (t * 128) ((t + 1) * 128), lost := v.tileLost t }

/-- A tile before a write: in an interval the first write to a tile of a protected page keeps the old one (02 R47), and a
write to a lost tile fills it with poisoned blocks (09 R273). -/
def Basin.openTile (v : Basin) (t : Nat) : Basin :=
  let p := t / pageTiles
  let v := if v.protected p && v.inInterval && !(v.undo.any fun u => decide (u.tile = t)) then
      { v with undo := v.undo ++ [v.saveTile t] } else v
  let g := v.page p
  let v := if v.tileLost t then
      { v with memPoison := SMap.setList false v.memPoison (t * 128) (List.replicate 128 true) } else v
  let i := t % pageTiles
  let g := { g with
    lostTiles := SMap.set false g.lostTiles i false
    written := if g.fresh.isSome && !g.committing then SMap.set false g.written i true else g.written
    tiles := SMap.set false g.tiles i true }
  { v with pages := SMap.set {} v.pages p g }

/-- The poison bits of the blocks that a write touches; `bad` lists the blocks that it poisons (02 R68, 09 R262). -/
def poisonBlocks (m : SMap Bool) (ba n : Nat) (bad : List Nat) : SMap Bool :=
  (span 64 ba n).foldl (fun m j => SMap.upd false m j fun old => poisonAfter old ba n j (bad.contains j)) m

/-- Writes bytes at a BA, poisoning the blocks of `bad` (09 R262, R267). -/
def Basin.writeMem (v : Basin) (ba : Nat) (bs : List Byte) (bad : List Nat) : Basin :=
  let v := (span tileBytes ba bs.length).foldl Basin.openTile v
  { v with mem := SMap.setList 0 v.mem ba bs, memPoison := poisonBlocks v.memPoison ba bs.length bad }

/-- A write of host software while no interval runs stands also where a restart later brings back the old tile (log 23). -/
def TileSave.patch (u : TileSave) (ba : Nat) (bs : List Byte) (bad : List Nat) : TileSave :=
  let lo := u.tile * tileBytes
  let inside := bs.zipIdx.filter fun e => decide (lo ≤ ba + e.2) && decide (ba + e.2 < lo + tileBytes)
  let pz := poisonBlocks u.poison ba bs.length bad
  { u with bytes := inside.foldl (fun m e => SMap.set 0 m (ba + e.2) e.1) u.bytes
           poison := SMap.range pz (u.tile * 128) ((u.tile + 1) * 128) }

/-- A write to a held tile removes it from every merge buffer (07 R220). -/
def State.dropMerged (s : State) (b ba n : Nat) : State :=
  let ts := span tileBytes ba n
  { s with ports := SMap.mapV {} s.ports fun _ p =>
    { p with merge := p.merge.filter fun t => !(decide (t.basin = b) && ts.contains t.tile) } }

/-- A new write of blocks: their earlier write failures on the PHY link do not count any more (09 R265). -/
def State.clearWriteFails (s : State) (b : Nat) (blks : List Nat) : State :=
  blks.foldl (fun s j =>
    match (s.basin b).blockFrame j with
    | some f => if (s.port (stackOf f)).wfail.isEmpty then s
      else s.updPort (stackOf f) fun p => { p with wfail := SMap.set 0 p.wfail (f * 32768 + j % 32768) 0 }
    | none => s) s

/-- Writes bytes of a basin's memory and removes the tiles from the merge buffers; what the write costs beside its own blocks is
counted. -/
def State.writeMem (s : State) (b ba : Nat) (bs : List Byte) (bad : List Nat) : State :=
  let s := (span pageBytes ba bs.length).foldl (fun s p => s.touch b p) (s.countOpen b ba bs.length)
  let s := s.clearWriteFails b (span 64 ba bs.length)
  (s.updBasin b fun v =>
    let w := v.writeMem ba bs bad
    if v.inInterval then w else { w with undo := w.undo.map fun u => u.patch ba bs bad }).dropMerged b ba bs.length

/-! ### Raw frames -/

/-- The basin with the blocks of frame `f` of its receive log or of a towpath ring marked poisoned: the log's bytes fill its frames
in order, and item `n` of a queue stands in slot n modulo the depth of its ring (11 R330; 12 R359; log 82). -/
def Basin.poisonRaw (v : Basin) (f : Nat) (blks : List Nat) : Basin :=
  let hit := fun (base off : Nat) => blks.any fun i => decide (base + i = off / 64)
  let k := v.logFrames.idxOf f
  let v := if k < v.logFrames.length then
      { v with rxLog := (v.rxLog.foldl (fun (acc : List (Nat × List (Byte × Bool)) × Nat) e =>
          (acc.1 ++ [(e.1, e.2.zipIdx.map fun x => (x.1.1, x.1.2 || hit (32768 * k) (acc.2 + x.2)))], acc.2 + e.2.length))
          ([], 0)).1 }
    else v
  { v with tp := SMap.mapV {} v.tp fun _ q =>
    let k := q.frames.idxOf f
    if k < q.frames.length then
      { q with items := q.items.zipIdx.map fun e =>
          if hit (32768 * k) (64 * ((q.head + e.2) % 2 ^ q.depthLog2)) then { e.1 with poison := true } else e.1 }
    else q }

/-- The basin whose receive log or towpath ring holds a frame. -/
def State.rawOwner (s : State) (f : Nat) : Option Nat :=
  (s.basins.find? fun e => e.2.logFrames.contains f || e.2.tp.any fun q => q.2.frames.contains f).map (·.1)

/-- A move of such a frame to frame `n` (09 R272; 14 R404). -/
def State.addRaw (s : State) (b f n : Nat) (c : MoveCause) : State :=
  if (SMap.get (0, 0) (s.basin b).rawMoves f) ≠ (0, 0) then s
  else
    let m : Move := { basin := b, page := f, raw := true, cause := c }
    ({ s with tier := { s.tier with moves := if c = MoveCause.fence then m :: s.tier.moves else s.tier.moves ++ [m] } }).updBasin b fun v =>
      { v with rawMoves := SMap.set (0, 0) v.rawMoves f (n, 0) }

/-- Moves such a frame to another as soon as one is free. -/
def State.rawMove (s : State) (f : Nat) (c : MoveCause) : State :=
  match s.rawOwner f, s.mostFree (List.range 12) with
  | some b, some n => s.addRaw b f (s.frameOn n) c
  | _, _ => s

/-- The basin with frame `f` of its receive log or a ring replaced by `n`, to which its contents have been copied. -/
def Basin.swapRaw (v : Basin) (f n : Nat) : Basin :=
  let sw := fun (l : List Nat) => l.map fun x => if x = f then n else x
  { v with rawMoves := SMap.set (0, 0) v.rawMoves f (0, 0), logFrames := sw v.logFrames
           tp := SMap.mapV {} v.tp fun _ q => { q with frames := sw q.frames } }

/-! ### Fences of frames -/

/-- Whether a move or a commit of a page is under way. -/
def Page.moving (g : Page) : Bool := g.toFrame.isSome || g.toHost.isSome || g.toFresh.isSome || g.committing

/-- Moves what stands in a fenced frame to another frame as soon as one is free, ahead of every other move (14 R404). -/
def State.fenceMoves (s : State) (f : Nat) : State :=
  s.basins.foldl (fun s e => e.2.pages.foldl (fun s q =>
    let g := (s.basin e.1).page q.1
    if g.moving then s
    else if g.frame = some f then
      match s.placeFrame e.1 q.1 with
      | some n => s.addMove e.1 q.1 .fence fun g => { g with toFrame := some n }
      | none => s
    else if g.fresh = some f then
      match s.placeFrame e.1 q.1 with
      | some n => s.addMove e.1 q.1 .fence fun g => { g with toFresh := some n }
      | none => s
    else s) s) (s.rawMove f .fence)

/-- Fences an HBM frame: it takes an entry of the fence table and is never allocated again (14 R404, R407). -/
def State.fenceFrame (s : State) (f : Nat) : State :=
  if (s.port (stackOf f)).fencedFrames.contains f then s
  else
    let s := s.updPort (stackOf f) fun p => { p with fencedFrames := p.fencedFrames ++ [f] }
    let full := decide (1024 ≤ s.rel.fenceTable.length)
    let s := { s with rel := { s.rel with
      fenceTable := if full then s.rel.fenceTable else s.rel.fenceTable ++ [(4, f)]
      fencedNoEntry := if full then s.rel.fencedNoEntry ++ [(4, f)] else s.rel.fencedNoEntry } }
    (s.fenceMoves f).report
      { event := 0x10, kind := 4, cls := 1, action := 3, index := f, detail := if full then 1 else 0,
        count30 := s.charges 4 f 2592000, count72 := s.charges 4 f 259200 }

/-! ### Errors met by reads and writes of stacks -/

/-- A retraining of a stack is requested: at most one per die retrains at a time (09 R271). -/
def State.requestRetrain (s : State) (n : Nat) : State :=
  let p := s.port n
  if p.st = .retraining ∨ p.gone ∨ s.tier.retrainWait.contains n then s
  else if (List.range 6).any fun i => decide ((s.port (n / 6 * 6 + i)).st = .retraining) then
    { s with tier := { s.tier with retrainWait := s.tier.retrainWait ++ [n] } }
  else s.updPort n fun p => { p with st := .retraining, before := p.st, retrains := satAdd 16 p.retrains 1, crcTimes := [] }

/-- Re-reads or re-sends on a stack's PHY link (09 R265): more than 64 within 1 ms start a retraining. -/
def State.crcRetries (s : State) (n k : Nat) : State :=
  if k = 0 then s
  else
    let s := (s.updPort n fun p =>
      { p with crcRetry := satAdd 16 p.crcRetry k
               crcTimes := (p.crcTimes.filter fun t => decide (s.usec < t + 1000)) ++ List.replicate k s.usec }).count .memp n 5 k
    if 64 < (s.port n).crcTimes.length then s.requestRetrain n else s

/-- An uncorrectable error in block `i` of a frame: it is counted, reported and charged to the frame, which is fenced where it is
permanent (09 R266; 14 R390, R404, R409). -/
def State.chargeFrame (s : State) (b : Option Nat) (f i detail : Nat) : State :=
  let n := stackOf f
  let s := (s.updPort n fun p => { p with uncorr := satAdd 16 p.uncorr 1 }).count .memp n 7 1
  let s := s.addCharge 4 f
  let perm := s.permanent 4 f
  let s := s.report
    { event := 0x08, kind := 4, cls := if perm then 1 else 0, action := if perm then 3 else 0, basin := b,
      index := f, addr := f * pageBytes + i % 32768 * 64, detail := detail,
      count30 := s.charges 4 f 2592000, count72 := s.charges 4 f 259200 }
  if perm then s.fenceFrame f else s

/-- An uncorrectable error in a stored block of a basin: the block is poisoned, and the error charged to its HBM frame (09 R266;
14 R390). -/
def State.uncorrectable (s : State) (b blk : Nat) : State :=
  let s' := s.updBasin b fun v => { v with memPoison := SMap.set false v.memPoison blk true }
  match (s.basin b).blockFrame blk with
  | none => s'
  | some f => s'.chargeFrame (some b) f blk (blk * 64)

/-- What a read of blocks of a basin meets (09 R265, R266): re-reads, corrections and uncorrectable blocks, each at the stack of
its block. -/
def State.readErrors (s : State) (b : Nat) (blks : List Nat) (e : ReadEnv) : State :=
  let at_ := fun (s : State) (i : Nat) (f : State → Nat → Nat → State) =>
    match blks[i]? with
    | some j => (match (s.basin b).blockFrame j with | some fr => f s (stackOf fr) j | none => s)
    | none => s
  let s := e.corrected.foldl (fun s i => at_ s i fun s n _ =>
    (s.updPort n fun p => { p with corr := satAdd 16 p.corr 1 }).count .memp n 6 1) s
  let s := e.uncorrectable.foldl (fun s i => at_ s i fun s _ j => s.uncorrectable b j) s
  e.crc.foldl (fun s x => at_ s x.1 fun s n _ => s.crcRetries n (min 2 x.2)) s

/-- The blocks, counted from the first, that a third CRC mismatch delivers as poison (09 R265). -/
def readFailed (e : ReadEnv) : List Nat := (e.crc.filter fun x => decide (3 ≤ x.2)).map (·.1)

/-- Blocks that a copy finds poisoned by a third CRC mismatch arrive poisoned (09 R265, R267). -/
def State.poisonRead (s : State) (b : Nat) (blks : List Nat) (e : ReadEnv) : State :=
  (readFailed e).foldl (fun s i =>
    match blks[i]? with
    | some j => s.updBasin b fun v => if (v.blockFrame j).isSome then { v with memPoison := SMap.set false v.memPoison j true } else v
    | none => s) s

/-- Bytes of a basin's memory with their poison. -/
def Basin.memBytes (v : Basin) (ba n : Nat) : List (Byte × Bool) :=
  ((v.readMem ba n).zipIdx.map fun e => (e.1, v.blockPoison ((ba + e.2) / 64)))

/-- Bytes of a stream with their poison, those of the blocks of `bad` poisoned. -/
def Basin.readParts (v : Basin) (parts : List (Nat × Nat)) (bad : List Nat) : List (Byte × Bool) :=
  parts.flatMap fun p => (v.memBytes p.1 p.2).zipIdx.map fun x => (x.1.1, x.1.2 || bad.contains ((p.1 + x.2) / 64))

/-- A read of blocks of a basin's memory by an engine or host software: what it meets and counts, and the blocks that arrive poisoned
(09 R262, R265, R266; 11 R323; 16 R448). -/
def State.readMet (s : State) (b : Nat) (blks : List Nat) (e : ReadEnv) : State × List Nat :=
  let s := (((blks.map (· / 32768)).dedup.foldl (fun s p => s.resolveBias b p false) s).readErrors b blks e).countIo b false none blks
  (s, (readFailed e).filterMap fun i => blks[i]?)

/-- A read of bytes by an engine or host software, with their poison. -/
def State.readOut (s : State) (b ba n : Nat) (e : ReadEnv) : State × List (Byte × Bool) :=
  let r := s.readMet b (span 64 ba n) e
  (r.1, (r.1.basin b).readParts [(ba, n)] r.2)

/-- What a read of blocks of a raw frame meets, block `i` of the read being block `first` + i of the frame (09 R265, R266; 14 R390). -/
def State.rawErrors (s : State) (b f first : Nat) (e : ReadEnv) : State :=
  let n := stackOf f
  let s := (s.updPort n fun p => { p with corr := satAdd 16 p.corr e.corrected.length }).count .memp n 6 e.corrected.length
  let s := e.uncorrectable.foldl (fun s i =>
    (s.updBasin b fun v => v.poisonRaw f [first + i]).chargeFrame (some b) f (first + i) 0) s
  e.crc.foldl (fun s x => s.crcRetries n (min 2 x.2)) s

/-! ### Accesses that wait -/

/-- The stacks that a move of a page reads and writes. -/
def Page.moveStacks (g : Page) : List Nat := g.frames.map stackOf

/-- Whether a stack serves nothing: stopped by its Weir, retraining or failed (09 R270, R271). -/
def Stack.paused (p : Stack) : Bool :=
  decide (p.level = 4) || decide (p.st = .retraining) || decide (p.st = .failed) || decide (p.st = .retired)

/-- Whether a stack answers nothing now: stopped by its Weir, or retraining (09 R270, R271). -/
def Stack.stalled (p : Stack) : Bool := decide (p.level = 4) || decide (p.st = .retraining)

/-- Whether the tile at a BA is being copied by a running move (09 R280). -/
def State.copying (s : State) (b a : Nat) : Bool :=
  let p := a / pageBytes
  let g := (s.basin b).page p
  (s.tier.moves.take 8).any fun m =>
    !m.raw && decide (m.basin = b) && decide (m.page = p) && decide (g.moved = a / tileBytes % pageTiles) &&
      !g.moveStacks.any fun n => (s.port n).paused

/-- Whether a tile cannot be read or written now: it is being copied, or its stack is stopped or retrains (09 R270, R271, R280). -/
def State.tileHeld (s : State) (b t : Nat) : Bool :=
  s.copying b (t * tileBytes) ||
  match (s.basin b).blockFrame (128 * t) with
  | some f => (s.port (stackOf f)).stalled
  | none => false

/-- Whether a read of bytes by an engine or host software must wait. -/
def State.readHeld (s : State) (b ba n : Nat) : Bool := (span tileBytes ba n).any fun t => s.tileHeld b t

/-- The stacks that a write of pages goes to. -/
def Basin.writeStacks (v : Basin) (ps : List Nat) : List Nat :=
  ps.filterMap fun p => let g := v.page p; (match g.fresh with | some f => some f | none => g.frame).map stackOf

/-- Whether a write of bytes by an engine or host software must wait. -/
def State.writeHeld (s : State) (b ba n : Nat) : Bool :=
  s.readHeld b ba n || ((s.basin b).writeStacks (span pageBytes ba n)).any fun k => (s.port k).stalled

/-- An engine or host software needs blocks that lie on the host tier: it asks for those of each page at once, and goes on when the
host has answered (09 R277, R285, R287). -/
def State.askPages (s : State) (b : Nat) (blks : List Nat) (write : Bool) : State × Bool :=
  let v := s.basin b
  let there := blks.filter v.blockOnHost
  ((there.map (· / 32768)).dedup).foldl (fun (acc : State × Bool) p =>
    let g := (acc.1.basin b).page p
    if g.got then acc
    else if g.asked then (acc.1, false)
    else
      let mine := there.filter fun j => decide (j / 32768 = p)
      ((acc.1.tierMsg b p (mine.headD 0 % 32768) mine.length write).updPage b p fun g => { g with asked := true }, false)) (s, true)

/-- Whether an engine can read ranges of memory now (09 R270, R271, R280): pages on the host tier start to return (R482), and the host
is asked for what lies there (R287). -/
def State.readReady (s : State) (b : Nat) (parts : List (Nat × Nat)) : State × Bool :=
  let s := (parts.flatMap fun p => span pageBytes p.1 p.2).dedup.foldl (fun s p => (s.tryReturn b p).1.touch b p) s
  let r := s.askPages b (parts.flatMap fun p => span 64 p.1 p.2).dedup false
  (r.1, r.2 && !parts.any fun p => r.1.readHeld b p.1 p.2)

/-- The answers of the host that an access has used are used up. -/
def State.useAnswers (s : State) (b : Nat) (blks : List Nat) : State :=
  (blks.map (· / 32768)).dedup.foldl (fun s p => if ((s.basin b).page p).got then s.updPage b p fun g => { g with got := false } else s) s

/-! ### The end of an interval -/

/-- A tile's old contents put back (02 R47). -/
def Basin.restoreTile (v : Basin) (u : TileSave) : Basin :=
  let lo := u.tile * tileBytes
  let i := u.tile % pageTiles
  let v := { v with
    mem := u.bytes.foldl (fun m (e : Nat × Byte) => SMap.set 0 m e.1 e.2) (SMap.clear v.mem lo (lo + tileBytes))
    memPoison := u.poison.foldl (fun m (e : Nat × Bool) => SMap.set false m e.1 e.2)
      (SMap.clear v.memPoison (u.tile * 128) (u.tile * 128 + 128)) }
  { v with pages := SMap.upd {} v.pages (u.tile / pageTiles) fun g =>
    { g with lostTiles := SMap.set false g.lostTiles i u.lost } }

/-- A restart discards the interval's fresh tiles and their frames at once (02 R47, R50; 09 R281). A page of the activation store
keeps its store page (06 R183). -/
def Basin.discardFresh (v : Basin) : Basin :=
  let v := v.undo.foldl Basin.restoreTile v
  { v with
    undo := []
    pages := SMap.mapV {} v.pages fun _ g =>
      if g.fresh.isSome && !g.committing then
        { g with fresh := none, toFresh := none, written := [] }
      else g }

/-- The next tile from `t` on whose copy a move still makes: a commit copies the tiles not written in the interval (09
R279, R281). -/
def nextTile (g : Page) (commit : Bool) : Nat → Nat → Nat
  | 0, t => t
  | fuel + 1, t => if commit && SMap.get false g.written t then nextTile g commit fuel (t + 1) else t

/-- A page whose commit ends: its fresh frame is its frame, and the old one is released (09 R281). -/
def Page.commit (g : Page) : Page :=
  { g with frame := g.fresh, hostFrame := none, fresh := none, committing := false, written := [], moved := 0, asked := false, got := false }

/-! ### Offload, draining and the progress of moves -/

/-- Starts the pushes that wait, in order, while host-tier frames are free; a page in another move waits for its end (06 R184). -/
def State.startPushes (s : State) (b : Nat) : State :=
  (s.basin b).pushing.foldl (fun s p =>
    let g := (s.basin b).page p
    if g.st ≠ .hbm then
      if g.st = .migrating ∨ g.st = .shadowed then s
      else s.updBasin b fun v => { v with pushing := v.pushing.filter fun q => decide (q ≠ p) }
    else match s.hostFree with
      | some h => (s.addMove b p .offload fun g => { g with toHost := some h }).updBasin b fun v =>
          { v with pushing := v.pushing.filter fun q => decide (q ≠ p) }
      | none => s) s

/-- Moves everything off a draining stack: to the other stacks of the pool, or a page to the host tier where they hold no room
(09 R272). A SHADOWED page moves both frames (R281); frames of receive logs and towpath rings move too. -/
def State.drain (s : State) (n : Nat) : State :=
  let raws := s.basins.flatMap fun e => (e.2.logFrames ++ e.2.tp.flatMap fun q => q.2.frames).filter fun f => decide (stackOf f = n)
  let s := raws.foldl (fun s f => s.rawMove f .retirement) s
  s.basins.foldl (fun s e => e.2.pages.foldl (fun s q =>
    let g := (s.basin e.1).page q.1
    if g.moving then s
    else
      let old := decide (g.frame.map stackOf = some n)
      let new := decide (g.fresh.map stackOf = some n)
      if !old && !new then s
      else
        match s.placeFrame e.1 q.1 with
        | some f => s.addMove e.1 q.1 .retirement fun g =>
            if new then { g with toFresh := some f } else { g with toFrame := some f }
        | none =>
          match s.hostFree with
          | some h => if new then s else s.addMove e.1 q.1 .retirement fun g => { g with toHost := some h }
          | none => s) s) s

/-- A refused move of a page is tried again: a return starts where a frame is now supplied, and a displaced page can go home again
(09 R481). -/
def State.retryMove (s : State) (b p : Nat) : State :=
  let g := (s.basin b).page p
  if g.want ≠ .again then s
  else if g.st = .host then
    match s.supply b p with
    | .frame f => s.returnTo b p f .ret
    | .waits t => t
    | .none => s
  else s.updPage b p fun g => { g with want := .none }

/-! ### Rings of towpath queues -/

/-- Items of a queue, held ones included (11 R331). -/
def TpQueue.count (q : TpQueue) : Nat := q.items.length + q.held.length

/-- The state with queue `j` of basin `b` changed. -/
def State.updQueue (s : State) (b j : Nat) (f : TpQueue → TpQueue) : State := s.updBasin b fun v => v.updQueue j f

/-- Frames that a ring of a depth takes: none up to 2^14 items (11 R330). -/
def ringFrames (d : Nat) : Nat := if d ≤ 14 then 0 else 2 ^ d * 64 / pageBytes

/-- How a ring's need for frames is met: with its frames, by waiting for one, or not at all (11 R330; 09 R282). -/
inductive RingSupply where
  | frames (l : List Nat)
  | waits (s : State)
  | none

/-- Takes `n` frames for a ring, on the home stack of BA page 0 (log 77); those taken so far count as held (11 R330; 09 R282). -/
def takeFrames (b : Nat) : Nat → State → List Nat → RingSupply
  | 0, _, l => .frames l
  | n + 1, s, l =>
    match s.supply b 0 with
    | .frame f => takeFrames b n (s.updBasin b fun v => { v with logFrames := v.logFrames ++ [f] }) (l ++ [f])
    | .waits t => .waits t
    | .none => .none

/-- A queue takes a depth, where its COUNT is 0 and the basin is not RUNNING, as soon as the basin is supplied with the ring's frames
(11 R330; 09 R282, R481). -/
def State.setDepth (s : State) (b j d : Nat) : State :=
  let v := s.basin b
  let q := v.queue j
  let put := fun (s : State) (f : TpQueue → TpQueue) => s.updQueue b j fun q => f { q with wantDepth := none }
  if d = q.depthLog2 ∨ q.count ≠ 0 ∨ v.phase = .running then put s id
  else
    match takeFrames b (ringFrames d) (s.updQueue b j fun q => { q with frames := [] }) [] with
    | .frames l => put s fun q => { q with depthLog2 := d, frames := l }
    | .waits t => (t.updBasin b fun w => { w with logFrames := v.logFrames }).updQueue b j fun w =>
        { w with frames := q.frames, wantDepth := some d }
    | .none => put s fun q => { q with depthRefused := true }

/-- The depths that wait for frames are tried again. -/
def State.retryDepths (s : State) (b : Nat) : State :=
  (s.basin b).tp.foldl (fun s e => match e.2.wantDepth with | some d => s.setDepth b e.1 d | none => s) s

/-! ### The receive log and the receive buffers -/

/-- Bytes that the receive log holds. -/
def Basin.logBytes (v : Basin) : Nat := (v.rxLog.map fun e => e.2.length).sum

/-- Whether the receive log lacks a frame for its bytes: they wait in the receive buffer of their group (12 R353, R359). -/
def Basin.logShort (v : Basin) : Bool := decide (v.logFrames.length < ceilDiv v.logBytes pageBytes)

/-- Takes frames for the receive log until it covers its bytes; where none is available the basin stops (02 R48; 12
R359). The frames are placed as those of BA page 0 are (DESIGN CHOICE, log 77: the spec does not say on which stack they lie). -/
def growLog (b : Nat) : Nat → State → State
  | 0, s => s
  | fuel + 1, s =>
    if !(s.basin b).logShort then s
    else
      match s.supply b 0 with
      | .frame f => growLog b fuel (s.updBasin b fun v => { v with logFrames := v.logFrames ++ [f] })
      | .waits t => t
      | .none => s.stopForTier b 0x05

/-- A log that lacks frames takes them. -/
def State.fillLog (s : State) (b : Nat) : State :=
  growLog b (ceilDiv (s.basin b).logBytes pageBytes - (s.basin b).logFrames.length) s

/-- The share of a group's receive buffer that a priority holds (12 R353). -/
def EthGroup.share (g : EthGroup) (prio : Nat) : Nat := ((g.rxBuf.filter fun e => decide (e.2.1 = prio)).map fun e => e.2.2).sum

/-- A group sends a pause frame for a priority under PFC whose share reaches XOFF × 16 KiB, and resumes it 64 KiB below that fill (12
R353). -/
def State.pausePrio (s : State) (n prio : Nat) : State :=
  let g := s.group n
  let x := g.xoff * 16384
  if g.mode ≠ 1 ∨ !g.pfcEn.getLsbD prio then s
  else if !g.pauseSent.getLsbD prio then
    if x ≤ g.share prio ∧ g.share prio ≠ 0 then
      (s.updGroup n fun g => { g with pauseSent := setBit g.pauseSent prio true }).emit (.ethPause n prio true)
    else s
  else if g.share prio ≤ x - 65536 then
    (s.updGroup n fun g => { g with pauseSent := setBit g.pauseSent prio false }).emit (.ethPause n prio false)
  else s

/-- A group's receive buffer after payloads have gone to logs that hold frames for them (12 R353, R359). -/
def State.drainGroup (s : State) (n : Nat) : State :=
  if (s.group n).rxBuf = [] ∧ (s.group n).pauseSent = 0 then s
  else
    let s := s.updGroup n fun g => { g with rxBuf := g.rxBuf.filter fun e => (s.basin e.1).logShort }
    (List.range 8).foldl (fun s p => s.pausePrio n p) s

/-- After frames have become free: refused moves, queues' depths, receive logs, pushes that waited, draining stacks and fenced frames go
on (06 R184; 09 R272, R481; 11 R330; 12 R353, R359; 14 R404). -/
def State.advanceTier (s : State) : State :=
  let s := s.basins.foldl (fun s e => e.2.pages.foldl (fun s q => s.retryMove e.1 q.1) s) s
  let s := s.basins.foldl (fun s e => s.retryDepths e.1) s
  let s := s.basins.foldl (fun s e => s.fillLog e.1) s
  let s := (List.range 4).foldl State.drainGroup s
  let s := s.basins.foldl (fun s e => s.startPushes e.1) s
  let s := (List.range 12).foldl (fun s n => if (s.port n).st = .draining then s.drain n else s) s
  (List.range 12).foldl (fun s n => (s.port n).fencedFrames.foldl (fun s f => s.fenceMoves f) s) s

/-- When a checkpoint sluice completes, every SHADOWED page is committed (02 R47; 09 R281): a page with no old tile to
copy at once, another by a move. -/
def State.commitAll (s : State) (b : Nat) : State :=
  let s := s.updBasin b fun v => { v with undo := [] }
  ((s.basin b).pages.foldl (fun s e =>
    let g := e.2
    if g.fresh.isSome && !g.committing then
      if (g.frame.isNone && g.hostFrame.isNone) || decide (g.written.length = pageTiles) then
        (s.updPage b e.1 Page.commit).count .tier 0 6 1
      else s.addMove b e.1 .commit fun g => { g with committing := true, moved := nextTile g true pageTiles 0 }
    else s) s).advanceTier

/-- A page whose move ends (09 R279). -/
def Page.arrive (g : Page) (c : MoveCause) : Page :=
  match c with
  | .commit => g.commit
  | _ =>
    match g.toFresh with
    | some f => { g with fresh := some f, toFresh := none, moved := 0 }
    | none =>
      match g.toFrame with
      | some f => { g with frame := some f, hostFrame := none, toFrame := none, moved := 0, asked := false, got := false }
      | none =>
        match g.toHost with
        | some h => { g with frame := none, hostFrame := some h, toHost := none, moved := 0, asked := false, got := false }
        | none => g

/-- Ends a move that leaves its place in the queue (16 R448): pages evicted, returned and committed. -/
def State.endMove (s : State) (i : Nat) (m : Move) : State :=
  let g := (s.basin m.basin).page m.page
  let s := { s with tier := { s.tier with moves := s.tier.moves.eraseIdx i } }
  let s := s.updPage m.basin m.page fun g => g.arrive m.cause
  let s := match m.cause with
    | .commit => s.count .tier 0 6 1
    | .ret | .prefetch => s.count .tier 0 2 1
    | _ => if g.toHost.isSome then s.count .tier 0 1 1 else s
  s.advanceTier

/-- The next tile of a raw move has been copied (09 R272); `env` counts the blocks of the tile. With the last one the frame is
replaced. -/
def State.rawCopied (s : State) (i : Nat) (m : Move) (env : ReadEnv) : State :=
  let e := SMap.get (0, 0) (s.basin m.basin).rawMoves m.page
  let here := fun (f : Nat) => (s.port (stackOf f)).paused
  if here m.page || here e.1 then s
  else
    let s := (s.count .memp (stackOf m.page) 0 tileBytes).count .memp (stackOf e.1) 1 tileBytes
    let s := s.rawErrors m.basin m.page (128 * e.2) env
    let s := s.count .tier 0 0 1
    if e.2 + 1 < pageTiles then s.updBasin m.basin fun v => { v with rawMoves := SMap.set (0, 0) v.rawMoves m.page (e.1, e.2 + 1) }
    else (({ s with tier := { s.tier with moves := s.tier.moves.eraseIdx i } }).updBasin m.basin fun v =>
      v.swapRaw m.page e.1).advanceTier

/-- RECLAIM (09 R283): while the free frames lie below owed, the page of oldest access of a basin above its guarantee is
evicted, one page at a time; not in a management gap (13 R386). -/
def execReclaim (s : State) : Out State :=
  .next (if s.freeFrames < s.owed ∧ !s.mgmt.gap ∧ !(s.tier.moves.any fun m => decide (m.cause = .eviction)) then
    match s.victim (fun _ w => decide (w.desc.guarantee < w.held)), s.hostFree with
    | some t, some h => s.evict t h
    | _, _ => s
  else s)

/-- Whether a page is displaced: its frame lies off its home stack (09 R277). -/
def State.displaced (s : State) (b p : Nat) : Bool :=
  match ((s.basin b).page p).frame with
  | some f => decide (stackOf f ≠ (s.homes (s.basin b) p).2)
  | none => false

/-- Whether a displaced page has been accessed more recently than `b`'s page `p`; one whose move was refused is passed over (R481). -/
def State.laterDisplaced (s : State) (b p : Nat) : Bool :=
  let home := (s.homes (s.basin b) p).2
  let age := ((s.basin b).page p).age
  s.basins.any fun e => decide (e.2.phase ≠ .free) && e.2.pages.any fun q =>
    decide (q.2.st = .hbm) && decide (q.2.want ≠ .again) && s.displaced e.1 q.1 && decide ((s.homes e.2 q.1).2 = home) && decide (age < q.2.age)

/-- HOMING_MOVE (09 R277): a displaced page moves back once its home stack has a free frame, most recent access first. A
SHADOWED page does not (R281). Where R282 does not supply the frame at once, the basin's eviction of its own page begins, or the
move is tried again when a frame becomes free (R481). -/
def execHomingMove (b p : Nat) (s : State) : Out State :=
  let g := (s.basin b).page p
  let home := (s.homes (s.basin b) p).2
  .next (if g.st = .hbm ∧ s.displaced b p ∧ s.freeOn home ≠ 0 ∧ !s.laterDisplaced b p then
    match s.supply b p with
    | .frame _ => s.addMove b p .homing fun g => { g with toFrame := some (s.frameOn home) }
    | .waits t => t
    | .none => s.updPage b p fun g => { g with want := .again }
  else s)

/-- A basin with blocks of memory poisoned. -/
def Basin.poison (v : Basin) (blks : List Nat) : Basin :=
  { v with memPoison := blks.foldl (fun m j => SMap.set false m j true) v.memPoison }

/-- A basin whose page is lost (09 R273, R288). -/
def Basin.losePage (v : Basin) (p : Nat) : Basin :=
  { v with
    mem := SMap.clear v.mem (p * pageBytes) ((p + 1) * pageBytes)
    memPoison := SMap.clear v.memPoison (p * 32768) ((p + 1) * 32768)
    pages := SMap.upd {} v.pages p fun g =>
      { g with hostFrame := none, toHost := none, want := .none
               lostTiles := (List.range pageTiles).foldl (fun m i => SMap.set false m i true) g.lostTiles } }

/-- A page whose host-tier request failed takes an HBM frame of its basin, or waits for one; without a frame it becomes LOST (09
R288). -/
def State.rescue (s : State) (b p : Nat) : State :=
  match s.supply b p with
  | .frame f => s.updPage b p fun g => { g with frame := some f, hostFrame := none, want := .none }
  | .waits t => t.updPage b p fun g => { g with want := .rescue }
  | .none => s.updBasin b fun v => v.losePage p

/-! ### Stack failure -/

/-- The pages whose copies lay on a failed stack (09 R273). -/
def Basin.stackPages (v : Basin) (n : Nat) : List Nat :=
  (v.pages.filter fun e => e.2.frames.any fun f => decide (stackOf f = n)).map (·.1)

/-- Whether the copy in use of tile `i` of a page lay on a stack (09 R273). -/
def Page.copyOn (g : Page) (n i : Nat) : Bool := decide ((g.tileFrame i).map stackOf = some n)

/-- A page after its stack has failed (09 R273): tiles whose copy in use lay there are lost; a move ends with the tiles already
copied, and a commit whose old or fresh frame lay there ends too, with the other frame. -/
def Page.lose (g : Page) (n : Nat) : Page :=
  let off := fun (f : Option Nat) => if f.map stackOf = some n then none else f
  let lost := (List.range pageTiles).filter fun i => g.copyOn n i
  let keep := off g.frame
  let both := keep.isSome && (off g.toFrame).isSome
  let g' := { g with
    asked := false, committing := false, toFresh := none, toHost := none
    toFrame := if both then g.toFrame else none
    moved := if both then g.moved else 0
    lostTiles := lost.foldl (fun m i => SMap.set false m i true) g.lostTiles
    hostFrame := match g.hostFrame, keep, off g.toFrame with
      | some h, _, _ => some h
      | none, none, none => g.toHost
      | none, _, _ => none }
  if g.committing then
    match off g.fresh with
    | some f => { g' with frame := some f, hostFrame := none, fresh := none, written := [] }
    | none => { g' with frame := keep, fresh := none, written := [] }
  else
    let fresh := match off g.fresh with
      | some f => some f
      | none => off g.toFresh
    { g' with
      frame := if keep.isSome then keep else off g.toFrame
      fresh := fresh
      written := if (off g.fresh).isSome then g.written
        else if fresh.isSome then g.written.filter fun e => decide (e.1 < g.moved) else [] }

/-- The old copies that lay on a failed stack are lost too (09 R273). -/
def Basin.loseUndo (v : Basin) (n : Nat) : Basin :=
  { v with undo := v.undo.map fun u =>
    if (v.page (u.tile / pageTiles)).frame.map stackOf = some n then
      { u with bytes := [], poison := [], lost := true } else u }

/-- The receive log's and the rings' frames on a failed stack hold no data: what stood there is poison (09 R273). -/
def Basin.loseRaw (v : Basin) (n : Nat) : Basin :=
  let all := List.range 32768
  let fs := (v.logFrames ++ v.tp.flatMap fun q => q.2.frames).filter fun f => decide (stackOf f = n)
  let v := fs.foldl (fun v f => v.poisonRaw f all) v
  { v with logFrames := v.logFrames.filter fun f => decide (stackOf f ≠ n)
           rawMoves := v.rawMoves.filter fun e => decide (stackOf e.1 ≠ n) && decide (stackOf e.2.1 ≠ n) }

/-- A stack holds no data any more: its pages lose their tiles, and the moves of those pages end (09 R273). -/
def State.loseStack (s : State) (n : Nat) : State :=
  let s := { s with basins := SMap.mapV {} s.basins fun _ v =>
    let v' := v.loseUndo n
    let gone := (v'.stackPages n).flatMap fun p =>
      ((List.range pageTiles).filter fun i => (v'.page p).copyOn n i).map fun i => p * pageTiles + i
    let w := gone.foldl (fun (w : Basin) t => { w with
      mem := SMap.clear w.mem (t * tileBytes) (t * tileBytes + tileBytes)
      memPoison := SMap.clear w.memPoison (t * 128) (t * 128 + 128) }) v'
    { w with pages := SMap.mapV {} w.pages fun _ g =>
        if g.frames.any (fun f => decide (stackOf f = n)) then g.lose n else g }.loseRaw n }
  let stays := fun (m : Move) =>
    if m.raw then decide (SMap.get (0, 0) (s.basin m.basin).rawMoves m.page ≠ (0, 0))
    else ((s.basin m.basin).page m.page).moving
  { s with tier := { s.tier with moves := s.tier.moves.filter stays } }

end Sys2Proof.Machine
end

