-- ==== Sys2Proof/Machine/WhsTable.lean ====
section
/-! DEFINITION. The Whetstone layer table (10 R304), chunks and the engine that updates each (R291, R292), and the chunks that
engines queue after a CLEAN verdict (R294). -/

namespace Sys2Proof.Machine

/-- An entry of the Whetstone layer table (10 R304). -/
structure WhsRec where
  sched : Nat
  emb : Bool
  stoch : Bool
  nesterov : Bool
  lsPow : Nat
  wcFmt : Nat
  rule : Nat
  valid : Bool
  rows : Nat
  cols : Nat
  master : Nat
  m : Nat
  v : Nat
  grad : Nat
  wc : Nat
  aux : Nat
  hdr : Nat
  beta1 : Nat
  beta2 : Nat
  eps : Nat
  wd : Nat
  lrMult : Nat
  auxF : Nat
  deriving DecidableEq, Repr

/-- Word `i` of a record. -/
def wordAt (ws : List Word) (i : Nat) : Nat := (ws.getD i 0).toNat

/-- Reads an entry of the Whetstone layer table. -/
def whsRec (ws : List Word) : WhsRec :=
  let w0 := wordAt ws 0
  { sched := bits w0 19 16, emb := bit w0 14, stoch := bit w0 13, nesterov := bit w0 12, lsPow := bits w0 11 10,
    wcFmt := bits w0 9 8, rule := bits w0 7 4, valid := bit w0 0, rows := bits (wordAt ws 1) 63 32,
    cols := bits (wordAt ws 1) 31 0, master := bits (wordAt ws 2) 47 0, m := bits (wordAt ws 3) 47 0,
    v := bits (wordAt ws 4) 47 0, grad := bits (wordAt ws 5) 47 0, wc := bits (wordAt ws 6) 47 0,
    aux := bits (wordAt ws 7) 47 0, hdr := bits (wordAt ws 8) 47 0, beta1 := bits (wordAt ws 9) 63 32,
    beta2 := bits (wordAt ws 9) 31 0, eps := bits (wordAt ws 10) 63 32, wd := bits (wordAt ws 10) 31 0,
    lrMult := bits (wordAt ws 11) 63 32, auxF := bits (wordAt ws 11) 31 0 }

/-- The entry of layer `n` of a basin's program. -/
def Basin.whsLayer (v : Basin) (n : Nat) : WhsRec :=
  whsRec (match v.img with | some m => SMap.get [] (imgMap m.whsLayers) n | none => [])

/-- Rules (10 R299). -/
def ruleSgd : Nat := 1
def ruleAdamw : Nat := 2
def ruleTrust : Nat := 3
def ruleKron : Nat := 4
def ruleOrtho : Nat := 5
def ruleFactor : Nat := 6

/-- Parameters of a layer. -/
def WhsRec.elements (r : WhsRec) : Nat := r.rows * r.cols

/-- Chunks of a layer (10 R291). -/
def WhsRec.chunks (r : WhsRec) : Nat := if r.emb then r.rows else ceilDiv r.elements 2048

/-- The first element and the number of elements of chunk `c` (10 R291). -/
def WhsRec.chunkElems (r : WhsRec) (c : Nat) : Nat × Nat :=
  if r.emb then (r.cols * c, r.cols) else (2048 * c, min 2048 (r.elements - 2048 * c))

/-- The engine that updates a chunk (10 R292): that of the home stack of its first master byte's page, or the next ACTIVE one
in ascending order. Where no engine is ACTIVE the chunk waits at its home stack's. -/
def State.engineOf (s : State) (b : Nat) (r : WhsRec) (c : Nat) : Nat :=
  let home := (s.homes (s.basin b) ((r.master + 4 * (r.chunkElems c).1) / pageBytes)).2
  (((List.range 12).map fun i => (home + i) % 12).find? fun n => decide ((s.engine n).st = .active)).getD home

/-- A chunk queued at its engine. -/
def State.queueChunk (s : State) (k : Chunk) : State :=
  s.updEngine (s.engineOf k.basin ((s.basin k.basin).whsLayer k.layer) k.chunk) fun e => { e with queue := e.queue ++ [k] }

/-- After a CLEAN verdict the engines queue the chunks of every VALID layer that is not suppressed: the norm phases of
TRUST_ADAMW layers, then the update phases (10 R294). -/
def State.startPasses (s : State) (b : Nat) : State :=
  let v := s.basin b
  let ls := v.validLayers.filter fun n => !v.suppressed.contains n
  let all := fun (norm : Bool) (l : List Nat) => l.flatMap fun n =>
    (List.range (v.whsLayer n).chunks).map fun c => ({ basin := b, layer := n, chunk := c, norm := norm } : Chunk)
  (all true (ls.filter fun n => decide ((v.whsLayer n).rule = ruleTrust)) ++ all false ls).foldl State.queueChunk s

/-- Whether passes of the basin's current step run: chunks wait, or a header is still to be written (10 R314, PASS_ACTIVE). -/
def State.passActive (s : State) (b : Nat) : Bool :=
  (s.whs.any fun e => e.2.queue.any fun k => decide (k.basin = b)) || s.passes.any fun p => decide (p.basin = b)

/-- Ends every engine's work for a basin (10 R297). -/
def State.dropPasses (s : State) (b : Nat) : State :=
  { s with
    whs := SMap.mapV {} s.whs fun _ e => { e with queue := e.queue.filter fun k => decide (k.basin ≠ b) }
    norms := s.norms.filter fun n => decide (n.basin ≠ b)
    passes := s.passes.filter fun p => decide (p.basin ≠ b)
    trust := s.trust.filter fun t => decide (t.1 ≠ b) }

/-- The chunks of an engine that has left service move to the engines that update them now (10 R292, R311). -/
def State.moveChunks (s : State) (n : Nat) : State :=
  (s.engine n).queue.foldl State.queueChunk (s.updEngine n fun e => { e with queue := [] })

end Sys2Proof.Machine
end

