-- ==== Sys2Proof/Machine/Collective.lean ====
section
/-! DEFINITION. Sending on a queue pair (12 R349 to R354, R358; 02 R49), the basin's receive log (R359), and the collective
engine: the collective table (R355), ring reductions (R356), trailers (R357) and failures (R360). -/

namespace Sys2Proof.Machine

/-! ### Sending -/

/-- The basin that holds queue set `n` (12 R350). -/
def State.qsetOwner (s : State) (n : Nat) : Option Nat :=
  (s.basins.find? fun e => decide (e.2.phase ≠ .free) && decide (e.2.desc.qset = n)).map (·.1)

/-- The queue set of a queue pair. -/
def qsetOf (qpn : Nat) : Nat := (qpn - 256) / 32

/-- The local number of queue pair `q` of a set (12 R350). -/
def qpnOf (set q : Nat) : Nat := 256 + 32 * set + q

/-- The lane groups of a queue pair. -/
def Qp.groupList (q : Qp) : List Nat := (List.range 4).filter fun g => q.groups.getLsbD g

/-- Whether a queue pair runs over Zynwin links (12 R345, R349). -/
def State.zynwin (s : State) (q : Qp) : Bool :=
  match q.groupList with
  | g :: _ => decide ((s.group g).mode = 2)
  | [] => false

/-- The group on which packet `i` of a queue pair travels: its groups in rotation (12 R349). -/
def Qp.groupFor (q : Qp) (i : Nat) : Option Nat := q.groupList[i % q.groupList.length]?

/-- Whether a group takes a packet of a priority now: its link is up, it does not recalibrate or retrain, and the partner has
not paused the priority (12 R347, R348, R353). Packets wait and are not dropped. -/
def EthGroup.takes (g : EthGroup) (prio : Nat) : Bool :=
  g.link && !g.recalBusy && !g.zynRetraining && !(g.pfcEn.getLsbD prio && g.paused.getLsbD prio)

/-- Payload bytes of a packet, and of a Zynwin frame (12 R345, R348). -/
def packetBytes (zyn : Bool) : Nat := if zyn then 7936 else 4096

/-- Puts a packet on the wire (12 R351, R358; 16 R448). -/
def State.emitPacket (s : State) (qpn g psn : Nat) (bs : List Byte) (imm : Option Nat) : State :=
  let s := (s.count .eth g 0 bs.length).count .eth g 2 1
  s.emit (.ethWrite qpn psn bs imm)

/-- Puts a frame on a Zynwin link, which keeps the last 256 for a replay (12 R348). -/
def State.emitFrame (s : State) (qpn g : Nat) (bs : List Byte) (poison : List Nat) : State :=
  let e := s.group g
  let s := (s.count .eth g 0 bs.length).count .eth g 2 1
  (s.updGroup g fun e => { e with
    zynNext := e.zynNext + 1, zynTx := ((e.zynNext, qpn, bs, poison) :: e.zynTx).take 256 }).emit
      (.zynFrame g e.zynNext qpn bs poison)

/-- The immediate of a packet with poisoned blocks: bit i for blocks 2i and 2i + 1 (12 R358). -/
def poisonMask (poison : List Nat) : Option Nat :=
  if poison.isEmpty then none else some (((poison.map fun j => j / 2).dedup.map fun i => 2 ^ i).sum)

/-- The blocks of 64 bytes that hold a poisoned byte. -/
def poisonedBlocks (bs : List (Byte × Bool)) : List Nat :=
  ((bs.zipIdx.filter fun e => e.1.2).map fun e => e.2 / 64).dedup

/-- Whether a queue pair has a packet ready that group `g` takes now. -/
def State.readyOn (s : State) (g qpn : Nat) : Bool :=
  let q := s.qp qpn
  match q.heldTx with
  | [] => false
  | e :: _ => decide (q.groupFor e.1 = some g) && (s.group g).takes q.prio

/-- The queue pair that a group serves next: those with data ready, in rotation after the last one served (12 R354). -/
def State.nextSender (s : State) (g : Nat) : Option Nat :=
  let ready := (s.qps.map (·.1)).filter fun n => s.readyOn g n
  match ready.find? fun n => decide ((s.group g).turn < n) with
  | some n => some n
  | none => ready.head?

/-- A queue pair's next packet leaves on group `g`. -/
def State.sendOne (s : State) (g qpn : Nat) : State :=
  let q := s.qp qpn
  match q.heldTx with
  | [] => s
  | (psn, bs, imm) :: rest =>
    let s := (s.updQp qpn fun q => { q with heldTx := rest }).updGroup g fun e => { e with turn := qpn }
    if s.zynwin q then
      s.emitFrame qpn g bs (match imm with | some m => (List.range 124).filter fun i => m.testBit i | none => [])
    else s.emitPacket qpn g psn bs imm

/-- The groups serve the queue pairs that have data ready in rotation, one packet each, while they take any (12 R354). -/
def serveGo : Nat → State → State
  | 0, s => s
  | fuel + 1, s =>
    match (List.range 4).filterMap fun g => (s.nextSender g).map fun n => (g, n) with
    | [] => s
    | e :: _ => serveGo fuel (s.sendOne e.1 e.2)

/-- Sends what the queue pairs of the device hold. -/
def State.flushAll (s : State) : State := serveGo (s.qps.map fun e => e.2.heldTx.length).sum s

/-- Sends a payload on a queue pair in RTS. After a restart the interval's first payloads are suppressed and compared, poison marks
included, with those delivered before; a difference halts the basin (02 R49; 12 R358, R359), which sets LAST_CAUSE to 0, since no
core has halted (DESIGN CHOICE, log 60: the spec names no cause). -/
def State.sendPayload (s : State) (b qpn : Nat) (bs : List (Byte × Bool)) : State :=
  let q := s.qp qpn
  if q.st ≠ .rts then s
  else
    let data := bs.map (·.1)
    let s := s.updQp qpn fun q => { q with sent := q.sent ++ [bs] }
    match q.replay with
    | p :: ps =>
      let s := s.updQp qpn fun q => { q with replay := ps }
      if p = bs then s else (s.markEvent b 8).haltBasin b 0
    | [] =>
      let bad := poisonedBlocks bs
      let zyn := s.zynwin q
      let imm := if zyn then (if bad.isEmpty then none else some ((bad.map fun i => 2 ^ i).sum)) else poisonMask bad
      (s.updQp qpn fun q => { q with
        txNext := (q.txNext + 1) % 2 ^ 24
        unacked := if zyn then q.unacked else q.unacked ++ [(q.txNext, data, imm)]
        heldTx := q.heldTx ++ [(q.txNext, data, imm)] }).flushAll

/-- Sends a message in payloads of the mode's size. -/
def State.sendMessage (s : State) (b qpn : Nat) (bs : List (Byte × Bool)) : State :=
  (chunksOf (packetBytes (s.zynwin (s.qp qpn))) (bs.length + 1) bs).foldl (fun s p => s.sendPayload b qpn p) s

/-! ### The receive log -/

/-- A payload enters the receive log (12 R359). -/
def State.logPayload (s : State) (b qpn : Nat) (bs : List (Byte × Bool)) : State :=
  (s.updBasin b fun v => { v with rxLog := v.rxLog ++ [(qpn, bs)] }).fillLog b

/-- What a queue pair has received and no collective has taken. -/
def Basin.rxStream (v : Basin) (qpn : Nat) : List (Byte × Bool) :=
  ((v.rxLog.filter fun e => decide (e.1 = qpn)).flatMap (·.2)).drop (SMap.get 0 v.rxTaken qpn)

/-- Drops the first `n` bytes of a queue pair's payloads. -/
def dropRx (qpn : Nat) : Nat → List (Nat × List (Byte × Bool)) → List (Nat × List (Byte × Bool))
  | _, [] => []
  | n, (q, bs) :: es =>
    if q = qpn then
      if bs.length ≤ n then dropRx qpn (n - bs.length) es else (q, bs.drop n) :: es
    else (q, bs) :: dropRx qpn n es

/-- The log is released at a checkpoint sluice: payloads that no collective has taken yet stay (12 R359). -/
def Basin.releaseLog (v : Basin) : Basin :=
  let l := v.rxTaken.foldl (fun l e => dropRx e.1 e.2 l) v.rxLog
  let v := { v with rxLog := l, rxTaken := [] }
  { v with logFrames := v.logFrames.take (ceilDiv v.logBytes pageBytes) }

/-! ### The collective table -/

/-- An entry of the collective table (12 R355). -/
structure CollRec where
  rank : Nat
  ranks : Nat
  completeBy : Nat
  trigger : Nat
  onSluice : Bool
  fmt : Nat
  op : Nat
  valid : Bool
  ba : Nat
  outBa : Nat
  elements : Nat
  wexp : Nat
  recvQp : Nat
  sendQp : Nat
  deriving DecidableEq, Repr

/-- Reads an entry of the collective table. -/
def collRec (ws : List Word) : CollRec :=
  let w0 := wordAt ws 0
  let w3 := wordAt ws 3
  { rank := bits w0 63 56, ranks := bits w0 55 48, completeBy := bits w0 47 32, trigger := bits w0 31 16, onSluice := bit w0 9,
    fmt := bits w0 7 4, op := bits w0 3 1, valid := bit w0 0, ba := bits (wordAt ws 1) 47 0, outBa := bits (wordAt ws 2) 47 0,
    elements := bits w3 63 32, wexp := bits w3 31 24, recvQp := bits w3 12 8, sendQp := bits w3 4 0 }

/-- The entries of an image's collective table, at most 4,096, up to the first with VALID = 0 (12 R355). -/
def imgColls (m : Image) : List CollRec := ((m.colls.take 4096).map collRec).takeWhile (·.valid)

/-- The collective table of a basin's program. -/
def Basin.collTable (v : Basin) : List CollRec := match v.img with | some m => imgColls m | none => []

/-- Operations (12 R355). -/
def opAllReduce : Nat := 0
def opReduceScatter : Nat := 1
def opAllGather : Nat := 2
def opSend : Nat := 3
def opRecv : Nat := 4

/-- Bytes of an element. -/
def CollRec.esize (r : CollRec) : Nat := fmtBits r.fmt / 8

/-- Bytes of the buffer. -/
def CollRec.bytes (r : CollRec) : Nat := r.elements * r.esize

/-- Where the output goes. -/
def CollRec.out (r : CollRec) : Nat := if r.outBa = 0 then r.ba else r.outBa

/-- The first byte and the length of chunk `c` (12 R356): equal element counts, with the remainder in the last. -/
def CollRec.chunk (r : CollRec) (c : Nat) : Nat × Nat :=
  let per := r.elements / r.ranks
  (c * per * r.esize, (if c + 1 = r.ranks then r.elements - c * per else per) * r.esize)

/-- Messages that an entry sends, and those that it receives. -/
def CollRec.sends (r : CollRec) : Nat :=
  if r.op = opAllReduce then 2 * (r.ranks - 1) else if r.op = opSend then 1 else if r.op = opRecv then 0 else r.ranks - 1

/-- Messages that an entry receives. -/
def CollRec.recvs (r : CollRec) : Nat :=
  if r.op = opAllReduce then 2 * (r.ranks - 1) else if r.op = opSend then 0 else if r.op = opRecv then 1 else r.ranks - 1

/-- Whether message `i` of an entry belongs to the reducing phase. -/
def CollRec.reducing (r : CollRec) (i : Nat) : Bool :=
  (decide (r.op = opAllReduce) || decide (r.op = opReduceScatter)) && decide (i < r.ranks - 1)

/-- The chunk that message `i` carries, as rank `k` sends it (12 R356): chunk c starts at rank c + 1, and the circulating phase
starts at each owner. -/
def CollRec.chunkAt (r : CollRec) (k i : Nat) : Nat :=
  if r.op = opSend ∨ r.op = opRecv then 0
  else if r.reducing i then (k + 2 * r.ranks - 1 - i) % r.ranks
  else
    let j := if r.op = opAllReduce then i - (r.ranks - 1) else i
    (k + r.ranks - j) % r.ranks

/-- The bytes of message `i`'s data: the whole buffer of a SEND or RECV, else a chunk. -/
def CollRec.span (r : CollRec) (k i : Nat) : Nat × Nat :=
  if r.op = opSend ∨ r.op = opRecv then (0, r.bytes) else r.chunk (r.chunkAt k i)

/-! ### Trailers -/

/-- The 32-byte trailer of a layer's collective (12 R357; log 25): byte 0 holds overflow in bit 0 and poison in bit 1, words 1
and 2 the minimum and maximum step count, word 3 whether there are any. -/
def Coll.trailer (c : Coll) : List (Byte × Bool) :=
  let flags := (if c.overflow then 1 else 0) + (if c.poison then 2 else 0)
  (leBytes 8 flags ++ leBytes 8 (c.minStep.getD 0) ++ leBytes 8 (c.maxStep.getD 0) ++
    leBytes 8 (if c.minStep.isSome then 1 else 0)).map fun x => (x, false)

/-- A collective that merges a trailer into its record (12 R357). -/
def Coll.mergeTrailer (c : Coll) (bs : List Byte) : Coll :=
  let ws := leWords 8 bs.length bs
  let flags := ws.getD 0 0
  let c := { c with overflow := c.overflow || bit flags 0, poison := c.poison || bit flags 1 }
  if ws.getD 3 0 = 1 then { c with minStep := minOpt c.minStep (ws.getD 1 0), maxStep := maxOpt c.maxStep (ws.getD 2 0) } else c

/-! ### The engine -/

/-- Bytes of a collective's buffer: those that it has received or reduced. -/
def Coll.bytes (c : Coll) (lo n : Nat) : List (Byte × Bool) :=
  (List.range n).map fun i => (SMap.get 0 c.buf (lo + i), SMap.get false c.bad (lo + i))

/-- A collective with bytes entered in its buffer. -/
def Coll.setBytes (c : Coll) (lo : Nat) (bs : List (Byte × Bool)) : Coll :=
  { c with buf := SMap.setList 0 c.buf lo (bs.map (·.1)), bad := SMap.setList false c.bad lo (bs.map (·.2)) }

/-- The sum of two elements of a format, with whether it is recorded as overflow (06 R190; 12 R356); `u` is a fault that strikes it and
that no check has caught (05 R169). -/
def collAdd (fmt x y : Nat) (u : Option Upset) : Nat × Bool :=
  if fmt = fW64 then
    let q := w64Add x y
    ((match u with | some _ => w64Enc (struckInt (w64Int q.1) u [.add, .saturate]) | none => q.1), q.2)
  else
    let f := (fmtFloat fmt).getD fp32
    let v := f.struck (f.encode ((FVal.add (f.decode x) (f.decode y)).struck u [.shift, .add])) u
    (v, decide (fmt = fFp16) && decide (bits v 14 10 = 31))

/-- The checked steps of an addition of a collective engine (05 R167; 14 R390). -/
def collSteps (fmt x y : Nat) : List ResStep :=
  if fmt = fW64 then intSteps (w64Int x) (w64Int y)
  else
    let f := (fmtFloat fmt).getD fp32
    let a := f.decode x
    let b := f.decode y
    let v := FVal.add a b
    addSteps a b ++ roundSteps f v (f.roundedAt v (f.encode v))

/-- Whether a check of flit `k`'s additions of elements of `n` bytes fails where some faults strike. -/
def flitFails (fmt n : Nat) (es : List (Nat × Nat)) (us : List Upset) (k : Nat) : Bool :=
  us.any fun u => decide (u.index * n / 128 = k) &&
    match es[u.index]? with
    | some e => upsetCaught u (collSteps fmt e.1 e.2)
    | none => false

/-- What an addition of a partial gives: its bytes, the overflow record, how many checks failed, and whether a repetition failed. -/
structure Reduced where
  bytes : List (Byte × Bool)
  overflow : Bool
  fails : Nat
  failed : Bool

/-- The partial that arrived plus this rank's own bytes, element by element (12 R356, R358). The channel repeats the addition of a flit
whose check fails once (14 R390). -/
def reduceBytes (fmt n : Nat) (fs : List (Upset × Option Upset)) (got own : List (Byte × Bool)) : Reduced :=
  let es := (leWords n got.length (got.map (·.1))).zip (leWords n own.length (own.map (·.1)))
  let first := fs.map (·.1)
  let second := fs.filterMap (·.2)
  let again := (List.range (ceilDiv got.length 128)).filter (flitFails fmt n es first)
  let twice := again.filter (flitFails fmt n es second)
  let sums := es.zipIdx.map fun e =>
    collAdd fmt e.1.1 e.1.2 ((if again.contains (e.2 * n / 128) then second else first).find? fun u => decide (u.index = e.2))
  let bad := fun i => (got.drop (i * n)).head?.any (·.2) || (own.drop (i * n)).head?.any (·.2)
  { bytes := sums.zipIdx.flatMap fun e => (leBytes n e.1.1).map fun x => (x, bad e.2)
    overflow := sums.any (·.2), fails := again.length + twice.length, failed := !twice.isEmpty }

/-- The data of message `i` that this rank sends: its own input `own` to begin a phase of its own, else what it has received or
reduced. -/
def CollRec.message (r : CollRec) (c : Coll) (i : Nat) (own : List (Byte × Bool)) : List (Byte × Bool) :=
  let p := r.span r.rank i
  (if i = 0 then own else c.bytes p.1 p.2) ++ (if c.layer.isSome then c.trailer else [])

/-- A collective that takes message `i`, which a reducing phase adds to this rank's own bytes (12 R356 to R358), with how many checks of
the addition failed. -/
def CollRec.takeMessage (r : CollRec) (c : Coll) (i : Nat) (fs : List (Upset × Option Upset)) (own bs : List (Byte × Bool)) :
    Coll × Nat :=
  let prev := (r.rank + r.ranks - 1) % r.ranks
  let p := r.span prev i
  let data := bs.take p.2
  let c := if c.layer.isSome then c.mergeTrailer ((bs.drop p.2).map (·.1)) else c
  let c := { c with step := i + 1 }
  if r.reducing i then
    let q := reduceBytes r.fmt r.esize fs data own
    let c := { c.setBytes p.1 q.bytes with failed := c.failed || q.failed }
    (if c.layer.isSome then
      { c with overflow := c.overflow || q.overflow, poison := c.poison || q.bytes.any (·.2) }
    else c, q.fails)
  else (c.setBytes p.1 data, 0)

/-- The collective of an entry in progress. -/
def Basin.coll (v : Basin) (e : Nat) : Option Coll := v.colls.find? fun c => decide (c.entry = e)

/-- The basin with the collective of an entry replaced. -/
def Basin.setColl (v : Basin) (c : Coll) : Basin :=
  { v with colls := v.colls.map fun d => if d.entry = c.entry then c else d }

/-- Whether an earlier collective in progress uses one of the entry's queue pairs, so that it waits (log 25). -/
def Basin.collWaits (v : Basin) (r : CollRec) (e : Nat) : Bool :=
  (v.colls.takeWhile fun c => decide (c.entry ≠ e)).any fun c =>
    match v.collTable[c.entry]? with
    | some q => decide (q.sendQp = r.sendQp) || decide (q.recvQp = r.recvQp)
    | none => false

/-- The collective engine reads bytes of a basin's memory, where nothing holds the read up (09 R270, R271, R280, R287): a page on the
host tier starts to return (R482), and the read meets what `Config.collRead` draws for it (log 83). -/
def State.collRead (s : State) (b ba n : Nat) : State × Option (List (Byte × Bool)) :=
  match s.readReady b [(ba, n)] with
  | (s, false) => (s, none)
  | (s, true) =>
    let e := Config.collRead s.freeCtr
    let r := (s.useAnswers b (span 64 ba n)).tick.readOut b ba n { crc := e.1, corrected := e.2.1, uncorrectable := e.2.2 }
    (r.1, some r.2)

/-- The bytes of its own that a collective needs next, where it needs some. -/
def State.collOwn (s : State) (b ba n : Nat) (need : Bool) : State × Option (List (Byte × Bool)) :=
  if need then s.collRead b ba n else (s, some [])

/-- Failed checks of a collective engine's additions are charged to its channel, which is the one beside the queue set's home group; a
second failure has ended the collective FAILED (14 R390, R402, R409; 12 R360). -/
def State.channelFails (s : State) (b : Nat) (c : Coll) (n : Nat) : State :=
  let set := (s.basin b).desc.qset
  let s := (List.range n).foldl (fun s _ => s.charge 9 (s.qset set).home 0x0D c.entry 0 0 (some b)) s
  if c.failed then s.updQset set fun q => { q with collFailed := true, failedEntry := c.entry } else s

/-- Runs a collective as far as what has arrived allows: message i leaves once i messages have arrived. -/
def collGo (b e : Nat) : Nat → State → State
  | 0, s => s
  | fuel + 1, s =>
    let v := s.basin b
    match v.coll e, v.collTable[e]? with
    | some c, some r =>
      if c.failed ∨ v.phase ≠ .running then s
      else if c.sends < r.sends ∧ c.sends ≤ c.step then
        let p := r.span r.rank 0
        match s.collOwn b (r.ba + p.1) p.2 (decide (c.sends = 0)) with
        | (s, none) => s
        | (s, some own) =>
          collGo b e fuel ((s.updBasin b fun v => v.setColl { c with sends := c.sends + 1 }).sendMessage b
            (qpnOf v.desc.qset r.sendQp) (r.message c c.sends own))
      else if c.step < r.recvs then
        let qpn := qpnOf v.desc.qset r.recvQp
        let p := r.span ((r.rank + r.ranks - 1) % r.ranks) c.step
        let n := p.2 + (if c.layer.isSome then 32 else 0)
        let st := v.rxStream qpn
        if st.length < n then s
        else
          match s.collOwn b (r.ba + p.1) p.2 (r.reducing c.step) with
          | (s, none) => s
          | (s, some own) =>
            let q := r.takeMessage c c.step (if r.reducing c.step then Config.channelFaults s.freeCtr else []) own (st.take n)
            let s := if r.reducing c.step then s.tick else s
            collGo b e fuel ((s.updBasin b fun v => { v.setColl q.1 with
              rxTaken := SMap.upd 0 v.rxTaken qpn (· + n) }).channelFails b q.1 q.2)
      else s
    | _, _ => s

/-- Runs the collectives of a basin, in the order in which they started. -/
def State.runColls (s : State) (b : Nat) : State :=
  (s.basin b).colls.foldl (fun s c =>
    match (s.basin b).collTable[c.entry]? with
    | some r => if (s.basin b).collWaits r c.entry then s else collGo b c.entry (r.sends + r.recvs + 1) s
    | none => s) s

/-- Starts a collective of the table (12 R355). -/
def State.startColl (s : State) (b e : Nat) (layer : Option Nat) : State :=
  let v := s.basin b
  match v.collTable[e]? with
  | some _ =>
    let a := match layer with | some n => v.layer n | none => {}
    (s.updBasin b fun v => { v with colls := v.colls ++
      [{ entry := e, layer := layer, overflow := a.overflow, poison := a.poison, minStep := a.minStep,
         maxStep := a.maxStep }] }).runColls b
  | none => s

/-- The entries of the table that a layer or a sluice triggers and that are not in progress. -/
def Basin.triggered (v : Basin) (onSluice : Bool) (n : Nat) : List Nat :=
  (v.collTable.zipIdx.filter fun e => decide (e.1.onSluice = onSluice) && decide (e.1.trigger = n) &&
    (v.coll e.2).isNone).map (·.2)

/-- Starts the entries that a layer, or the completion of a sluice, triggers (12 R355). -/
def State.trigger (s : State) (b : Nat) (onSluice : Bool) (n : Nat) : State :=
  ((s.basin b).triggered onSluice n).foldl (fun s e => s.startColl b e (if onSluice then none else some n)) s

/-- Whether a collective has received and sent everything, and its packets are acknowledged (12 R351, R356). -/
def State.collDone (s : State) (b e : Nat) : Bool :=
  let v := s.basin b
  match v.coll e, v.collTable[e]? with
  | some c, some r =>
    let q := s.qp (qpnOf v.desc.qset r.sendQp)
    !c.failed && decide (r.sends ≤ c.sends) && decide (r.recvs ≤ c.step) && q.unacked.isEmpty && q.heldTx.isEmpty
  | _, _ => false

/-- Whether every entry that layer `n` triggers has written its output in this step, one at least (06 R188; 12 R355). -/
def Basin.layerReduced (v : Basin) (n : Nat) : Bool :=
  let done := (v.layer n).collEnded
  !done.isEmpty && v.collTable.zipIdx.all fun e => e.1.onSluice || decide (e.1.trigger ≠ n) || done.contains e.2

/-- The chunks that an entry writes (12 R355, R356). -/
def CollRec.outputs (r : CollRec) : List (Nat × Nat) :=
  if r.op = opSend then []
  else if r.op = opReduceScatter then [r.chunk r.rank]
  else [(0, r.bytes)]

/-- The output bytes of a range: what the collective holds, or this rank's own input where an ALL_GATHER keeps it. -/
def Basin.outputBytes (v : Basin) (r : CollRec) (c : Coll) (p : Nat × Nat) : List (Byte × Bool) :=
  if r.op = opAllGather then
    let o := r.chunk r.rank
    (List.range p.2).map fun i =>
      let a := p.1 + i
      if o.1 ≤ a ∧ a < o.1 + o.2 then ((v.memBytes (r.ba + a) 1).headD (0, false))
      else (SMap.get 0 c.buf a, SMap.get false c.bad a)
  else c.bytes p.1 p.2

/-- The output of a layer with EXACT = 1, converted to FP16 once (06 R189). -/
def convertExact (wexp : Nat) (bs : List (Byte × Bool)) : List (Byte × Bool) :=
  ((leWords 8 bs.length (bs.map (·.1))).zipIdx).flatMap fun e =>
    (leBytes 2 (fp16.encode (w64Val wexp e.1))).map fun x => (x, (bs.drop (8 * e.2)).head?.any (·.2))

/-- Whether an entry's output is converted from W64 (06 R189; 12 R355). -/
def Basin.converts (v : Basin) (r : CollRec) (c : Coll) : Bool :=
  decide (r.fmt = fW64) && (match c.layer with | some n => (v.grad n).exact | none => false)

/-- The writes of a finished entry as (BA, bytes). -/
def Basin.collWrites (v : Basin) (r : CollRec) (c : Coll) : List (Nat × List (Byte × Bool)) :=
  r.outputs.map fun p =>
    let bs := v.outputBytes r c p
    if v.converts r c then (r.out + p.1 / 4, convertExact r.wexp bs) else (r.out + p.1, bs)

/-- Writes bytes with their poison to a basin's memory. -/
def State.writeBytes (s : State) (b ba : Nat) (bs : List (Byte × Bool)) : State :=
  s.writeMem b ba (bs.map (·.1)) (((bs.zipIdx.filter fun e => e.1.2).map fun e => (ba + e.2) / 64).dedup)

/-- An engine writes parts of a basin's memory, where nothing holds the writes up (09 R270, R271, R280, R481): pages are made ready
first. -/
def State.storeParts (s : State) (b : Nat) (ws : List (Nat × List (Byte × Bool))) : State × Prep :=
  let ps := (ws.flatMap fun w => span pageBytes w.1 w.2.length).dedup
  match s.prepPages b ps with
  | (s, .ready) =>
    if ws.any fun w => s.writeHeld b w.1 w.2.length then (s, .waits)
    else
      let s := ps.foldl (fun s p => s.resolveBias b p true) s
      let s := ws.foldl (fun s w => s.writeBytes b w.1 w.2) s
      (s.countIo b true none ((ws.flatMap fun w => span 64 w.1 w.2.length).dedup), .ready)
  | r => r

/-- A queue pair that enters ERROR ends every collective that uses it with status FAILED (12 R360). -/
def State.failColls (s : State) (qpn : Nat) : State :=
  let set := qsetOf qpn
  match s.qsetOwner set with
  | none => s
  | some b =>
    let v := s.basin b
    let uses := fun (c : Coll) => match v.collTable[c.entry]? with
      | some r => decide (qpnOf set r.sendQp = qpn) || decide (qpnOf set r.recvQp = qpn)
      | none => false
    match v.colls.find? fun c => !c.failed && uses c with
    | none => s
    | some first =>
      let s := s.updBasin b fun v => { v with colls := v.colls.map fun c => if uses c then { c with failed := true } else c }
      s.updQset set fun q => { q with collFailed := true, failedQp := (qpn - 256) % 32, failedEntry := first.entry }

/-- A queue pair enters ERROR (12 R352, R360). -/
def State.qpError (s : State) (qpn cause : Nat) : State :=
  (s.updQp qpn fun q => { q with st := .error, errCause := cause, unacked := [], heldTx := [] }).failColls qpn

/-- An unbind or an FLR returns every queue pair of the basin's set to RESET and drops data in flight (12 R360). -/
def State.resetQps (s : State) (b : Nat) : State :=
  let set := (s.basin b).desc.qset
  if 63 ≤ set then s
  else
    let s := s.updBasin b fun v => { v with colls := v.colls.map fun c => { c with failed := true }, rxLog := [], rxTaken := [] }
    (List.range 32).foldl (fun s q => s.updQp (qpnOf set q) fun q =>
      { q with st := .reset, errCause := 0, unacked := [], heldTx := [], rxHeld := [], sent := [], replay := [], retries := 0 }) s

end Sys2Proof.Machine
end

