-- ==== Sys2Proof/Machine/Training.lean ====
section
/-! DEFINITION. The training support unit of a basin: gradient-complete layers (06 R188), the step's verdict and its effects
(01 R23 to R25; 06 R191 to R193), and what the closing sluice brings (R187, R195). -/

namespace Sys2Proof.Machine

/-- Whether a layer is locally gradient-complete: its memory PUTs have all issued and completed (06 R188). -/
def Basin.locallyComplete (v : Basin) (n : Nat) : Bool :=
  decide ((v.grad n).expectOut ≤ (v.layer n).out) && decide ((v.layer n).out ≤ (v.layer n).outDone)

/-- Whether a layer is gradient-complete (06 R188). -/
def Basin.gradientComplete (v : Basin) (n : Nat) : Bool :=
  v.locallyComplete n && (!(v.grad n).collective || v.layerReduced n)

/-- The verdict's codes (06 R198, LAST). -/
def vClean : Nat := 1
def vOverflow : Nat := 2
def vPoison : Nat := 3

/-- The verdict of the step in progress (01 R23). -/
def Basin.verdictOf (v : Basin) : Nat :=
  if v.validLayers.any fun n => (v.layer n).poison then vPoison
  else if v.validLayers.any fun n => (v.layer n).overflow then vOverflow
  else vClean

/-- The VALID layers whose contributions carry different step counts (06 R191). -/
def Basin.skewed (v : Basin) : List Nat := v.validLayers.filter fun n => decide ((v.layer n).minStep ≠ (v.layer n).maxStep)

/-- The training registers after a verdict (06 R193). -/
def Train.after (t : Train) (growth : Nat) (fixed : Bool) (verdict : Nat) : Train :=
  let t := { t with last := verdict }
  if verdict = vClean then
    let t := { t with step := (t.step + 1) % 2 ^ 32 }
    if growth ≠ 0 ∧ growth ≤ t.clean + 1 then
      { t with clean := 0, lsExp := if fixed then t.lsExp else min 24 (t.lsExp + 1) }
    else { t with clean := satAdd 16 t.clean 1 }
  else if verdict = vOverflow then
    { t with clean := 0, lsExp := if fixed then t.lsExp else t.lsExp - 1, ovfSteps := satAdd 16 t.ovfSteps 1 }
  else { t with poisonSteps := satAdd 16 t.poisonSteps 1 }

/-- Gives the step's verdict; after a CLEAN one the engines queue the basin's chunks (06 R192, R193; 10 R294; 16 R448). -/
def State.giveVerdict (s : State) (b : Nat) : State :=
  let v := s.basin b
  let d := v.verdictOf
  let sk := v.skewed
  let s := s.updBasin b fun v =>
    let t := v.train.after v.growth v.lsFixed d
    { v with trainOld := v.train, train := { t with skewLayers := satAdd 16 t.skewLayers sk.length }, verdict := some d
             suppressed := sk }
  let s := (s.count .basin b (if d = vClean then 5 else if d = vOverflow then 6 else 7) 1).count .basin b 8 sk.length
  if d = vClean then s.startPasses b else s

/-- The verdict is given when the last VALID layer becomes gradient-complete (06 R192). -/
def State.tryVerdict (s : State) (b : Nat) : State :=
  let v := s.basin b
  if v.phase = .running ∧ v.verdict = none ∧ v.validLayers ≠ [] ∧ v.validLayers.all v.gradientComplete then s.giveVerdict b
  else s

/-- A G-marked transfer completes: a layer that is now locally gradient-complete starts its collective, and the verdict may
fall (06 R188, R192; 12 R355). -/
def State.gradDone (s : State) (b n : Nat) (out : Bool) : State :=
  let s := s.updBasin b fun v => v.updLayer n fun a =>
    if out then { a with outDone := a.outDone + 1 } else { a with redDone := a.redDone + 1 }
  let s := if out && (s.basin b).locallyComplete n then s.trigger b false n else s
  (s.tryVerdict b).checkClosing b

/-- CORE_LSCALE: 2^LS_EXP as FP32 (04 R112). -/
def lscaleBits (e : Nat) : Nat := (127 + e) * 2 ^ 23

/-- A core that takes the values of the training registers (04 R113). -/
def Core.takeTrain (k : Core) (t : Train) (verdict : Nat) : Core :=
  { k with lscale := lscaleBits t.lsExp, verdict := verdict, step := t.step }

/-- The closing sluice completes: the cores take the values that the verdict set, and the counts return to zero (06 R187,
R195), as do the norms and trust ratios of the step's passes (10 R299). -/
def State.closeStep (s : State) (b : Nat) : State :=
  let v := s.basin b
  let s := if v.verdict.isSome then s.updCores (s.liveCores b) fun _ k => k.takeTrain v.train v.train.last else s
  let s := { s with norms := s.norms.filter (fun n => decide (n.basin ≠ b)), trust := s.trust.filter fun t => decide (t.1 ≠ b) }
  s.updBasin b fun v => { v with layers := [], verdict := none, suppressed := [] }

end Sys2Proof.Machine
end

