-- ==== Sys2Proof/Machine/BargeGroup.lean ====
section
/-! DEFINITION. The barge group: BRG, BRGT, PUT, REDS and BCAN (04 R118 to R125; 08 R238 to R246, R254), and the completion of
a barge (04 R119; 08 R255). -/

namespace Sys2Proof.Machine

/-! ### Descriptor slots and lanes -/

/-- Whether every descriptor slot of the barge engine is held (04 R103; 08 R247). -/
def Core.bargeFull (k : Core) : Bool := decide (16 ≤ k.barges.length)

/-- The lane that an instruction names (04 R119). -/
def laneNum (i : Insn) : Nat := bits i.imm.toNat 15 0

/-- Whether a lane is one of a core's, for instructions of a kind, in the segment (04 R119, 07 R211). -/
def Basin.laneOf (v : Basin) (c l : Nat) (kind : LaneKind) : Bool :=
  match v.img, v.segRec, v.lane l with
  | some m, some g, some r => decide (r.kind = kind) && !(sourceSlots m g c l srcLaunch).isEmpty
  | _, _, _ => false

/-- Whether a lane lands at a core in two slots of consecutive lc, across repetitions of the frame (08 R245). -/
def Basin.landsDense (v : Basin) (c l : Nat) : Bool :=
  match v.img, v.segRec with
  | some m, some g =>
    let is := landingSlots m g l c
    is.any fun i => is.contains ((i + 1) % g.frame)
  | _, _ => false

/-- Transfers that a core has issued on a lane in the segment. -/
def Basin.issued (v : Basin) (c l : Nat) : Nat := SMap.get 0 v.laneIssued (laneKey c l)

/-- The SCHEDULE_FAULT conditions of a transfer of `n` bytes, in their order (04 R119, 07 R217): the lane, its size, its
count. -/
def Basin.laneConds (v : Basin) (c l : Nat) (kind : LaneKind) (transposed : Bool) (n : Nat) : List Cond :=
  cond (!v.laneOf c l kind || (transposed && v.landsDense c l)) cSchedule 0x01 ++
  match v.lane l with
  | some r => cond (decide (n ≠ r.size)) cSchedule 0x02 ++ cond (decide (r.transfers ≤ v.issued c l)) cSchedule 0x03
  | none => []

/-- Dispatches a barge: it takes a descriptor slot and the lane's next transfer, and the instruction issues (04 R103,
R119). -/
def State.dispatchBarge (s : State) (i : Issue) (g : Barge) : State :=
  let c := i.core
  let b := s.basinAt c
  let k := s.core c
  let l := laneNum i.insn
  let flag := if i.insn.fe then some i.insn.flg.toNat else none
  let g := { g with id := k.nextOp, pc := (k.stream i.strm).pc, lane := l, flag := flag, transfer := (s.basin b).issued c l }
  ((s.updBasin b fun v => { v with laneIssued := SMap.upd 0 v.laneIssued (laneKey c l) (· + 1) }).updCore c fun k =>
    { k with barges := k.barges ++ [g], nextOp := k.nextOp + 1 }).retire c i.strm i.insn.wc.toNat 1

/-- Bytes of the basin's address space: BA_SIZE_PAGES × 2 MiB (02 R31). -/
def Basin.baLimit (v : Basin) : Nat := v.desc.baPages * pageBytes

/-! ### BRG -/

/-- Towpath queue number (04 R120). -/
def tpNum (i : Insn) : Nat := bits i.imm.toNat 19 16

/-- The shape words that a barge keeps, and its shape (08 R241). -/
def shapeWords (k : Core) (w : Word) : List Word := if (memSide w).reads then (readShape k (memSide w).shape).1 else []

/-- The conditions of a towpath transfer (04 R120). -/
def towpathConds (d : OpDesc) (q bound : Nat) : List Cond :=
  cond (decide (d.bytes % 64 ≠ 0)) cBadDesc 0x07 ++ cond (decide (bound ≤ q)) cRange 0x04

/-- Whether a destination breaks the landing rule, where it lies in the scratchpad (08 R244). -/
def destClash (d : OpDesc) (sh : Shape) : Bool :=
  decide (streamSpEnd d sh ≤ spEnd) && landingClash ((streamRows d sh 0 0).map fun r => (r.1, r.2.2))

/-- The halt conditions of BRG (04 R118 to R120; 08 R241, R244). -/
def brgConds (v : Basin) (c : Nat) (k : Core) (t : Stream) (i : Insn) : List Cond :=
  let d := opDesc i.w1
  d.conds true ++
  if bits i.opt.toNat 1 0 = 0 then
    let sh := shapeOf (shapeWords k i.w2)
    cond (t.tag i.ra.toNat) cPoison 0x02 ++ cond (destClash d sh) cBadDesc 0x08 ++
    memSideConds k d (memSide i.w2) (t.reg i.ra.toNat).toNat v.baLimit true ++
    v.laneConds c (laneNum i) .memRd false (streamLen d sh)
  else
    towpathConds d (tpNum i) v.desc.tpIn ++ cond (destClash d {}) cBadDesc 0x08 ++
    v.laneConds c (laneNum i) .tpIn false d.bytes

/-- BRG (04 R119, R120). -/
def execBrg (i : Issue) (s : State) : Out State :=
  let mem := decide (bits i.insn.opt.toNat 1 0 = 0)
  .next (s.present i
    (fun _ _ => { op := 0x20, words := if 2 ≤ bits i.insn.opt.toNat 1 0 then [2, 3] else if mem then [3] else [2], only := some .a,
                  imm := if mem then 0xFFFF else 0xFFFFF, opt := 3, ra := mem, fe := true,
                  reserved := decide (2 ≤ bits i.insn.opt.toNat 1 0) })
    (fun s k t => brgConds (s.basin (s.basinAt i.core)) i.core k t i.insn)
    fun s =>
      let k := s.core i.core
      let d := opDesc i.insn.w1
      if k.bargeFull then s.unitWait i.core i.strm 9
      else if mem then
        let ws := shapeWords k i.insn.w2
        s.dispatchBarge i { kind := .brg, desc := i.insn.w1, mstride := (memSide i.insn.w2).mstride, shape := ws,
                            ba := ((k.stream i.strm).reg i.insn.ra.toNat).toNat, size := streamLen d (shapeOf ws) }
      else s.dispatchBarge i { kind := .brgTp, desc := i.insn.w1, queue := tpNum i.insn, size := d.bytes })

/-! ### BRGT -/

/-- Bytes of an element of BRGT: 1, 2 or 4. -/
def OpDesc.esize (d : OpDesc) : Nat := fmtBits d.fmt / 8

/-- Memory rows of a BRGT: ROWLEN ÷ element size rows of ROWS elements (04 R121). -/
def OpDesc.memRows (d : OpDesc) : Nat := d.rowlen / d.esize

/-- One past the greatest memory byte of a BRGT. -/
def OpDesc.memEnd (d : OpDesc) (ba mstride : Nat) : Nat := ba + (d.memRows - 1) * mstride + d.rows * d.esize

/-- The halt conditions of BRGT (04 R118, R121; 08 R245). -/
def brgtConds (v : Basin) (c : Nat) (t : Stream) (i : Insn) : List Cond :=
  let d := opDesc i.w1
  let m := memSide i.w2
  let ba := (t.reg i.ra.toNat).toNat
  let al := fmtAlign d.fmt
  cond (t.tag i.ra.toNat) cPoison 0x02 ++ d.conds true ++
  cond (decide (m.rsv ≠ 0) || decide (m.shape ≠ 0)) cBadDesc 0x06 ++
  cond (decide (spEnd ≤ m.shape)) cBadDesc 0x02 ++ cond (decide (m.shape % 32 ≠ 0)) cMisaligned 0x05 ++
  cond (decide (ba % al ≠ 0) || decide (m.mstride % al ≠ 0)) cMisaligned 0x03 ++
  cond (isMx d.fmt || decide (d.fmt = fW64) || decide (d.fmt = fRaw)) cFormat 0x05 ++
  cond (decide (v.baLimit < d.memEnd ba m.mstride)) cTier 0x03 ++
  v.laneConds c (laneNum i) .memRd true d.bytes

/-- BRGT (04 R121). -/
def execBrgt (i : Issue) (s : State) : Out State :=
  .next (s.present i (fun _ _ => { op := 0x21, words := [3], only := some .a, imm := 0xFFFF, ra := true, fe := true })
    (fun s _ t => brgtConds (s.basin (s.basinAt i.core)) i.core t i.insn)
    fun s =>
      let k := s.core i.core
      if k.bargeFull then s.unitWait i.core i.strm 9
      else
        s.dispatchBarge i { kind := .brgt, desc := i.insn.w1, mstride := (memSide i.insn.w2).mstride,
                            ba := ((k.stream i.strm).reg i.insn.ra.toNat).toNat, size := (opDesc i.insn.w1).bytes })

/-! ### PUT and REDS -/

/-- The layer of a G-marked transfer (04 R124). -/
def gLayer (i : Insn) : Option Nat := if i.opt.getLsbD 3 then some (bits i.imm.toNat 31 20) else none

/-- IMM bits that the G bit brings into use. -/
def gImm (i : Insn) : BitVec 32 := if i.opt.getLsbD 3 then 0xFFF00000 else 0

/-- The halt conditions of PUT by its destination (04 R118, R122, R124; 06 R187; 08 R241, R244). -/
def putConds (v : Basin) (c : Nat) (k : Core) (t : Stream) (i : Insn) : List Cond :=
  let d := opDesc i.w1
  d.conds false ++
  match bits i.opt.toNat 1 0 with
  | 0 =>
    let sh := shapeOf (shapeWords k i.w2)
    cond (t.tag i.ra.toNat) cPoison 0x02 ++
    memSideConds k d (memSide i.w2) (t.reg i.ra.toNat).toNat v.baLimit false ++
    v.gradConds (gLayer i) true d.fmt ++ v.laneConds c (laneNum i) .memWr false (streamLen d sh) ++
    v.tiedConds (gLayer i) true
  | 1 =>
    let e := opDesc i.w2
    e.conds true ++ cond (decide (d.bytes ≠ e.bytes)) cBadDesc 0x05 ++ cond (destClash e {}) cBadDesc 0x08 ++
    v.gradConds (gLayer i) false d.fmt ++ v.laneConds c (laneNum i) .core false d.bytes ++ v.tiedConds (gLayer i) false
  | _ => towpathConds d (tpNum i) v.desc.tpOut ++ v.laneConds c (laneNum i) .tpOut false d.bytes

/-- Which fields a PUT uses (04 R122, R124). -/
def putFields (i : Insn) : Fields :=
  let o := bits i.opt.toNat 1 0
  { op := 0x22, words := if o = 3 then [2, 3] else if o = 2 then [2] else [3], only := some .a,
    imm := (if o = 2 then 0xF0000 else 0) ||| 0xFFFF ||| gImm i, opt := 0xB, ra := decide (o = 0), fe := true,
    reserved := decide (o = 3) || (decide (o = 2) && i.opt.getLsbD 3) }

/-- A G-marked transfer issues (06 R187, R190, R191). -/
def State.contribute (s : State) (c : Nat) (layer : Option Nat) (out : Bool) : State :=
  let k := s.core c
  s.updBasin (s.basinAt c) fun v => v.contribute layer out k.step k.xstat

/-- PUT (04 R122, R124). -/
def execPut (i : Issue) (s : State) : Out State :=
  .next (s.present i (fun _ _ => putFields i.insn)
    (fun s k t => putConds (s.basin (s.basinAt i.core)) i.core k t i.insn)
    fun s =>
      let k := s.core i.core
      let d := opDesc i.insn.w1
      if k.bargeFull then s.unitWait i.core i.strm 9
      else
        match bits i.insn.opt.toNat 1 0 with
        | 0 =>
          let ws := shapeWords k i.insn.w2
          (s.contribute i.core (gLayer i.insn) true).dispatchBarge i
            { kind := .putMem, desc := i.insn.w1, mstride := (memSide i.insn.w2).mstride, shape := ws,
              ba := ((k.stream i.strm).reg i.insn.ra.toNat).toNat, size := streamLen d (shapeOf ws), grad := gLayer i.insn }
        | 1 =>
          (s.contribute i.core (gLayer i.insn) false).dispatchBarge i
            { kind := .putLat, desc := i.insn.w1, desc2 := i.insn.w2, size := d.bytes, grad := gLayer i.insn }
        | _ => s.dispatchBarge i { kind := .putTp, desc := i.insn.w1, queue := tpNum i.insn, size := d.bytes })

/-- The format of a REDUCE lane's adder operations, where it has any (04 R123, 07 R213 rule 6). -/
def imgLaneFmt (m : Image) (l : Nat) : Option Nat :=
  (m.slots.find? fun e => decide ((slotRec e.2.2).addOp ≠ 0) && decide ((slotRec e.2.2).lane = l)).map fun e =>
    (slotRec e.2.2).addFmt

/-- The element format of ADD_FMT (07 R208). -/
def addFmtOf (f : Nat) : Nat := if f = 0 then fFp32 else if f = 1 then fFp16 else fW64

/-- The halt conditions of REDS (04 R123, R124; 06 R187). -/
def redsConds (v : Basin) (c : Nat) (i : Insn) : List Cond :=
  let d := opDesc i.w1
  let e := opDesc i.w2
  let laneFmt := (v.img.bind fun m => imgLaneFmt m (laneNum i)).map addFmtOf
  d.conds false ++ e.conds true ++
  cond (decide (d.rows ≠ e.rows) || decide (d.rowlen ≠ e.rowlen)) cBadDesc 0x05 ++
  cond (decide (d.fmt ≠ e.fmt) || !(decide (d.fmt = fFp32) || decide (d.fmt = fFp16) || decide (d.fmt = fW64))) cFormat 0x06 ++
  cond (match laneFmt with | some f => decide (d.fmt ≠ f) | none => false) cFormat 0x08 ++
  v.gradConds (gLayer i) false d.fmt ++ v.laneConds c (laneNum i) .reduce false d.bytes ++ v.tiedConds (gLayer i) false

/-- REDS (04 R123, R124). -/
def execReds (i : Issue) (s : State) : Out State :=
  .next (s.present i (fun _ _ => { op := 0x23, words := [3], only := some .a, imm := 0xFFFF ||| gImm i.insn, opt := 8, fe := true })
    (fun s _ _ => redsConds (s.basin (s.basinAt i.core)) i.core i.insn)
    fun s =>
      if (s.core i.core).bargeFull then s.unitWait i.core i.strm 9
      else
        (s.contribute i.core (gLayer i.insn) false).dispatchBarge i
          { kind := .reds, desc := i.insn.w1, desc2 := i.insn.w2, size := (opDesc i.insn.w1).bytes, grad := gLayer i.insn })

/-! ### BCAN -/

/-- The destination rows of a barge, as (address, width), in stream order (08 R240; 04 R120). -/
def Barge.destRows (g : Barge) : List (Nat × Nat) :=
  (streamRows (opDesc g.desc) (shapeOf g.shape) g.ba g.mstride).map fun r => (r.1, r.2.2)

/-- The 64-byte scratchpad blocks that a barge's destination touches. -/
def Barge.destBlocks (g : Barge) : List Nat := (g.destRows.flatMap fun r => span 64 r.1 r.2).dedup

/-- Bytes of a barge's stream that stand in scratchpad (08 R254). -/
def Barge.writtenBytes (g : Barge) : Nat := min g.size (128 * g.landed) - g.buf.length

/-- Whether BCAN with a mask cancels a barge (04 R125). -/
def Barge.cancels (g : Barge) (mask : BitVec 32) : Bool :=
  (match g.kind with | .brg | .brgt | .brgTp => true | _ => false) && !g.cancelled && !g.dropped &&
    (match g.flag with | some f => mask.getLsbD f | none => false)

/-- A core after BCAN: the destination blocks are poisoned and the flags disarmed (08 R254). -/
def Core.cancel (k : Core) (mask : BitVec 32) : Core :=
  let gs := k.barges.filter fun g => g.cancels mask
  { k with
    spPoison := (gs.flatMap Barge.destBlocks).foldl (fun m b => SMap.set false m b true) k.spPoison
    barges := k.barges.map fun g => if g.cancels mask then { g with cancelled := true } else g }

/-- Bytes that a BCAN counts as CANCELLED_BYTES (08 R254). -/
def Core.cancelledBytes (k : Core) (mask : BitVec 32) : Nat :=
  ((k.barges.filter fun g => g.cancels mask).map fun g => g.size - g.writtenBytes).sum

/-- BCAN (04 R125; 08 R254). -/
def execBcan (i : Issue) (s : State) : Out State :=
  .next (s.present i (fun _ _ => { op := 0x24, words := [1], only := some .a, imm := BitVec.allOnes 32 }) (fun _ _ _ => []) fun s =>
    let n := (s.core i.core).cancelledBytes i.insn.imm
    ((s.updCore i.core fun k => k.cancel i.insn.imm).count .core i.core 39 n).retire i.core i.strm 0 1)

/-! ### Completion -/

/-- Data flits of a barge (07 R211). -/
def Barge.flits (g : Barge) : Nat := ceilDiv g.size 128

/-- The pages of a barge's memory side. -/
def Barge.pages (g : Barge) : List Nat :=
  match g.kind with
  | .brgt =>
    let d := opDesc g.desc
    ((List.range d.memRows).flatMap fun j => span pageBytes (g.ba + j * g.mstride) (d.rows * d.esize)).dedup
  | .brg | .putMem =>
    ((streamRows (opDesc g.desc) (shapeOf g.shape) g.ba g.mstride).flatMap fun r => span pageBytes r.2.1 r.2.2).dedup
  | _ => []

end Sys2Proof.Machine
end

