-- ==== Sys2Proof/Machine/Towpath.lean ====
section
/-! DEFINITION. Towpath queues (11 R330 to R343): what the program pushes and takes, what host software reads and writes,
notices, flushes and the reset of a queue, and what a checkpoint and a restart do to them (02 R49). -/

namespace Sys2Proof.Machine

/-- What host software sends reaches the device: the link is up, and not in the IDE insecure state, in which the device drops
every received flit (11 R324). -/
def State.overLink (s : State) (f : State → State) : State := if s.link.up && !s.link.insecure then f s else s

/-- What host software sends to what ROM recovery mode does not serve: there it has no effect (15 R426). -/
def State.fromHost (s : State) (f : State → State) : State := if s.mgmt.phase = .recovery then s else s.overLink f

/-! ### Queues -/

/-- Depth in items (11 R330). -/
def TpQueue.depth (q : TpQueue) : Nat := 2 ^ q.depthLog2

/-- Places left. -/
def TpQueue.room (q : TpQueue) : Nat := q.depth - q.count

/-- Whether slot `j` is an in-queue (11 R332). -/
def isInQueue (j : Nat) : Bool := decide (j < 16)

/-- Whether slot `j` is one of the basin's bound queues (02 R32; 11 R332). -/
def Basin.boundQueue (v : Basin) (j : Nat) : Bool :=
  decide (v.phase ≠ .free) && (if isInQueue j then decide (j < v.desc.tpIn) else decide (j - 16 < v.desc.tpOut))

/-- Queue `j` of basin `b`. -/
def State.queue (s : State) (b j : Nat) : TpQueue := (s.basin b).queue j

/-- A notice on the queue's VECTOR; 31 gives none (11 R339, R342). -/
def State.tpNotify (s : State) (b j : Nat) : State :=
  if (s.queue b j).vector = 31 then s else s.notify (.vf b) (s.queue b j).vector

/-- What the level notice measures: items not yet consumed of an out-queue, free places of an in-queue (11 R339). -/
def TpQueue.measure (q : TpQueue) (j : Nat) : Nat := if isInQueue j then q.room else q.items.length

/-- The level notice fires once when the measure rises to NOTIFY_LEVEL, and re-arms below it (11 R339). -/
def State.levelCheck (s : State) (b j : Nat) : State :=
  let q := s.queue b j
  if q.notifyLevel = 0 then s
  else if q.notifyLevel ≤ q.measure j then
    if q.levelFired then s else (s.updQueue b j fun q => { q with levelFired := true }).tpNotify b j
  else s.updQueue b j fun q => { q with levelFired := false }

/-- A queue from which `n` items have been consumed: they are held, and the idle period ends (11 R331, R339). -/
def TpQueue.consume (q : TpQueue) (n : Nat) : TpQueue :=
  let taken := q.items.take n
  { q with
    items := q.items.drop n
    held := q.held ++ taken
    head := (q.head + taken.length) % 2 ^ 32
    last := match taken.getLast? with | some i => some i | none => q.last
    idleFired := q.idleFired && taken.isEmpty }

/-- A queue with items appended (11 R342). -/
def TpQueue.append (q : TpQueue) (is : List Item) : TpQueue :=
  { q with items := q.items ++ is, tail := (q.tail + is.length) % 2 ^ 32 }

/-! ### The program's side -/

/-- The program's PUT places an item in an out-queue. After a restart the interval's first items are suppressed and compared
with those delivered; a difference halts the basin (02 R49; 11 R337, R338). LAST_CAUSE then reads 0 (DESIGN CHOICE, log 60: the
spec names no reason code for it). -/
def State.tpPush (s : State) (b n : Nat) (i : Item) : State :=
  let j := 16 + n
  let s := s.updQueue b j fun q => { q with pushed := q.pushed ++ [i] }
  match (s.queue b j).replay with
  | p :: ps =>
    let s := s.updQueue b j fun q => { q with replay := ps }
    if p = i then s else (s.markEvent b 8).haltBasin b 0
  | [] => ((s.updQueue b j fun q => q.append [i]).count .cxl 0 5 1).levelCheck b j

/-- The program's BRG takes items from an in-queue (11 R331, R337). -/
def State.tpTake (s : State) (b n k : Nat) : State :=
  (s.updQueue b n fun q => { q.consume k with read := q.read + k }).levelCheck b n

/-! ### Checkpoints and restarts -/

/-- When a checkpoint sluice completes, held items leave their queues (11 R331). -/
def State.releaseHeld (s : State) (b : Nat) : State :=
  let s := s.updBasin b fun v => { v with tp := SMap.mapV {} v.tp fun _ q =>
    { q with held := [], read := 0, pushed := [], replay := [], heldLost := false } }
  (List.range 16).foldl (fun s j => if (s.basin b).boundQueue j then s.levelCheck b j else s) s

/-- A launch begins an interval of its own. -/
def Basin.launchQueues (v : Basin) : Basin :=
  { v with tp := SMap.mapV {} v.tp fun _ q => { q with read := 0, pushed := [], replay := [], heldLost := false } }

/-- A restart or resume: items that the program has read in the interval are presented again, and items that it has pushed
are suppressed and compared (02 R49; 11 R343). -/
def TpQueue.rewind (q : TpQueue) (j : Nat) : TpQueue :=
  if isInQueue j then
    let keep := q.held.length - q.read
    { q with items := q.held.drop keep ++ q.items, held := q.held.take keep,
             head := (q.head + 2 ^ 32 - q.read % 2 ^ 32) % 2 ^ 32, read := 0 }
  else { q with replay := q.pushed ++ q.replay, pushed := [] }

/-- The basin with every queue rewound. -/
def Basin.rewindQueues (v : Basin) : Basin := { v with tp := SMap.mapV {} v.tp fun j q => q.rewind j }

/-- Whether held items of the interval have been discarded, so that they cannot be re-presented or compared (11 R340, R341). -/
def Basin.heldLost (v : Basin) : Bool := v.tp.any fun e => e.2.heldLost

/-! ### The host's side -/

/-- The bytes `off` to `off + n − 1` of an item. -/
def itemBytes (i : Option Item) (off n : Nat) : List Byte :=
  match i with
  | some i => (List.range n).map fun k => i.data.getD (off + k) 0
  | none => List.replicate n 0

/-- A bulk read of out-queue `j` (11 R335, R338): slot `off` ÷ 64 of the bulk window, item head + slot if one is there and zeros
otherwise. -/
def State.bulkRead (s : State) (b j off len : Nat) : State :=
  let i := ((s.queue b j).items)[off / 64]?
  let p := match i with | some i => i.poison | none => false
  let s := s.emit (.itemData (itemBytes i (off % 64) len) p)
  if p then s.updQueue b j fun q => { q with poison := true } else s

/-- TP_OUT_ITEM_READ (11 R332, R333, R335, R338): a read at `off` of out-queue `n`'s slot: of its item port, or from 0x1000 on of its
bulk window. -/
def execTpOutItemRead (b n off len : Nat) (s : State) : Out State :=
  let j := 16 + n
  .next (s.fromHost fun s =>
    if !(s.basin b).boundQueue j then s.emit (.itemData (List.replicate len 0) false)
    else if 0x1000 ≤ off then s.bulkRead b j (off - 0x1000) len
    else
      let q := s.queue b j
      match q.items with
      | [] =>
        let p := match q.last with | some i => i.poison | none => false
        (s.updQueue b j fun q => { q with underrun := true, poison := q.poison || p }).emit (.itemData (itemBytes q.last off len) p)
      | i :: _ =>
        let s := s.emit (.itemData (itemBytes (some i) off len) i.poison)
        let s := if i.poison then s.updQueue b j fun q => { q with poison := true } else s
        if off + len = 64 ∧ len ≠ 0 then (s.updQueue b j fun q => q.consume 1).levelCheck b j else s)

/-- The item that bytes at keys `lo` on spell; unwritten bytes read as zero. -/
def asmItem (m : SMap Byte) (lo : Nat) (p : Bool) : Item := { data := SMap.getList 0 m lo 64, poison := p }

/-- The staging area, whose slots count from the tail, after the tail has moved by `n` and its first `k` slots are gone (11 R336). -/
def shiftStaged {α : Type} (unit k n : Nat) (m : SMap α) : SMap α :=
  m.filterMap fun e => if e.1 < unit * k then none else some (e.1 - unit * n, e.2)

/-- An append of the assembled item takes it before the port is cleared. -/
def TpQueue.takeAsm (q : TpQueue) : TpQueue × Item :=
  ({ q with asm := [], asmPoison := false }, asmItem q.asm 0 q.asmPoison)

/-- An in-queue to which the item port appends: the items staged at later numbers stay at theirs (11 R334, R336). -/
def TpQueue.appendAsm (q : TpQueue) : TpQueue :=
  { q.takeAsm.1.append [q.takeAsm.2] with
    staged := shiftStaged 64 1 1 q.staged, stagedPoison := shiftStaged 1 1 1 q.stagedPoison }

/-- TP_IN_ITEM_WRITE (11 R334, R338): a write of the item port of in-queue `n`, which appends at byte 63. -/
def execTpInItemWrite (b n off : Nat) (data : List Byte) (ep : Bool) (s : State) : Out State :=
  .next (s.fromHost fun s =>
    if !(isInQueue n && (s.basin b).boundQueue n) then s
    else
      let s := s.updQueue b n fun q => { q with asm := SMap.setList 0 q.asm off data, asmPoison := q.asmPoison || ep }
      if off + data.length = 64 ∧ data ≠ [] then
        let q := s.queue b n
        if q.room = 0 then s.updQueue b n fun q => { q.takeAsm.1 with overrun := true }
        else ((s.updQueue b n TpQueue.appendAsm).count .cxl 0 4 1).levelCheck b n
      else s)

/-- TP_IN_BULK_WRITE (11 R336): stages bytes of item tail + `i` of in-queue `n`. -/
def execTpInBulkWrite (b n i off : Nat) (data : List Byte) (ep : Bool) (s : State) : Out State :=
  .next (s.fromHost fun s =>
    if !(isInQueue n && (s.basin b).boundQueue n) then s
    else if (s.queue b n).room ≤ i then s.updQueue b n fun q => { q with overrun := true }
    else s.updQueue b n fun q => { q with
      staged := SMap.setList 0 q.staged (64 * i + off) data
      stagedPoison := SMap.upd false q.stagedPoison i fun p => p || ep })

/-- An ADVANCE of an in-queue: staged items are appended as far as they fit (11 R336). -/
def State.advanceIn (s : State) (b j k : Nat) : State :=
  let q := s.queue b j
  let n := min k q.room
  let is := (List.range n).map fun i => asmItem q.staged (64 * i) (SMap.get false q.stagedPoison i)
  let s := s.updQueue b j fun q =>
    { q.append is with
      staged := shiftStaged 64 k n q.staged, stagedPoison := shiftStaged 1 k n q.stagedPoison
      overrun := q.overrun || decide (n < k) }
  (s.count .cxl 0 4 n).levelCheck b j

/-- An ADVANCE of an out-queue: host software consumes items, as many as are there (11 R335). -/
def State.advanceOut (s : State) (b j k : Nat) : State :=
  (s.updQueue b j fun q => { q.consume k with underrun := q.underrun || decide (q.items.length < k) }).levelCheck b j

/-- ADVANCE (11 R335, R336). -/
def execAdvance (b j k : Nat) (s : State) : Out State :=
  .next (s.fromHost fun s =>
    if !(s.basin b).boundQueue j then s else if isInQueue j then s.advanceIn b j k else s.advanceOut b j k)

/-- An emptied queue (11 R340). -/
def TpQueue.empty (q : TpQueue) : TpQueue :=
  { q with
    items := [], held := [], head := 0, tail := 0, asm := [], asmPoison := false, staged := [], stagedPoison := []
    read := 0, heldLost := q.heldLost || !q.held.isEmpty, idleFired := false }

/-- FLUSH (11 R340). -/
def execFlush (b j : Nat) (s : State) : Out State :=
  .next (s.fromHost fun s =>
    if !(s.basin b).boundQueue j then s
    else (s.updQueue b j fun q => { q.empty with flushedHeld := q.flushedHeld || !q.held.isEmpty }).levelCheck b j)

/-- The nearer depth that exists (11 R342). -/
def depthClamp (d : Nat) : Nat := max 10 (min 20 d)

/-- TP_CTRL_WRITE (11 R330, R342): a level that the measure already stands at does not fire. -/
def execTpCtrlWrite (b j : Nat) (v : Word) (s : State) : Out State :=
  .next (s.fromHost fun s =>
    if (s.basin b).phase = .free then s
    else
      let w := v.toNat
      let s := s.updQueue b j fun q => { q with
        timeoutUs := bits w 55 32, notifyLevel := bits w 30 10, vector := bits w 9 5 }
      let s := s.setDepth b j (depthClamp (bits w 4 0))
      (s.updQueue b j fun q =>
        { q with levelFired := decide (q.notifyLevel ≠ 0) && decide (q.notifyLevel ≤ q.measure j) }).advanceTier)

/-- TP_IDLE_TIMEOUT (11 R339): the command marks that TIMEOUT_US have passed without a consumption. -/
def execTpIdleTimeout (b j : Nat) (s : State) : Out State :=
  let q := s.queue b j
  .next (if (s.basin b).boundQueue j && decide (q.timeoutUs ≠ 0) && !q.items.isEmpty && !q.idleFired then
    (s.updQueue b j fun q => { q with timeout := true, idleFired := true }).tpNotify b j
  else s)

/-- TP_PTR (11 R342). -/
def TpQueue.ptrWord (q : TpQueue) : Nat := q.tail * 2 ^ 32 + q.head

/-- TP_PTR_MISMATCH (11 R341; 14 R409): the queue is reset as a flush would, a notice is raised and the event reported. -/
def execTpPtrMismatch (b j : Nat) (s : State) : Out State :=
  let q := s.queue b j
  .next (if (s.basin b).boundQueue j then
    ((s.updQueue b j fun q => { q.empty with
        ptrErr := true, levelFired := decide (q.notifyLevel ≠ 0) && decide (q.notifyLevel ≤ q.empty.measure j) }).tpNotify b j).report
      { event := 0x0E, kind := 7, index := 32 * b + j, basin := some b, addr := q.ptrWord }
  else s)

end Sys2Proof.Machine
end

