-- ==== Sys2Proof/Machine/Ports.lean ====
section
/-! DEFINITION. Memory ports and the towpath stage: the memory side of a barge (08 R238 to R246), requests, merged reads and
grants (07 R219, R220; 09 R264), suspension and resume (08 R251, R252), failed requests (08 R253, R256; 09 R287, R288), and
the towpath stage (11 R337). -/

namespace Sys2Proof.Machine

/-! ### Streams -/

/-- Whether a barge of a kind reads. -/
def BargeKind.reads : BargeKind → Bool
  | .brg | .brgt | .brgTp => true
  | _ => false

/-- Whether a barge of a kind sends its data on the lattice (07 R211). -/
def BargeKind.sendsData : BargeKind → Bool
  | .putMem | .putTp | .putLat | .reds => true
  | _ => false

/-- Flits that a barge launches (07 R211). -/
def Barge.launches (g : Barge) : Nat := if g.kind.sendsData then 1 + g.flits else 1

/-- Bytes `off` to `off + n − 1` of a stream of rows, as (address, bytes). -/
def sliceRows : List (Nat × Nat) → Nat → Nat → List (Nat × Nat)
  | [], _, _ => []
  | (a, w) :: rs, off, n =>
    if n = 0 then []
    else if w ≤ off then sliceRows rs (off - w) n
    else (a + off, min n (w - off)) :: sliceRows rs 0 (n - min n (w - off))

/-- A group of a BRGT's memory rows and a piece of 128 bytes of each (08 R245): the first memory row, how many, the piece's
first byte within a row, its bytes. -/
structure Piece where
  row : Nat
  rows : Nat
  byte : Nat
  len : Nat

/-- The pieces of a BRGT in stream order (08 R245). -/
def brgtPieces (d : OpDesc) : List Piece :=
  let w := d.rows * d.esize
  (List.range (ceilDiv d.memRows 16)).flatMap fun q => (List.range (ceilDiv w 128)).map fun p =>
    { row := 16 * q, rows := min 16 (d.memRows - 16 * q), byte := 128 * p, len := min 128 (w - 128 * p) }

/-- The memory side of a barge in stream order, as (BA, bytes) (08 R240, R245). -/
def Barge.memRowsOf (g : Barge) : List (Nat × Nat) :=
  match g.kind with
  | .brgt => (brgtPieces (opDesc g.desc)).flatMap fun p => (List.range p.rows).map fun i =>
      (g.ba + (p.row + i) * g.mstride + p.byte, p.len)
  | _ => (streamRows (opDesc g.desc) (shapeOf g.shape) g.ba g.mstride).map fun r => (r.2.1, r.2.2)

/-- Rows joined where they are contiguous (08 R243). -/
def joinRuns : List (Nat × List (Byte × Bool)) → List (Nat × List (Byte × Bool))
  | [] => []
  | (a, bs) :: rest =>
    match joinRuns rest with
    | (c, cs) :: more => if a + bs.length = c then (a, bs ++ cs) :: more else (a, bs) :: (c, cs) :: more
    | [] => [(a, bs)]

/-- Bytes of scratchpad with the poison of their blocks. -/
def Core.spBytes (k : Core) (a n : Nat) : List (Byte × Bool) :=
  ((k.spRead a n).zipIdx).map fun e => (e.1, SMap.get false k.spPoison ((a + e.2) / 64))

/-- The stream that a PUT or REDS takes from scratchpad (08 R240, R242). -/
def Barge.sourceBytes (g : Barge) (k : Core) : List (Byte × Bool) := g.destRows.flatMap fun r => k.spBytes r.1 r.2

/-- The parts of a run of memory by tile. -/
def splitTiles (a n : Nat) : List (Nat × Nat) :=
  (span tileBytes a n).map fun t => (max a (t * tileBytes), min (a + n) ((t + 1) * tileBytes) - max a (t * tileBytes))

/-! ### Units and their requests -/

/-- The requests at a unit: 0 to 11 the port of that stack, 12 the towpath stage (07 R210, PORT). -/
def State.unitReqs (s : State) (u : Nat) : List PortReq := if u = 12 then s.stageReqs else (s.port u).reqs

/-- The state with a unit's requests replaced. -/
def State.setReqs (s : State) (u : Nat) (l : List PortReq) : State :=
  if u = 12 then { s with stageReqs := l } else s.updPort u fun p => { p with reqs := l }

/-- The state with one request of a unit changed. -/
def State.updReq (s : State) (u : Nat) (r : PortReq) (f : PortReq → PortReq) : State :=
  s.setReqs u ((s.unitReqs u).map fun q => if q = r then f q else q)

/-- Barge `id` of core `c`. -/
def State.barge (s : State) (c id : Nat) : Option Barge := (s.core c).barges.find? fun g => decide (g.id = id)

/-- The state with barge `id` of core `c` changed. -/
def State.updBarge (s : State) (c id : Nat) (f : Barge → Barge) : State :=
  s.updCore c fun k => { k with barges := k.barges.map fun g => if g.id = id then f g else g }

/-- Whether two requests are of one transfer of a lane. -/
def PortReq.same (r q : PortReq) : Bool :=
  decide (r.basin = q.basin) && decide (r.lane = q.lane) && decide (r.transfer = q.transfer) && (r.write == q.write)

/-- The routers at which a unit attaches (07 R205): 13 + n is lane group n. -/
def unitRouters (u : Nat) : List Nat :=
  ((List.range 64) ++ (List.range 64).map fun x => 1984 + x).filter fun r => decide (attached r = some u)

/-- How far a column lies from a rectangle. -/
def Desc.colDist (d : Desc) (x : Nat) : Nat := (4 * d.originCol - x) + (x + 1 - 4 * (d.originCol + d.width))

/-- The attach router of a unit from which transit to a basin runs: the nearest column, the lower on ties (07 R225). -/
def Desc.attachFor (d : Desc) (u : Nat) : Nat :=
  ((unitRouters u).foldl (fun (best : Option Nat) r =>
    match best with
    | some q => if d.colDist (r % 64) < d.colDist (q % 64) then some r else best
    | none => some r) none).getD 0

/-- The unit that a lane's PORT names: 13 is the channel of the basin's Ethernet lane group (07 R210; 12 R356). -/
def State.portUnit (s : State) (b port : Nat) : Nat :=
  if port = 13 then 13 + (s.qset (s.basin b).desc.qset).home else port

/-- The basin's portal for an attach router: the router of the rectangle nearest to it (07 R225). -/
def Desc.portal (d : Desc) (r : Nat) : Nat :=
  64 * max (8 * d.originRow) (min (8 * (d.originRow + d.height) - 1) (r / 64)) +
    max (4 * d.originCol) (min (4 * (d.originCol + d.width) - 1) (r % 64))

/-- Whether a lane's leg from a unit starts at an attach router of the basin in the segment. -/
def Basin.hasExt (v : Basin) (u l : Nat) : Bool :=
  match v.img, v.segRec with
  | some m, some g => (imgRouters m).any fun r => decide (attached r = some u) && !(sourceSlots m g r l srcExt).isEmpty
  | _, _ => false

/-- A flit that a unit has ready for a lane: at its own slots of the external links, or by transit to the portal (07 R206,
R209, R225). -/
def State.sendReturn (s : State) (u : Nat) (f : Flit) : State :=
  let v := s.basin f.basin
  if v.hasExt u f.lane then { s with extQ := s.extQ ++ [{ key := u, flit := f }] }
  else
    let r := v.desc.attachFor u
    { s with transit := s.transit ++
      [{ router := r, out := 5, notBefore := s.latTime r, dest := v.desc.portal r, unit := none, flit := f }] }

/-! ### Reading memory -/

/-- Whether a barge's read of a BA must wait (08 R251): its tile is being copied, its page waits for a frame (09 R481), its stack
is stopped or retrains, or the host has not answered (09 R287; 11 R323). -/
def State.readBlocked (s : State) (b : Nat) (g : Barge) (a : Nat) : Bool :=
  let v := s.basin b
  let q := v.page (a / pageBytes)
  let host := (v.blockOnHost (a / 64) || (q.hostBias && v.tileWritten (a / tileBytes))) && !g.hostOk.contains (a / pageBytes)
  s.copying b a || decide (q.want = .ret) || decide (q.want = .rescue) || host ||
  match v.blockFrame (a / 64) with
  | some f => (s.port (stackOf f)).stalled
  | none => false

/-- How many of a stream's next bytes can be read now. -/
def State.readable (s : State) (b : Nat) (g : Barge) (ps : List (Nat × Nat)) : Nat :=
  (((ps.flatMap fun p => splitTiles p.1 p.2).takeWhile fun q => !s.readBlocked b g q.1).map (·.2)).sum

/-- A barge's requests for the lines of a page go to the host: to the page's host-tier frame (09 R277, R285), or to resolve what
the host holds of a page in host bias (11 R323). -/
def State.askBarge (s : State) (b c : Nat) (g : Barge) (p : Nat) (lines : List Nat) (write : Bool) : State :=
  if g.hostAsks.contains p then s
  else
    let s := s.updBarge c g.id fun h => { h with hostAsks := h.hostAsks ++ [p] }
    if (((s.basin b).page p).hostFrame.isSome || ((s.basin b).page p).toHost.isSome) then
      s.tierMsg b p (lines.headD 0 % 32768) lines.length write
    else s.resolveBias b p write

/-! ### Merged reads -/

/-- The requests of a transfer at a port that have been taken. -/
def State.asked (s : State) (u : Nat) (r : PortReq) : List PortReq := (s.unitReqs u).filter fun q => q.taken && q.same r

/-- Requests that a lane's transfer gathers before its return starts (07 R220). -/
def Basin.membersOf (v : Basin) (l : Nat) : Nat := match v.lane l with | some r => max 1 r.members | none => 1

/-- The tiles of a barge's memory side. -/
def Barge.tiles (g : Barge) : List Nat := (g.memRowsOf.flatMap fun p => span tileBytes p.1 p.2).dedup

/-- Whether two members ask for the same memory side (08 R246). -/
def Barge.agrees (g h : Barge) : Bool :=
  let d := opDesc g.desc
  let e := opDesc h.desc
  decide (g.kind = h.kind) && decide (g.ba = h.ba) && decide (g.mstride = h.mstride) && decide (g.shape = h.shape) &&
    decide (d.rowlen = e.rowlen) && decide (d.phys = e.phys) && decide (d.fmt = e.fmt)

/-- The held tile that leaves when all 64 are held (07 R220): the first whose hold ends earliest, not one that is sending. -/
def evictTile (l : List MergeTile) : Option MergeTile :=
  (l.filter fun t => !t.sending).foldl (fun best t =>
    match best with
    | some m => if t.ends < m.ends then some t else best
    | none => some t) none

/-- Whether every tile that a full merge buffer holds is sending, so that a read that needs a place waits (07 R220). -/
def Stack.mergeFull (p : Stack) : Bool := decide (64 ≤ p.merge.length) && p.merge.all (·.sending)

/-- Holds a tile in a port's merge buffer (07 R220). -/
def State.holdTile (s : State) (u : Nat) (t : MergeTile) : State :=
  s.updPort u fun p =>
    if p.merge.length < 64 then { p with merge := p.merge ++ [t] }
    else
      match evictTile p.merge with
      | some m => { p with merge := p.merge.filter (fun q => decide (q ≠ m)) ++ [t] }
      | none => p

/-- Whether a port's buffer holds a tile of a basin. -/
def Stack.holds (p : Stack) (b t : Nat) : Bool := p.merge.any fun m => decide (m.basin = b) && decide (m.tile = t)

/-- The tiles of a stream that a read takes from HBM, those that the merge buffer serves counted (07 R220; 16 R448). -/
def State.readTiles (s : State) (u b : Nat) (g : Barge) : State :=
  let n := (g.tiles.filter fun t => (s.port u).holds b t).length
  s.count .memp u 3 n

/-- The first request of a merged transfer: the port reads its tiles and holds them (07 R220). -/
def State.mergeFirst (s : State) (u : Nat) (r : PortReq) (g : Barge) : State :=
  match (s.basin r.basin).lane r.lane with
  | some l =>
    let now := s.latTime ((s.basin r.basin).desc.attachFor u)
    let s := s.readTiles u r.basin g
    g.tiles.foldl (fun s t =>
      if (s.port u).holds r.basin t then s
      else s.holdTile u { basin := r.basin, lane := r.lane, tile := t, transfer := r.transfer, ends := now + l.mergeWin }) s
  | none => s

/-- The last request of a merged transfer: a tile that has left is read again (07 R220). -/
def State.mergeLast (s : State) (u : Nat) (r : PortReq) (g : Barge) : State :=
  let gone := g.tiles.filter fun t => !(s.port u).holds r.basin t
  let s := s.count .memp u 4 gone.length
  s.updPort u fun p => { p with merge := p.merge.map fun m =>
    if m.basin = r.basin ∧ m.lane = r.lane ∧ m.transfer = r.transfer then { m with sending := true } else m }

/-- The barges of a transfer's requests. -/
def State.reqBarges (s : State) (rs : List PortReq) : List Barge := rs.filterMap fun r => s.barge r.core r.barge

/-- MERGE_WINDOW_EXPIRY (07 R220): the hold of held tile `i` of a port ends. A tile whose return leg is sending stays. -/
def execMergeWindowExpiry (n i : Nat) (s : State) : Out State :=
  let now := if n < 6 then s.time0 else s.time1
  .next (match (s.port n).merge[i]? with
    | some t => if t.sending || decide (now < t.ends) then s else s.updPort n fun p => { p with merge := p.merge.eraseIdx i }
    | none => s)

/-! ### Return data -/

/-- Data flits `from` onwards of a stream's bytes (07 R211; 08 R243): POISON bit 1 covers bytes 0 to 63, bit 2 the rest. -/
def dataFlits (b l start total : Nat) (bs : List (Byte × Bool)) : List Flit :=
  ((chunksOf 128 (bs.length + 1) bs).zipIdx).map fun e =>
    { basin := b, lane := l, seq := (start + e.2) % 65536, first := decide (start + e.2 = 0),
      last := decide (start + e.2 + 1 = total), data := e.1.map (·.1), poison0 := (e.1.take 64).any (·.2),
      poison1 := (e.1.drop 64).any (·.2) }

/-- The first transfer at a unit whose return has flits left, whose members have all asked, and that is not suspended. The
transfers of one lane return in their order: none begins while an earlier one has flits left (07 R214; 08 R252). -/
def State.nextReturn (s : State) (u : Nat) : Option (PortReq × Barge) :=
  (s.unitReqs u).findSome? fun r =>
    let first := !((s.unitReqs u).any fun q =>
      !q.write && decide (q.basin = r.basin) && decide (q.lane = r.lane) && decide (q.transfer < r.transfer))
    if r.taken && !r.write && first && decide ((s.basin r.basin).membersOf r.lane ≤ (s.asked u r).length) then
      match s.barge r.core r.barge with
      | some g => if g.suspended || decide (g.flits ≤ r.readied) then none else some (r, g)
      | none => none
    else none

/-- Requests of a transfer leave a unit. -/
def State.dropReqs (s : State) (u : Nat) (r : PortReq) : State := s.setReqs u ((s.unitReqs u).filter fun q => !q.same r)

/-- The last flit of a lane's return has left a unit: the tiles that the return held leave the merge buffer (07 R220). -/
def State.releaseTiles (s : State) (u b l : Nat) : State :=
  if 12 ≤ u then s
  else
    let mine := fun (m : MergeTile) => m.sending && decide (m.basin = b) && decide (m.lane = l)
    match (s.port u).merge.find? mine with
    | some x => s.updPort u fun p => { p with merge := p.merge.filter fun m => !(mine m && decide (m.transfer = x.transfer)) }
    | none => s

/-- Bytes that a stack's Weir accepts in 1 µs (09 R269). -/
def weirBytes (level : Nat) : Nat := if level = 1 then 1200000 else if level = 2 then 800000 else if level = 3 then 400000 else 0

/-- How many of `n` bytes a port accepts in the running µs (09 R269, R270). -/
def Stack.accepts (p : Stack) (n : Nat) : Nat := if p.level = 0 then n else min n (weirBytes p.level - p.window)

/-- The return of a transfer as poison from flit `from` on, and the end of its requests (08 R246, R253). -/
def State.poisonReturn (s : State) (u : Nat) (r : PortReq) (g : Barge) : State :=
  let bs : List (Byte × Bool) := List.replicate (g.size - 128 * r.readied) (0, true)
  ((dataFlits r.basin r.lane r.readied g.flits bs).foldl (fun s f => s.sendReturn u f) s).dropReqs u r

/-- Members that asked for different memory sides all halt, and the transfer returns as poison to every one (08 R246). -/
def State.mergeMismatch (s : State) (u : Nat) (r : PortReq) (g : Barge) : State :=
  let rs := s.asked u r
  (rs.filterMap fun q => (s.barge q.core q.barge).map fun h => (q.core, h.pc)).foldl
    (fun s e => s.haltAt e.1 .a e.2 cSchedule 0x04) (s.poisonReturn u r g)

/-- MEMP_REQUEST (07 R219, R220; 08 R246; 09 R482): a unit takes its next request flit. A read starts, and pages on the host
tier start to return; a write waits for its grant. A merged read that finds every place of the merge buffer sending waits. -/
def execMempRequest (u : Nat) (s : State) : Out State :=
  .next (match (s.unitReqs u).find? fun r => !r.taken && !s.power.clocksStopped with
    | none => s
    | some r =>
      let n := (s.basin r.basin).membersOf r.lane
      if !r.write && decide (u < 12) && decide (1 < n) && (s.asked u r).isEmpty && (s.port u).mergeFull then s
      else
      let s := s.updReq u r fun q => { q with taken := true }
      match s.barge r.core r.barge with
      | none => s.setReqs u ((s.unitReqs u).filter fun q => !(q.same r && decide (q.core = r.core)))
      | some g =>
        let s := g.pages.foldl (fun s p => (s.tryReturn r.basin p).1.touch r.basin p) s
        if r.write || decide (u = 12) then s
        else
          let rs := s.asked u r
          if n = 1 then s.readTiles u r.basin g
          else
            let s := if rs.length = 1 then s.mergeFirst u r g else s
            if rs.length = n then
              if (s.reqBarges rs).all g.agrees then s.mergeLast u r g else s.mergeMismatch u r g
            else s)

/-- The members of a return are suspended; each suspension counts when it ends (08 R251, R255). -/
def State.suspend (s : State) (rs : List PortReq) : State :=
  rs.foldl (fun s q => s.updBarge q.core q.barge fun g => { g with suspended := true }) s

/-- Suspensions of members that have ended (08 R255; 16 R448, BARGE_RESUMES). -/
def State.countResumes (s : State) (rs : List PortReq) (n : Nat) : State := rs.foldl (fun s q => s.count .core q.core 38 n) s

/-- The port sends what it can read of a return, within what its Weir accepts, and suspends the barges where they must wait; a
block that is read again suspends them too (08 R251, R252, R255; 09 R265, R269). -/
def State.portRead (s : State) (u : Nat) (r : PortReq) (g : Barge) (e : ReadEnv) : State :=
  let b := r.basin
  let left := g.size - 128 * r.readied
  let rest := sliceRows g.memRowsOf (128 * r.readied) left
  let avail := s.readable b g rest
  let cap := (s.port u).accepts left
  let whole := decide (avail = left) && decide (cap = left)
  let k := if whole then g.flits - r.readied else min avail cap / 128
  let n := min (128 * k) left
  let parts := sliceRows g.memRowsOf (128 * r.readied) n
  let blks := (parts.flatMap fun p => span 64 p.1 p.2).dedup
  let fresh := blks.filter fun j => !(s.port u).holds b (j / 128)
  let bad := (readFailed e).filterMap fun i => blks[i]?
  let rs := s.asked u r
  let s := ((s.readErrors b blks e).countResumes rs e.crc.length).countIo b false (some u) fresh
  let s := s.updPort u fun p => { p with window := p.window + n }
  let bs := (s.basin b).readParts parts bad
  let s := (dataFlits b r.lane r.readied g.flits bs).foldl (fun s f => s.sendReturn u f) s
  let s := s.setReqs u ((s.unitReqs u).map fun q => if q.same r then { q with readied := q.readied + k } else q)
  if whole then s.dropReqs u r
  else if cap < avail then s
  else
    let s := s.suspend rs
    match (sliceRows g.memRowsOf (128 * r.readied + avail) 1).head? with
    | some a =>
      let p := a.1 / pageBytes
      if ((s.basin b).blockOnHost (a.1 / 64) || ((s.basin b).page p).hostBias) && !g.hostOk.contains p then
        s.askBarge b r.core g p (((rest.flatMap fun x => span 64 x.1 x.2).filter fun j => decide (j / 32768 = p)).dedup) false
      else s
    | none => s

/-- The towpath stage answers a read once its queue holds the items (11 R337; 04 R120). -/
def State.stageRead (s : State) (r : PortReq) (g : Barge) : State :=
  let n := g.size / 64
  let q := s.queue r.basin g.queue
  if q.items.length < n then s
  else
    let bs := (q.items.take n).flatMap fun i => i.data.map fun x => (x, i.poison)
    let s := s.tpTake r.basin g.queue n
    ((dataFlits r.basin r.lane 0 g.flits bs).foldl (fun s f => s.sendReturn 12 f) s).dropReqs 12 r

/-- MEMP_READ_DATA (09 R263; 07 R220): data of the next return at a unit becomes ready; `env` tells how its stack reads. -/
def execMempReadData (u : Nat) (env : ReadEnv) (s : State) : Out State :=
  .next (match s.nextReturn u with
    | some (r, g) => if s.power.clocksStopped then s else if u = 12 then s.stageRead r g else s.portRead u r g env
    | none => s)

/-- Whether what suspended a write at a unit still lasts: a stack that it goes to is stopped or retrains, or a tile that it writes is
being copied (08 R251; 09 R280). -/
def State.writeBlocked (s : State) (u b : Nat) (g : Barge) : Bool :=
  (s.port u).stalled || ((s.basin b).writeStacks g.pages).any (fun n => (s.port n).stalled) ||
    g.memRowsOf.any fun p => (splitTiles p.1 p.2).any fun q => s.copying b q.1

/-- BARGE_RESUME (08 R252): what suspended a barge has ended, so that its next flit, or its last bytes, can go; every member of a
merged return resumes with it. -/
def execBargeResume (c id : Nat) (s : State) : Out State :=
  .next (match (List.range 12).findSome? fun u => ((s.unitReqs u).find? fun r =>
      decide (r.core = c) && decide (r.barge = id)).map fun r => (u, r) with
    | some (u, r) =>
      match s.barge c id with
      | some g =>
        let next := sliceRows g.memRowsOf (128 * r.readied) (min 128 (g.size - 128 * r.readied))
        let blocked := if r.write then s.writeBlocked u r.basin g
          else next.any fun a => (splitTiles a.1 a.2).any fun q => s.readBlocked r.basin g q.1
        if g.suspended && !blocked then
          let rs := if r.write then [r] else s.asked u r
          (rs.foldl (fun s q => s.updBarge q.core q.barge fun g => { g with suspended := false }) s).countResumes rs 1
        else s
      | none => s
    | none => s)

/-! ### Grants -/

/-- A PUT's writes take effect in stream order (08 R240; 09 R262, R264): the training support unit inspects its data (06
R190). -/
def State.putEffect (s : State) (b c : Nat) (g : Barge) : State :=
  let src := g.sourceBytes (s.core c)
  let rows := (g.memRowsOf.foldl (fun (acc : List (Nat × List (Byte × Bool)) × List (Byte × Bool)) p =>
    (acc.1 ++ [(p.1, acc.2.take p.2)], acc.2.drop p.2)) ([], src)).1
  let bad := src.any (·.2)
  let s := (joinRuns rows).foldl (fun s r => s.writeBytes b r.1 r.2) s
  let s := s.updBasin b fun v => v.inspect g.grad (opDesc g.desc).fmt (src.map (·.1)) bad false
  s.updBarge c g.id fun g => { g with written := true, poisoned := g.poisoned || bad }

/-- The grant flit of a write (07 R211, R219). -/
def grantFlit (r : PortReq) : Flit :=
  { basin := r.basin, lane := r.lane, first := true, last := true,
    hdr := some { core := r.core, barge := r.barge, grant := true } }

/-- A memory port grants a write, once its write buffer has room for the whole transfer, its Weir accepts it, and every page is
ready for it (09 R264, R269, R278, R281, R481; 06 R183); `env` tells how the reads of the blocks that it covers in part go (R262,
R266). A write that a stack's stop or a tile's copy holds up is suspended (08 R251). -/
def State.grantMem (s : State) (u : Nat) (r : PortReq) (g : Barge) (env : ReadEnv) : State :=
  let b := r.basin
  let ps := g.pages
  if (s.port u).stalled then s.suspend [r]
  else if 0x40000 < (s.port u).wbuf + g.size ∨ (s.port u).accepts g.size < g.size then s
  else
    match s.prepPages b ps with
    | (s, .waits) => s
    | (_, .refused d) => (((s.updBarge r.core r.barge fun g => { g with dropped := true }).dropReqs u r)).haltAt r.core .a g.pc
        cTier d
    | (s, .ready) =>
      if s.writeBlocked u b g then s.suspend [r]
      else
        let s := if g.suspended then s.countResumes [r] 1 else s
        let blks := (g.memRowsOf.flatMap fun p => span 64 p.1 p.2).dedup
        let s := s.readErrors b (g.memRowsOf.flatMap fun p => partialBlocks p.1 p.2) env
        let s := s.putEffect b r.core g
        let s := s.countIo b true (some u) blks
        let s := s.updPort u fun p => { p with wbuf := p.wbuf + g.size, window := p.window + g.size }
        let s := (ps.filter fun p => decide (((s.basin b).page p).st = .host) || ((s.basin b).page p).hostBias).foldl (fun s p =>
          s.askBarge b r.core g p (blks.filter fun j => decide (j / 32768 = p)) true) s
        ((s.updBarge r.core r.barge fun g => { g with suspended := false }).updReq u r fun q => { q with granted := true }).sendReturn
          u (grantFlit r)

/-- Items that the stage has granted to a queue and not received. -/
def State.reserved (s : State) (b q : Nat) : Nat :=
  ((s.stageReqs.filter fun r => r.write && r.granted && decide (r.basin = b)).map fun r =>
    match s.barge r.core r.barge with
    | some g => if g.queue = q then g.size / 64 - 2 * r.got else 0
    | none => 0).sum

/-- The towpath stage grants a write, once its queue has room for the whole transfer (07 R219; 11 R337). -/
def State.grantTp (s : State) (r : PortReq) (g : Barge) : State :=
  if (s.queue r.basin (16 + g.queue)).room < s.reserved r.basin g.queue + g.size / 64 then s
  else (s.updReq 12 r fun q => { q with granted := true }).sendReturn 12 (grantFlit r)

/-- MEMP_WRITE_GRANT (07 R219; 09 R264): a unit grants the first write that waits. -/
def execMempWriteGrant (x : PortGrant) (s : State) : Out State :=
  .next (match (s.unitReqs x.unit).find? fun r => r.taken && r.write && !r.granted && !s.power.clocksStopped with
    | none => s
    | some r =>
      match s.barge r.core r.barge with
      | none => s.dropReqs x.unit r
      | some g => if x.unit = 12 then s.grantTp r g else s.grantMem x.unit r g x.env)

/-- A data flit of a granted write arrives at its unit (07 R219): at the towpath stage it brings items (11 R337, R338). At a memory
port, poison that it has taken on its way poisons the blocks of its bytes, and the training support unit finds it in a G-marked
transfer (06 R190; 08 R250). -/
def State.putArrive (s : State) (u : Nat) (f : Flit) : State :=
  match (s.unitReqs u).find? fun r => r.write && r.granted && decide (r.basin = f.basin) && decide (r.lane = f.lane) with
  | none => s
  | some r =>
    match s.barge r.core r.barge with
    | none => s.dropReqs u r
    | some g =>
      let p := f.poison0 || f.poison1
      let s := s.updBarge r.core r.barge fun g => { g with landed := g.landed + 1, poisoned := g.poisoned || p }
      let s := if g.flits ≤ r.got + 1 then s.dropReqs u r else s.updReq u r fun q => { q with got := q.got + 1 }
      if u ≠ 12 then
        let half := fun (k : Nat) (bad : Bool) => if bad then
            (sliceRows g.memRowsOf (128 * r.got + 64 * k) (min 64 (g.size - 128 * r.got - 64 * k))).flatMap
              fun (x : Nat × Nat) => span 64 x.1 x.2
          else []
        if p then s.updBasin r.basin fun v =>
          (v.poison (half 0 f.poison0 ++ half 1 f.poison1)).inspect g.grad (opDesc g.desc).fmt [] true false
        else s
      else
        let bs := f.data.take (g.size - 128 * r.got)
        ((chunksOf 64 (bs.length + 1) bs).zipIdx).foldl (fun s i =>
          s.tpPush r.basin g.queue { data := i.1, poison := if i.2 = 0 then f.poison0 else f.poison1 }) s

/-! ### Failed requests -/

/-- The resume point of a stream at byte `off`: i4, i3, row, byte within the row, and its BA (08 R252, R256). -/
def Barge.point (g : Barge) (off : Nat) : Nat × Nat × Nat × Nat × Nat :=
  let rows := g.memRowsOf
  let before := rows.zipIdx.foldl (fun (acc : Nat × Nat × Nat) e =>
    if acc.1 ≤ off then (acc.1 + e.1.2, e.2, acc.1) else acc) (0, 0, 0)
  let n := before.2.1
  let byte := off - before.2.2
  let ba := (rows.getD n (0, 0)).1 + byte
  match g.kind with
  | .brgt =>
    let at_ := (((brgtPieces (opDesc g.desc)).flatMap fun p => (List.range p.rows).map fun i => (p.row + i, p.byte))).getD n (0, 0)
    (0, 0, at_.1, at_.2 + byte, ba)
  | _ =>
    let d := opDesc g.desc
    let sh := shapeOf g.shape
    (n / d.phys / sh.count3, n / d.phys % sh.count3, n % d.phys, byte, ba)

/-- A basin's fault record after a barge has ended FAILED (08 R256). -/
def Basin.recordFault (v : Basin) (c : Nat) (g : Barge) : Basin :=
  let w := v.brgFault.toNat
  let fails := satAdd 8 (bits w 63 56) 1
  let i := v.desc.coreIndex c
  let p := g.point g.failAt
  if bit w 0 then
    let same := decide (bits w 31 16 = g.lane) && decide (v.brgFaultBa.toNat = p.2.2.2.2) && !bit w 1
    let w := putBits w 63 56 fails
    { v with brgFault := BitVec.ofNat 64 (if same then putBits w 43 32 (min i (bits w 43 32)) else w) }
  else
    { v with
      brgFault := BitVec.ofNat 64 (fails * 2 ^ 56 + g.failCause * 2 ^ 52 + i * 2 ^ 32 + g.lane * 2 ^ 16 +
        (if g.kind = .putMem then 2 else 0) + 1)
      brgResume := BitVec.ofNat 64 (p.1 % 65536 * 2 ^ 48 + p.2.1 % 65536 * 2 ^ 32 + p.2.2.1 % 8192 * 2 ^ 19 +
        p.2.2.2.1 % 4096 * 2 ^ 7)
      brgFaultBa := BitVec.ofNat 64 (p.2.2.2.2 % 2 ^ 48) }

/-- The destination of a read barge from stream byte `off` on, as scratchpad runs: the whole destination of a BRGT's unwritten
pieces. -/
def Barge.restOf (g : Barge) (off : Nat) : List (Nat × Nat) :=
  match g.kind with
  | .brgt => if g.size ≤ off then [] else g.destRows
  | _ => sliceRows g.destRows off (g.size - off)

/-- A core whose destination of a barge becomes poison from byte `off` on (08 R253). -/
def Core.poisonRest (k : Core) (g : Barge) (off : Nat) : Core :=
  { k with spPoison := ((g.restOf off).flatMap fun r => span 64 r.1 r.2).foldl (fun m j => SMap.set false m j true) k.spPoison }

/-- The 64-byte blocks of lines of a page. -/
def pageLines (p : Nat) (ls : List Nat) : List Nat := ls.map fun i => p * 32768 + i % 32768

/-- A read request has failed (08 R253): the rest of its stream arrives as poison in the lane's own slots, and every member's barge
ends FAILED when it has arrived. -/
def State.failRead (s : State) (u : Nat) (r : PortReq) (g : Barge) (cause : Nat) : State :=
  let rs := s.asked u r
  rs.foldl (fun s q => s.updBarge q.core q.barge fun h =>
    { h with failed := true, failCause := cause, failAt := 128 * r.readied, suspended := false }) (s.poisonReturn u r g)

/-- A write's request has failed (08 R253; 09 R288): from the resume point on, its blocks read as poison. -/
def State.failWrite (s : State) (b c : Nat) (g : Barge) (cause at_ : Nat) : State :=
  (s.updBasin b fun v => v.poison ((sliceRows g.memRowsOf at_ (g.size - at_)).flatMap fun (r : Nat × Nat) => span 64 r.1 r.2)).updBarge
    c g.id fun h => { h with failed := true, failCause := cause, failAt := at_, hostAsks := [] }

/-- The first byte of a barge's stream, from byte `off` on, that lies in a page; the size where none does. -/
def Barge.firstIn (g : Barge) (p off : Nat) : Nat :=
  let parts : List (Nat × Nat) := (sliceRows g.memRowsOf off (g.size - off)).flatMap fun (r : Nat × Nat) =>
    (span pageBytes r.1 r.2).map fun q => (q, min (r.1 + r.2) ((q + 1) * pageBytes) - max r.1 (q * pageBytes))
  off + ((parts.takeWhile fun e => decide (e.1 ≠ p)).map (·.2)).sum

/-- The read request at a memory port that a barge belongs to, whose members have all asked. -/
def State.readOf (s : State) (c id : Nat) : Option (Nat × PortReq) :=
  (List.range 12).findSome? fun u => ((s.unitReqs u).find? fun r =>
    r.taken && !r.write && decide (r.core = c) && decide (r.barge = id) &&
      decide ((s.basin r.basin).membersOf r.lane ≤ (s.asked u r).length)).map fun r => (u, r)

/-- The request of one barge for a page fails (09 R287): nothing else does. -/
def State.failOne (s : State) (b c : Nat) (g : Barge) (p cause : Nat) : State :=
  match g.kind, s.readOf c g.id with
  | .putMem, _ => s.failWrite b c g cause (g.firstIn p 0)
  | _, some e => s.failRead e.1 e.2 g cause
  | _, none => s

/-- Fails every request in flight of a basin to a page (08 R253; 09 R273): reads whose next byte lies there, and writes that the
host has not taken. -/
def State.failPage (s : State) (b p cause : Nat) : State :=
  (s.liveCores b).foldl (fun s c =>
    (s.core c).barges.foldl (fun s h =>
      match s.barge c h.id with
      | none => s
      | some g =>
        if g.failed then s
        else match g.kind, s.readOf c g.id with
          | .putMem, _ => if g.written && g.hostAsks.contains p then s.failWrite b c g cause (g.firstIn p 0) else s
          | _, some e =>
            (match (sliceRows g.memRowsOf (128 * e.2.readied) (g.size - 128 * e.2.readied)).head? with
             | some a => if a.1 / pageBytes = p then s.failRead e.1 e.2 g cause else s
             | none => s)
          | _, none => s) s) s

/-- A page whose host-tier request failed: a return or an eviction ends with the page in its HBM frame, the lines that the host no
longer returns poisoned; a page on the host tier takes a frame, or waits for one (09 R280, R288). -/
def State.rescuePage (s : State) (b p : Nat) (lost : List Nat) : State :=
  let g := (s.basin b).page p
  let onHost := lost.filter fun i => (s.basin b).blockOnHost (p * 32768 + i % 32768)
  let s := s.updBasin b fun v => v.poison (pageLines p onHost)
  let stay := fun (s : State) => { s with tier := { s.tier with moves := s.tier.moves.filter fun m =>
    m.raw || !(decide (m.basin = b) && decide (m.page = p)) } }
  let s := s.updPage b p fun g => { g with asked := false }
  if g.fresh.isSome then
    if g.frame.isNone && g.hostFrame.isSome && !g.committing then s.rescue b p else s
  else if g.toFrame.isSome then
    ((stay s).updPage b p fun g => { g with frame := g.toFrame, hostFrame := none, toFrame := none, moved := 0, want := .none }).advanceTier
  else if g.toHost.isSome then ((stay s).updPage b p fun g => { g with toHost := none, moved := 0 }).advanceTier
  else if g.hostFrame.isSome then (s.rescue b p).advanceTier
  else s

/-- Whether a request to the host is under way. -/
def State.hostAsked (s : State) (b p : Nat) : TierWho → Bool
  | .barge c id => decide (s.basinOf c = some b) && (match s.barge c id with | some g => g.hostAsks.contains p | none => false)
  | .engine => ((s.basin b).page p).asked

/-- A host-tier request fails, and the page leaves the host tier (09 R287, R288; 16 R448). -/
def State.failHost (s : State) (b p : Nat) (who : TierWho) (cause : Nat) (lost : List Nat) : State :=
  let s := s.count .tier 0 7 1
  let s := match who with
    | .barge c id => (match s.barge c id with
      | some g => (s.updBarge c id fun h => { h with hostAsks := h.hostAsks.filter fun q => decide (q ≠ p) }).failOne b c g p cause
      | none => s)
    | .engine => s
  s.rescuePage b p lost

/-- A request of a barge or an engine ends with data (09 R287). -/
def State.hostDone (s : State) (b p : Nat) : TierWho → State
  | .barge c id => s.updBarge c id fun g => { g with hostAsks := g.hostAsks.filter (fun q => decide (q ≠ p)), hostOk := g.hostOk ++ [p] }
  | .engine => s.updPage b p fun g => { g with asked := false, got := true }

/-! ### The end of a barge -/

/-- Whether a barge has come to its end: its last byte is written at its destination (04 R116, R119; 07 R216), or it is
dropped. A failed one ends when its poisoned remainder has arrived (08 R255). -/
def State.bargeEnded (s : State) (b : Nat) (g : Barge) : Bool :=
  let v := s.basin b
  g.dropped ||
  match g.kind with
  | .brg | .brgt | .brgTp => decide (g.flits ≤ g.landed)
  | .putMem => g.written && decide (g.flits ≤ g.landed) && g.hostAsks.isEmpty
  | .putTp => decide (g.flits ≤ g.landed)
  | .putLat | .reds =>
    decide (1 + g.flits ≤ g.launched) &&
      (match v.img, v.segRec with
       | some m, some sg => (landingCores m sg g.lane).all fun d =>
           decide (g.transfer < (SMap.get {} v.landings (laneKey d g.lane) : Landing).arrived)
       | _, _ => false)

/-- FAILED barges leave their descriptor slots: that of a core, with those of every other member of its merged return, in basin core
index order; each is recorded and counted, and each core halts with TIER_ERROR, DETAIL 0x02 (08 R253, R255, R256). -/
def State.endFailed (s : State) (b : Nat) (g : Barge) : State :=
  let ms := (s.liveCores b).flatMap fun d => ((s.core d).barges.filter fun h =>
    h.failed && !h.dropped && !h.cancelled && decide (h.lane = g.lane) && decide (h.transfer = g.transfer)).map fun h => (d, h)
  let s := ms.foldl (fun s e =>
    ((s.updCore e.1 fun k => ({ k with barges := k.barges.filter fun h => decide (h.id ≠ e.2.id) }).poisonRest e.2
      (if e.2.kind.reads then 128 * e.2.landed else e.2.size)).updBasin b fun v => v.recordFault e.1 e.2).count .core e.1 37 1) s
  ms.foldl (fun s e => s.haltAt e.1 .a e.2.pc cTier 0x02) s

/-- A barge leaves its descriptor slot with its status: OK and POISONED set its flag; a G-marked one reports to the training
support unit. A cancelled one's failure is counted and halts no core (04 R119; 06 R188; 08 R254, R255). -/
def State.endBarge (s : State) (b c : Nat) (g : Barge) : State :=
  if g.failed && !g.dropped && !g.cancelled then s.endFailed b g
  else
    let s := s.updCore c fun k => { k with barges := k.barges.filter fun h => decide (h.id ≠ g.id) }
    if g.dropped then s
    else if g.cancelled then (if g.failed then s.count .core c 37 1 else s)
    else
      let s := if g.poisoned then s.count .core c 36 1 else s
      let s := match g.flag with | some f => s.setFlag c f | none => s
      match g.grad with
      | some n => s.gradDone b n (decide (g.kind = .putMem))
      | none => s

/-- BARGE_COMPLETE (04 R119; 08 R255): barge `id` of a core completes once its last byte has been written. -/
def execBargeComplete (c id : Nat) (s : State) : Out State :=
  .next (match (s.core c).barges.find? fun g => decide (g.id = id), s.basinOf c with
    | some g, some b => if s.bargeEnded b g then s.endBarge b c g else s
    | some g, none => s.endBarge 0 c { g with dropped := true }
    | none, _ => s)

end Sys2Proof.Machine
end

