-- ==== Sys2Proof/Machine/Stalls.lean ====
section
/-! DEFINITION. The cause that a waiting stream counts (03 R84): late barges and where their data comes from (07 R218; 08 R249). -/

namespace Sys2Proof.Machine

/-- The flit of a barge's return that its lane owes next, counted from the barge's first, where the lane is late with it (07 R214;
08 R249). -/
def State.owedFlit (s : State) (b : Nat) (g : Barge) : Option Nat :=
  let v := s.basin b
  match v.img, v.segRec, v.lane g.lane with
  | some m, some sg, some lr =>
    (laneSources m sg g.lane).findSome? fun p =>
      if p.2 ≠ srcLaunch ∧ s.owesTransfer v m sg g.lane lr p.1 p.2 g.transfer then
        some (v.sent p.1 g.lane p.2 - g.transfer * lr.retFlits)
      else none
  | _, _, _ => none

/-- Whether core `c` owes a flit of a PUT (07 R214). -/
def State.putLate (s : State) (b c : Nat) (g : Barge) : Bool :=
  let v := s.basin b
  match v.img, v.segRec, v.lane g.lane with
  | some m, some sg, some lr => s.owesTransfer v m sg g.lane lr c srcLaunch g.transfer
  | _, _, _ => false

/-- Whether an access to a page waits for the tier engine: for a frame or a return (09 R274, R282, R481). -/
def Page.wants (q : Page) : Bool := decide (q.want ≠ .none) && decide (q.want ≠ .again)

/-- Whether the host tier, a tile in migration or the host's copies supply byte `off` of a read's stream (08 R249; 09 R280; 11
R323). -/
def State.fromTier (s : State) (b : Nat) (g : Barge) (off : Nat) : Bool :=
  match (sliceRows g.memRowsOf off 1).head? with
  | some a =>
    let v := s.basin b
    let q := v.page (a.1 / pageBytes)
    q.wants || s.copying b a.1 || v.blockOnHost (a.1 / 64) || (q.hostBias && !g.hostOk.contains (a.1 / pageBytes))
  | none => false

/-- Whether a write that has no grant yet waits for the tier engine: for a frame, a commit, or a tile that is being copied (09 R280,
R281, R481). -/
def State.putWaitsTier (s : State) (b : Nat) (g : Barge) : Bool :=
  let v := s.basin b
  !g.granted && (g.pages.any (fun p => (v.page p).wants || ((v.page p).committing && v.protected p)) ||
    g.memRowsOf.any fun r => (splitTiles r.1 r.2).any fun q => s.copying b q.1)

/-- The rank that a flag takes from a barge that arms it (03 R84; 07 R218; 08 R249): 2 HBM_LATE, 3 TIER_LATE, 4 SLOT_WAIT. -/
def State.bargeRank (s : State) (b c : Nat) (g : Barge) : Nat :=
  match g.kind with
  | .brg | .brgt =>
    (match s.owedFlit b g with
     | some k => if s.fromTier b g (128 * k) then 3 else 2
     | none => 4)
  | .putMem => if s.putLate b c g && s.putWaitsTier b g then 3 else 4
  | _ => 4

/-- The rank of the stall cause of a flag that a WAITF waits for (03 R84): that of the barges that arm it, 4 SLOT_WAIT for another
transfer or a sluice, 10 ARRAY_BUSY for a flag that only array work arms, 5 FLAG_WAIT for one that nothing arms. -/
def State.flagRank (s : State) (b c f : Nat) : Nat :=
  let k := s.core c
  if s.armedByTransfer b c f then ((k.armingBarges f).map (s.bargeRank b c)).foldl min 4
  else if k.armedByArray f then 10
  else 5

/-- The rank of the cause that a stream counts while it issues nothing (03 R84): the first that applies; `lost` tells that a port of
higher priority took its bank for the next instruction word (R62). -/
def State.stallRank (s : State) (b c : Nat) (st : Strm) (lost : Bool) : Nat :=
  match ((s.core c).stream st).wait with
  | .sluice _ _ _ _ => 1
  | .flags mask _ => ((clearFlags (s.core c).flags mask).map (s.flagRank b c)).foldl min 13
  | .pop _ _ => 6
  | .push _ _ _ => 7
  | .fence _ => 8
  | .unit r => r
  | .none => if lost then 12 else 13

end Sys2Proof.Machine
end

