-- ==== Sys2Proof/Machine/HostMemory.lean ====
section
/-! DEFINITION. Host accesses to basin memory through CXL.mem and BAR4 (11 R321, R322), which wait as an engine's do (09 R270,
R271, R280, R481), and the events of the tier engine that let waiting accesses go on: a tile's copy (R279, R280), a frame (R481),
an answer of the host (R287). -/

namespace Sys2Proof.Machine

/-! ### Windows -/

/-- Bytes of a basin's memory window (11 R318). -/
def windowBytes : Nat := 0x4000000000

/-- The basin and the BA that an offset into the HDM range or into PF0's BAR4 addresses (11 R321). -/
def State.windowAt (s : State) (addr : Nat) : Nat × Nat :=
  (addr / windowBytes, (s.basin (addr / windowBytes)).winBase * pageBytes + addr % windowBytes)

/-- Whether an access path is there: CXL.mem is absent in PCIe mode (11 R317). -/
def State.pathOpen (s : State) (p : MemPath) : Bool := match p with | .cxlMem => s.link.cxl | .bar4 => true

/-- Whether an access is refused: the basin is FREE, or a byte lies beyond BA_SIZE_PAGES (11 R322). -/
def State.accessBad (s : State) (b ba n : Nat) : Bool :=
  decide ((s.basin b).phase = .free) || decide ((s.basin b).memBytesTotal < ba + n)

/-- A refused access is counted (11 R322, R325; 16 R448). -/
def State.memError (s : State) (b : Nat) : State :=
  ({ s with link := { s.link with memErr := satAdd 32 s.link.memErr 1, memErrBasin := b } }).count .cxl 0 7 1

/-! ### Reads and writes -/

/-- A host read, where nothing holds it up: data with poison; it returns no page (09 R482). The flag tells whether it has taken
place. -/
def State.hostRead (s : State) (a : HostAcc) : State × Bool :=
  let blks := span 64 a.ba a.len
  match s.askPages a.basin blks false with
  | (s, false) => (s, false)
  | (s, true) =>
    if s.readHeld a.basin a.ba a.len then (s, false)
    else
      let s := (span pageBytes a.ba a.len).foldl (fun s p => s.touch a.basin p) (s.useAnswers a.basin blks)
      let r := s.readOut a.basin a.ba a.len a.env
      ((r.1.count .cxl 0 0 a.len).emit (.memData (r.2.map (·.1)) (r.2.any (·.2))), true)

/-- Makes a page ready for a host write: one on the host tier is written where it lies (09 R482). -/
def State.hostPrep (s : State) (b p : Nat) : State × Prep :=
  if ((s.basin b).page p).st = .host then (s, .ready) else s.prepPage b p

/-- Makes the pages of a host write ready, in order. A page for which no frame can be supplied takes one when a frame becomes free
(09 R481; log 30). -/
def State.hostPreps (s : State) (b : Nat) : List Nat → State × Prep
  | [] => (s, .ready)
  | p :: ps =>
    match s.hostPrep b p with
    | (s, .ready) => State.hostPreps s b ps
    | (s, .waits) => (s, .waits)
    | (s, .refused d) =>
      if d = 0x01 then (s, .refused d)
      else State.hostPreps (s.updPage b p fun g => if g.want = .none then { g with want := .frame } else g) b ps

/-- Whether a host write touches a protected range while the basin runs, so that a restart leaves its bytes undefined (02 R48). -/
def Basin.hostDirty (v : Basin) (ba n : Nat) : Bool := v.inInterval && (span pageBytes ba n).any v.protected

/-- A host write to a basin's memory, where nothing holds it up. The activation store takes no page beyond its size: such a write is
refused whole and the event raised (02 R42; 06 R183; log 30). -/
def State.hostWrite (s : State) (a : HostAcc) : State × Bool :=
  let b := a.basin
  let n := a.data.length
  let blks := span 64 a.ba n
  match s.hostPreps b (span pageBytes a.ba n) with
  | (_, .refused _) => (s.setEvent b 6, true)
  | (s, .waits) => (s, false)
  | (s, .ready) =>
    if s.writeHeld b a.ba n then (s, false)
    else
      let s := (span pageBytes a.ba n).foldl (fun s p => s.resolveBias b p true) s
      let s := s.readErrors b (partialBlocks a.ba n) a.env
      let s := s.updBasin b fun v => if v.hostDirty a.ba n then { v with hostWrites := v.hostWrites ++ [(a.ba, n)] } else v
      let s := ((s.writeMem b a.ba a.data (if a.poison then blks else [])).countIo b true none blks).count .cxl 0 1 n
      ((s.askPages b blks true).1, true)

/-- A host access, where nothing holds it up. -/
def State.hostAccess (s : State) (a : HostAcc) : State × Bool := if a.write then s.hostWrite a else s.hostRead a

/-- The host accesses that wait are tried again; those of one basin stay in their order. -/
def State.serveHost (s : State) : State :=
  let r := s.hostQ.foldl (fun (acc : State × List HostAcc) a =>
    if acc.2.any fun q => decide (q.basin = a.basin) then (acc.1, acc.2 ++ [a])
    else match acc.1.hostAccess a with
      | (s, true) => (s, acc.2)
      | (s, false) => (s, acc.2 ++ [a])) (s, [])
  { r.1 with hostQ := r.2 }

/-- A host access arrives: it takes place, or waits. -/
def State.hostArrives (s : State) (a : HostAcc) : State :=
  if s.hostQ.any fun q => decide (q.basin = a.basin) then { s with hostQ := s.hostQ ++ [a] }
  else match s.hostAccess a with
    | (s, true) => s
    | (s, false) => { s with hostQ := s.hostQ ++ [a] }

/-- What held accesses up may have ended: collectives and host accesses that wait go on (09 R270, R271, R280, R481). -/
def State.wake (s : State) : State := (s.basins.foldl (fun s e => if e.2.colls.isEmpty then s else s.runColls e.1) s).serveHost

/-- HOST_MEM_READ (11 R321, R322): a refused access reads zero with poison. -/
def execHostMemRead (path : MemPath) (addr : Nat) (r : HostRead) (s : State) : Out State :=
  .next (s.fromHost fun s =>
    let (b, ba) := s.windowAt addr
    if !s.pathOpen path || decide (64 ≤ b) then s
    else if s.accessBad b ba r.len then (s.memError b).emit (.memData (List.replicate r.len 0) true)
    else s.hostArrives { basin := b, ba := ba, len := r.len, env := r.env })

/-- HOST_MEM_WRITE (11 R321, R322). -/
def execHostMemWrite (path : MemPath) (addr : Nat) (data : List Byte) (w : HostWriteEvents) (s : State) : Out State :=
  .next (s.fromHost fun s =>
    let (b, ba) := s.windowAt addr
    if !s.pathOpen path || decide (64 ≤ b) then s
    else if s.accessBad b ba data.length then s.memError b
    else s.hostArrives { basin := b, ba := ba, write := true, data := data, poison := w.poison, env := w.env })

/-! ### The tier engine's events -/

/-- TILE_COPY_DONE (09 R267, R279, R280): the next tile of running move `i` has been copied and its mapping switches; `env` tells
how the reads of the tile's blocks went. A copy pauses while either stack does, and waits for the
host's answer where the tile lies on the host tier or goes there (R287). -/
def execTileCopyDone (i : Nat) (env : ReadEnv) (s : State) : Out State :=
  .next (match s.tier.moves[i]? with
    | none => s
    | some m =>
      let g := (s.basin m.basin).page m.page
      if 8 ≤ i || s.power.clocksStopped then s
      else if m.raw then (s.rawCopied i m env).wake
      else if g.asked || g.moveStacks.any (fun n => (s.port n).paused) then s
      else
        let commit := decide (m.cause = .commit)
        let t := m.page * pageTiles + g.moved
        let src := (span 64 (t * tileBytes) tileBytes)
        let s := ((s.resolveBias m.basin m.page false).readErrors m.basin src env).countIo m.basin false none src
        let s := s.poisonRead m.basin src env
        let s := (s.count .tier 0 0 1).dropMerged m.basin (t * tileBytes) tileBytes
        let next := nextTile g commit pageTiles (g.moved + 1)
        let s := s.updPage m.basin m.page fun g => { g with moved := next, got := false }
        let s := s.countIo m.basin true none src
        (if pageTiles ≤ next then s.endMove i m else s.askMove m.basin m.page).wake)

/-- FRAME_WAIT_DONE (09 R481): an access that waited for an HBM frame receives one: the page takes its frame, its fresh
frame, or its return starts. -/
def execFrameWaitDone (b p : Nat) (s : State) : Out State :=
  let g := (s.basin b).page p
  .next (State.wake (match g.want with
    | .none => s
    | .again => s.retryMove b p
    | .rescue => s.rescue b p
    | .ret =>
      match s.supply b p with
      | .frame f => s.returnTo b p f .ret
      | .waits t => t
      | .none => s.updPage b p fun g => { g with want := .again }
    | _ => (s.prepPage b p).1))

/-- HOST_TIER_RESPONSE (09 R287): the host answers a request for a page: its data, poisoned lines, or an error status. In the IDE
insecure state the device drops what the host sends (11 R324). -/
def execHostTierResponse (b : Nat) (r : TierReq) (a : HostAnswer) (s : State) : Out State :=
  .next (s.fromHost fun s =>
    if !s.hostAsked b r.page r.who then s
    else State.wake (match a with
      | .data => s.hostDone b r.page r.who
      | .poisoned ls => (s.updBasin b fun v => v.poison (pageLines r.page ls)).hostDone b r.page r.who
      | .error lost => s.failHost b r.page r.who 1 lost))

/-- HOST_TIER_TIMEOUT (09 R287): a request for a page has not completed within TIMEOUT_MS. -/
def execHostTierTimeout (b : Nat) (r : TierReq) (lost : List Nat) (s : State) : Out State :=
  .next (if s.hostAsked b r.page r.who then (s.failHost b r.page r.who 2 lost).wake else s)

end Sys2Proof.Machine
end

