-- ==== Sys2Proof/Machine/Stacks.lean ====
section
/-! DEFINITION. HBM stacks: Weir levels (09 R269, R270), retraining and write errors (R265, R271), retirement (R272), failure
(R273) and the patrol scrubber (R268). The emergency latches (13 R378) stand here, since a stack's stop sets one. -/

namespace Sys2Proof.Machine

/-! ### Latches -/

/-- A cause of a latch occurs: its bit of PWR_EMERG is recorded, and the latch is set, signalling PF0 vector 3 (13 R378,
R379; 16 R448) and a platform event (17 R471). -/
def State.latch (s : State) (thermal : Bool) (bit : Nat) : State :=
  let s := { s with power := { s.power with causes := setBit s.power.causes bit true } }
  if (if thermal then s.power.thermalLatch else s.power.powerLatch) then s
  else
    let p := if thermal then { s.power with thermalLatch := true } else { s.power with powerLatch := true }
    ((({ s with power := p }).count .device 0 8 1).notify .pf0 3).emit (.pldmEvent thermal true)

/-! ### Weir -/

/-- Threshold `i` of MEMP_WEIR_TH, 1 to 4 (09 R289). -/
def Tier.threshold (t : Tier) (i : Nat) : Nat := bits t.weirTh.toNat (8 * i - 1) (8 * i - 8)

/-- The level that a temperature calls for from below (09 R269). -/
def Tier.levelUp (t : Tier) (temp : Nat) : Nat := ((List.range 4).filter fun i => decide (t.threshold (i + 1) ≤ temp)).length

/-- The level that a stack falls to from level `l`: each level is left below its threshold less 3 °C; level 4 is left to
level 3 (09 R269). -/
def Tier.levelDown (t : Tier) (temp : Nat) : Nat → Nat
  | 0 => 0
  | l + 1 =>
    if t.threshold (l + 1) ≤ temp + 3 then l + 1
    else if l + 1 = 4 then 3
    else t.levelDown temp l

/-- The level after a reading; a sensor that fails reads 0xFF and counts as level 4 (09 R269). -/
def Tier.nextLevel (t : Tier) (l temp : Nat) : Nat := if temp = 0xFF then 4 else max (t.levelUp temp) (t.levelDown temp l)

/-- WEIR_READING (09 R269, R270): a stack's temperature sets its level; level 4 sets the thermal latch. -/
def execWeirReading (n temp : Nat) (s : State) : Out State :=
  .next (if 12 ≤ n ∨ (s.port n).st = .retired then s
    else
      let l := s.tier.nextLevel (s.port n).level temp
      let s := s.updPort n fun p => { p with temp := temp, level := l }
      if l = 4 then s.latch true 6 else s.wake)

/-! ### Failure -/

/-- Pages of the device that a stack's failure loses tiles of (09 R273). -/
def State.pagesLost (s : State) (n : Nat) : List (Nat × Nat) :=
  s.basins.flatMap fun e => ((e.2.stackPages n).filter fun p =>
    (List.range pageTiles).any fun i => (e.2.page p).copyOn n i && SMap.get false (e.2.page p).tiles i).map fun p => (e.1, p)

/-- The next retraining that waits on a die begins (09 R271). -/
def State.nextRetrain (s : State) (n : Nat) : State :=
  match s.tier.retrainWait.find? fun m => decide (m / 6 = n / 6) with
  | some m => ({ s with tier := { s.tier with retrainWait := s.tier.retrainWait.filter fun q => decide (q ≠ m) } }).requestRetrain m
  | none => s

/-- What was started through TIER_STACK_CTRL on a stack ends (09 R289). -/
def State.endCtrl (s : State) (n result : Nat) : State :=
  if (s.port n).busyHere then
    (({ s with tier := { s.tier with ctrlBusy := false, ctrlResult := result } }).updPort n fun p => { p with busyHere := false })
  else s

/-- A retraining that waits its turn ends with its stack, and what was started through TIER_STACK_CTRL (09 R271, R289). -/
def State.endRetrain (s : State) (n result : Nat) : State :=
  ({ s with tier := { s.tier with retrainWait := s.tier.retrainWait.filter fun q => decide (q ≠ n) } }).endCtrl n result

/-- STACK_FAILED (09 R273; 14 R409): the stack holds no data any more; requests in flight to pages whose only copy lay there
fail with CAUSE 0x3. -/
def State.failStack (s : State) (n : Nat) : State :=
  let lost := s.pagesLost n
  let s := (s.loseStack n).updPort n fun p => { p with st := .failed, wfail := [], wbuf := 0 }
  let s := lost.foldl (fun s e => s.failPage e.1 e.2 3) s
  (((s.report { event := 0x11, kind := 5, index := n, detail := lost.length }).endRetrain n 4).nextRetrain n).advanceTier.wake

/-! ### Retraining -/

/-- HBM_WRITE_CRC_FAIL (09 R265): the stack reports a mismatch of a written block: the port
sends it again, up to two more times; after a third failure it retrains the stack and then sends it once more, and a failure after
that moves the stack to FAILED. -/
def execHbmWriteCrcFail (x : StackBlock) (s : State) : Out State :=
  let n := x.stack
  let block := x.block
  let p := s.port n
  let k : Nat := SMap.get 0 p.wfail block
  let put := fun (s : State) (k : Nat) => s.updPort n fun p => { p with wfail := SMap.set 0 p.wfail block k }
  .next (if 12 ≤ n ∨ stackOf (block / 32768) ≠ n ∨ p.gone ∨ p.st = .retraining ∨ k = 3 then s
    else if k = 4 then s.failStack n
    else if k < 2 then (put s (k + 1)).crcRetries n 1
    else (put s 3).requestRetrain n)

/-- OP = RETRAIN of TIER_STACK_CTRL (09 R271, R289). -/
def State.ctrlRetrain (s : State) (n : Nat) : State :=
  let s := { s with tier := { s.tier with ctrlStack := n % 16 } }
  let result := fun (r : Nat) => ({ s with tier := { s.tier with ctrlResult := r } } : State)
  let p := s.port n
  if s.tier.ctrlBusy then result 1
  else if 12 ≤ n ∨ p.gone ∨ p.st = .retraining then result 3
  else (({ s with tier := { s.tier with ctrlResult := 0, ctrlBusy := true } }).updPort n fun p =>
    { p with busyHere := true }).requestRetrain n

/-- STACK_RETRAIN (09 R271, R289): host software writes OP = RETRAIN, or the firmware calls for a retraining. -/
def execStackRetrain (x : RetrainCall) (s : State) : Out State :=
  .next (if x.firmware then (if 12 ≤ x.stack then s else s.requestRetrain x.stack) else s.fromHost fun s => s.ctrlRetrain x.stack)

/-- STACK_RETRAIN_DONE (09 R271): the stack takes its earlier state, blocks that waited for it are sent once more (R265), and requests
go on. -/
def execStackRetrainDone (n : Nat) (s : State) : Out State :=
  .next (if (s.port n).st = .retraining then
    let s := s.updPort n fun p => { p with st := p.before, wfail := p.wfail.map fun e => (e.1, if e.2 = 3 then 4 else e.2) }
    let s := s.crcRetries n ((s.port n).wfail.filter fun e => decide (e.2 = 4)).length
    let s := if (s.port n).st = .draining then s else s.endCtrl n 0
    (s.nextRetrain n).advanceTier.wake
  else s)

/-- STACK_RETRAIN_TIMEOUT (09 R271, R273): a retraining not complete within 20 ms. -/
def execStackRetrainTimeout (n : Nat) (s : State) : Out State :=
  .next (if (s.port n).st = .retraining then s.failStack n else s)

/-! ### Retirement -/

/-- Frames that binds may guarantee without a stack (09 R272; 02 R33). -/
def State.capacityWithout (s : State) (n : Nat) : Nat :=
  ((s.pooledStacks.filter fun m => decide (m ≠ n)).map fun m => stackFrames - (s.port m).fencedFrames.length).sum - 2048

/-- The sum of HBM_GUARANTEE_PAGES over the bound basins (02 R33). -/
def State.guarantees (s : State) : Nat := (s.basins.map fun e => if e.2.phase = .free then 0 else e.2.desc.guarantee).sum

/-- OP = RETIRE of TIER_STACK_CTRL (09 R272, R289). -/
def State.ctrlRetire (s : State) (n : Nat) : State :=
  let s := { s with tier := { s.tier with ctrlStack := n % 16 } }
  let result := fun (r : Nat) => ({ s with tier := { s.tier with ctrlResult := r } } : State)
  let p := s.port n
  let st := if p.st = .retraining then p.before else p.st
  if s.tier.ctrlBusy then result 1
  else if 12 ≤ n ∨ st ≠ .inService then result 3
  else if s.capacityWithout n < s.guarantees then result 2
  else (({ s with tier := { s.tier with ctrlResult := 0, ctrlBusy := true } }).updPort n fun (p : Stack) =>
    if p.st = StackState.retraining then { p with before := StackState.draining, busyHere := true }
    else { p with st := StackState.draining, busyHere := true }).advanceTier

/-- STACK_RETIRE (09 R272, R289). -/
def execStackRetire (n : Nat) (s : State) : Out State := .next (s.fromHost fun s => s.ctrlRetire n)

/-- STACK_DRAINED (09 R272): no frame of a draining stack holds data. -/
def execStackDrained (n : Nat) (s : State) : Out State :=
  .next (if (s.port n).st = .draining ∧ !(s.usedFrames.any fun f => decide (stackOf f = n)) then
    (s.updPort n fun p => { p with st := .drained }).endCtrl n 0
  else s)

/-- Whether a loaded schedule of a bound basin names a port (09 R272). -/
def State.portNamed (s : State) (n : Nat) : Bool :=
  s.basins.any fun e => decide (e.2.phase ≠ .free) &&
    (match e.2.img with
     | some m => m.lanes.any fun l => (laneRec l.2).kind.memSide && decide ((laneRec l.2).port = n)
     | none => false)

/-- STACK_RETIRED (09 R272; 10 R313): no loaded schedule names a drained stack's port; its domain is switched off, with its
Whetstone engine. -/
def execStackRetired (n : Nat) (s : State) : Out State :=
  .next (if (s.port n).st = .drained ∧ !s.portNamed n then
    let s := (s.updPort n fun p => { p with st := .retired }).endRetrain n 3
    let s := ({ s with power := { s.power with mempOn := setBit s.power.mempOn n false } }).count .device 0 9 1
    (s.updEngine n fun e => if e.st = .active then { e with st := .off } else e).moveChunks n
  else s)

/-! ### Scrubbing -/

/-- The page that holds a frame. -/
def State.frameOwner (s : State) (f : Nat) : Option (Nat × Nat) :=
  s.basins.findSome? fun e => (e.2.pages.find? fun q => q.2.frames.contains f).map fun q => (e.1, q.1)

/-- The blocks of a basin whose data stands in frame `f` of one of its pages. -/
def Basin.frameBlocks (v : Basin) (p f : Nat) : List Nat :=
  ((List.range pageTiles).filter fun i => v.tileWritten (p * pageTiles + i) && decide ((v.page p).tileFrame i = some f)).flatMap fun i =>
    tileBlocks (p * pageTiles + i)

/-- The scrubber's reads of `n` bytes of a stack (16 R448). -/
def State.countScrub (s : State) (k n : Nat) : State := (s.count .memp k 13 n).count .memp k 0 n

/-- PATROL_SCRUB (09 R265, R266, R268): the scrubber reads a frame, a page's or one of a receive log or a towpath ring, so far as it
holds written data; the blocks are numbered as it reads them. -/
def execPatrolScrub (f : Nat) (crc : List (Nat × Nat)) (corrected uncorrectable : List Nat) (s : State) : Out State :=
  let n := stackOf f
  let env : ReadEnv := { crc := crc, corrected := corrected, uncorrectable := uncorrectable }
  .next (if 12 ≤ n || (s.port n).stalled || s.power.clocksStopped then s
    else
      match s.frameOwner f, s.rawOwner f with
      | some e, _ =>
        let blks := (s.basin e.1).frameBlocks e.2 f
        if blks.isEmpty then s else (s.countScrub n (64 * blks.length)).readErrors e.1 blks env
      | none, some b => (s.countScrub n pageBytes).rawErrors b f 0 env
      | none, none => s)

end Sys2Proof.Machine
end

