-- ==== Sys2Proof/Machine/Run.lean ====
section
/-! DEFINITION. The run of a basin: sluices and segments (07 R216, R217, R230 to R232; 04 R117; 02 R55), checkpoint sluices
(02 R45 to R49), and restarts (02 R50, R51; 03 R71). -/

namespace Sys2Proof.Machine

/-! ### Lanes that owe -/

/-- Whether a lane of the segment has an undelivered transfer (07 R216, R217): a source core that has not issued them all, or
one in flight; an ENGINE lane owes while a collective that the segment's sluice waits for is in progress (log 25). -/
def State.laneOwes (s : State) (b : Nat) (l : Nat) : Bool :=
  let v := s.basin b
  match v.img, v.segRec, v.lane l with
  | some m, some g, some r =>
    (match r.kind with
     | .engine => v.colls.any fun c => !c.failed &&
         (match v.collTable[c.entry]? with | some e => decide (e.completeBy = v.seg.cur) | none => false)
     | _ => false) ||
    (sourceCores m g l).any fun c => !(s.core c).fenced &&
      (decide (v.issued c l < r.transfers) || (s.core c).barges.any fun h => decide (h.lane = l))
  | _, _, _ => false

/-- The lanes of the segment with an undelivered transfer. -/
def State.owing (s : State) (b : Nat) : List Nat := (s.basin b).segLanes.filter fun l => s.laneOwes b l

/-- The lattice time of a basin: that of the die of its first column (07 R204). -/
def State.basinTime (s : State) (b : Nat) : Nat := s.latTime (4 * (s.basin b).desc.originCol)

/-- The next multiple of 16 from `t` on. -/
def up16 (t : Nat) : Nat := ceilDiv t 16 * 16

/-- SEGMENT_START (07 R232): the segment starts at S, or, where S has passed, at the next multiple of 16 lc. -/
def execSegmentStart (b : Nat) (s : State) : Out State :=
  let v := s.basin b
  .next (if v.phase = .running ∧ !v.testPause ∧ !v.seg.started ∧ v.segRec.isSome then
    let late := fun (t start : Nat) => if t ≤ start then start else up16 t
    s.updBasin b fun v => { v with seg := { v.seg with
      started := true, start := late s.time0 v.seg.start, start1 := late s.time1 v.seg.start1 } }
  else s)

/-- OVERTIME_START (07 R216): NFRAMES frames have passed and a lane still owes; a stopped basin's too, whose transfers go on (03
R87). -/
def execOvertimeStart (b : Nat) (s : State) : Out State :=
  let v := s.basin b
  .next (match v.segRec with
    | some g =>
      if v.phase ≠ .free ∧ v.seg.started ∧ !v.seg.overtime ∧ v.segStart + g.nframes * g.frame ≤ s.basinTime b ∧
          s.owing b ≠ [] then
        s.updBasin b fun v => { v with seg := { v.seg with overtime := true } }
      else s
    | none => s)

/-- Halts the source cores of a lane with SLOT_OVERRUN: every core of the basin where the lane has none (07 R217, R224). -/
def State.overrun (s : State) (b l detail : Nat) : State :=
  let v := s.basin b
  let cs := match v.img, v.segRec with
    | some m, some g => (sourceCores m g l).filter fun c => !(s.core c).fenced
    | _, _ => []
  let cs := if cs.isEmpty then s.liveCores b else cs
  cs.foldl (fun s c => s.haltCore c .a cOverrun detail) s

/-- SLOT_OVERRUN (07 R217): OVERTIME frames have passed and a lane still has an undelivered transfer. -/
def execSlotOverrun (b : Nat) (s : State) : Out State :=
  let v := s.basin b
  .next (match v.segRec with
    | some g =>
      if v.phase = .running ∧ v.seg.overtime ∧ v.segStart + (g.nframes + g.overtime) * g.frame ≤ s.basinTime b then
        (s.owing b).foldl (fun s l => s.overrun b l 0x01) s
      else s
    | none => s)

/-! ### Sluices -/

/-- Whether every operation that either stream of a core dispatched has ended (04 R117; 07 R230). -/
def Core.quiet (k : Core) : Bool :=
  k.streamPipe.isEmpty && k.drainPipe.isEmpty && k.vecPipe.isEmpty && k.barges.isEmpty

/-- SLUICE_READY (07 R230): a core that has arrived and whose operations have all ended; its token enters its router. -/
def execSluiceReady (c : Nat) (s : State) : Out State :=
  let b := s.basinAt c
  .next (match (s.basin b).sluice with
    | some q =>
      if (s.basin b).phase = .running ∧ (s.core c).quiet ∧ q.arrived.contains c ∧ !q.tokens.contains c then
        s.updBasin b fun v => { v with sluice := some { q with
          tokens := q.tokens ++ [c], stamps := SMap.set 0 q.stamps c (s.latTime c), tLast := max q.tLast (s.latTime c) } }
      else s
    | none => s)

/-! The waves of a sluice (07 R203, R230): a token reaches a router of its row after 2 lc for each link and 6 lc for the seam link,
and a row's result the routers of its column after 2 lc for each link. -/

/-- Lattice cycles that a wave takes from column `x` to column `x'` of a row. -/
def waveDelay (x x' : Nat) : Nat :=
  let lo := min x x'
  let hi := max x x'
  2 * (hi - lo) + if lo < 32 ∧ 32 ≤ hi then 4 else 0

/-- The token of the core at a position, with its stamp; a fenced core has none and holds nothing up. -/
def Sluice.token (q : Sluice) (c : Nat) : Nat := SMap.get 0 q.stamps c

/-- The columns and the rows of a rectangle. -/
def Desc.columns (d : Desc) : List Nat := (List.range (4 * d.width)).map fun i => 4 * d.originCol + i
def Desc.rowsOf (d : Desc) : List Nat := (List.range (8 * d.height)).map fun i => 8 * d.originRow + i

/-- When the row result stands at column `x` of row `y`: both waves and the router's own token have come (07 R230). -/
def Sluice.rowTime (q : Sluice) (d : Desc) (x y : Nat) : Nat :=
  (d.columns.map fun x' => q.token (64 * y + x') + waveDelay x' x).foldl max 0

/-- When the column result stands at row `y` of column `x` (07 R230). -/
def Sluice.colTime (q : Sluice) (d : Desc) (x y : Nat) : Nat :=
  (d.rowsOf.map fun y' => q.rowTime d x y' + 2 * (max y y' - min y y')).foldl max 0

/-- When every router has completed the sluice for its core, 4 lc after its column result (07 R230; log 85). -/
def Sluice.doneTime (q : Sluice) (d : Desc) : Nat :=
  (d.columns.flatMap fun x => d.rowsOf.map fun y => q.colTime d x y + 4).foldl max 0

/-- The sluice fields of a flit (07 R203): SL_WAVE, SL_STAMP and SL_SEQ. -/
structure SlFields where
  wave : Bool := false
  stamp : Nat := 0
  seq : Nat := 0
  deriving DecidableEq, Repr

/-- The fields that a wave of tokens carries: the AND of the tokens that have reached it, as (time of arrival, stamp) of each core that
it waits for, with the low 16 bits of the latest stamp (07 R230). -/
def slFields (t seq : Nat) (tokens : List (Nat × Option Nat)) : SlFields :=
  { wave := tokens.all fun e => (match e.2 with | some n => decide (n + e.1 ≤ t) | none => false)
    stamp := (tokens.filterMap fun e => e.2.bind fun n => if n + e.1 ≤ t then some n else none).foldl max 0 % 65536
    seq := seq % 4 }

/-- The sluice fields that a router of a basin sends on a mesh link in the slot at lattice time `t`, whether or not the slot carries a
flit (07 R203, R230): E and W carry the row's waves, N and S those of the row results. -/
def State.slSend (s : State) (b r side t : Nat) : SlFields :=
  let v := s.basin b
  let d := v.desc
  let q := v.sluice.getD {}
  let x := r % 64
  let y := r / 64
  let live := fun (c : Nat) => !(s.core c).fenced
  let tok := fun (c : Nat) => if q.tokens.contains c then some (q.token c) else none
  let rows := d.rowsOf.filter fun y' => if side = 1 then decide (y ≤ y') else decide (y' ≤ y)
  let from_ : List (Nat × Option Nat) :=
    if side = 2 ∨ side = 4 then
      ((d.columns.filter fun x' => if side = 2 then decide (x' ≤ x) else decide (x ≤ x')).filter fun x' => live (64 * y + x')).map
        fun x' => (waveDelay x' x, tok (64 * y + x'))
    else rows.flatMap fun y' => (d.columns.filter fun x' => live (64 * y' + x')).map fun x' =>
      (waveDelay x' x + 2 * (max y y' - min y y'), tok (64 * y' + x'))
  slFields t v.sluices from_

/-- The sluice fields that a router reads on an input in the slot at lattice time `t` (07 R203, R228, R230): those sent 2 lc before; on
the seam they are not re-sent, and a change counts once three slots in a row agree, so that the wave takes 6 lc. On a link whose two
routers are not of one basin they are ignored. -/
def State.slRead (s : State) (r side t : Nat) : Option SlFields :=
  match neighbour r side with
  | none => none
  | some (r', side') =>
    if s.basinOf r ≠ s.basinOf r' then none
    else
      (s.basinOf r).bind fun b =>
        if isSeam r side then
          let a := s.slSend b r' side' (t - 6)
          if a = s.slSend b r' side' (t - 5) ∧ a = s.slSend b r' side' (t - 4) then some a else none
        else some (s.slSend b r' side' (t - 2))

/-- The bound T of a sluice (07 R231). -/
def Desc.sluiceBound (d : Desc) : Nat :=
  8 + 2 * (4 * d.width - 1) + 2 * (8 * d.height - 1) + (if d.crossesSeam then 4 else 0)

/-- Where the segment after a sluice starts (07 R232). -/
def Desc.nextStart (d : Desc) (tLast : Nat) : Nat := up16 (tLast + d.sluiceBound - 4)

/-- Whether a sluice is the closing sluice of a step (06 R195). -/
def Basin.closes (v : Basin) (n : Nat) : Bool := decide (v.validLayers ≠ []) && decide (n = v.closeSluice)

/-- Whether the output of every entry that a sluice waits for is written: of one that a layer triggers, since that sluice last
completed (12 R355, COMPLETE_BY). -/
def Basin.collsWritten (v : Basin) (n : Nat) : Bool :=
  v.collTable.zipIdx.all fun e => decide (e.1.completeBy ≠ n) ||
    ((v.coll e.2).isNone && (e.1.onSluice || !(v.grad e.1.trigger).valid || v.collRan.contains e.2))

/-- A sluice completes: its entries have to be written anew before it completes again. -/
def Basin.clearRan (v : Basin) (n : Nat) : Basin :=
  { v with collRan := v.collRan.filter fun e => decide ((v.collTable[e]?).map (·.completeBy) ≠ some n) }

/-- Whether a sluice waits for nothing but Whetstone passes: every token has entered its router, and the waves have reached every core
(02 R55; 06 R195; 07 R216, R230; 12 R355; 14 R400). -/
def State.sluiceDone (s : State) (b : Nat) (q : Sluice) : Bool :=
  let v := s.basin b
  (s.liveCores b).all (fun c => q.tokens.contains c) && decide (q.doneTime v.desc ≤ s.basinTime b) &&
  (!q.ck || (s.liveCores b).all fun c => (s.core c).capsule.isNone) &&
  (!v.closes q.n || v.verdict.isSome) && v.collsWritten q.n && (s.owing b).isEmpty

/-- A stream that passes the sluice it waits at (04 R117). -/
def Stream.pass (t : Stream) : Stream :=
  match t.wait with
  | .sluice _ _ _ _ => t.retire 0 0
  | _ => t

/-- The flag that a stream's sluice names. -/
def Stream.sluiceFlag (t : Stream) (flags : BitVec 32) : BitVec 32 :=
  match t.wait with
  | .sluice _ _ true f => setBit flags f true
  | _ => flags

/-- A core whose streams stand after a sluice. -/
def Core.pass (k : Core) : Core := { k with a := k.a.pass, x := k.x.pass }

/-- A core's flags with those that the sluice its streams wait at names (04 R117). -/
def Core.sluiceFlags (k : Core) (flags : BitVec 32) : BitVec 32 := k.x.sluiceFlag (k.a.sluiceFlag flags)

/-- The checkpoint record of a core (02 R46). -/
def Core.record (k : Core) (index : Nat) : CkptRec :=
  { index := index, aPc := k.a.pc, xPc := k.x.pc, aRegs := k.a.regs, xRegs := k.x.regs, aTags := k.a.tags, xTags := k.x.tags,
    flags := k.flags, seed := k.seed, xstat := k.xstat }

/-- The records of a basin's cores, by basin core index. -/
def State.records (s : State) (b : Nat) : SMap CkptRec :=
  let d := (s.basin b).desc
  (s.liveCores b).foldl (fun m c => SMap.insert m (d.coreIndex c) ((s.core c).record (d.coreIndex c))) []

/-- The point that a basin returns to, as its cores stand. -/
def State.pointNow (s : State) (b next : Nat) (valid : Bool) : Ckpt :=
  let k := s.core ((s.liveCores b).headD 0)
  { valid := valid, recs := s.records b, train := (s.basin b).train, lscale := k.lscale, verdict := k.verdict, step := k.step,
    next := next, whsDone := (s.basin b).whsDone }

/-- Adders whose failure waited for its repetition are transient once the interval ends without one (14 R403, R408). -/
def State.settleAdders (s : State) (b : Nat) : State :=
  let mine := s.rel.adderPending.filter fun a => (s.basin b).desc.contains a.1
  let s := { s with rel := { s.rel with
    adderPending := s.rel.adderPending.filter fun a => !(s.basin b).desc.contains a.1 } }
  mine.foldl (fun s a => s.report { event := 0x03, kind := 2, cls := 0, basin := some b, index := a.1 }) s

/-- The queue pairs of a basin whose interval has ended (02 R49). -/
def State.endInterval (s : State) (b : Nat) : State :=
  let set := (s.basin b).desc.qset
  if 63 ≤ set then s
  else (List.range 32).foldl (fun s q => s.updQp (qpnOf set q) fun q => { q with sent := [], replay := [] }) s

/-- What a checkpoint sluice's completion does beside a sluice's (02 R46, R47, R49, R51; 04 R113, R114; 09 R281; 11 R331; 12
R359; 14 R398, R403). -/
def State.checkpoint (s : State) (b n next : Nat) : State :=
  let seq := ((s.basin b).ckptSeq + 1) % 2 ^ 32
  let s := s.updCores (s.liveCores b) fun _ k => { k with ckseq := seq, passNo := 0 }.restartGens
  let p := { s.pointNow b next true with sluice := some n }
  let s := s.updBasin b fun v => { v with ckptSeq := seq, restarts := 0, hostWrites := [], ckpt := p, back := p }.releaseLog
  ((((s.commitAll b).releaseHeld b).endInterval b).settleAdders b).count .basin b 2 1

/-- The pages of an offloaded entry, ascending (06 R184). -/
def BlockRec.pageList (r : BlockRec) : List Nat := (List.range r.pages).map fun i => r.page + i

/-- The offloaded entries of a basin (06 R184). -/
def Basin.offloaded (v : Basin) : List BlockRec :=
  if v.desc.offloadClass then v.blocks.filter fun e => decide (e.layer < v.desc.offloadDepth) else []

/-- Completion of OFFLOAD_SLUICE starts the entry's pushes (06 R184). -/
def State.startOffload (s : State) (b n : Nat) : State :=
  let ps := ((s.basin b).offloaded.filter fun e => decide (e.offload = n)).flatMap BlockRec.pageList
  (s.updBasin b fun v => { v with pushing := v.pushing ++ ps.filter fun p => decide ((v.page p).st = .hbm) }).startPushes b

/-- A push that has not finished stops (06 R184). -/
def State.stopPush (s : State) (b p : Nat) : State :=
  let push := fun (m : Move) => decide (m.basin = b) && decide (m.page = p) && decide (m.cause = .offload)
  let going := s.tier.moves.any push
  let s := { s with tier := { s.tier with moves := s.tier.moves.filter fun m => !push m } }
  let s := s.updBasin b fun v => { v with pushing := v.pushing.filter fun q => decide (q ≠ p) }
  if going then (s.updPage b p fun g => { g with toHost := none, moved := 0, asked := false, got := false }).advanceTier else s

/-- Completion of PREFETCH_SLUICE returns the entry's pages, which are then not evicted until the step closes; one for which no frame is
supplied is tried again when one becomes free (06 R184; 09 R284, R481). -/
def State.startPrefetch (s : State) (b n : Nat) : State :=
  (((s.basin b).offloaded.filter fun e => decide (e.prefetch = n)).flatMap BlockRec.pageList).foldl (fun s p =>
    let s := (s.stopPush b p).updPage b p fun g => if g = {} then g else { g with guarded := true }
    if ((s.basin b).page p).st = .host then
      match s.supply b p with
      | .frame f => s.returnTo b p f .prefetch
      | .waits t => t.updPage b p fun g => { g with want := .ret }
      | .none => s.updPage b p fun g => { g with want := .again }
    else s) s

/-- The closing sluice ends the window in which prefetched pages are not evicted (09 R284). -/
def Basin.endGuard (v : Basin) : Basin := { v with pages := SMap.mapV {} v.pages fun _ g => { g with guarded := false } }

/-- The segment that follows (07 R207, R232). -/
def Basin.enterSegment (v : Basin) (next start : Nat) : Basin :=
  { v with seg := { cur := next, start := start, start1 := start }, laneIssued := [], legs := [], landings := []
           engGrants := [] }

/-- What takes effect at a checkpoint sluice once its records are written: fences, else a due test, else a PENDING re-bind or
a PARK_REQ (02 R40, R52, R53, R56; 14 R395, R396). -/
def State.atCheckpoint (s : State) (b : Nat) : State :=
  let v := s.basin b
  if v.fencePending ≠ [] then s.applyFences b
  else if s.anyDue b && s.canTest then s.startTest b
  else if v.pendingRebind.isSome || v.parkReq then (s.stopCores b).enterParked b
  else s

/-- The effects of a completed sluice, in their order: the checkpoint record comes before the flag, as the pseudocode of 04 R117
has it (log 47; 06 R184, R187, R195; 07 R232; 12 R355; 16 R448). -/
def State.completeSluice (s : State) (b : Nat) (g : SegRec) (q : Sluice) : State :=
  let v := s.basin b
  let old := s
  let s := s.count .basin b 1 1
  let s := if v.closes q.n then (s.closeStep b).updBasin b Basin.endGuard else s
  let s := (s.updCores (s.liveCores b) fun _ k => k.pass).updBasin b fun v =>
    ({ v with sluice := none, sluices := v.sluices + 1 }.clearRan q.n).enterSegment g.next (v.desc.nextStart q.tLast)
  let s := if q.ck then s.checkpoint b q.n g.next else s
  let s := s.updCores (s.liveCores b) fun c k => { k with flags := (old.core c).sluiceFlags k.flags }
  let s := ((s.trigger b true q.n).startOffload b q.n).startPrefetch b q.n
  if q.ck then s.atCheckpoint b else s

/-- SLUICE_COMPLETE (07 R230, R231): every router of the basin has completed the sluice for its core. -/
def execSluiceComplete (b : Nat) (s : State) : Out State :=
  let v := s.basin b
  .next (match v.sluice, v.segRec with
    | some q, some g =>
      if v.phase = .running ∧ s.sluiceDone b q ∧ !(v.closes q.n && s.passActive b) then s.completeSluice b g q else s
    | _, _ => s)

/-- BSN_SLUICE_BLOCKED after a timeout (02 R55). -/
def blockedMap (d : Desc) (cs : List Nat) : SMap Word :=
  cs.foldl (fun m c => SMap.upd 0 m (d.coreIndex c / 64) fun w => setBit w (d.coreIndex c % 64) true) []

/-- SLUICE_TIMEOUT (02 R55): the command marks that the sluice's time has passed; it does not count where the closing sluice
waits only for Whetstone passes. -/
def execSluiceTimeout (b : Nat) (s : State) : Out State :=
  let v := s.basin b
  .next (match v.sluice with
    | some q =>
      if v.phase = .running ∧ !(v.closes q.n && s.sluiceDone b q && s.passActive b) then
        let missing := (s.liveCores b).filter fun c => !q.tokens.contains c
        ((s.updBasin b fun v => { v with sluiceBlocked := blockedMap v.desc missing }).markEvent b 0).haltCores b 3 cWatchdog 0
      else s
    | none => s)

/-- A write of 1 to BSN_CTRL.PARK_REQ (02 R56). In a basin that is not RUNNING, a RESTARTING one too, it is dropped (DESIGN
CHOICE, log 76: the spec does not say). -/
def State.requestPark (s : State) (b : Nat) : State :=
  if (s.basin b).phase = .running then s.updBasin b fun v => { v with parkReq := true } else s

/-- PARK_REQ (02 R56). -/
def execParkReq (b : Nat) (s : State) : Out State := .next (s.fromHost fun s => s.requestPark b)

/-! ### Restarts -/

/-- A stream that starts at a recorded address with recorded registers (03 R71). -/
def Stream.restore (t : Stream) (pc : Nat) (regs : List (Nat × Word)) (tags : BitVec 16) : Stream :=
  { t with pc := pc, regs := regs, tags := tags, loops := [], wait := .none, halted := false, stopped := false, ahead := 0 }

/-- A core that starts from a record, with CORE_CKSEQ at CKPT_SEQ (03 R71; 04 R113, R114, R126). -/
def Core.restore (k : Core) (r : CkptRec) (p : Ckpt) (seq : Nat) : Core :=
  { k with
    a := k.a.restore r.aPc r.aRegs r.aTags, x := k.x.restore r.xPc r.xRegs r.xTags
    flags := r.flags, seed := r.seed, xstat := r.xstat, queues := [], armed := {}, tiles := [], fullSeq := 0
    streamPipe := [], drainPipe := [], vecPipe := [], barges := [], passNo := 0, capture := none, capsule := none, retry := []
    lscale := p.lscale, verdict := p.verdict, step := p.step, ckseq := seq }.restartGens

/-- The cores of a basin start from the records of a point. -/
def State.restoreCores (s : State) (b : Nat) (p : Ckpt) : State :=
  let d := (s.basin b).desc
  let seq := (s.basin b).ckptSeq
  s.updCores (s.liveCores b) fun c k =>
    match SMap.get none (p.recs.map fun e => (e.1, some e.2)) (d.coreIndex c) with
    | some r => k.restore r p seq
    | none => k

/-- Nothing of a basin is left on the lattice, at the ports or at the towpath stage: what a restart or a start finds there is
the owed state of its lanes and the data of dropped reads (02 R50; 07 R217; log 52). -/
def State.clearTransport (s : State) (b : Nat) : State :=
  let v := s.basin b
  { s with
    links := s.links.filter fun f => decide (f.flit.basin ≠ b)
    extQ := s.extQ.filter fun f => decide (f.flit.basin ≠ b)
    portalQ := s.portalQ.filter fun f => decide (f.flit.basin ≠ b)
    transit := s.transit.filter fun f => decide (f.flit.basin ≠ b)
    adders := s.adders.filter fun a => decide (a.2.basin ≠ b)
    ports := SMap.mapV {} s.ports fun _ p =>
      { p with reqs := p.reqs.filter fun r => decide (r.basin ≠ b), merge := p.merge.filter fun m => decide (m.basin ≠ b) }
    stageReqs := s.stageReqs.filter fun r => decide (r.basin ≠ b)
    cores := SMap.mapV {} s.cores fun c k => if v.desc.contains c then { k with capture := none, capsule := none, barges := [] } else k }

/-- The interval's sends are compared on the next ones (02 R49; 12 R359). -/
def State.rewindQps (s : State) (b : Nat) : State :=
  let set := (s.basin b).desc.qset
  if 63 ≤ set then s
  else (List.range 32).foldl (fun s q => s.updQp (qpnOf set q) fun q => { q with replay := q.sent ++ q.replay, sent := [] }) s

/-- The interval's work in memory is lost: its fresh tiles are discarded, and what the host wrote to a protected range while the
basin ran is not defined, so those bytes take free values (02 R47, R48, R50; log 6). -/
def State.loseInterval (s : State) (b : Nat) : State :=
  let ws := (s.basin b).hostWrites
  let s := s.updBasin b fun v => { v.discardFresh with hostWrites := [] }
  (ws.foldl (fun (s : State) (w : Nat × Nat) =>
    let bs := (List.range w.2).map fun i => Config.freeBits 8 (s.freeCtr + i)
    { s with freeCtr := s.freeCtr + w.2 }.updBasin b fun v => { v with mem := SMap.setList 0 v.mem w.1 bs }) s).advanceTier

/-- A basin goes back to a point: the interval's fresh tiles are discarded, items and payloads are presented again, and the
training registers and counts return (02 R47, R49, R50; 06 R197; 10 R297). -/
def State.goBack (s : State) (b : Nat) (p : Ckpt) : State :=
  let s := (((s.clearTransport b).dropPasses b).rewindQps b).loseInterval b
  s.updBasin b fun v =>
    { v.rewindQueues with
      train := p.train, whsDone := p.whsDone, layers := [], verdict := none, suppressed := [], colls := [], collRan := [], rxTaken := []
      sluice := none }

/-- A basin's cores run on from a point: its first segment is the one that follows (07 R207). -/
def State.runFrom (s : State) (b : Nat) (p : Ckpt) : State :=
  let start := up16 (s.basinTime b)
  (s.restoreCores b p).updBasin b fun v => { v.enterSegment p.next start with phase := .running }

/-- Whether a barge has launched and has not sent, or for a memory or towpath write delivered, all its data (03 R87). -/
def Barge.inFlight (g : Barge) : Bool :=
  g.kind.sendsData && g.requested && !g.dropped &&
    (decide (g.launched < g.launches) || ((decide (g.kind = .putMem) || decide (g.kind = .putTp)) && decide (g.landed < g.flits)))

/-- Whether a basin's launched transfers are still under way, at a core or on the links (02 R50, R53; 03 R87). -/
def State.inFlight (s : State) (b : Nat) : Bool :=
  ((s.liveCores b).any fun c => (s.core c).barges.any Barge.inFlight) || s.links.any fun f => decide (f.flit.basin = b)

/-- RESTART_RESUME (02 R40, R49, R50, R52; 14 R395, R405): what takes effect at the checkpoint sluice does so in place of the
restart; else the cores start at their recorded addresses, after a test that is due. It waits until the transfers that had
launched have completed (log 52). -/
def execRestartResume (b : Nat) (s : State) : Out State :=
  let v := s.basin b
  .next (if v.phase ≠ .restarting ∨ s.inFlight b then s
    else if v.heldLost then (s.markEvent b 8).haltBasin b v.lastCause
    else
      let p := v.back
      let s := s.goBack b p
      if v.fencePending ≠ [] then s.applyFences b
      else if v.pendingRebind.isSome then s.enterParked b
      else
        let s := ((s.updBasin b fun v => { v with restarts := satAdd 8 v.restarts 1 }).setEvent b 1).count .basin b 4 1
        let s := s.runFrom b p
        if s.anyDue b && s.canTest then s.startTest b else s)

end Sys2Proof.Machine
end

