-- ==== Sys2Proof/Machine/Banks.lean ====
section
/-! DEFINITION. The banks of a core's scratchpad (03 R61 to R64), and the cycles that a core counts (03 R84; 16 R448). In which cc a
port presents which access is an operand of the lattice cycle (log 73). -/

namespace Sys2Proof.Machine

/-! ### Banks -/

/-- The bank of a scratchpad address (03 R61). -/
def spBank (a : Nat) : Nat := a / 64 % 32

/-- The priority number of a port; within the fetch port the A-stream comes first (03 R62). -/
def portRank : SpPort → Nat
  | .landing => 1
  | .launch => 2
  | .array => 3
  | .vector => 4
  | .spill => 5
  | .fetch .a => 6
  | .fetch .x => 7

/-- Whether a port is the fetch port. -/
def fetchPort : SpPort → Bool
  | .fetch _ => true
  | _ => false

/-- The access that a bank serves among those presented to it: that of the port with the lowest number (03 R62). -/
def bankWinner (l : List (SpPort × Nat)) (n : Nat) : Option (SpPort × Nat) :=
  (l.filter fun e => decide (spBank e.2 = n)).foldl (fun best e =>
    match best with
    | some w => if portRank e.1 < portRank w.1 then some e else best
    | none => some e) none

/-- Whether an access is served in its cc: as its bank's winner, as a landing, which never waits (03 R63), or as a fetch from the block
that the winning fetch reads (R62). -/
def served (l : List (SpPort × Nat)) (e : SpPort × Nat) : Bool :=
  match bankWinner l (spBank e.2) with
  | some w => decide (e = w) || decide (e.1 = .landing) || (fetchPort w.1 && fetchPort e.1 && decide (e.2 / 64 = w.2 / 64))
  | none => true

/-- The accesses that are presented again in the next cc (03 R62). -/
def bankLosers (l : List (SpPort × Nat)) : List (SpPort × Nat) := l.filter fun e => !served l e

/-- Whether a port of higher priority than the fetch port took the bank of a stream's fetch: BANK_CONFLICT; a bank lost to the
A-stream's fetch counts as FETCH (03 R62, R84). -/
def fetchConflict (l : List (SpPort × Nat)) (st : Strm) : Bool :=
  (bankLosers l).any fun e => decide (e.1 = .fetch st) &&
    (match bankWinner l (spBank e.2) with | some w => !fetchPort w.1 | none => false)

/-! ### Cycles -/

/-- A stream after one cc (03 R84; 04 R112): cycles of issue and of its own stalls already counted come first; then a stream that has
executed HALT counts DONE, and another the cause of rank `rank`. The flag tells whether the cc counts here. -/
def Stream.cycle (t : Stream) (rank : Nat) : Stream × Bool :=
  if 0 < t.ahead then ({ t with ahead := t.ahead - 1 }, false)
  else if t.halted then ({ t with doneCc := t.doneCc + 1 }, true)
  else ({ t with stalls := SMap.upd 0 t.stalls rank (· + 1) }, true)

/-- One cc of a core of a RUNNING basin, in which its ports present the accesses `new` and those that lost their bank before (03 R62,
R84; 16 R448). -/
def State.cycleCc (s : State) (b c : Nat) (new : List (SpPort × Nat)) : State :=
  let l := ((s.core c).retry ++ new).dedup
  let ra := s.stallRank b c .a (fetchConflict l .a)
  let rx := s.stallRank b c .x (fetchConflict l .x)
  let k := s.core c
  let a := k.a.cycle ra
  let x := k.x.cycle rx
  let s := (s.setCore c { k with a := a.1, x := x.1, cycle := k.cycle + 1, retry := bankLosers l }).count .core c 0 1
  let s := if a.2 then s.count .core c (if k.a.halted then 3 else 4 + ra) 1 else s
  if x.2 then s.count .core c (if k.x.halted then 4 else 17 + rx) 1 else s

/-- The accesses of a core in cc `i` of the lattice cycle. -/
def accessesAt (env : SlotEnv) (c i : Nat) : List (SpPort × Nat) :=
  (env.accesses.filter fun e => decide (e.core = c) && decide (e.cc = i)).map fun e => (e.port, e.addr)

/-- The two cc of a core in a lattice cycle. -/
def State.cycleCore (s : State) (env : SlotEnv) (b c : Nat) : State :=
  (s.cycleCc b c (accessesAt env c 0)).cycleCc b c (accessesAt env c 1)

end Sys2Proof.Machine
end

