-- ==== Sys2Proof/Machine/Crypto.lean ====
section
/-! DEFINITION. The cryptographic functions that 15 R442 names, from the standards that it names (log 9): SHA-384 (FIPS 180-4),
HMAC-SHA-384 (FIPS 198-1), the counter-mode KDF of 15 R432, ECDSA P-384 verification (FIPS 186-5), AES-256-GCM (NIST SP
800-38D); and the CRC-32C of 15 R421. -/

namespace Sys2Proof.Machine

/-! ### Bytes -/

/-- The bytes of a number, most significant first. -/
def beBytes (n v : Nat) : List Byte := (leBytes n v).reverse

/-- The number that bytes spell, most significant first. -/
def beNat (bs : List Byte) : Nat := leNat bs.reverse

/-- The bytes that a register or block field holds, byte 0 in its low bits. -/
def vecBytes {w : Nat} (v : BitVec w) : List Byte := leBytes (w / 8) v.toNat

/-- 48 bytes as the field that holds them. -/
def digestVec (bs : List Byte) : BitVec 384 := BitVec.ofNat 384 (leNat bs)

/-! ### SHA-384 -/

/-- The first `n` primes from `c` on. -/
def primesFrom : Nat → Nat → Nat → List Nat
  | 0, _, _ => []
  | _, 0, _ => []
  | fuel + 1, n + 1, c =>
    if (List.range c).all fun d => decide (d < 2) || decide (c % d ≠ 0) then c :: primesFrom fuel n (c + 1)
    else primesFrom fuel (n + 1) (c + 1)

/-- The first 80 primes. -/
def primes80 : List Nat := primesFrom 420 80 2

/-- The cube root of a number, bit by bit from bit `k`, rounded down. -/
def cubeRoot (v : Nat) : Nat → Nat → Nat
  | 0, r => r
  | k + 1, r => if (r + 2 ^ k) ^ 3 ≤ v then cubeRoot v k (r + 2 ^ k) else cubeRoot v k r

/-- The round constants: the first 64 bits of the fractions of the cube roots of the first 80 primes. -/
def shaK : List Word := primes80.map fun p => BitVec.ofNat 64 (cubeRoot (p * 2 ^ 192) 70 0)

/-- The first hash value: the first 64 bits of the fractions of the square roots of the ninth to sixteenth primes. -/
def shaInit : List Word := ((primes80.drop 8).take 8).map fun p => BitVec.ofNat 64 (Nat.sqrt (p * 2 ^ 128))

/-- The functions of a round. -/
def shaCh (x y z : Word) : Word := (x &&& y) ^^^ (~~~x &&& z)
def shaMaj (x y z : Word) : Word := (x &&& y) ^^^ (x &&& z) ^^^ (y &&& z)
def shaS0 (x : Word) : Word := x.rotateRight 28 ^^^ x.rotateRight 34 ^^^ x.rotateRight 39
def shaS1 (x : Word) : Word := x.rotateRight 14 ^^^ x.rotateRight 18 ^^^ x.rotateRight 41
def shaG0 (x : Word) : Word := x.rotateRight 1 ^^^ x.rotateRight 8 ^^^ (x >>> 7)
def shaG1 (x : Word) : Word := x.rotateRight 19 ^^^ x.rotateRight 61 ^^^ (x >>> 6)

/-- The message schedule, latest word first. -/
def shaExpand : Nat → List Word → List Word
  | 0, l => l
  | n + 1, l => shaExpand n ((shaG1 (l.getD 1 0) + l.getD 6 0 + shaG0 (l.getD 14 0) + l.getD 15 0) :: l)

/-- A round on the eight working variables. -/
def shaRound (h : List Word) (kw : Word × Word) : List Word :=
  match h with
  | [a, b, c, d, e, f, g, hh] =>
    let t1 := hh + shaS1 e + shaCh e f g + kw.1 + kw.2
    let t2 := shaS0 a + shaMaj a b c
    [t1 + t2, a, b, c, d + t1, e, f, g]
  | l => l

/-- The compression of a block of 128 bytes. -/
def shaBlock (h : List Word) (bs : List Byte) : List Word :=
  let ws := (List.range 16).map fun i => BitVec.ofNat 64 (beNat ((bs.drop (8 * i)).take 8))
  let w := (shaExpand 64 ws.reverse).reverse
  List.zipWith (· + ·) h ((shaK.zip w).foldl shaRound h)

/-- The message with its padding. -/
def shaPad (m : List Byte) : List Byte :=
  m ++ [0x80] ++ List.replicate ((239 - m.length % 128) % 128) 0 ++ beBytes 16 (8 * m.length)

/-- The blocks of a padded message. -/
def shaBlocks : Nat → List Byte → List (List Byte)
  | 0, _ => []
  | n + 1, m => if m = [] then [] else m.take 128 :: shaBlocks n (m.drop 128)

/-- SHA-384 of bytes: 48 bytes. -/
def sha384 (m : List Byte) : List Byte :=
  let p := shaPad m
  ((shaBlocks (p.length / 128) p).foldl shaBlock shaInit |>.take 6).flatMap fun w => beBytes 8 w.toNat

/-- HMAC-SHA-384 under a key of at most 128 bytes. -/
def hmac384 (key m : List Byte) : List Byte :=
  let k := key ++ List.replicate (128 - key.length) 0
  sha384 (k.map (· ^^^ 0x5C) ++ sha384 (k.map (· ^^^ 0x36) ++ m))

/-- A label's characters. -/
def labelBytes (s : String) : List Byte := s.toList.map fun c => BitVec.ofNat 8 c.toNat

/-- One block of the KDF in counter mode: the counter, a label, a zero byte, a context and the length in bits (15 R432). -/
def kdf (key : List Byte) (label : String) (ctx : List Byte) (len : Nat) : List Byte :=
  (hmac384 key (beBytes 4 1 ++ labelBytes label ++ [0] ++ ctx ++ beBytes 4 len)).take (len / 8)

/-! ### CRC-32C -/

/-- A bit of the reflected Castagnoli division (15 R421). -/
def crcBit (c : BitVec 32) : BitVec 32 := if c.getLsbD 0 then (c >>> 1) ^^^ 0x82F63B78 else c >>> 1

/-- A byte of it. -/
def crcByte (c : BitVec 32) (b : Byte) : BitVec 32 := Nat.iterate crcBit 8 (c ^^^ b.zeroExtend 32)

/-- CRC-32C of bytes (15 R421). -/
def crc32c (m : List Byte) : BitVec 32 := (m.foldl crcByte 0xFFFFFFFF) ^^^ 0xFFFFFFFF

/-! ### ECDSA P-384 -/

/-- The field, order, coefficient b and base point of P-384. -/
def p384P : Nat := 2 ^ 384 - 2 ^ 128 - 2 ^ 96 + 2 ^ 32 - 1
def p384N : Nat := 0xFFFFFFFFFFFFFFFFFFFFFFFFFFFFFFFFFFFFFFFFFFFFFFFFC7634D81F4372DDF581A0DB248B0A77AECEC196ACCC52973
def p384B : Nat := 0xB3312FA7E23EE7E4988E056BE3F82D19181D9C6EFE8141120314088F5013875AC656398D8A2ED19D2A85C8EDD3EC2AEF
def p384Gx : Nat := 0xAA87CA22BE8B05378EB1C71EF320AD746E1D3B628BA79B9859F741E082542A385502F25DBF55296C3A545E3872760AB7
def p384Gy : Nat := 0x3617DE4A96262C6F5D9E98BF9292DC29F8F41DBD289A147CE9DA3113B5F0B8C00A60B1CE1D7E819D7A431D7C90EA0E5F

/-- A power modulo `m`, by squaring over the bits of the exponent. -/
def powMod (m : Nat) : Nat → Nat → Nat → Nat
  | 0, _, _ => 1 % m
  | k + 1, b, e =>
    let h := powMod m k (b * b % m) (e / 2)
    if e % 2 = 1 then b * h % m else h

/-- The inverse modulo a prime of at most 384 bits. -/
def invMod (p x : Nat) : Nat := powMod p 384 (x % p) (p - 2)

/-- A difference modulo `m`. -/
def subMod (m a b : Nat) : Nat := (a % m + m - b % m) % m

/-- The sum of two points of the curve; `none` is the point at infinity. -/
def pointAdd (a b : Option (Nat × Nat)) : Option (Nat × Nat) :=
  match a, b with
  | none, q => q
  | p, none => p
  | some (x1, y1), some (x2, y2) =>
    let p := p384P
    if x1 = x2 ∧ (y1 + y2) % p = 0 then none
    else
      let l := if x1 = x2 then (3 * x1 * x1 + (p - 3)) % p * invMod p (2 * y1) % p
        else subMod p y2 y1 * invMod p (subMod p x2 x1) % p
      let x := subMod p (l * l) (x1 + x2)
      some (x, subMod p (l * subMod p x1 x) y1)

/-- A multiple of a point, from bit `k` of the factor down. -/
def pointMul (e : Nat) (q : Option (Nat × Nat)) : Nat → Option (Nat × Nat) → Option (Nat × Nat)
  | 0, acc => acc
  | k + 1, acc =>
    let d := pointAdd acc acc
    pointMul e q k (if e.testBit k then pointAdd d q else d)

/-- Whether a public key is a point of the curve. -/
def onCurve (x y : Nat) : Bool :=
  decide (x < p384P) && decide (y < p384P) && decide ((y * y) % p384P = (x * x * x + (p384P - 3) * x + p384B) % p384P)

/-- ECDSA P-384 verification of a signature of 48-byte r and s over a SHA-384 digest under a public key of 96 bytes. -/
def ecdsaVerify (key digest sigR sigS : List Byte) : Bool :=
  let x := beNat (key.take 48)
  let y := beNat ((key.drop 48).take 48)
  let r := beNat sigR
  let s := beNat sigS
  let w := invMod p384N s
  let q := pointAdd (pointMul (beNat digest * w % p384N) (some (p384Gx, p384Gy)) 384 none)
    (pointMul (r * w % p384N) (some (x, y)) 384 none)
  onCurve x y && decide (0 < r) && decide (r < p384N) && decide (0 < s) && decide (s < p384N) &&
    (match q with | some p => decide (p.1 % p384N = r) | none => false)

/-! ### AES-256-GCM -/

/-- Multiplication by x in the field of AES. -/
def aesX (b : Byte) : Byte := if b.getLsbD 7 then (b <<< 1) ^^^ 0x1B else b <<< 1

/-- Multiplication in the field of AES, over the low `k` bits of the factor. -/
def aesMul : Nat → Byte → Byte → Byte
  | 0, _, _ => 0
  | k + 1, a, b => (if b.getLsbD 0 then a else 0) ^^^ aesMul k (aesX a) (b >>> 1)

/-- The inverse in the field of AES: the 254th power; 0 for 0. -/
def aesInv (a : Byte) : Byte := Nat.iterate (fun r => aesMul 8 r a) 253 a

/-- The S-box. -/
def aesS (a : Byte) : Byte :=
  let i := aesInv a
  i ^^^ i.rotateLeft 1 ^^^ i.rotateLeft 2 ^^^ i.rotateLeft 3 ^^^ i.rotateLeft 4 ^^^ 0x63

/-- The key schedule of AES-256, latest 4-byte word first. -/
def aesExpand : Nat → Nat → Byte → List (List Byte) → List (List Byte)
  | 0, _, _, l => l
  | n + 1, i, rcon, l =>
    let p := l.headD []
    let t := if i % 8 = 0 then
        (p.drop 1 ++ p.take 1).map aesS |> List.zipWith (· ^^^ ·) [rcon, 0, 0, 0]
      else if i % 8 = 4 then p.map aesS else p
    aesExpand n (i + 1) (if i % 8 = 0 then aesX rcon else rcon) (List.zipWith (· ^^^ ·) t (l.getD 7 []) :: l)

/-- The 15 round keys. -/
def aesKeys (key : List Byte) : List (List Byte) :=
  let ws := (List.range 8).map fun i => (key.drop (4 * i)).take 4
  let all := (aesExpand 52 8 1 ws.reverse).reverse
  (List.range 15).map fun r => ((all.drop (4 * r)).take 4).flatten

/-- ShiftRows: byte r + 4·c comes from column c + r. -/
def aesShift (s : List Byte) : List Byte :=
  (List.range 16).map fun i => s.getD (i % 4 + 4 * ((i / 4 + i % 4) % 4)) 0

/-- MixColumns. -/
def aesMix (s : List Byte) : List Byte :=
  (List.range 16).map fun i =>
    let at_ := fun r => s.getD (i / 4 * 4 + (i % 4 + r) % 4) 0
    aesX (at_ 0) ^^^ (aesX (at_ 1) ^^^ at_ 1) ^^^ at_ 2 ^^^ at_ 3

/-- AES-256 of a block of 16 bytes. -/
def aesBlock (keys : List (List Byte)) (m : List Byte) : List Byte :=
  let s := List.zipWith (· ^^^ ·) m (keys.headD [])
  let s := ((keys.drop 1).take 13).foldl (fun s k => List.zipWith (· ^^^ ·) (aesMix (aesShift (s.map aesS))) k) s
  List.zipWith (· ^^^ ·) (aesShift (s.map aesS)) (keys.getD 14 [])

/-- Multiplication in the field of GHASH, bit 127 of the number the first bit of the block. -/
def gMul : Nat → Nat → BitVec 128 → BitVec 128 → BitVec 128
  | 0, _, _, z => z
  | n + 1, x, v, z =>
    gMul n x (if v.getLsbD 0 then (v >>> 1) ^^^ (0xE1#128 <<< 120) else v >>> 1) (if x.testBit n then z ^^^ v else z)

/-- The blocks of 16 bytes of a message, the last one filled with zeros. -/
def gBlocks : Nat → List Byte → List (BitVec 128)
  | 0, _ => []
  | n + 1, m =>
    if m = [] then [] else
      let b := m.take 16
      BitVec.ofNat 128 (beNat (b ++ List.replicate (16 - b.length) 0)) :: gBlocks n (m.drop 16)

/-- GHASH. -/
def gHash (h : BitVec 128) (bs : List (BitVec 128)) : BitVec 128 :=
  bs.foldl (fun y b => gMul 128 (y ^^^ b).toNat h 0) 0

/-- The key stream of GCM from counter value `c` on. -/
def gStream (keys : List (List Byte)) (iv : List Byte) (n c : Nat) : List Byte :=
  ((List.range (ceilDiv n 16)).flatMap fun i => aesBlock keys (iv ++ beBytes 4 (c + i))).take n

/-- AES-256-GCM decryption with a 12-byte IV: the plaintext, where the tag verifies. -/
def gcmOpen (key iv aad ct tag : List Byte) : Option (List Byte) :=
  let keys := aesKeys key
  let h := BitVec.ofNat 128 (beNat (aesBlock keys (List.replicate 16 0)))
  let len := BitVec.ofNat 128 (8 * aad.length * 2 ^ 64 + 8 * ct.length)
  let s := gHash h (gBlocks aad.length aad ++ gBlocks ct.length ct ++ [len])
  let t := List.zipWith (· ^^^ ·) (beBytes 16 s.toNat) (aesBlock keys (iv ++ beBytes 4 1))
  if t = tag then some (List.zipWith (· ^^^ ·) ct (gStream keys iv ct.length 2)) else none

end Sys2Proof.Machine
end

