-- ==== Sys2Proof/Machine/Access.lean ====
section
/-! DEFINITION. Accesses to registers by host software: which fields a write covers, and what it leaves of a register (00 R10, R11). -/

namespace Sys2Proof.Machine

/-- A Bool as the value of a bit. -/
def flagValue (b : Bool) : Nat := if b then 1 else 0

/-- A write as it meets a register: the bits `lo` to `hi` that it covers, with its value in their place (00 R10). -/
structure RegAcc where
  lo : Nat
  hi : Nat
  val : Nat
  deriving DecidableEq, Repr

/-- The access of a write at an offset, with the offset of the 64-bit word that it meets. -/
def regAcc (off : Nat) (wide : Bool) (v : Word) : RegAcc :=
  if wide then { lo := 0, hi := 63, val := v.toNat }
  else if off % 8 = 0 then { lo := 0, hi := 31, val := bits v.toNat 31 0 }
  else { lo := 32, hi := 63, val := bits v.toNat 31 0 * 2 ^ 32 }

/-- Whether an access covers a field wholly: a spanning field stays under an access to one half (00 R10). -/
def RegAcc.covers (a : RegAcc) (hi lo : Nat) : Bool := decide (a.lo ≤ lo) && decide (hi ≤ a.hi)

/-- The value of an RW field after a write (00 R11). -/
def RegAcc.rw (a : RegAcc) (hi lo cur : Nat) : Nat := if a.covers hi lo then bits a.val hi lo else cur

/-- A W1C bit after a write (00 R11). -/
def RegAcc.w1c (a : RegAcc) (i : Nat) (cur : Bool) : Bool := cur && !(a.covers i i && bit a.val i)

/-- A word all of whose bits are RW. -/
def RegAcc.word (a : RegAcc) (cur : Word) : Word :=
  BitVec.ofNat 64 (a.rw 63 32 (bits cur.toNat 63 32) * 2 ^ 32 + a.rw 31 0 (bits cur.toNat 31 0))

/-- A register that holds several fields, its other bits zero: each field after a write. -/
def RegAcc.fields (a : RegAcc) (cur : Word) (fs : List (Nat × Nat)) : Word :=
  BitVec.ofNat 64 (fs.map fun f => a.rw f.1 f.2 (bits cur.toNat f.1 f.2) * 2 ^ f.2).sum

/-- A write of all of a 64-bit register. -/
def wholeAcc (v : Word) : RegAcc := regAcc 0 true v

/-- The bytes that a write covers, from the word's first byte on. -/
def RegAcc.bytes (a : RegAcc) : List Byte := (leBytes 8 a.val).drop (a.lo / 8) |>.take ((a.hi + 1 - a.lo) / 8)

end Sys2Proof.Machine
end

