-- ==== Sys2Proof/Machine/Rates.lean ====
section
/-! DEFINITION. The rates and coefficients of a Whetstone pass (10 R298, R306): FP32 and FP64 arithmetic, the powers and the cosine, each
near its exact value as the spec's fixed routines give it (log 12), and schedules. -/

namespace Sys2Proof.Machine

/-! ### Arithmetic -/

/-- FP32 operations, each rounded once (10 R298). -/
def rAdd (a b : FVal) : FVal := (FVal.add a b).toFp32
def rSub (a b : FVal) : FVal := (FVal.add a b.neg).toFp32
def rMul (a b : FVal) : FVal := (FVal.mul a b).toFp32
def rDiv (a b : FVal) : FVal := (FVal.div a b).toFp32
def rSqrt (a : FVal) : FVal := a.sqrt.toFp32

/-- FP64 operations, each rounded once. -/
def dAdd (a b : FVal) : FVal := (FVal.add a b).toFp64
def dSub (a b : FVal) : FVal := (FVal.add a b.neg).toFp64
def dMul (a b : FVal) : FVal := (FVal.mul a b).toFp64
def dDiv (a b : FVal) : FVal := (FVal.div a b).toFp64

/-- A whole number as a value. -/
def natVal (n : Nat) : FVal := .fin false n 0

/-- 1 − β in FP64, rounded once to FP32 (10 R298, k1 and k2). -/
def oneMinus (b : FVal) : FVal := (dSub (natVal 1) b).toFp32

/-! ### The fixed routines -/

/-- How far a routine's result lies from the exact value, in FP64: at most four units of 2^(k − 54) (log 12). -/
def routineError (pick : Nat) (k : Int) : FVal := .fin (decide (pick % 9 < 4)) ((pick % 9 : Int) - 4).natAbs (k - 54)

/-- m · 2^e cut to 256 significant bits. -/
def cutTo (m : Nat) (e : Int) : Nat × Int := (m / 2 ^ (Nat.log2 m - 255), e + (Nat.log2 m - 255 : Nat))

/-- A power of m · 2^e, from bit `k` of the exponent down, in 256 significant bits. -/
def powCut (b : Nat × Int) (u : Nat) : Nat → Nat × Int → Nat × Int
  | 0, a => a
  | k + 1, a =>
    let q := cutTo (a.1 * a.1) (2 * a.2)
    powCut b u k (if u.testBit k then cutTo (q.1 * b.1) (q.2 + b.2) else q)

/-- x^u for u below 2^32; what FP64 cannot hold beside 1 is zero or an infinity. -/
def FVal.pow (u : Nat) : FVal → FVal
  | .nan => .nan
  | .inf neg => if u = 0 then natVal 1 else .inf (neg && decide (u % 2 = 1))
  | .fin neg m e =>
    let r := powCut (m, e) u 32 (1, 0)
    let sg := neg && decide (u % 2 = 1)
    let top := (Nat.log2 r.1 : Int) + r.2
    if r.1 = 0 ∨ top < -400 then .fin sg 0 0 else if 1100 < top then .inf sg else .fin sg r.1 r.2

/-- The binade of a value of magnitude 1 or more; 0 below. -/
def FVal.binade : FVal → Int
  | .fin _ m e => max 0 ((Nat.log2 m : Int) + e + 1)
  | _ => 0

/-- c of a coefficient β for update u: 1 − β^u in FP64 as the fixed routine computes it, rounded once to FP32 (10 R298; log 12). -/
def biasCorrection (beta : BitVec 32) (u : Nat) : FVal :=
  let p := (fp32.decode beta.toNat).pow u
  (FVal.add (FVal.add (natVal 1) p.neg) (routineError (Config.powerPick beta u) p.binade)).toFp64.toFp32

/-- π as a multiple of 2^-320. -/
def piFixed : Nat := 0x3243F6A8885A308D313198A2E03707344A4093822299F31D0082EFA98EC4E6C89452821E638D01377

/-- cos √sq as a multiple of 2^-320, from its Taylor terms, the last first. -/
def cosTaylor (sq : Int) : Nat → Int → Int
  | 0, acc => acc
  | k + 1, acc => cosTaylor sq k (2 ^ 320 - acc * sq / 2 ^ 320 / ((2 * k + 1) * (2 * k + 2)))

/-- cos(π · v / period) in FP64 as the fixed cosine routine computes it (10 R306; log 12). -/
def cosFraction (v period : Nat) : FVal :=
  let x := piFixed * v / period
  let c := cosTaylor ((x * x / 2 ^ 320 : Nat) : Int) 45 (2 ^ 320)
  (FVal.add (.fin (decide (c < 0)) c.natAbs (-320)) (routineError (Config.cosPick v period) 0)).toFp64

/-! ### Schedules -/

/-- A schedule record of a basin's program (10 R306). -/
def Basin.schedule (v : Basin) (n : Nat) : List Word := match v.img with | some m => SMap.get [] (imgMap m.whsScheds) n | none => []

/-- The position v of update u in the decay (10 R306). -/
def schedPos (warmup period u : Nat) (restart : Bool) : Nat :=
  if restart then (u - warmup - 1) % period + 1 else min (u - warmup) period

/-- The rate of a schedule record for update u, in FP64 (10 R306; log 12). -/
def schedRate (ws : List Word) (u : Nat) : FVal :=
  let peak := fp32.decode (bits (wordAt ws 0) 63 32)
  let lo := fp32.decode (bits (wordAt ws 0) 31 0)
  let warmup := bits (wordAt ws 1) 63 32
  let period := bits (wordAt ws 1) 31 0
  let v := schedPos warmup period u (bit (wordAt ws 2) 4)
  if u ≤ warmup then dDiv (dMul peak (natVal u)) (natVal warmup)
  else
    match bits (wordAt ws 2) 2 0 with
    | 1 => dAdd lo (dMul (dSub peak lo) (dSub (natVal 1) (dDiv (natVal v) (natVal period))))
    | 2 => dAdd lo (dDiv (dMul (dSub peak lo) (dAdd (natVal 1) (cosFraction v period))) (natVal 2))
    | 3 => dMul peak (dDiv (natVal (max warmup 1)) (natVal u)).sqrt.toFp64
    | _ => peak

/-- The layer learning rate η (10 R298, R306). -/
def Basin.rate (v : Basin) (r : WhsRec) (u : Nat) : FVal :=
  rMul (schedRate (v.schedule r.sched) u).toFp32 (fp32.decode r.lrMult)

/-! ### Rules -/

/-- The symbols of a pass that do not depend on the element (10 R298). -/
structure Coefs where
  u : Nat
  eta : FVal
  b1 : FVal
  b2 : FVal
  c1 : FVal
  c2 : FVal
  k1 : FVal
  k2 : FVal
  eps : FVal
  wd : FVal

/-- The symbols of a layer for update `u` (10 R298; log 12). -/
def Basin.coefs (v : Basin) (r : WhsRec) (u : Nat) : Coefs :=
  let b1 := fp32.decode r.beta1
  let b2 := fp32.decode r.beta2
  { u := u, eta := v.rate r u, b1 := b1, b2 := b2, c1 := biasCorrection (BitVec.ofNat 32 r.beta1) u,
    c2 := biasCorrection (BitVec.ofNat 32 r.beta2) u, k1 := oneMinus b1, k2 := oneMinus b2,
    eps := fp32.decode r.eps, wd := fp32.decode r.wd }

end Sys2Proof.Machine
end

