-- ==== Sys2Proof/Machine/Whetstone.lean ====
section
/-! DEFINITION. Whetstone update engines: update rules (10 R299, R301), working copies (R300), embedding rows (R308), headers (R309),
norms (R299), and the chunk an engine updates with its checks (R295, R311, R312). -/

namespace Sys2Proof.Machine

/-- An element's state and gradient: w (or s), m, v, o, ĝ. -/
structure Elem where
  w : FVal
  m : FVal
  v : FVal
  o : FVal
  g : FVal

/-- m, v and q of ADAMW (10 R298). -/
def Coefs.adam (c : Coefs) (e : Elem) : FVal × FVal × FVal :=
  let m := rAdd (rMul c.b1 e.m) (rMul c.k1 e.g)
  let v := rAdd (rMul c.b2 e.v) (rMul c.k2 (rMul e.g e.g))
  (m, v, rAdd (rDiv (rDiv m c.c1) (rAdd (rSqrt (rDiv v c.c2)) c.eps)) (rMul c.wd e.w))

/-- STATUS of a header as a pass reads it: 0 EMPTY, 1 VALID, 2 FALLBACK; 3 acts as FALLBACK (10 R309). -/
def headerStatus (n : Nat) : Nat := min 2 n

/-- The last two operations that form an output: c + a · b, the product rounded and then the sum (10 R298). -/
structure Form where
  a : FVal
  b : FVal
  c : FVal

/-- What a form gives. -/
def Form.value (f : Form) : FVal := rAdd f.c (rMul f.a f.b)

/-- The residue-checked steps of a form (05 R166, R167; 10 R311). -/
def Form.steps (f : Form) : List ResStep :=
  let p := FVal.mul f.a f.b
  let q := p.toFp32
  let t := FVal.add f.c q
  mulSteps f.a f.b ++ roundSteps fp32 p (fp32.roundedAt p (fp32.encode p)) ++
    addSteps f.c q ++ roundSteps fp32 t (fp32.roundedAt t (fp32.encode t))

/-- A form's value, or what stands there where the rule forms nothing. -/
def formed (f : Option Form) (old : FVal) : FVal := match f with | some f => f.value | none => old

/-- The forms of an element's new w (or s), m and v, and of x of ORTHO; none for an output that a rule leaves as it stands, and for x
equal to the new m (10 R299, R301). -/
structure Forms where
  w : Option Form := none
  m : Option Form := none
  v : Option Form := none
  x : Option Form := none

/-- m and v of ADAMW (10 R298). -/
def Coefs.mForm (c : Coefs) (e : Elem) : Form := ⟨c.k1, e.g, rMul c.b1 e.m⟩
def Coefs.vForm (c : Coefs) (e : Elem) : Form := ⟨c.k2, rMul e.g e.g, rMul c.b2 e.v⟩

/-- q of ADAMW (10 R298). -/
def Coefs.adamQ (c : Coefs) (e : Elem) : FVal :=
  rAdd (rDiv (rDiv (c.mForm e).value c.c1) (rAdd (rSqrt (rDiv (c.vForm e).value c.c2)) c.eps)) (rMul c.wd e.w)

/-- The update of one element (10 R299, R301). -/
def WhsRec.update (r : WhsRec) (c : Coefs) (status : Nat) (trust : FVal) (e : Elem) : Forms :=
  let step := fun (d : FVal) => some (⟨c.eta.neg, d, e.w⟩ : Form)
  let heavy : Form := ⟨c.b1, e.m, e.g⟩
  let ahead : Form := ⟨c.b1, heavy.value, e.g⟩
  if r.rule = ruleSgd then
    { w := step (rAdd (if r.nesterov then ahead.value else heavy.value) (rMul c.wd e.w)), m := some heavy }
  else if r.rule = ruleAdamw then { w := step (c.adamQ e), m := some (c.mForm e), v := some (c.vForm e) }
  else if r.rule = ruleTrust then
    { w := some ⟨(rMul c.eta trust).neg, c.adamQ e, e.w⟩, m := some (c.mForm e), v := some (c.vForm e) }
  else if r.rule = ruleKron then { w := step (rAdd (c.mForm e).value (rMul c.wd e.w)), m := some (c.mForm e) }
  else if r.rule = ruleOrtho then
    let os := fp32.decode r.auxF
    { m := some heavy, x := if r.nesterov then some ahead else none
      w := if status = 1 then step (rAdd (rMul os e.o) (rMul c.wd e.w))
        else if status = 2 then step (rAdd (rMul os (rDiv e.m (rAdd e.m.abs c.eps))) (rMul c.wd e.w))
        else none }
  else { w := some ⟨c.k2, e.g, rMul c.b2 e.w⟩ }

/-- An element's new w, m, v and x. -/
def Forms.values (f : Forms) (e : Elem) : FVal × FVal × FVal × FVal :=
  (formed f.w e.w, formed f.m e.m, formed f.v e.v, formed f.x (formed f.m e.m))

/-- Which of an element's outputs w, m, v and x depend on a poisoned one of its inputs w, m, v and o, or on a poisoned row count (10
R299, R312; log 88). -/
def WhsRec.spoiled (r : WhsRec) (status : Nat) (w m v o count : Bool) : Bool × Bool × Bool × Bool :=
  let usesM := if r.rule = ruleOrtho then decide (status = 2) else r.rule ≠ ruleFactor
  let usesV := decide (r.rule = ruleAdamw) || decide (r.rule = ruleTrust)
  (w || (usesM && m) || (usesV && v) || (decide (r.rule = ruleOrtho ∧ status = 1) && o) || count, m, v, m)

/-! ### Tensors -/

/-- The row stride of an embedding gradient (10 R308). -/
def WhsRec.gradStride (r : WhsRec) : Nat := ceilDiv (2 * (r.cols + 1)) 64 * 64

/-- The BA of gradient element `e` (10 R304, R308). -/
def WhsRec.gradAt (r : WhsRec) (e : Nat) : Nat :=
  if r.emb then r.grad + e / r.cols * r.gradStride + 2 * (e % r.cols) else r.grad + 2 * e

/-- Bytes of a working-copy element. -/
def WhsRec.wcBytes (r : WhsRec) : Nat := if r.wcFmt = 0 then 2 else 1

/-- Whether the rule reads and writes m, v (10 R299). -/
def WhsRec.hasM (r : WhsRec) : Bool := decide (r.rule ≠ ruleFactor)
def WhsRec.hasV (r : WhsRec) : Bool := decide (r.rule = ruleAdamw) || decide (r.rule = ruleTrust)

/-- The tensors of a layer as (BA, bytes, whether it is the gradient); a tensor that the rule has not is absent (10 R304,
R305). -/
def WhsRec.tensors (r : WhsRec) : List (Nat × Nat × Bool) :=
  let n := r.elements
  [(r.master, 4 * n, false), (r.grad, if r.emb then r.rows * r.gradStride else 2 * n, true), (r.hdr, 64, false)] ++
  (if r.hasM then [(r.m, 4 * n, false)] else []) ++ (if r.hasV then [(r.v, 4 * n, false)] else []) ++
  (if r.rule = ruleFactor then [] else [(r.wc, r.wcBytes * n, false)]) ++
  (if r.rule = ruleOrtho then [(r.aux, 2 * n, false)] else if r.emb then [(r.aux, 4 * r.rows, false)] else [])

/-- A number of `n` bytes in a basin's memory. -/
def Basin.memNum (v : Basin) (ba n : Nat) : Nat := leNat (v.readMem ba n)

/-- The loss-scale exponent that the step's gradient carries, and the update number of an ordinary layer (10 R298). -/
def Basin.stepLs (v : Basin) : Nat := v.trainOld.lsExp
def Basin.stepU (v : Basin) : Nat := v.trainOld.step + 1

/-- An element of a layer as a pass reads it (10 R298, R299). -/
def Basin.whsElem (v : Basin) (r : WhsRec) (e : Nat) : Elem :=
  { w := fp32.decode (v.memNum (r.master + 4 * e) 4)
    m := if r.hasM then fp32.decode (v.memNum (r.m + 4 * e) 4) else natVal 0
    v := if r.hasV then fp32.decode (v.memNum (r.v + 4 * e) 4) else natVal 0
    o := if r.rule = ruleOrtho then bf16.decode (v.memNum (r.aux + 2 * e) 2) else natVal 0
    g := (fp16.decode (v.memNum (r.gradAt e) 2)).scale (-((r.lsPow * v.stepLs : Nat) : Int)) }

/-- Which of an element's outputs are poisoned; the gradient is checked apart (10 R312). -/
def Basin.elemBad (v : Basin) (r : WhsRec) (status e : Nat) (count : Bool) : Bool × Bool × Bool × Bool :=
  r.spoiled status (v.memPoisoned (r.master + 4 * e) 4) (r.hasM && v.memPoisoned (r.m + 4 * e) 4)
    (r.hasV && v.memPoisoned (r.v + 4 * e) 4) (decide (r.rule = ruleOrtho) && v.memPoisoned (r.aux + 2 * e) 2) count

/-- The touch count of an embedding row: its BA (10 R308). -/
def WhsRec.touchAt (r : WhsRec) (row : Nat) : Nat := r.grad + row * r.gradStride + 2 * r.cols

/-! ### Working copies -/

/-- ⌈log2⌉ of a positive finite magnitude. -/
def ceilLog2 (m : Nat) (e : Int) : Int := (Nat.log2 m : Int) + e + (if 2 ^ Nat.log2 m = m then 0 else 1)

/-- The exponent k of the copy scale (10 R300); 0 where AMAX is no positive number. -/
def copyExp (amax : Nat) : Int :=
  match fp32.decode amax with
  | .fin _ m e => if m = 0 then 0 else ceilLog2 m e - 8
  | _ => 0

/-- 2^k as FP32. -/
def pow2Bits (k : Int) : Nat := fp32.encode (.fin false 1 k)

/-- The state of a chunk's stochastic generator at its start (10 R300). -/
def wcGen (seed : Word) (layer chunk u : Nat) : Word :=
  let x := seed ^^^ (BitVec.ofNat 64 layer * 0x9E3779B97F4A7C15 ^^^
    (BitVec.ofNat 64 chunk * 0xC2B2AE3D27D4EB4F ^^^ BitVec.ofNat 64 u))
  if x = 0 then 1 else x

/-- A working-copy element, and whether it saturates (10 R300). -/
def WhsRec.copyElem (r : WhsRec) (k : Int) (draw : Nat) (w : FVal) : Nat × Bool :=
  if r.wcFmt = 0 then (if r.stoch then bf16.encodeStoch draw w else bf16.encode w, false)
  else
    let x := w.scale (-k)
    (if r.stoch then e4m3.encodeStoch draw x else e4m3.encode x, e4m3.overflows (if r.stoch then some draw else none) x)

/-! ### Passes -/

/-- Words 0 to 3 of a layer's header (10 R309). -/
def Basin.header (v : Basin) (r : WhsRec) (i : Nat) : Nat := v.memNum (r.hdr + 8 * i) 8

/-- The larger of two FP32 magnitudes; a NaN counts as none. -/
def maxMag (a b : Nat) : Nat :=
  let m := b % 2 ^ 31
  if 0x7F800000 < m then a else max a m

/-- The largest master magnitude of a layer (10 R300). -/
def Basin.mastersMax (v : Basin) (r : WhsRec) : Nat :=
  (List.range r.elements).foldl (fun a e => maxMag a (v.memNum (r.master + 4 * e) 4)) 0

/-- Whether a layer's pass first reads its masters: AMAX reads 0 at the first pass after a launch (10 R300). -/
def Basin.scans (v : Basin) (n : Nat) : Bool :=
  let r := v.whsLayer n
  decide (r.wcFmt = 1) && decide (bits (v.header r 1) 63 32 = 0) && !v.whsDone.contains n

/-- The AMAX that a pass's copy scale follows: the header's, or that of the masters (10 R300). -/
def Basin.passAmax (v : Basin) (n : Nat) : Nat :=
  let r := v.whsLayer n
  if v.scans n then v.mastersMax r else bits (v.header r 1) 63 32

/-- The pass of a layer in progress. -/
def State.pass (s : State) (b n : Nat) : Option LayerPass := s.passes.find? fun p => decide (p.basin = b) && decide (p.layer = n)

/-- A layer's pass begins with its first chunk: a FALLBACK counts once (10 R303, R314). -/
def State.openPass (s : State) (b n : Nat) : State :=
  match s.pass b n with
  | some _ => s
  | none =>
    let v := s.basin b
    let r := v.whsLayer n
    let mixes := decide (r.rule = ruleKron) || decide (r.rule = ruleOrtho)
    let s := { s with passes := s.passes ++ [{ basin := b, layer := n, amax := v.passAmax n }] }
    if mixes ∧ 2 ≤ bits (v.header r 0) 1 0 then
      (s.updBasin b fun v => { v with whsFallbacks := satAdd 16 v.whsFallbacks 1 }).count .basin b 9 1
    else s

/-- The state with the pass of a layer changed. -/
def State.updPass (s : State) (b n : Nat) (f : LayerPass → LayerPass) : State :=
  { s with passes := s.passes.map fun p => if p.basin = b ∧ p.layer = n then f p else p }

/-- Writes that an engine makes, where nothing holds them up; where no page is available, the engines' work for the basin stops and the
basin halts (02 R48; 09 R481). The flag tells whether the data is written. -/
def State.engineWrite (s : State) (b : Nat) (ws : List (Nat × List (Byte × Bool))) : State × Bool :=
  match s.storeParts b ws with
  | (s, .ready) => (s, true)
  | (s, .waits) => (s, false)
  | (s, .refused d) =>
    let s := s.updBasin b fun v => { v with whsAborts := satAdd 8 v.whsAborts 1, whsAbortCause := 3 }
    (((s.dropPasses b).count .basin b 10 1).stopForTier b d, false)

/-- An engine makes its basin restart (10 R311, R312). -/
def State.abortPass (s : State) (b cause : Nat) : State :=
  let s := (s.dropPasses b).updBasin b fun v => { v with whsAborts := satAdd 8 v.whsAborts 1, whsAbortCause := cause }
  let s := s.count .basin b 10 1
  if (s.basin b).phase = .running then s.beginRestart b 0 else s

/-- The header that the lead engine writes when the layer's pass ends (10 R300, R301, R309). -/
def Basin.newHeader (v : Basin) (r : WhsRec) (p : LayerPass) (trust : Option (BitVec 32)) : List (Byte × Bool) :=
  let w0 := v.header r 0
  let resets := decide (r.rule = ruleKron) || decide (r.rule = ruleOrtho)
  let scale := if r.wcFmt = 1 then pow2Bits (copyExp p.amax) else fp32.encode (natVal 1)
  let eta := fp32.encode (v.rate r v.stepU)
  let w3 := match trust with | some t => t.toNat * 2 ^ 32 | none => bits (v.header r 3) 63 32 * 2 ^ 32
  (leBytes 8 (if resets then w0 - bits w0 1 0 else w0) ++ leBytes 8 (p.newAmax * 2 ^ 32 + scale) ++
    leBytes 8 (eta * 2 ^ 32 + v.stepU % 2 ^ 32) ++ leBytes 8 w3).map fun x => (x, p.poison)

/-- The AMAX that a pass leaves: the largest master magnitude of the layer, the rows that the pass left alone among them (10 R300, R309;
log 88). -/
def Basin.leftAmax (v : Basin) (r : WhsRec) (p : LayerPass) : Nat := if r.emb then v.mastersMax r else p.newAmax

/-- Ends a layer's pass whose chunks are all done: its header is written, which may have to wait, and the pass ends (10 R300, R301, R309). -/
def State.finishPass (s : State) (b n : Nat) : State :=
  let v := s.basin b
  let r := v.whsLayer n
  match s.pass b n with
  | some p =>
    if p.done.length < r.chunks then s
    else
      let t := (s.trust.find? fun t => decide (t.1 = b) && decide (t.2.1 = n)).map (·.2.2)
      match (if r.hdr = 0 then (s, true) else s.engineWrite b [(r.hdr, v.newHeader r { p with newAmax := v.leftAmax r p } t)]) with
      | (s, false) => s
      | (s, true) =>
        { s with passes := s.passes.filter fun q => !(decide (q.basin = b) && decide (q.layer = n)) }.updBasin b fun v =>
          { v with whsDone := if v.whsDone.contains n then v.whsDone else v.whsDone ++ [n] }
  | none => s

/-- The passes whose headers have waited, and whose lead engine this one is, are tried again (10 R299, R301). -/
def State.finishPasses (s : State) (n : Nat) : State :=
  s.passes.foldl (fun s p =>
    if s.engineOf p.basin ((s.basin p.basin).whsLayer p.layer) 0 = n then s.finishPass p.basin p.layer else s) s

/-- A chunk of a layer's pass is done; with the last one the pass ends. -/
def State.endChunk (s : State) (b n c : Nat) : State := (s.updPass b n fun p => { p with done := p.done ++ [c] }).finishPass b n

/-- The outputs of a chunk, tensor by tensor (10 R299 to R301), with whether any is poisoned, how many copy elements saturate,
and the largest new master magnitude. -/
structure ChunkOut where
  writes : List (Nat × List (Byte × Bool))
  poison : Bool
  sat : Nat
  amax : Nat

/-- A computed element: the new w, m, v and x, which of them are poisoned, and its working-copy element. -/
abbrev WhsOut := (FVal × FVal × FVal × FVal) × (Bool × Bool × Bool × Bool) × (Nat × Bool)

/-- The bytes of a tensor that a chunk writes: `w` bytes an element, from element `e0` on. -/
def chunkTensor (es : List WhsOut) (e0 ba w : Nat) (f : WhsOut → Nat × Bool) : Nat × List (Byte × Bool) :=
  (ba + w * e0, es.flatMap fun e => (leBytes w (f e).1).map fun x => (x, (f e).2))

/-- What a chunk's elements share: its layer's entry, STATUS, trust ratio and update number, and the symbols for them (10 R298). -/
structure ChunkCtx where
  r : WhsRec
  status : Nat
  trust : FVal
  u : Nat
  co : Coefs

/-- The row count of an embedding chunk after its increment (10 R308). -/
def Basin.rowCount (v : Basin) (r : WhsRec) (row : Nat) : Nat := min (2 ^ 32 - 1) (v.memNum (r.aux + 4 * row) 4 + 1)

/-- The context of a chunk (10 R298, R299, R308). -/
def State.chunkCtx (s : State) (v : Basin) (k : Chunk) : ChunkCtx :=
  let r := v.whsLayer k.layer
  let u := if r.emb then v.rowCount r k.chunk else v.stepU
  { r := r, status := headerStatus (bits (v.header r 0) 1 0), u := u, co := v.coefs r u
    trust := match s.trust.find? fun t => decide (t.1 = k.basin) && decide (t.2.1 = k.layer) with
      | some t => fp32.decode t.2.2.toNat
      | none => natVal 1 }

/-- The update of element `e` of a chunk. -/
def ChunkCtx.forms (c : ChunkCtx) (v : Basin) (e : Nat) : Forms := c.r.update c.co c.status c.trust (v.whsElem c.r e)

/-- The elements of a chunk after the update (10 R298 to R301, R312). -/
def Basin.chunkElemsOut (v : Basin) (c : ChunkCtx) (k : Chunk) (p : LayerPass) : List WhsOut :=
  let x := c.r.chunkElems k.chunk
  let ce := copyExp p.amax
  let seed := match v.img with | some m => BitVec.ofNat 64 (wordAt m.whsHeader 0) | none => 0
  let gen := wcGen seed k.layer k.chunk c.u
  let cntBad := c.r.emb && v.memPoisoned (c.r.aux + 4 * k.chunk) 4
  (List.range x.2).map fun i =>
    let out := (c.forms v (x.1 + i)).values (v.whsElem c.r (x.1 + i))
    let bad := v.elemBad c.r c.status (x.1 + i) cntBad
    (out, if p.poison then (true, true, true, true) else bad, c.r.copyElem ce (genDraw (genAfter gen (i + 1))) out.1)

/-- Computes a chunk (10 R298 to R301, R308, R312). -/
def Basin.computeChunk (v : Basin) (c : ChunkCtx) (k : Chunk) (p : LayerPass) : ChunkOut :=
  let r := c.r
  let es := v.chunkElemsOut c k p
  let e0 := (r.chunkElems k.chunk).1
  let f32 := fun (val : WhsOut → FVal) (bad : WhsOut → Bool) (o : WhsOut) => (fp32.encode (val o), bad o)
  { writes := [chunkTensor es e0 r.master 4 (f32 (·.1.1) (·.2.1.1))] ++
      (if r.hasM then [chunkTensor es e0 r.m 4 (f32 (·.1.2.1) (·.2.1.2.1))] else []) ++
      (if r.hasV then [chunkTensor es e0 r.v 4 (f32 (·.1.2.2.1) (·.2.1.2.2.1))] else []) ++
      (if r.rule = ruleOrtho then [chunkTensor es e0 r.aux 2 fun o => (bf16.encode o.1.2.2.2, o.2.1.2.2.2)] else []) ++
      (if r.wcFmt = 2 then [] else [chunkTensor es e0 r.wc r.wcBytes fun o => (o.2.2.1, o.2.1.1)]) ++
      (if r.emb then
        [(r.aux + 4 * k.chunk, (leBytes 4 c.u).map fun y => (y, v.memPoisoned (r.aux + 4 * k.chunk) 4))]
       else [])
    poison := es.any fun e => e.2.1.1 || e.2.1.2.1 || e.2.1.2.2.1 || e.2.1.2.2.2
    sat := (es.filter fun e => e.2.2.2).length
    amax := es.foldl (fun a e => maxMag a (fp32.encode e.1.1)) 0 }

/-- Whether a chunk is an embedding row that the step has not touched: its touch count reads zero (10 R308). -/
def Basin.untouched (v : Basin) (r : WhsRec) (chunk : Nat) : Bool :=
  r.emb && !v.memPoisoned (r.touchAt chunk) 2 && decide (v.memNum (r.touchAt chunk) 2 % 2 ^ 15 = 0)

/-- The memory that a chunk's computation reads, as (BA, bytes): of an untouched row the block of the touch count alone; with the first
chunk of a pass that scans them, the layer's masters (10 R299, R300, R308, R310). -/
def State.chunkInputs (s : State) (k : Chunk) : List (Nat × Nat) :=
  let v := s.basin k.basin
  let r := v.whsLayer k.layer
  let (e0, n) := r.chunkElems k.chunk
  let first := match s.pass k.basin k.layer with | some p => p.done.isEmpty | none => true
  (if first && !k.norm && v.scans k.layer then [(r.master, 4 * r.elements)] else []) ++
  if v.untouched r k.chunk then [(r.touchAt k.chunk / 64 * 64, 64)]
  else
    [(r.master + 4 * e0, 4 * n), (r.gradAt e0, if r.emb then r.gradStride else 2 * n)] ++
    (if r.hasM then [(r.m + 4 * e0, 4 * n)] else []) ++ (if r.hasV then [(r.v + 4 * e0, 4 * n)] else []) ++
    (if r.rule = ruleOrtho then [(r.aux + 2 * e0, 2 * n)] else if r.emb then [(r.aux + 4 * k.chunk, 4)] else [])

/-- The norms of a TRUST_ADAMW chunk, in FP64 in ascending element order (10 R299). -/
def Basin.chunkNorms (v : Basin) (c : ChunkCtx) (k : Chunk) : NormSum :=
  let x := c.r.chunkElems k.chunk
  let es := (List.range x.2).map fun i => v.whsElem c.r (x.1 + i)
  let sum := fun (f : Elem → FVal) => es.foldl (fun a e => dAdd a (dMul (f e) (f e))) (natVal 0)
  { basin := k.basin, layer := k.layer, chunk := k.chunk, w2 := BitVec.ofNat 64 (fp64.encode (sum fun e => e.w)),
    q2 := BitVec.ofNat 64 (fp64.encode (sum fun e => c.co.adamQ e)),
    poison := (List.range x.2).any fun i => (v.elemBad c.r c.status (x.1 + i) false).1 }

/-- Takes a chunk off an engine's queue. -/
def State.takeChunk (s : State) (n : Nat) (k : Chunk) : State :=
  s.updEngine n fun e => { e with queue := e.queue.erase k, turn := k.basin }

/-- Whether the gradient of a chunk, or a row's touch count, is poisoned (10 R312). -/
def Basin.gradBad (v : Basin) (r : WhsRec) (k : Chunk) : Bool :=
  let x := r.chunkElems k.chunk
  if v.untouched r k.chunk then false else v.memPoisoned (r.gradAt x.1) (if r.emb then 2 * x.2 + 2 else 2 * x.2)

/-- An engine writes a chunk of an update phase, computed from the inputs that `v` holds (10 R300, R308, R312, R314). -/
def State.updateChunk (s : State) (n : Nat) (k : Chunk) (v : Basin) : State :=
  let b := k.basin
  let s := s.openPass b k.layer
  let c := s.chunkCtx v k
  if v.untouched c.r k.chunk then (s.takeChunk n k).endChunk b k.layer k.chunk
  else
    match s.pass b k.layer with
    | none => s
    | some p =>
      let o := v.computeChunk c k p
      match s.engineWrite b o.writes with
      | (s, false) => s
      | (s, true) =>
        let s := (s.takeChunk n k).count .memp n 11 (c.r.chunkElems k.chunk).2
        let s := s.updBasin b fun v => { v with
          whsWcSat := satAdd 16 v.whsWcSat o.sat, whsPoison := satAdd 8 v.whsPoison (if o.poison then 1 else 0) }
        (s.updPass b k.layer fun p => { p with newAmax := max p.newAmax o.amax }).endChunk b k.layer k.chunk

/-- Whether an update chunk waits for its layer's trust ratio (10 R294). -/
def State.chunkWaits (s : State) (k : Chunk) : Bool :=
  !k.norm && decide (((s.basin k.basin).whsLayer k.layer).rule = ruleTrust) &&
    !(s.trust.any fun t => decide (t.1 = k.basin) && decide (t.2.1 = k.layer))

/-- The order of chunks of one basin: norm phases first, then layers and chunks ascending (10 R294). -/
def Chunk.before (a b : Chunk) : Bool :=
  (a.norm && !b.norm) || ((a.norm == b.norm) &&
    (decide (a.layer < b.layer) || (decide (a.layer = b.layer) && decide (a.chunk < b.chunk))))

/-- A basin's next chunk at an engine. -/
def nextOf (q : List Chunk) (b : Nat) : Option Chunk :=
  (q.filter fun k => decide (k.basin = b)).foldl (fun best k =>
    match best with
    | some m => if k.before m then some k else best
    | none => some k) none

/-- The engine's next chunk: one from each basin in turn, in ascending number, of those that wait for nothing (10 R295). -/
def State.nextChunk (s : State) (n : Nat) : Option Chunk :=
  let e := s.engine n
  ((List.range 64).map fun i => (e.turn + 1 + i) % 64).findSome? fun b =>
    match nextOf e.queue b with
    | some k => if s.chunkWaits k then none else some k
    | none => none

/-- An engine whose repeat fails enters FENCED; every basin whose pass it held restarts, and its chunks move (10 R292, R311; 14
R404, R407, R409). -/
def State.fenceEngine (s : State) (n : Nat) (k : Chunk) (cause : Nat) : State :=
  let held := (((s.engine n).queue.map fun c => c.basin) ++ [k.basin]).dedup
  let s := s.updEngine n fun e => { e with st := .fenced, cause := cause }
  let s := s.report { event := 0x09, kind := 3, cls := 1, action := 3, basin := some k.basin, index := n,
                      addr := k.layer * 2 ^ 32 + k.chunk, detail := cause }
  let full := decide (1024 ≤ s.rel.fenceTable.length)
  let s := { s with rel := { s.rel with
    fenceTable := if full then s.rel.fenceTable else s.rel.fenceTable ++ [(3, n)]
    fencedNoEntry := if full then s.rel.fencedNoEntry ++ [(3, n)] else s.rel.fencedNoEntry } }
  let s := s.report { event := 0x10, kind := 3, cls := 1, action := 3, index := n, detail := if full then 1 else 0 }
  (held.foldl (fun s b => s.abortPass b 1) s).moveChunks n

/-- What a chunk whose results agree does (10 R299, R312); `v` holds the inputs as they have arrived. -/
def State.runChunk (s : State) (n : Nat) (k : Chunk) (v : Basin) : State :=
  if v.gradBad (v.whsLayer k.layer) k then s.abortPass k.basin 2
  else if k.norm then { s.takeChunk n k with norms := s.norms ++ [v.chunkNorms (s.chunkCtx v k) k] }
  else s.updateChunk n k v

/-- Whether a residue check catches a fault in the computation of a chunk (05 R166; 10 R311). The fault's operation 4·i + j is output j of
w, m, v and x of the chunk's element i: its last product and sum. -/
def State.chunkCaught (s : State) (k : Chunk) (v : Basin) (u : Upset) : Bool :=
  let c := s.chunkCtx v k
  let x := c.r.chunkElems k.chunk
  let f := c.forms v (x.1 + u.index / 4)
  decide (u.index / 4 < x.2) &&
    match [f.w, f.m, f.v, f.x].getD (u.index % 4) none with
    | some f => upsetCaught u f.steps
    | none => false

/-- Whether a chunk's outputs can be written now: pages are made ready, and a stack that serves nothing holds it up (09 R270, R271, R280,
R481). Where no page is available the write itself stops the basin. -/
def State.outputsReady (s : State) (k : Chunk) : State × Bool :=
  let v := s.basin k.basin
  let r := v.whsLayer k.layer
  let x := r.chunkElems k.chunk
  if k.norm || v.untouched r k.chunk then (s, true)
  else
    let outs := [(r.master + 4 * x.1, 4 * x.2)] ++ (if r.hasM then [(r.m + 4 * x.1, 4 * x.2)] else []) ++
      (if r.hasV then [(r.v + 4 * x.1, 4 * x.2)] else []) ++ (if r.wcFmt = 2 then [] else [(r.wc + r.wcBytes * x.1, r.wcBytes * x.2)]) ++
      (if r.rule = ruleOrtho then [(r.aux + 2 * x.1, 2 * x.2)] else if r.emb then [(r.aux + 4 * k.chunk, 4)] else [])
    match s.prepPages k.basin (outs.flatMap fun o => span pageBytes o.1 o.2).dedup with
    | (s, .ready) => (s, !outs.any fun o => s.writeHeld k.basin o.1 o.2)
    | (s, .waits) => (s, false)
    | (_, .refused _) => (s, true)

/-- A chunk whose inputs can be read and whose outputs can be written is computed, and after a first failure read and computed again
(10 R311; 14 R403). The blocks of `env` count on through the second reading. -/
def State.computeAt (s : State) (n : Nat) (k : Chunk) (firstFails repeatFails : Bool) (fault : Option Upset) (env : ReadEnv) : State :=
  let blks := ((s.chunkInputs k).flatMap fun y => span 64 y.1 y.2).dedup
  let r := (s.useAnswers k.basin blks).readMet k.basin (if firstFails then blks ++ blks else blks) env
  let s := r.1
  let got := fun (i : Nat) => if firstFails then (if i < blks.length then none else blks[i - blks.length]?) else blks[i]?
  let v := (s.basin k.basin).poison ((readFailed env).filterMap got)
  if !firstFails then s.runChunk n k v
  else
    let s := (s.updEngine n fun e => { e with
      retries := satAdd 16 e.retries 1, lastValid := true, lastBasin := k.basin, lastLayer := k.layer,
      lastChunk := k.chunk }).count .memp n 12 1
    let caught := match fault with | some u => s.chunkCaught k v u | none => false
    if caught || repeatFails then s.fenceEngine n k (if caught then 2 else 1)
    else
      (s.report { event := 0x09, kind := 3, cls := 0, basin := some k.basin, index := n,
                  addr := k.layer * 2 ^ 32 + k.chunk }).runChunk n k v

/-- WHETSTONE_CHUNK (10 R294, R295, R297, R311, R312; 14 R403): an engine takes its next chunk. `firstFails` and `repeatFails` say whether
the two results of the first computation and of the repeat differ; a residue check may catch a fault in the repeat (log 17). -/
def execWhetstoneChunk (n : Nat) (firstFails repeatFails : Bool) (e : ChunkEvents) (s : State) : Out State :=
  .next (if (s.engine n).st ≠ .active ∨ s.power.clocksStopped then s
    else
      let s := s.finishPasses n
      match s.nextChunk n with
      | none => s
      | some k =>
        if (s.basin k.basin).phase ≠ .running then s.takeChunk n k
        else
          match s.readReady k.basin (s.chunkInputs k) with
          | (s, false) => s
          | (s, true) =>
            match s.outputsReady k with
            | (s, false) => s
            | (s, true) => s.computeAt n k firstFails repeatFails e.fault e.env)

/-- r of a layer from its chunks' norms in ascending chunk order (10 R299). -/
def trustRatio (trMax : FVal) (ns : List NormSum) : FVal :=
  let sum := fun (f : NormSum → BitVec 64) => ns.foldl (fun a x => dAdd a (fp64.decode (f x).toNat)) (natVal 0)
  let w := (sum fun x => x.w2).sqrt.toFp64
  let q := (sum fun x => x.q2).sqrt.toFp64
  let zero := fun (x : FVal) => match x with | .fin _ m _ => decide (m = 0) | _ => false
  if zero w || zero q then natVal 1
  else
    let d := dDiv w q
    (if FVal.lt trMax d then trMax else d).toFp32

/-- The norms of a layer in ascending chunk order. -/
def State.layerNorms (s : State) (b n count : Nat) : List NormSum :=
  (List.range count).filterMap fun c =>
    s.norms.find? fun x => decide (x.basin = b) && decide (x.layer = n) && decide (x.chunk = c)

/-- TRUST_NORM_COMBINE (10 R299, R312): once every chunk of a layer has given its norms, the lead engine forms r. -/
def execTrustNormCombine (b n : Nat) (s : State) : Out State :=
  let r := (s.basin b).whsLayer n
  let ns := s.layerNorms b n r.chunks
  .next (if r.rule = ruleTrust ∧ r.chunks ≠ 0 ∧ ns.length = r.chunks ∧
      !(s.trust.any fun t => decide (t.1 = b) && decide (t.2.1 = n)) then
    let v := trustRatio (fp32.decode r.auxF) ns
    let s := { s with
      trust := s.trust ++ [(b, n, BitVec.ofNat 32 (fp32.encode v))]
      norms := s.norms.filter fun x => !(decide (x.basin = b) && decide (x.layer = n)) }
    if ns.any (·.poison) then (s.openPass b n).updPass b n fun p => { p with poison := true } else s
  else s)

end Sys2Proof.Machine
end

