-- ==== Sys2Proof/Machine/Ethernet.lean ====
section
/-! DEFINITION. Ethernet lane groups (12 R345 to R347, R353), the RoCEv2 transport (R350 to R352, R358), Zynwin links (R348,
R349), queue pairs' register writes (R352, R362) and the end of a collective (R355 to R357). -/

namespace Sys2Proof.Machine

/-! ### Lane groups -/

/-- Whether a queue pair that names one of two groups is in RTS (12 R345). -/
def State.groupBusy (s : State) (n : Nat) : Bool :=
  s.qps.any fun e => decide (e.2.st = .rts) && (e.2.groups.getLsbD n || e.2.groups.getLsbD (n ^^^ 1))

/-- Starts the recalibration of a group, unless any other group recalibrates (12 R347). -/
def State.startRecal (s : State) (n : Nat) : State :=
  if s.eth.any fun e => decide (e.1 ≠ n) && e.2.recalBusy then s else s.updGroup n fun g => { g with recalBusy := true }

/-- The groups of the port that a group belongs to (12 R345, PAIR800). -/
def State.portGroups (s : State) (n : Nat) : List Nat :=
  if (s.group (n / 2 * 2)).pair800 then [n / 2 * 2, n / 2 * 2 + 1] else [n]

/-- A group whose link goes down. -/
def EthGroup.down (g : EthGroup) : EthGroup :=
  { g with link := false, zynRetraining := false, rxWait := [], rxBuf := [], pauseSent := 0, paused := 0 }

/-- A group's MODE and PAIR800 change: the links of the ports before and after go down until they are negotiated again (log 26), and
the group's domain follows its MODE (12 R345; 13 R370). -/
def State.setMode (s : State) (n m : Nat) (pair : Bool) : State :=
  let old := s.portGroups n
  let s := s.updGroup n fun g => { g with mode := m, pair800 := pair }
  ((old ++ s.portGroups n).foldl (fun s k => s.updGroup k EthGroup.down) s).ethDomain n

/-- ETH_GROUP_CTRL_WRITE (12 R345, R347, R361): MODE and PAIR800 change only while no queue pair that names the group or the
other of its pair is in RTS. -/
def execEthGroupCtrlWrite (n : Nat) (w : BitVec 32) (s : State) : Out State :=
  .next (s.fromHost fun s =>
    if 4 ≤ n then s
    else
      let v := w.toNat
      let g := s.group n
      let pair := bit v 3 && decide (n % 2 = 0)
      let change := decide (bits v 1 0 ≠ g.mode) || decide (pair ≠ g.pair800)
      let s := s.updGroup n fun g => { g with xoff := bits v 23 16, ecnEn := bit v 13, pfcEn := BitVec.ofNat 8 (bits v 11 4) }
      let s := if change && !s.groupBusy n then s.setMode n (bits v 1 0) pair else s
      if bit v 12 then s.startRecal n else s)

/-- RECAL (12 R347). -/
def execRecal (n : Nat) (s : State) : Out State :=
  .next (s.fromHost fun s => if 4 ≤ n then s else s.startRecal n)

/-- ETH_LINK_NEGOTIATION (12 R346): the link of a group that is on comes up, or stays down. -/
def execEthLinkNegotiation (n : Nat) (supported : Bool) (s : State) : Out State :=
  let m := (s.group n).mode
  .next (if n < 4 ∧ (m = 1 ∨ m = 2) then
    ((s.portGroups n).foldl (fun s g => s.updGroup g fun e =>
      if e.link then e else { e with link := supported, zynRx := 0, zynNext := 0, zynTx := [], zynReplays := 0,
                                     zynRetraining := false, zynRetrains := 0 }) s).flushAll
  else s)

/-- ETH_LINK_LOSS (12 R346, R361): LINK reads 0. -/
def execEthLinkLoss (n : Nat) (s : State) : Out State :=
  .next (if n < 4 then s.updGroup n EthGroup.down else s)

/-- A command that reaches a group which recalibrates waits for the end of the recalibration (12 R347). -/
def State.orWait (s : State) (n : Nat) (c : Instr) (f : State → State) : State :=
  if (s.group n).recalBusy then s.updGroup n fun g => { g with rxWait := g.rxWait ++ [c] } else f s

/-- PAUSE_FRAME_RX (12 R353): a received pause frame is honoured on the priorities in PFC_EN. -/
def execPauseFrameRx (n prio : Nat) (pause : Bool) (s : State) : Out State :=
  let g := s.group n
  .next (if n < 4 ∧ g.mode = 1 ∧ g.link ∧ g.pfcEn.getLsbD prio then
    s.orWait n (.pauseFrameRx n prio pause) fun s =>
      (s.updGroup n fun g => { g with paused := setBit g.paused prio pause }).flushAll
  else s)

/-- A frame that a group drops (12 R350). -/
def State.dropFrame (s : State) (n : Nat) : State :=
  if (s.group n).mode = 1 then s.updGroup n fun g => { g with dropped := satAdd 16 g.dropped 1 } else s

/-- FRAME_DROPPED (12 R350). -/
def execFrameDropped (n : Nat) (s : State) : Out State :=
  .next (if n < 4 ∧ (s.group n).link then s.dropFrame n else s)

/-! ### Receiving -/

/-- Whether `n` is the number of one of the device's queue pairs (12 R350). -/
def isQpn (n : Nat) : Bool := decide (256 ≤ n) && decide (n < 256 + 32 * 63)

/-- Bytes with the poison of the blocks that a list names. -/
def withPoison (bs : List Byte) (blks : List Nat) : List (Byte × Bool) :=
  bs.zipIdx.map fun e => (e.1, blks.contains (e.2 / 64))

/-- The blocks that an immediate marks: both of each pair (12 R358). -/
def immBlocks (m : BitVec 32) : List Nat := (List.range 64).filter fun i => m.getLsbD (i / 2)

/-- A payload that a queue pair accepts from a group: it enters the receive log of the set's basin, whose collectives go on (12 R351,
R359); while the log lacks a frame for it, it takes its priority's share of the receive buffer (R353). -/
def State.acceptPayload (s : State) (g qpn : Nat) (bs : List (Byte × Bool)) : State :=
  match s.qsetOwner (qsetOf qpn) with
  | some b =>
    let s := (s.logPayload b qpn bs).updGroup g fun e => { e with rxBuf := e.rxBuf ++ [(b, (s.qp qpn).prio, bs.length)] }
    (s.drainGroup g).runColls b
  | none => s

/-- Whether a group's receive buffer of 4 MiB has room for a payload (12 R353). -/
def EthGroup.hasRoom (g : EthGroup) (n : Nat) : Bool := decide ((g.rxBuf.map fun e => e.2.2).sum + n ≤ 4194304)

/-- Whether PSN `p` lies `k` to 2^23 − 1 past `q`, modulo 2^24. -/
def psnAhead (p q : Nat) : Bool := decide ((p + 2 ^ 24 - q) % 2 ^ 24 < 2 ^ 23)

/-- Answers a CE-marked packet with a congestion notification, at most one per queue pair per 50 µs (12 R353). -/
def State.answerCe (s : State) (g qpn : Nat) (ce : Bool) : State :=
  let q := s.qp qpn
  if ce && (s.group g).ecnEn && (match q.cnpAt with | some t => decide (t + 50 ≤ s.usec) | none => true) then
    (s.updQp qpn fun q => { q with cnpAt := some s.usec }).emit (.ethCnp qpn)
  else s

/-- A RoCEv2 write packet that reaches a group (12 R350, R351, R358). One that finds the receive buffer full is lost, and its sender
repeats it (R351, R353; DEDUCED, log 92). -/
def State.receivePacket (s : State) (p : RdmaPkt) (imm : Option (BitVec 32)) : State :=
  let q := s.qp p.qpn
  if !isQpn p.qpn || decide (q.st ≠ .rts) || !q.groups.getLsbD p.group then s.dropFrame p.group
  else if !(s.group p.group).hasRoom p.payload.length then s
  else
    let s := (s.count .eth p.group 1 p.payload.length).count .eth p.group 3 1
    let s := s.answerCe p.group p.qpn p.ce
    if p.psn = q.rxNext then
      if p.rkey ≠ q.localRkey ∨ Config.recvRegion p.qpn < p.offset + p.payload.length then s.emit (.ethNakAccess p.qpn p.psn)
      else
        let s := (s.updQp p.qpn fun q => { q with rxNext := (q.rxNext + 1) % 2 ^ 24 }).emit (.ethAck p.qpn p.psn)
        s.acceptPayload p.group p.qpn (withPoison p.payload (match imm with | some m => immBlocks m | none => []))
    else if psnAhead p.psn q.rxNext then s.emit (.ethNakSeq p.qpn q.rxNext)
    else s.emit (.ethAck p.qpn p.psn)

/-- A packet at a group: in Ethernet mode with its link up; it waits while the group recalibrates (12 R345, R347). -/
def State.packetAt (s : State) (p : RdmaPkt) (imm : Option (BitVec 32)) : State :=
  let g := s.group p.group
  if 4 ≤ p.group ∨ g.mode ≠ 1 ∨ !g.link then s
  else s.orWait p.group (match imm with | some m => .rdmaWriteImm p m | none => .rdmaWrite p) fun s => s.receivePacket p imm

/-- RDMA_WRITE (12 R351). -/
def execRdmaWrite (p : RdmaPkt) (s : State) : Out State := .next (s.packetAt p none)

/-- RDMA_WRITE_IMM (12 R358). -/
def execRdmaWriteImm (p : RdmaPkt) (imm : BitVec 32) (s : State) : Out State := .next (s.packetAt p (some imm))

/-! ### Acknowledgements -/

/-- The state where a queue pair accepts an answer: it is in RTS over Ethernet; another frame is dropped (12 R350, R352). `f` runs where
its group does not recalibrate; `c` waits where it does (R347). Answers come on the lowest group of GROUPS (DESIGN CHOICE, log 92: the
command names none). -/
def State.answer (s : State) (qpn : Nat) (c : Instr) (f : State → State) : State :=
  let q := s.qp qpn
  match q.groupList with
  | g :: _ =>
    s.orWait g c fun s =>
      if !isQpn qpn || decide (q.st ≠ .rts) then s.dropFrame g else if s.zynwin q then s else f s
  | [] => s

/-- A queue pair after the packets before `psn` are acknowledged. -/
def Qp.retire (q : Qp) (psn : Nat) : Qp :=
  let left := q.unacked.dropWhile fun e => decide (e.1 ≠ psn)
  { q with unacked := left, heldTx := q.heldTx.filter fun e => left.any fun f => decide (f.1 = e.1),
           retries := if left.length < q.unacked.length then 0 else q.retries }

/-- ACK (12 R351): packets up to the PSN are retired; a PSN that is not outstanding retires nothing. -/
def execAck (qpn psn : Nat) (s : State) : Out State :=
  .next (s.answer qpn (.ack qpn psn) fun s =>
    if (s.qp qpn).unacked.any fun e => decide (e.1 = psn) then s.updQp qpn fun q => q.retire ((psn + 1) % 2 ^ 24) else s)

/-- Go-back-N from the first unacknowledged PSN, at most RETRY_CNT times (12 R351). -/
def State.goBackN (s : State) (qpn : Nat) : State :=
  let q := s.qp qpn
  if q.unacked = [] then s
  else if q.retryCnt ≤ q.retries then s.qpError qpn 1
  else
    let n := q.unacked.length - q.heldTx.length
    let s := s.updQp qpn fun q => { q with heldTx := q.unacked, retries := q.retries + 1, retrans := satAdd 32 q.retrans n }
    let s := match q.groupList with
      | g :: _ => s.count .eth g 6 n
      | [] => s
    s.flushAll

/-- PSN_SEQUENCE_NAK (12 R351, R362): the packets before the PSN are acknowledged, and the rest sent again; a PSN that was
never sent is unrecoverable. -/
def execPsnSequenceNak (qpn psn : Nat) (s : State) : Out State :=
  .next (s.answer qpn (.psnSequenceNak qpn psn) fun s =>
    let q := s.qp qpn
    if (q.unacked.any fun e => decide (e.1 = psn)) || decide (psn = q.txNext) then
      (s.updQp qpn fun q => q.retire psn).goBackN qpn
    else s.qpError qpn 3)

/-- REMOTE_ACCESS_NAK (12 R352, R362). -/
def execRemoteAccessNak (qpn : Nat) (s : State) : Out State := .next (s.answer qpn (.remoteAccessNak qpn) fun s => s.qpError qpn 2)

/-- ACK_TIMEOUT (12 R351): the command marks that ACK_TIMEOUT_MS have passed for a queue pair in RTS over Ethernet. -/
def execAckTimeout (qpn : Nat) (s : State) : Out State :=
  let q := s.qp qpn
  .next (if !isQpn qpn || decide (q.st ≠ .rts) || s.zynwin q then s else s.goBackN qpn)

/-- CNP_RX (12 R353, R362): the send rate halves, at most once per 50 µs; the rate reads in whole percent, at least 1
(log 26). -/
def execCnpRx (qpn : Nat) (s : State) : Out State :=
  .next (s.answer qpn (.cnpRx qpn) fun s =>
    let q := s.qp qpn
    let s := s.updQp qpn fun q => { q with cnpRx := satAdd 16 q.cnpRx 1 }
    let s := match q.groupList with
      | g :: _ => s.count .eth g 5 1
      | [] => s
    if (q.groupList.any fun g => (s.group g).ecnEn) && (match q.cutAt with | some t => decide (t + 50 ≤ s.usec) | none => true) then
      s.updQp qpn fun q => { q with cutAt := some s.usec, ratePct := max 1 (q.ratePct / 2) }
    else s)

/-- RATE_INCREASE (12 R353): the command marks that 55 µs have passed without a notification. -/
def execRateIncrease (qpn : Nat) (s : State) : Out State :=
  .next (if isQpn qpn then s.updQp qpn fun q => { q with ratePct := min 100 (q.ratePct + 5) } else s)

/-! ### Zynwin -/

/-- A queue pair's frames that have arrived, taken in the order of its rotation over its groups (12 R349). -/
def takeStriped (qpn : Nat) : Nat → State → State
  | 0, s => s
  | fuel + 1, s =>
    let q := s.qp qpn
    match q.groupFor q.rxNext with
    | none => s
    | some g =>
      match q.rxHeld.find? fun e => decide (e.1 = g) with
      | none => s
      | some e =>
        takeStriped qpn fuel ((s.updQp qpn fun q => { q with rxHeld := q.rxHeld.erase e, rxNext := (q.rxNext + 1) % 2 ^ 24 }
          ).acceptPayload g qpn e.2)

/-- A Zynwin frame that its link accepts or answers with a replay request (12 R348). -/
def State.receiveFrame (s : State) (f : ZynFrame) : State :=
  let g := s.group f.group
  if !f.crcOk || decide (g.zynRx < f.seq) then s.emit (.zynReplay f.group g.zynRx)
  else if f.seq < g.zynRx then s
  else
    let s := ((s.updGroup f.group fun g => { g with zynRx := g.zynRx + 1 }).count .eth f.group 1 f.payload.length).count
      .eth f.group 3 1
    let q := s.qp f.qpn
    if !isQpn f.qpn || decide (q.st ≠ .rts) || !q.groups.getLsbD f.group then s
    else
      let s := s.updQp f.qpn fun q => { q with rxHeld := q.rxHeld ++ [(f.group, withPoison f.payload f.poison)] }
      takeStriped f.qpn (s.qp f.qpn).rxHeld.length s

/-- ZYNWIN_FRAME_RX (12 R348): it waits while the group recalibrates (R347). -/
def execZynwinFrameRx (f : ZynFrame) (s : State) : Out State :=
  let g := s.group f.group
  .next (if 4 ≤ f.group ∨ g.mode ≠ 2 ∨ !g.link ∨ g.zynRetraining then s
  else s.orWait f.group (.zynwinFrameRx f) fun s => s.receiveFrame f)

/-- ZYNWIN_REPLAY_REQUEST (12 R348): the frames from `seq` on are sent again, oldest first; after the eighth replay of a frame in
succession the link retrains. -/
def execZynwinReplayRequest (n seq : Nat) (s : State) : Out State :=
  let g := s.group n
  .next (if 4 ≤ n ∨ g.mode ≠ 2 ∨ !g.link ∨ g.zynRetraining then s
  else s.orWait n (.zynwinReplayRequest n seq) fun s =>
    let again := (g.zynTx.filter fun e => decide (seq ≤ e.1)).reverse
    let k := if seq = g.zynAsked then g.zynReplays + 1 else 1
    let s := again.foldl (fun s e => (s.count .eth n 6 1).emit (.zynFrame n e.1 e.2.1 e.2.2.1 e.2.2.2)) s
    s.updGroup n fun g => { g with
      zynAsked := seq, zynReplays := if k < 8 then k else 0, zynRetraining := decide (8 ≤ k) })

/-- ZYNWIN_RETRAIN_END (12 R348): a retraining ends; after three failures in succession the link goes down, and the queue pairs
that use it enter ERROR. -/
def execZynwinRetrainEnd (n : Nat) (ok : Bool) (s : State) : Out State :=
  let g := s.group n
  .next (if !g.zynRetraining then s
  else if ok then (s.updGroup n fun g => { g with zynRetraining := false, zynRetrains := 0 }).flushAll
  else if g.zynRetrains + 1 < 3 then s.updGroup n fun g => { g with zynRetrains := g.zynRetrains + 1 }
  else
    let s := s.updGroup n fun g => { g with zynRetrains := 0 }.down
    s.qps.foldl (fun s e => if e.2.groups.getLsbD n && decide (e.2.st = .rts) then s.qpError e.1 4 else s) s)

/-- What has waited for the end of a recalibration arrives (12 R347). -/
def arriveLate (c : Instr) (s : State) : Out State :=
  match c with
  | .rdmaWrite p => execRdmaWrite p s
  | .rdmaWriteImm p m => execRdmaWriteImm p m s
  | .zynwinFrameRx f => execZynwinFrameRx f s
  | .zynwinReplayRequest n q => execZynwinReplayRequest n q s
  | .pauseFrameRx n prio p => execPauseFrameRx n prio p s
  | .ack q p => execAck q p s
  | .psnSequenceNak q p => execPsnSequenceNak q p s
  | .remoteAccessNak q => execRemoteAccessNak q s
  | .cnpRx q => execCnpRx q s
  | _ => .next s

/-- RECAL_DONE (12 R347): the group carries traffic again, what waited first. -/
def execRecalDone (n : Nat) (s : State) : Out State :=
  let g := s.group n
  .next (if g.recalBusy then
    let s := s.updGroup n fun g => { g with recalBusy := false, rxWait := [] }
    (g.rxWait.foldl (fun s c => match arriveLate c s with | .next t => t | _ => s) s).flushAll
  else s)

/-! ### Queue pairs -/

/-- A queue pair in RESET (12 R352). -/
def Qp.reset (q : Qp) : Qp :=
  { q with st := .reset, errCause := 0, unacked := [], heldTx := [], rxHeld := [], retries := 0 }

/-- A queue pair in RTS with the PSNs of word 6 (12 R352, R362). -/
def Qp.ready (q : Qp) : Qp := { q.reset with st := .rts, rxNext := q.rxPsn, txNext := q.txPsn }

/-- ETH_QP word 0 after a write that covers some of its fields (12 R362). -/
def Qp.writeCtrl (q : Qp) (a : RegAcc) : Qp :=
  let q := { q with
    ackTimeout := a.rw 47 32 q.ackTimeout, retryCnt := a.rw 30 28 q.retryCnt, dscp := a.rw 17 12 q.dscp, prio := a.rw 11 9 q.prio
    ipv6 := decide (a.rw 8 8 (flagValue q.ipv6) = 1), groups := BitVec.ofNat 4 (a.rw 7 4 q.groups.toNat) }
  if !a.covers 0 0 then q else if !bit a.val 0 then q.reset else if q.st = .rts then q else q.ready

/-- Whether host software may write a queue pair: its basin is not RUNNING (12 R352, R362). -/
def State.qpClosed (s : State) (set : Nat) : Option Nat :=
  match s.qsetOwner set with
  | some b => if (s.basin b).phase = .running then some b else none
  | none => none

/-- QP_WRITE (12 R352, R362). A write while the basin is RUNNING breaks a "must" without a stated response: the basin's behaviour is
undefined from here on (00 R15). -/
def execQpWrite (set i : Nat) (v : Word) (s : State) : Out State :=
  if !s.link.up || s.link.insecure || decide (63 ≤ set) || decide (32 ≤ i) then .next s
  else
    match s.qpClosed set with
    | some b => .next (s.undefine b)
    | none => .next (s.updQp (qpnOf set i) fun q => q.writeCtrl (wholeAcc v))

/-! ### The end of a collective -/

/-- Writes that the collective engine makes: they wait for a frame, and for a stack or a tile that cannot be written now (09 R270,
R271, R280, R481); where no page is available the basin stops (02 R48). The flag tells whether the data is written. -/
def State.collWrite (s : State) (b : Nat) (ws : List (Nat × List (Byte × Bool))) : State × Bool :=
  match s.storeParts b ws with
  | (s, .ready) => (s, true)
  | (s, .waits) => (s, false)
  | (s, .refused d) => (s.stopForTier b d, false)

/-- Whether a conversion to FP16 gave an infinity or a NaN (06 R190). -/
def convOverflow (ws : List (Nat × List (Byte × Bool))) : Bool :=
  ws.any fun w => (leWords 2 w.2.length (w.2.map (·.1))).any fun x => decide (bits x 14 10 = 31)

/-- A layer's record after a collective of its own: the merged trailer is the job-wide one (12 R357; 06 R190, R191). -/
def LayerAcct.merge (a : LayerAcct) (c : Coll) (ovf : Bool) : LayerAcct :=
  { a with
    collEnded := a.collEnded ++ [c.entry], overflow := a.overflow || c.overflow || ovf, poison := a.poison || c.poison
    minStep := match c.minStep with | some m => minOpt a.minStep m | none => a.minStep
    maxStep := match c.maxStep with | some m => maxOpt a.maxStep m | none => a.maxStep }

/-- COLLECTIVE_COMPLETE (12 R355 to R357): the output is written, the layer takes the merged record where it is to be all-reduced
(06 R191), and the entry ends. -/
def execCollectiveComplete (b e : Nat) (s : State) : Out State :=
  let v := s.basin b
  .next (match v.coll e, v.collTable[e]? with
    | some c, some r =>
      if v.phase = .running ∧ s.collDone b e then
        let ws := v.collWrites r c
        match s.collWrite b ws with
        | (s, false) => s
        | (s, true) =>
          let s := s.updBasin b fun v => { v with colls := v.colls.filter fun d => decide (d.entry ≠ e), collRan := v.collRan ++ [e] }
          let s := match c.layer with
            | some n => s.updBasin b fun v =>
              if (v.grad n).collective then v.updLayer n fun a => a.merge c (v.converts r c && convOverflow ws) else v
            | none => s
          ((s.tryVerdict b).checkClosing b).runColls b
      else s
    | _, _ => s)

end Sys2Proof.Machine
end

