-- ==== Sys2Proof/Machine/Firmware.lean ====
section
/-! DEFINITION. Efbiric headers (15 R415), the check of firmware images (R416), ROM boot and ROM recovery mode (R418, R419,
R426, R427), and the staging of an update (R420 to R423, R444). -/

namespace Sys2Proof.Machine

/-! ### Headers -/

/-- A little-endian field of a header (15 R415). -/
def hdrField (h : List Byte) (off n : Nat) : Nat := leNat ((h.drop off).take n)

/-- Bytes of a header. -/
def hdrBytes (h : List Byte) (off n : Nat) : List Byte := (h.drop off).take n

/-- Whether a header's MAGIC, HDR_VERSION and reserved bytes are valid (15 R415). -/
def hdrValid (h : List Byte) : Bool :=
  decide (hdrField h 0 4 = 0x52424645) && decide (hdrField h 4 2 = 1) && decide (hdrField h 0x0D 3 = 0) &&
    decide (hdrField h 0x19 39 = 0) && decide (hdrField h 0xD0 48 = 0) && decide (hdrField h 0x160 160 = 0)

/-- Whether a header's signature verifies over its bytes 0x000 to 0x0FF under its own key. -/
def hdrSigned (h : List Byte) : Bool :=
  ecdsaVerify (hdrBytes h 0x70 96) (sha384 (h.take 0x100)) (hdrBytes h 0x100 48) (hdrBytes h 0x130 48)

/-- Results of FWU_STATUS (15 R444). -/
def fwOk : Nat := 0x01
def fwBadCrc : Nat := 0x02
def fwBadRange : Nat := 0x03
def fwOverlap : Nat := 0x04
def fwIncomplete : Nat := 0x05
def fwFlashError : Nat := 0x0B
def fwBadState : Nat := 0x0C

/-- The check of a firmware image of a recorded size, and its result (15 R416). -/
def fwCheck (img : List Byte) (size svnMin : Nat) : Nat :=
  if !hdrValid img || decide (hdrField img 6 2 ≠ 1) || decide (hdrField img 8 4 ≠ size) then 0x06
  else if sha384 (hdrBytes img 0x70 96) ≠ vecBytes Config.vendorFwKeyHash ∨ hdrField img 0x18 1 ≠ 0 then 0x07
  else if !hdrSigned img then 0x08
  else if sha384 (img.drop 0x200) ≠ hdrBytes img 0x40 48 then 0x09
  else if hdrField img 0x0C 1 < svnMin then 0x0A
  else fwOk

/-! ### Slots -/

/-- The bytes of a slot's image. -/
def FwSlot.image (f : FwSlot) : List Byte := SMap.getList 0 f.bytes 0 f.size

/-- A header field of a slot's image; 0 for the image of manufacture (log 27). -/
def FwSlot.field (f : FwSlot) (off n : Nat) : Nat := if f.factory then 0 else leNat (SMap.getList 0 f.bytes off n)

/-- A slot of the flash: A or B. -/
def State.slot (s : State) (b : Bool) : FwSlot := if b then s.fwu.slotB else s.fwu.slotA

/-- The sequence number of a directory copy, from 1 on; 0 for a copy that is not valid. -/
def dirSeq (d : Option DirCopy) : Nat :=
  match d with
  | some d => d.seq + 1
  | none => 0

/-- The directory copy that governs: the valid one with the higher sequence number (15 R413). -/
def Fwu.directory (f : Fwu) : Option DirCopy := if dirSeq f.dir0 < dirSeq f.dir1 then f.dir1 else f.dir0

/-- A change of the slot directory goes to the copy that does not govern (15 R413). -/
def State.writeDirectory (s : State) : State :=
  let f := s.fwu
  let d : DirCopy :=
    { seq := max (dirSeq f.dir0) (dirSeq f.dir1), active := f.active, stA := f.slotA.st, stB := f.slotB.st }
  { s with fwu := if dirSeq f.dir0 < dirSeq f.dir1 then { f with dir0 := some d } else { f with dir1 := some d } }

/-- The ROM reads the slot directory (15 R413, R418); `bad0` and `bad1` are copies whose CRC has failed. With none valid, no slot is
known to hold an image (log 95). -/
def State.readDirectory (s : State) (bad0 bad1 : Bool) : State :=
  let f := s.fwu
  let f := { f with dir0 := if bad0 then none else f.dir0, dir1 := if bad1 then none else f.dir1 }
  let d := f.directory.getD { active := f.active, stA := .invalid, stB := .invalid }
  { s with fwu := { f with active := d.active, slotA := { f.slotA with st := d.stA }, slotB := { f.slotB with st := d.stB } } }

/-- The state with a slot changed; its state stands in the directory (15 R413). -/
def State.updSlot (s : State) (b : Bool) (f : FwSlot → FwSlot) : State :=
  let t : State := { s with fwu := if b then { s.fwu with slotB := f s.fwu.slotB } else { s.fwu with slotA := f s.fwu.slotA } }
  if (t.slot b).st = (s.slot b).st then t else t.writeDirectory

/-- A slot becomes the active one, in the directory too (15 R413, R424, R427). -/
def State.activate (s : State) (b : Bool) : State :=
  if s.fwu.active = b then s else ({ s with fwu := { s.fwu with active := b } } : State).writeDirectory

/-- Whether a slot's image passes the check at boot (15 R416, R418; log 27). -/
def FwSlot.boots (f : FwSlot) (svnMin : Nat) : Bool :=
  decide (f.st = .verified) &&
    (if f.factory then decide (svnMin ≤ f.svn) else decide (fwCheck f.image f.size svnMin = fwOk))

/-- The SHA-384 of bytes 0x000 to 0x15F of the running firmware's header (15 R441). -/
def State.headerDigest (s : State) : List Byte :=
  let f := s.slot s.mgmt.slot
  if f.factory then vecBytes Config.factoryHeader else sha384 (f.image.take 0x160)

/-- Measurements 1 to 4 (15 R441). -/
def State.bootMeasure (s : State) (i : Nat) : List Byte :=
  let x := s.sec
  match i with
  | 1 => vecBytes Config.romDigest
  | 2 => s.headerDigest
  | 3 => [BitVec.ofNat 8 (s.slot s.mgmt.slot).svn, BitVec.ofNat 8 x.svn]
  | _ => [if x.cmdKey.isSome then 1 else 0, BitVec.ofNat 8 x.scope, BitVec.ofNat 8 x.bootScope]

/-- The DICE layers of a boot (15 R439): CDI_FW is HMAC-SHA-384 under the UDS of measurements 1 to 4, one after the other (log 87), which
the alias certificate names too. -/
def State.deriveLayers (s : State) : State :=
  let ms := [1, 2, 3, 4].flatMap s.bootMeasure
  { s with sec := { s.sec with cdiFw := hmac384 (vecBytes Config.uds) ms, tcbInfo := ms } }

/-- The P-384 key pair of the DeviceID: its private key (15 R439). -/
def deviceIdKey : Nat := Config.ecScalar (kdf (vecBytes Config.uds) "kq-id" [] 48)

/-- The alias key pair's private key (15 R439). -/
def State.aliasKey (s : State) : Nat := Config.ecScalar (kdf s.sec.cdiFw "kq-alias" [] 48)

/-- The public key of a private one, x then y: none for a key outside the range of the curve. -/
def publicKey (d : Nat) : List Byte :=
  match pointMul d (some (p384Gx, p384Gy)) 384 none with
  | some q => beBytes 48 q.1 ++ beBytes 48 q.2
  | none => []

/-- The firmware of a slot runs: GLB_MGMT.SLOT, the interface version and the handoff version are its own (11 R325; 13 R384), and
the debug scope of this boot is measured, from which with the other measurements the DICE layers follow (15 R439, R441). -/
def State.runSlot (s : State) (b : Bool) : State :=
  let f := s.slot b
  let s := s.activate b
  ({ s with
    mgmt := { s.mgmt with slot := b, handoff := f.field 0x14 2 }
    sec := { s.sec with bootScope := s.sec.scope }
    link := { s.link with devMajor := f.field 0x10 2, devMinor := f.field 0x12 2 } } : State).deriveLayers

/-- Boots the active slot, or the other where that fails (15 R418); none where no slot passes, or the FIPS error state
lets no image be verified (R443). -/
def State.romBoot (s : State) : Option State :=
  let a := s.fwu.active
  if s.sec.fips ≠ .operational then none
  else if (s.slot a).boots s.sec.svn then some (s.runSlot a)
  else
    let s := s.updSlot a fun f => { f with st := .invalid }
    if (s.slot (!a)).boots s.sec.svn then some (s.runSlot (!a)) else none

/-- A boot that no slot passes has marked the active slot INVALID (15 R418), but where no image is verified (R443). -/
def State.markActive (s : State) : State :=
  if s.sec.fips ≠ .operational then s else s.updSlot s.fwu.active fun f => { f with st := .invalid }

/-- Bits set in a vector. -/
def onBits {w : Nat} (v : BitVec w) : Nat := ((List.range w).filter fun i => v.getLsbD i).length

/-- Everything that the switched domains hold is lost with their power: basins, cores, the lattice and memory (13 R370;
16 R448; log 28). -/
def State.dropDomains (s : State) : State :=
  let p := s.power
  let n := onBits p.clusterOn + onBits p.ethOn + onBits p.mempOn + onBits p.latOn + if p.quarryOn then 1 else 0
  let s := if s.mgmt.phase = .inReset then s else s.count .device 0 9 n
  { s with
    rel := { s.rel with testing := [] }
    basins := [], links := [], extQ := [], portalQ := [], transit := [], adders := [], stageReqs := []
    cores := SMap.mapV {} s.cores fun _ k => { fenced := k.fenced }
    ports := SMap.mapV {} s.ports fun _ p => { fencedFrames := p.fencedFrames }
    whs := SMap.mapV {} s.whs fun _ e => { st := if e.st = .fenced then .fenced else .active }
    norms := [], trust := [], passes := []
    power := { s.power with clusterOn := 0, quarryOn := false, ethOn := 0, mempOn := 0, latOn := 0 } }

/-- The device enters ROM recovery mode (15 R426): a keyed command in progress or waiting ends with RECOVERY_MODE. -/
def State.enterRecovery (s : State) : State :=
  let s := s.dropDomains
  let s := if s.sec.busy then
      { s with sec := { s.sec with status := 0x14, busy := false } }.notify .pf0 2
    else s
  { s with
    mgmt := { s.mgmt with phase := .recovery, gap := false, recovering := false, activating := none, held := [] }
    fwu := { s.fwu with state := 0, busy := false, block := none } }

/-! ### Staging -/

/-- A write to the FWU_ registers reaches a device whose ROM or firmware runs (15 R426, R444). -/
def State.toFwu (s : State) (f : State → State) : State :=
  match s.mgmt.phase with
  | .ready | .recovery => s.overLink f
  | _ => s

/-- The state with the result of a staging operation. -/
def State.fwResult (s : State) (r : Nat) : State := { s with fwu := { s.fwu with result := r } }

/-- The slot that START stages into: the one that is not active, or slot A in ROM recovery mode where no slot can run (15 R420,
R427). -/
def State.stageTarget (s : State) : Bool :=
  let dead := fun (f : FwSlot) => decide (f.st = .invalid) || decide (f.st = .empty)
  if s.mgmt.phase = .recovery ∧ dead s.fwu.slotA ∧ dead s.fwu.slotB then false else !s.fwu.active

/-- FWU_START (15 R420, R427). -/
def execFwuStart (s : State) : Out State :=
  .next (s.toFwu fun s =>
    if s.fwu.busy ∨ s.fwu.state = 2 ∨ s.fwu.state = 4 then s.fwResult fwBadState
    else if s.fwu.size % 4096 ≠ 0 ∨ s.fwu.size < 4096 ∨ 8388608 < s.fwu.size then s.fwResult fwBadRange
    else
      let t := s.stageTarget
      let n := s.fwu.size
      let s := s.updSlot t fun _ => { st := .staging, size := n }
      ({ s with fwu := { s.fwu with stageSlot := t, state := 1, units := [], block := none } }).fwResult fwOk)

/-- FWU_BLOCK (15 R421): the write starts a block, unless one is in progress. -/
def execFwuBlock (v : Word) (s : State) : Out State :=
  .next (s.toFwu fun s =>
    if s.fwu.busy then s
    else { s with fwu := { s.fwu with busy := true, block := some (bits v.toNat 63 32, bits v.toNat 20 16) } })

/-- The 4 KiB units of a block. -/
def blockUnits (off len : Nat) : List Nat := (List.range len).map fun i => off / 4096 + i

/-- The result of a block before it is programmed (15 R421): none where it is to be programmed. -/
def State.blockCheck (s : State) (off len : Nat) : Option Nat :=
  let f := s.slot s.fwu.stageSlot
  let data := SMap.getList 0 s.fwu.data 0 (4096 * len)
  let us := blockUnits off len
  if s.fwu.state ≠ 1 ∧ s.fwu.state ≠ 3 then some fwBadState
  else if off % 4096 ≠ 0 ∨ len < 1 ∨ 16 < len ∨ f.size < off + 4096 * len then some fwBadRange
  else if crc32c data ≠ s.fwu.crc then some fwBadCrc
  else if us.any fun u => SMap.get false s.fwu.units u then
    if (us.all fun u => SMap.get false s.fwu.units u) && decide (SMap.getList 0 f.bytes off (4096 * len) = data) then some fwOk
    else some fwOverlap
  else none

/-- FWU_BLOCK_DONE (15 R421): a block ends with its result; `flashOk` tells whether the flash took it. -/
def execFwuBlockDone (flashOk : Bool) (s : State) : Out State :=
  .next (match s.fwu.block with
    | none => s
    | some (off, len) =>
      let t := s.fwu.stageSlot
      let r := s.blockCheck off len
      let s := { s with fwu := { s.fwu with busy := false, block := none } }
      let s := match r with
        | some r => s.fwResult r
        | none =>
          if flashOk then
            let data := SMap.getList 0 s.fwu.data 0 (4096 * len)
            let s := s.updSlot t fun f => { f with bytes := SMap.setList 0 f.bytes off data }
            let us := (blockUnits off len).foldl (fun m u => SMap.set false m u true) s.fwu.units
            ({ s with fwu := { s.fwu with units := us } }).fwResult fwOk
          else
            let s := s.updSlot t fun f => { f with st := .invalid }
            ({ s with fwu := { s.fwu with state := 0 } }).fwResult fwFlashError
      s.notify .pf0 1)

/-- FWU_VERIFY (15 R422). -/
def execFwuVerify (s : State) : Out State :=
  .next (s.toFwu fun s =>
    if s.fwu.busy ∨ (s.fwu.state ≠ 1 ∧ s.fwu.state ≠ 3) then s.fwResult fwBadState
    else if s.fwu.units.length < (s.slot s.fwu.stageSlot).size / 4096 then (s.fwResult fwIncomplete).notify .pf0 1
    else { s with fwu := { s.fwu with state := 2 } })

/-- FWU_VERIFY_DONE (15 R422, R443): the check of R416 ends; no image is verified in the FIPS error state. -/
def execFwuVerifyDone (s : State) : Out State :=
  .next (if s.fwu.state ≠ 2 ∨ s.sec.fips ≠ .operational then s
  else
    let t := s.fwu.stageSlot
    let img := (s.slot t).image
    let r := fwCheck img (s.slot t).size s.sec.svn
    let s := s.updSlot t fun f =>
      { f with st := if r = fwOk then .verified else .invalid, svn := hdrField img 0x0C 1 }
    let s := { s with fwu := { s.fwu with
      state := if r = fwOk then 3 else 0, digest := if r = fwOk then digestVec (sha384 img) else s.fwu.digest } }
    (s.fwResult r).notify .pf0 1)

/-- FWU_ABORT (15 R422): without effect where nothing is staged. -/
def execFwuAbort (s : State) : Out State :=
  .next (s.toFwu fun s =>
    if s.fwu.state = 1 ∨ s.fwu.state = 2 ∨ s.fwu.state = 3 then
      let s := s.updSlot s.fwu.stageSlot fun f => { f with st := .invalid }
      { s with fwu := { s.fwu with state := 0, busy := false, block := none } }
    else if s.fwu.state = 4 then s.fwResult fwBadState
    else s)

/-- RECOVER_BOOT (15 R427): the staged slot becomes active and the power-up sequence goes on from step 3 of R371. -/
def execRecoverBoot (s : State) : Out State :=
  .next (s.toFwu fun s =>
    let t := s.fwu.stageSlot
    if s.mgmt.phase = .recovery ∧ s.fwu.state = 3 ∧ (s.slot t).st = .verified then
      let s := ({ s with fwu := { s.fwu with state := 0, units := [], block := none, busy := false } } : State).activate t
      match s.romBoot with
      | some s => { s with mgmt := { s.mgmt with phase := .poweringUp } }
      | none => s.markActive
    else s)

end Sys2Proof.Machine
end

