-- ==== Sys2Proof/Machine/Keyed.lean ====
section
/-! DEFINITION. Keyed commands (15 R428 to R432, R435, R436) and the basin binder: bind descriptors and refusals (02 R32, R33,
R37), bind, re-bind and unbind (R35, R36, R38 to R40), and keyed fences (14 R405, R407). -/

namespace Sys2Proof.Machine

/-! ### The command block -/

/-- Word `n` of a payload (15 R431). -/
def kWord (k : KBlock) (n : Nat) : Nat := bits k.payload.toNat (64 * n + 63) (64 * n)

/-- Bytes 0x00 to 0x8F of a block (15 R428). -/
def kHead (k : KBlock) (opcode : Nat) : List Byte :=
  [BitVec.ofNat 8 opcode, k.basin] ++ vecBytes k.rsv ++ vecBytes k.counter ++ vecBytes k.payload

/-- The 256 bytes of a block. -/
def kBytes (k : KBlock) (opcode : Nat) : List Byte := kHead k opcode ++ vecBytes k.tag ++ vecBytes k.tail

/-- Payload bytes (15 R431). -/
def kBytesAt (k : KBlock) (off n : Nat) : List Byte := ((vecBytes k.payload).drop off).take n

/-- Whether the payload is zero from byte `off` on. -/
def kZeroFrom (k : KBlock) (off : Nat) : Bool := decide (k.payload.toNat / 2 ^ (8 * off) = 0)

/-- Status codes (15 R430). -/
def kDone : Nat := 0x01
def kBusy : Nat := 0x02
def kPending : Nat := 0x03
def kBadMac : Nat := 0x10
def kReplay : Nat := 0x11
def kNoKey : Nat := 0x12
def kBadCommand : Nat := 0x13
def kRecovery : Nat := 0x14
def kLockedOut : Nat := 0x15
def kBasinBound : Nat := 0x16
def kNotVerified : Nat := 0x17
def kIncompatible : Nat := 0x18
def kDeferred : Nat := 0x19
def kFips : Nat := 0x1A
def kActFailed : Nat := 0x1B
def kBadDescriptor : Nat := 0x20
def kClusterBusy : Nat := 0x21
def kBasinBusy : Nat := 0x22
def kBasinFree : Nat := 0x23
def kNoCapacity : Nat := 0x24
def kVersion : Nat := 0x25

/-- A keyed command completes (15 R430). -/
def State.endKeyed (s : State) (st : Nat) : State :=
  ({ s with sec := { s.sec with status := st, busy := false } }).notify .pf0 2

/-- Whether a basin is bound (02 R34). -/
def State.anyBound (s : State) : Bool := s.basins.any fun e => decide (e.2.phase ≠ .free)

/-! ### Bind descriptors -/

/-- Whether the reserved bits of a descriptor, and its words 4 to 7, are zero (02 R32). -/
def descReserved (k : KBlock) : Bool :=
  let w0 := kWord k 0
  let w3 := kWord k 3
  decide (bits w0 63 48 = 0) && decide (bits w0 39 35 = 0) && decide (bits w0 31 29 = 0) && decide (bits w0 23 22 = 0) &&
    decide (bits w0 15 10 = 0) && decide (bits w0 7 6 = 0) && decide (bits w3 63 38 = 0) && decide (bits w3 31 29 = 0) &&
    decide (bits w3 23 21 = 0) && decide (bits w3 15 12 = 0) &&
    (List.range 4).all fun i => decide (kWord k (4 + i) = 0)

/-- The fields of a descriptor (02 R32). -/
def bindDesc (k : KBlock) : Desc :=
  let w0 := kWord k 0
  { offloadDepth := bits w0 47 40, height := bits w0 34 32, width := bits w0 28 24, originRow := bits w0 21 20,
    originCol := bits w0 19 16, counterAccess := bit w0 9, offloadClass := bit w0 8, guarantee := bits (kWord k 1) 63 32,
    baPages := bits (kWord k 1) 31 0, actStore := bits (kWord k 2) 63 32, limit := bits (kWord k 2) 31 0,
    qset := bits (kWord k 3) 37 32, tpOut := bits (kWord k 3) 28 24, tpIn := bits (kWord k 3) 20 16,
    affinity := bits (kWord k 3) 11 0 }

/-- Whether a descriptor's fields are in range, and CLASS and the activation-store fields consistent (02 R28, R32, R37, R41). -/
def Desc.valid (d : Desc) : Bool :=
  decide (1 ≤ d.width) && decide (d.width ≤ 16) && decide (1 ≤ d.height) && decide (d.height ≤ 4) &&
    decide (d.originCol + d.width ≤ 16) && decide (d.originRow + d.height ≤ 4) &&
    decide (1 ≤ d.tpIn) && decide (d.tpIn ≤ 16) && decide (1 ≤ d.tpOut) && decide (d.tpOut ≤ 16) &&
    decide (1 ≤ d.baPages) && decide (d.guarantee ≤ d.limit) &&
    (if d.offloadClass then decide (d.actStore = 0)
     else decide (d.offloadDepth = 0) && decide (d.actStore ≤ d.guarantee))

/-- The clusters of a rectangle (02, Cluster geometry). -/
def Desc.clusters (d : Desc) : List Nat :=
  (List.range d.height).flatMap fun j => (List.range d.width).map fun k => 16 * (d.originRow + j) + d.originCol + k

/-- Whether two rectangles share a cluster. -/
def Desc.overlaps (d e : Desc) : Bool := d.clusters.any fun c => e.clusters.contains c

/-- The descriptors that a basin holds or is about to hold: a PENDING re-bind's resources are kept for it (log 29). -/
def Basin.descs (v : Basin) : List Desc := v.desc :: (v.newDesc.toList ++ v.pendingRebind.toList)

/-- The other bound basins. -/
def State.others (s : State) (b : Nat) : List Basin :=
  (s.basins.filter fun e => decide (e.1 ≠ b) && decide (e.2.phase ≠ .free)).map (·.2)

/-- Whether the device lacks what a descriptor asks for (02 R33, R37; 11 R317; 12 R350; 14 R405). The towpath queues of R37 are never
exhausted: each basin has its 32 slots, and the spec gives no number for the device (DESIGN CHOICE, log 77). -/
def State.lacks (s : State) (b : Nat) (d : Desc) : Bool :=
  let os := s.others b
  let held := (os.map fun v => (v.descs.map Desc.guarantee).foldl max 0).sum
  decide (s.capacity < held + d.guarantee) ||
    (decide (d.qset ≠ 63) && os.any fun v => v.descs.any fun e => decide (e.qset = d.qset)) ||
    (d.offloadClass && !s.hostTier) || d.cores.all fun c => (s.core c).fenced

/-- The status with which the binder refuses a bind or re-bind, in the order of R37's table (02 R37, R378; log 18). -/
def State.bindRefusal (s : State) (b : Nat) (k : KBlock) (rebind : Bool) : Option Nat :=
  let v := s.basin b
  let d := bindDesc k
  if !descReserved k || !d.valid then some kBadDescriptor
  else if (s.others b).any fun o => o.descs.any fun e => e.overlaps d then some kClusterBusy
  else if !rebind && decide (v.phase ≠ .free) then some kBasinBusy
  else if rebind && (v.pendingRebind.isSome || decide (v.phase = .binding) || decide (v.phase = .unbinding)) then
    some kBasinBusy
  else if rebind && decide (v.phase = .free) then some kBasinFree
  else if s.lacks b d then some kNoCapacity
  else if s.latched && d.clusters.any fun c => !v.desc.clusters.contains c then some kDeferred
  else if !rebind && decide (s.link.attach ≠ 1) then some kVersion
  else none

/-! ### Binder -/

/-- Zeroes the cores of a list: scratchpads, queues, registers and flags (02 R36). -/
def State.zeroCores (s : State) (cs : List Nat) : State := s.updCores cs fun _ k => { fenced := k.fenced }

/-- The counts of cores that join a basin, from which its counter view counts (16 R454). -/
def State.viewOf (s : State) (cs : List Nat) (m : SMap Nat) : SMap Nat :=
  cs.foldl (fun m c =>
    let m := (List.range 40).foldl (fun m i => SMap.set 0 m (cntKey .core c i) (s.counter .core c i)) m
    (List.range 8).foldl (fun m i => SMap.set 0 m (cntKey .router c i) (s.counter .router c i)) m) m

/-- A basin's BASIN counters restart at zero (16 R446). -/
def State.clearBasinCounters (s : State) (b : Nat) : State :=
  { s with pmc := { s.pmc with counters := SMap.clear s.pmc.counters (cntKey .basin b 0) (cntKey .basin b 64) } }

/-- A bind completes (02 R35, R36, R56; 13 R370). -/
def State.finishBind (s : State) (b : Nat) (d : Desc) : State :=
  let s := (s.switchClusters true d.clusters).zeroCores d.cores
  let s := s.setBasin b { phase := .idle, desc := d, viewBase := s.viewOf d.cores [] }
  (s.clearBasinCounters b).restTest b

/-- The program of a basin is cleared (02 R39; 11 R320; 13 R377; 15 R441). -/
def State.clearProgram (s : State) (b : Nat) : State :=
  let s := s.updCores (s.basin b).desc.cores fun _ k => { k with base := 0, size := 0, ring0 := 0, ring1 := 0 }
  s.updBasin b fun v => { v with img := none, measurement := 0 }

/-- Moves the pages that a basin holds above its limit to the host tier (02 R39). -/
def trimPages (b : Nat) : Nat → State → State
  | 0, s => s
  | n + 1, s =>
    let v := s.basin b
    let leaving := (v.pages.filter fun e => e.2.toHost.isSome && e.2.frame.isSome).length
    if v.held ≤ v.desc.limit + leaving then s
    else match s.victim (fun c _ => decide (c = b)), s.hostFree with
      | some t, some h => trimPages b n (s.addMove t.1 t.2 .limit fun g => { g with toHost := some h })
      | _, _ => s

/-- Whether two rectangles are the same. -/
def Desc.sameRect (d e : Desc) : Bool :=
  decide (d.originCol = e.originCol) && decide (d.originRow = e.originRow) && decide (d.width = e.width) &&
    decide (d.height = e.height)

/-- Whether page `p` is one of the first `n` of a list. -/
def inFirst (n : Nat) (l : List Nat) (p : Nat) : Bool := (l.take n).contains p

/-- A re-bind to the resident class charges the written activation pages to the new store in ascending order, as far as it
goes; the rest, and every one in the offload class, becomes ordinary (06 R183). -/
def Basin.recharge (v : Basin) (d : Desc) : Basin :=
  let mine := (v.pages.filter fun e => (e.2.act || v.activation e.1) && decide (e.2.st ≠ .unwritten)).map (·.1)
  { v with
    pages := SMap.mapV {} v.pages fun p g => { g with act := !d.offloadClass && inFirst d.actStore mine p }
    pushing := if d.offloadClass then v.pushing else [] }

/-- A re-bind completes (02 R39, R40; 06 R183). -/
def State.finishRebind (s : State) (b : Nat) (d : Desc) : State :=
  let o := (s.basin b).desc
  let same := o.sameRect d
  let s := s.updBasin b fun v => v.recharge d
  let s := if same then s
    else
      let gone := o.cores.filter fun c => !d.contains c
      let new := d.cores.filter fun c => !o.contains c
      let s := ((s.clearProgram b).zeroCores gone).zeroCores new
      let s := s.updBasin b fun v => { v with viewBase := s.viewOf new v.viewBase }
      (s.switchClusters false (o.clusters.filter fun c => !d.clusters.contains c)).switchClusters true d.clusters
  let s := s.updBasin b fun v => { v with
    desc := d, newDesc := none, phase := if same then .parked else .idle }
  let s := trimPages b (s.basin b).held s
  let s := if (s.basin b).kcmd then s else s.setEvent b 4
  (s.settle b).testUnbound

/-- An unbind completes (02 R36, R38; 12 R360; 13 R370; 15 R441): pages are released, cores zeroed, domains switched off, and
fences that waited take effect. -/
def State.finishUnbind (s : State) (b : Nat) : State :=
  let v := s.basin b
  let s := ((s.clearTransport b).dropPasses b).resetQps b
  let s := { s with
    tier := { s.tier with moves := s.tier.moves.filter fun m => decide (m.basin ≠ b) }
    rel := { s.rel with adderPending := s.rel.adderPending.filter fun a => !v.desc.contains a.1 } }
  let s := (s.zeroCores v.desc.cores).switchClusters false v.desc.clusters
  let s := s.setBasin b {}
  (v.fencePending.foldl (fun s f => s.enterFence none f.1 f.2) s).advanceTier.testUnbound

/-- BINDER_COMPLETION (02 R35): the binder's steps on a basin end, and with them the keyed command that they carry out. -/
def execBinderCompletion (b : Nat) (s : State) : Out State :=
  let v := s.basin b
  let keyed := fun (s : State) => if v.kcmd then (s.updBasin b fun v => { v with kcmd := false }).endKeyed kDone else s
  .next (match v.phase, v.newDesc with
    | .binding, some d => keyed (if v.desc.width = 0 then s.finishBind b d else s.finishRebind b d)
    | .unbinding, _ => keyed (s.finishUnbind b)
    | _, _ => s)

/-- BIND (02 R35): the binder starts. -/
def State.runBind (s : State) (b : Nat) (k : KBlock) : State :=
  if kZeroFrom k 64 = false ∨ bits (kWord k 0) 5 0 ≠ b then s.endKeyed kBadCommand
  else match s.bindRefusal b k false with
    | some r => s.endKeyed r
    | none => s.setBasin b { phase := .binding, newDesc := some (bindDesc k), kcmd := true }

/-- REBIND (02 R35, R39, R40). A RESTARTING basin takes it as a RUNNING one does, PENDING (DESIGN CHOICE, log 75: R35 names the other
states only). -/
def State.runRebind (s : State) (b : Nat) (k : KBlock) : State :=
  if kZeroFrom k 64 = false ∨ bits (kWord k 0) 5 0 ≠ b then s.endKeyed kBadCommand
  else match s.bindRefusal b k true with
    | some r => s.endKeyed r
    | none =>
      match (s.basin b).phase with
      | .running | .restarting => (s.updBasin b fun v => { v with pendingRebind := some (bindDesc k) }).endKeyed kPending
      | _ => s.updBasin b fun v => { v with phase := .binding, newDesc := some (bindDesc k), kcmd := true }

/-- UNBIND (02 R35, R38). -/
def State.runUnbind (s : State) (b : Nat) (k : KBlock) : State :=
  if !kZeroFrom k 0 then s.endKeyed kBadCommand
  else if (s.basin b).phase = .free then s.endKeyed kBasinFree
  else (s.beginUnbind b).updBasin b fun v => { v with kcmd := true }

/-- A keyed fence of a Whetstone engine: its chunks move (10 R292, R311; 14 R407). -/
def State.keyedFenceEngine (s : State) (n : Nat) : State :=
  if (s.engine n).st = .fenced then s
  else
    let s := s.updEngine n fun e => { e with st := .fenced }
    let full := decide (1024 ≤ s.rel.fenceTable.length)
    let s := { s with rel := { s.rel with
      fenceTable := if full then s.rel.fenceTable else s.rel.fenceTable ++ [(3, n)]
      fencedNoEntry := if full then s.rel.fencedNoEntry ++ [(3, n)] else s.rel.fencedNoEntry } }
    (s.report { event := 0x10, kind := 3, cls := 1, action := 3, index := n, detail := if full then 1 else 0 }).moveChunks n

/-- The number of units of a kind that a keyed fence may name (14 R407; 15 R431). -/
def fenceUnits (kind : Nat) : Nat :=
  match kind with
  | 1 | 2 => 2048
  | 3 => 12
  | 4 => 589824
  | _ => 0

/-- FENCE (14 R405, R407; 15 R431). -/
def State.runFence (s : State) (k : KBlock) : State :=
  let w := kWord k 0
  let kind := bits w 23 20
  let i := bits (kWord k 1) 31 0
  if w ≠ kind * 2 ^ 20 ∨ kWord k 1 ≠ i ∨ !kZeroFrom k 16 ∨ fenceUnits kind ≤ i then s.endKeyed kBadCommand
  else
    (match kind with
     | 3 => s.keyedFenceEngine i
     | 4 => s.fenceFrame i
     | _ => s.fenceCore kind i).endKeyed kDone

/-! ### The other keyed commands -/

/-- Blows SVN fuses up to a version and marks INVALID the slots below the new minimum (15 R425). -/
def State.blowFuses (s : State) (svn : Nat) : State :=
  if svn ≤ s.sec.svn then s
  else
    let s := { s with sec := { s.sec with svn := max s.sec.svn (min 64 svn) } }
    let old := fun (f : FwSlot) => if f.st = .verified ∧ f.svn < s.sec.svn then { f with st := .invalid } else f
    (s.updSlot false old).updSlot true old

/-- Whether an activation is incompatible (13 R384). -/
def State.incompatible (s : State) (slot : Bool) : Bool :=
  let f := s.slot slot
  decide (s.mgmt.handoff < f.field 0x16 2) || (decide (f.field 0x10 2 ≠ s.link.devMajor) && s.anyBound)

/-- A management gap begins (13 R386). -/
def State.beginGap (s : State) (recovering : Bool) : State :=
  { s with mgmt := { s.mgmt with gap := true, recovering := recovering, gapUs := 0 } }

/-- FW_ACTIVATE (13 R385, R387; 15 R424, R425). -/
def State.runActivate (s : State) (k : KBlock) : State :=
  let w := kWord k 0
  let slot := bit w 8
  let commit := bit w 0
  let only := commit && decide (slot = s.fwu.active)
  if w ≠ bits w 8 8 * 2 ^ 8 + bits w 0 0 ∨ !kZeroFrom k 8 then s.endKeyed kBadCommand
  else if !only && !(decide (s.fwu.state = 3) && decide (slot = s.fwu.stageSlot) && decide ((s.slot slot).st = .verified)) then
    s.endKeyed kNotVerified
  else if s.latched then s.endKeyed kDeferred
  else if only then (s.blowFuses (s.slot slot).svn).endKeyed kDone
  else if s.incompatible slot then s.endKeyed kIncompatible
  else ({ s with mgmt := { s.mgmt with activating := some (slot, commit) }, fwu := { s.fwu with state := 4 } }).beginGap false

/-- The wrap key of a KEY_ROTATE (15 R432). -/
def State.wrapKey (s : State) (key : BitVec 384) (k : KBlock) : List Byte :=
  kdf (vecBytes key) "kq-wrap" (vecBytes s.sec.serial ++ vecBytes k.counter) 256

/-- The secret that a KEY_ROTATE wraps, where its tag verifies (15 R432). -/
def State.unwrap (s : State) (key : BitVec 384) (k : KBlock) : Option (BitVec 384) :=
  (gcmOpen (s.wrapKey key k) (kBytesAt k 8 12) ((kHead k 6).take 16) (kBytesAt k 20 48) (kBytesAt k 68 16)).map digestVec

/-- KEY_ROTATE (15 R432). -/
def State.runRotate (s : State) (k : KBlock) : State :=
  let t := kWord k 0
  if 9 < t then s.endKeyed kBadCommand
  else if t < 2 then
    if !kZeroFrom k 84 then s.endKeyed kBadCommand
    else match s.unwrap (s.sec.cmdKey.getD 0) k with
      | none => s.endKeyed kBadCommand
      | some v =>
        ({ s with sec := if t = 0 then { s.sec with cmdKey := some v, lastCounter := 0 }
                         else { s.sec with verifier := some v } }).endKeyed kDone
  else if !kZeroFrom k 56 then s.endKeyed kBadCommand
  else ({ s with sec := { s.sec with
    ownerKeys := SMap.set 0 s.sec.ownerKeys (t - 2) (digestVec (kBytesAt k 8 48)) } }).endKeyed kDone

/-- Whether a vendor response verifies over the current nonce (15 R436). -/
def State.vendorOk (s : State) (k : KBlock) (nonce : BitVec 384) (scope : Nat) : Bool :=
  let key := vecBytes Config.vendorDbgKey
  decide (sha384 key = vecBytes Config.vendorDbgKeyHash) &&
    ecdsaVerify key (sha384 (vecBytes nonce ++ vecBytes s.sec.serial ++ [BitVec.ofNat 8 scope])) (kBytesAt k 8 48) (kBytesAt k 56 48)

/-- Whether an owner response verifies over the current nonce (15 R436). -/
def State.ownerOk (s : State) (k : KBlock) (nonce : BitVec 384) : Bool :=
  match s.sec.verifier with
  | some v => decide (hmac384 (vecBytes v) (vecBytes nonce ++ vecBytes s.sec.serial) = kBytesAt k 8 48)
  | none => false

/-- DEBUG_UNLOCK (15 R436). A command refused before its response is checked leaves the nonce (DEDUCED, log 96). -/
def State.runUnlock (s : State) (k : KBlock) : State :=
  let w := kWord k 0
  let owner := bit w 0
  let scope := bits w 9 8
  let shape := decide (w = bits w 9 8 * 2 ^ 8 + bits w 0 0) && kZeroFrom k (if owner then 56 else 104) &&
    (decide (scope = 1) || (decide (scope = 2) && !owner))
  if !shape then s.endKeyed kBadCommand
  else if s.sec.lockout then s.endKeyed kLockedOut
  else if scope = 2 ∧ s.anyBound then s.endKeyed kBasinBound
  else match s.sec.nonce with
    | none => s.endKeyed kBadCommand
    | some n =>
      let s := { s with sec := { s.sec with nonce := none } }
      if (if owner then s.ownerOk k n else s.vendorOk k n scope) then
        ({ s with sec := { s.sec with scope := scope } }).endKeyed kDone
      else if owner then
        ({ s with sec := { s.sec with
          pwFails := min 5 (s.sec.pwFails + 1), lockout := decide (4 ≤ s.sec.pwFails) } }).endKeyed kBadCommand
      else s.endKeyed kBadCommand

/-- ZEROIZE (15 R435). -/
def State.runZeroize (s : State) (k : KBlock) : State :=
  if !kZeroFrom k 0 then s.endKeyed kBadCommand
  else if s.anyBound then s.endKeyed kBasinBound
  else
    ({ s with
      sec := { s.sec with cmdKey := none, verifier := none, ownerKeys := [], lastCounter := 0, sessionFn := none, sessionKeys := 0 }
      link := { s.link with ideKeys := false } }).endKeyed kDone

/-! ### Running a keyed command -/

/-- The status of the first failing check that comes before the command itself, where one fails (15 R429). -/
def State.keyedRefusal (s : State) (opcode : Nat) (k : KBlock) : Option Nat :=
  if s.sec.fips ≠ .operational then some kFips
  else if s.mgmt.phase = .recovery then some kRecovery
  else match s.sec.cmdKey with
    | none => some kNoKey
    | some key =>
      if hmac384 (vecBytes key) (vecBytes s.sec.serial ++ kHead k opcode) ≠ vecBytes k.tag then some kBadMac
      else if k.counter.toNat ≤ s.sec.lastCounter ∨ k.counter.toNat = 2 ^ 64 - 1 then some kReplay
      else none

/-- A keyed command runs (15 R429, R431): its counter is consumed before it takes any effect. -/
def State.runKeyed (s : State) (opcode : Nat) (k : KBlock) : State :=
  match s.keyedRefusal opcode k with
  | some r =>
    let s := if r = kBadMac then { s with sec := { s.sec with badMac := satAdd 16 s.sec.badMac 1 } } else s
    s.endKeyed r
  | none =>
    let s := { s with sec := { s.sec with lastCounter := k.counter.toNat } }
    let b := bits k.basin.toNat 5 0
    if bits k.basin.toNat 7 6 ≠ 0 ∨ k.rsv ≠ 0 ∨ k.tail ≠ 0 then s.endKeyed kBadCommand
    else
      match opcode with
      | 1 => s.runBind b k
      | 2 => s.runRebind b k
      | 3 => s.runUnbind b k
      | 4 => s.runFence k
      | 5 => s.runActivate k
      | 6 => s.runRotate k
      | 7 => s.runUnlock k
      | 8 => s.runZeroize k
      | _ => s.endKeyed kBadCommand

/-- A block is given with GO = 1: while BUSY it is dropped; before READY and during a management gap it waits (15 R428, R430). -/
def State.goKeyed (s : State) (opcode : Nat) (k : KBlock) : State :=
  if s.sec.busy then { s with sec := { s.sec with droppedGo := true } }
  else
    let s := { s with sec := { s.sec with
      busy := true, status := kBusy, opcode := opcode, buf := SMap.setList 0 [] 0 (kBytes k opcode) } }
    match s.mgmt.phase with
    | .recovery => s.runKeyed opcode k
    | .ready =>
      if s.mgmt.gap then { s with mgmt := { s.mgmt with held := s.mgmt.held ++ [.keyed opcode k] } } else s.runKeyed opcode k
    | _ => { s with mgmt := { s.mgmt with held := s.mgmt.held ++ [.keyed opcode k] } }

/-- Host software writes a block and GO = 1. -/
def State.keyedCommand (s : State) (opcode : Nat) (k : KBlock) : State := s.overLink fun s => s.goKeyed opcode k

/-- BIND (02 R35 to R37; 15 R431). -/
def execBind (k : KBlock) (s : State) : Out State := .next (s.keyedCommand 1 k)

/-- REBIND (02 R35, R37, R39; 15 R431). -/
def execRebind (k : KBlock) (s : State) : Out State := .next (s.keyedCommand 2 k)

/-- UNBIND (02 R35, R38; 15 R431). -/
def execUnbind (k : KBlock) (s : State) : Out State := .next (s.keyedCommand 3 k)

/-- KEYED_FENCE (14 R405, R407; 15 R431). -/
def execKeyedFence (k : KBlock) (s : State) : Out State := .next (s.keyedCommand 4 k)

/-- FW_ACTIVATE (15 R424, R425). -/
def execFwActivate (k : KBlock) (s : State) : Out State := .next (s.keyedCommand 5 k)

/-- KEY_ROTATE (15 R432). -/
def execKeyRotate (k : KBlock) (s : State) : Out State := .next (s.keyedCommand 6 k)

/-- DEBUG_UNLOCK (15 R436). A command refused before its response is checked leaves the nonce (DEDUCED, log 96). -/
def execDebugUnlock (k : KBlock) (s : State) : Out State := .next (s.keyedCommand 7 k)

/-- ZEROIZE (15 R435). -/
def execZeroize (k : KBlock) (s : State) : Out State := .next (s.keyedCommand 8 k)

end Sys2Proof.Machine
end

