-- ==== Sys2Proof/Machine/Loader.lean ====
section
/-! DEFINITION. The loader: the rules of 07 R213 over a basin's schedule, in the order of R212. -/

namespace Sys2Proof.Machine

/-- A failing case of a loader rule (07 R212, R236). -/
structure LoadCase where
  rule : Nat
  router : Nat := 0
  slot : Nat := 0
  lane : Nat := 0
  deriving DecidableEq, Repr

/-- A case where a condition holds. -/
def caseIf (c : Bool) (k : LoadCase) : List LoadCase := if c then [k] else []

/-- Whether one case comes before another: the lower rule, then the lower router, then the lower entry (07 R212). -/
def LoadCase.before (a b : LoadCase) : Bool :=
  decide (a.rule < b.rule) || (decide (a.rule = b.rule) && (decide (a.router < b.router) ||
    (decide (a.router = b.router) && decide (a.slot < b.slot))))

/-- The first of a list of cases. -/
def firstCase (l : List LoadCase) : Option LoadCase :=
  l.foldl (fun best k => match best with
    | some b => if k.before b then some k else best
    | none => some k) none

/-! ### Rules 1 and 2 -/

/-- Whether a segment-table entry is valid (07 R207, R213 rule 1). -/
def segValid (m : Image) (n : Nat) (w : Word × Word) : Bool :=
  let g := segRec w
  decide (n < 4096) && decide (bits w.1.toNat 63 60 = 0) && decide (bits w.1.toNat 47 45 = 0) &&
    decide (bits w.2.toNat 63 33 = 0) && decide (bits w.2.toNat 15 12 = 0) && decide (16 ≤ g.frame) &&
    decide (g.frame % 16 = 0) && decide (1 ≤ g.nframes) && decide (g.base + g.frame ≤ 4096) && (imgSeg m g.next).isSome

/-- Whether a lane record is valid (07 R210, R480, R213 rule 1). -/
def laneValid (n : Nat) (w : Word × Word) : Bool :=
  let l := laneRec w
  let members := bits w.2.toNat 15 4
  let arrives := decide (l.kind = .core) || decide (l.kind = .reduce)
  decide (n < 65536) && (decide (l.cu = 0) || (decide (2 ≤ l.cu) && decide (l.cu ≤ 6))) && decide (l.kind ≠ .invalid) &&
    decide (1 ≤ l.transfers) && decide (bits w.2.toNat 63 48 = 0) && decide (bits w.2.toNat 25 25 = 0) &&
    decide (l.port < 14) &&
    (if l.kind = .memRd then decide (l.mergeWin ≤ 256) && decide (1 ≤ members) && decide (members ≤ 2048)
     else decide (l.mergeWin = 0) && decide (members ≤ 1)) &&
    (l.kind.memSide || (decide (l.planLat = 0) && decide (l.port = 0))) &&
    (arrives || (!l.arriveFe && decide (l.arriveFlg = 0)))

/-- The cases of rule 1 (07 R213). -/
def loadRule1 (m : Image) : List LoadCase :=
  caseIf (decide (bits m.schedHeader.toNat 63 12 ≠ 0) || (imgSeg m (bits m.schedHeader.toNat 11 0)).isNone) { rule := 1 } ++
  (m.segs.flatMap fun e => caseIf (!segValid m e.1 e.2) { rule := 1 }) ++
  (m.lanes.flatMap fun e => caseIf (!laneValid e.1 e.2) { rule := 1, lane := e.1 % 65536 }) ++
  m.slots.flatMap fun e =>
    let s := slotRec e.2.2
    caseIf (decide (4096 ≤ e.2.1) || decide (bits e.2.2.toNat 46 40 ≠ 0) || decide (s.addFmt = 3) || decide (s.addOp = 3) ||
      (!s.names && decide (s.lane ≠ 0))) { rule := 1, router := e.1, slot := e.2.1 % 4096, lane := s.lane }

/-- The cases of rule 2 (07 R213). -/
def loadRule2 (m : Image) : List LoadCase :=
  m.slots.flatMap fun e =>
    let s := slotRec e.2.2
    caseIf ((s.addSrc :: s.sources).any (fun c => decide (8 < c)) || (s.names && (imgLane m s.lane).isNone))
      { rule := 2, router := e.1, slot := e.2.1, lane := s.lane }

/-! ### Windows -/

/-- What the window rules read: the image, the rectangle, the basin's Ethernet lane group, and a window as a segment. -/
structure LoadCtx where
  m : Image
  d : Desc
  home : Nat
  g : SegRec

/-- Entry `i` of the window at router `r`. -/
def LoadCtx.at_ (x : LoadCtx) (r i : Nat) : SlotRec := imgSlot x.m r (x.g.base + i)

/-- Whether a unit is the one that a lane's PORT names, or for an ENGINE lane the basin's lane group (07 R210, R213 rule 3;
log 25). -/
def LoadCtx.portOk (x : LoadCtx) (l : Nat) (unit : Option Nat) : Bool :=
  match imgLane x.m l, unit with
  | some r, some u => r.kind.memSide &&
      (decide (u = if r.port = 13 then 13 + x.home else r.port) || (decide (r.kind = .engine) && decide (u = 13 + x.home)))
  | _, _ => false

/-- A case at an entry of the window. -/
def LoadCtx.bad (x : LoadCtx) (rule r i l : Nat) : LoadCase := { rule := rule, router := r, slot := x.g.base + i, lane := l }

/-- The cases of rule 3 at an entry; an external link that a mesh input feeds is seen by the trace of its source. -/
def LoadCtx.rule3 (x : LoadCtx) (r i : Nat) : List LoadCase :=
  let e := x.at_ r i
  let u := attached r
  caseIf (decide (e.outX ≠ 0) && u.isNone) (x.bad 3 r i e.lane) ++
  caseIf (e.mesh.any fun o => decide (o.2 ≠ 0) && (match neighbour r o.1 with
    | some n => !x.d.contains n.1
    | none => true)) (x.bad 3 r i e.lane) ++
  caseIf ((e.sources.contains srcExt || decide (5 ≤ e.outX)) && !x.portOk e.lane u) (x.bad 3 r i e.lane)

/-- The cases of rule 4 at an entry: outputs are read, and inputs are driven (07 R213). -/
def LoadCtx.rule4 (x : LoadCtx) (r i : Nat) : List LoadCase :=
  let e := x.at_ r i
  caseIf (e.mesh.any fun o => decide (o.2 ≠ 0) && (match neighbour r o.1 with
    | some n => x.d.contains n.1 && !(x.at_ n.1 ((i + linkDelay r o.1) % x.g.frame)).sources.contains n.2
    | none => false)) (x.bad 4 r i e.lane) ++
  caseIf (e.sources.any fun c => decide (1 ≤ c) && decide (c ≤ 4) && (match neighbour r c with
    | some n =>
      let up := x.at_ n.1 ((i + x.g.frame - linkDelay r c % x.g.frame) % x.g.frame)
      !x.d.contains n.1 || (up.mesh.any fun o => decide (o.1 = n.2) && decide (o.2 = 0))
    | none => true)) (x.bad 4 r i e.lane)

/-- The cases of rule 5 at an entry: transit slots and re-send slots (07 R204, R213). -/
def LoadCtx.rule5 (x : LoadCtx) (r i : Nat) : List LoadCase :=
  let e := x.at_ r i
  caseIf (decide (i % 8 = 7) && (decide (e.tx ≠ 0) || e.mesh.any fun o => decide (o.2 ≠ 0))) (x.bad 5 r i e.lane) ++
  caseIf (decide (i % 8 = 3) && e.mesh.any fun o => isSeam r o.1 && decide (o.2 ≠ 0)) (x.bad 5 r i e.lane)

/-- Whether an entry emits its adder buffer. -/
def SlotRec.emits (e : SlotRec) : Bool := e.sources.contains srcAdder

/-- The format that a lane's first adder operation names. -/
def laneFmt (m : Image) (l : Nat) : Option Nat :=
  (m.slots.find? fun e => let s := slotRec e.2.2; decide (s.lane = l) && decide (s.addOp ≠ 0)).map fun e => (slotRec e.2.2).addFmt

/-- The cases of rule 6 at an entry (07 R213). -/
def LoadCtx.rule6 (x : LoadCtx) (r i : Nat) : List LoadCase :=
  let e := x.at_ r i
  let reduce := match imgLane x.m e.lane with | some l => decide (l.kind = .reduce) | none => false
  caseIf ((decide (e.addOp ≠ 0) || e.emits) && !reduce) (x.bad 6 r i e.lane) ++
  caseIf (decide (e.addOp ≠ 0) && e.emits) (x.bad 6 r i e.lane) ++
  caseIf (decide (e.addOp ≠ 0) && decide (laneFmt x.m e.lane ≠ some e.addFmt)) (x.bad 6 r i e.lane)

/-- An event of an adder buffer: 1 LOAD, 2 ADD, 3 emission; its slot, format and lane. -/
abbrev AddEvent := Nat × Nat × Nat × Nat

/-- The events of a buffer at a router, in slot order. -/
def LoadCtx.events (x : LoadCtx) (r buf : Nat) : List AddEvent :=
  (List.range x.g.frame).filterMap fun i =>
    let e := x.at_ r i
    if e.addBuf ≠ buf then none
    else if e.addOp ≠ 0 then some (e.addOp, i, e.addFmt, e.lane)
    else if e.emits then some (3, i, e.addFmt, e.lane)
    else none

/-- The first event that breaks the cycle of LOAD, ADDs and emission (07 R213 rule 6, R223); `open_` holds the last operation's
slot, the format and the lane of the cycle in progress. -/
def badEvent : Option (Nat × Nat × Nat) → List AddEvent → Option AddEvent
  | none, [] => none
  | some (t, f, l), [] => some (0, t, f, l)
  | none, (k, t, f, l) :: es => if k = 1 then badEvent (some (t, f, l)) es else some (k, t, f, l)
  | some (last, f0, l0), (k, t, f, l) :: es =>
    if k = 2 ∧ last + 2 ≤ t ∧ f = f0 ∧ l = l0 then badEvent (some (t, f0, l0)) es
    else if k = 3 ∧ last + 4 ≤ t ∧ f = f0 ∧ l = l0 then badEvent none es
    else some (k, t, f, l)

/-- The cases of rule 6 over a router's buffers: the frame repeats, so each buffer's events are taken from its first LOAD. -/
def LoadCtx.adderCases (x : LoadCtx) (r : Nat) : List LoadCase :=
  (List.range 16).flatMap fun buf =>
    let es := x.events r buf
    let pre := es.takeWhile fun e => decide (e.1 ≠ 1)
    let seq := es.drop pre.length ++ pre.map fun e => (e.1, e.2.1 + x.g.frame, e.2.2)
    match badEvent none seq with
    | some e => [x.bad 6 r (e.2.1 % x.g.frame) e.2.2.2]
    | none => []

/-! ### Rules 7 to 9 -/

/-- The routers and slots that a trace passes through (07 R209). -/
def traceNodes (m : Image) (g : SegRec) : Nat → Nat → Nat → Nat → List (Nat × Nat)
  | 0, _, _, _ => []
  | fuel + 1, r, i, code =>
    (r, i) :: ((imgSlot m r (g.base + i)).mesh.flatMap fun o =>
      if o.2 = code then
        match neighbour r o.1 with
        | some (r', side) => traceNodes m g fuel r' ((i + linkDelay r o.1) % g.frame) side
        | none => []
      else [])

/-- A destination as its kind (1 landing port, 2 external link, 3 transit queue, 4 adder, 0 none) and its router. -/
def Endpoint.place : Endpoint → Nat × Nat
  | .land r _ => (1, r)
  | .ext r _ => (2, r)
  | .tx r _ => (3, r)
  | .adder r _ _ => (4, r)
  | .lost r _ => (0, r)

/-- The portal that Transit assigns to a lane (07 R225). -/
def LoadCtx.portalOf (x : LoadCtx) (r : LaneRec) : Nat :=
  x.d.portal (x.d.attachFor (if r.port = 13 then 13 + x.home else r.port))

/-- The portals of a lane's units: for an ENGINE lane those of its PORT and of the basin's lane group (07 R211, R225; log 25). -/
def LoadCtx.portalsOf (x : LoadCtx) (r : LaneRec) : List Nat :=
  x.portalOf r :: if r.kind = .engine then [x.d.portal (x.d.attachFor (13 + x.home))] else []

/-- Whether a destination is one that a leg of a lane from a source may have (07 R211, R213 rule 7). -/
def LoadCtx.endOk (x : LoadCtx) (r : LaneRec) (code : Nat) (p : Endpoint) : Bool :=
  match p, r.kind with
  | .land _ _, .core => decide (code = srcLaunch)
  | .land _ _, .reduce => true
  | .adder _ _ _, .reduce => true
  | .land _ _, .memRd | .land _ _, .memWr | .land _ _, .tpIn | .land _ _, .tpOut => decide (code ≠ srcLaunch)
  | .ext _ _, .memRd | .ext _ _, .memWr | .ext _ _, .tpIn | .ext _ _, .tpOut => decide (code = srcLaunch)
  | .tx q _, .memRd | .tx q _, .memWr | .tx q _, .tpIn | .tx q _, .tpOut =>
    decide (code = srcLaunch) && decide (q = x.portalOf r)
  | .ext _ _, .engine => true
  | .tx q _, .engine => decide (q ∈ x.portalsOf r)
  | _, _ => false

/-- The cases of rules 3 and 7 that the trace of one source slot shows (07 R213). -/
def LoadCtx.traceCases (x : LoadCtx) (r i code : Nat) : List LoadCase :=
  let l := (x.at_ r i).lane
  match imgLane x.m l with
  | none => []
  | some rec =>
    let es := traceFrom x.m x.g traceFuel r i code
    let single := rec.kind.memSide && decide (code = srcLaunch) && decide (es.length ≠ 1)
    (es.flatMap fun p => match p with
      | .ext q j => caseIf (!x.portOk l (attached q)) (x.bad 3 q j l)
      | _ => []) ++
    caseIf (decide (code = srcTransit ∧ r ∉ x.portalsOf rec) || es.isEmpty || single || !(es.map Endpoint.place).Nodup || !(traceNodes x.m x.g traceFuel r i code).Nodup ||
      es.any fun p => !x.endOk rec code p) (x.bad 7 r i l)

/-- The sources that an entry names: EXT, LAUNCH, ADDER, TRANSIT. -/
def SlotRec.starts (e : SlotRec) : List Nat := [5, 6, 7, 8].filter fun c => e.sources.contains c

/-- A leg in a window: its router, lane and source, and its source slots in order with their CU marks (07 R214). -/
structure Leg where
  router : Nat
  lane : Nat
  code : Nat
  slots : List (Nat × Bool)

/-- The legs of a window. -/
def LoadCtx.legs (x : LoadCtx) : List Leg :=
  x.d.cores.flatMap fun r =>
    let all := (List.range x.g.frame).flatMap fun i => (x.at_ r i).starts.map fun c => ((x.at_ r i).lane, c, i, (x.at_ r i).cu)
    ((all.map fun e => (e.1, e.2.1)).dedup).map fun k =>
      { router := r, lane := k.1, code := k.2,
        slots := (all.filter fun e => decide (e.1 = k.1) && decide (e.2.1 = k.2)).map fun e => (e.2.2.1, e.2.2.2) }

/-- Where a leg's first slot stands. -/
def Leg.first (g : Leg) : Nat := (g.slots.headD (0, false)).1

/-- Whether CU marks exactly one slot in each 2^CU consecutive source slots of a leg, cyclically (07 R213 rule 8). -/
def Leg.marksOk (g : Leg) (cu : Nat) : Bool :=
  let n := g.slots.length
  if cu = 0 then g.slots.all fun s => !s.2
  else (List.range n).all fun k =>
    decide (((List.range (2 ^ cu)).filter fun t => (g.slots.getD ((k + t) % n) (0, false)).2).length = 1)

/-- The cases of rule 8 in a window. An operation that a mesh input feeds may carry the mark of the catch-up slot that feeds it (log 55). -/
def LoadCtx.rule8 (x : LoadCtx) (legs : List Leg) : List LoadCase :=
  (x.d.cores.flatMap fun r => (List.range x.g.frame).flatMap fun i =>
    let e := x.at_ r i
    let cu0 := match imgLane x.m e.lane with | some l => decide (l.cu = 0) | none => true
    caseIf (e.cu && e.starts.isEmpty && (cu0 || decide (e.addOp = 0))) (x.bad 8 r i e.lane)) ++
  legs.flatMap fun g => match imgLane x.m g.lane with
    | some l => caseIf (!g.marksOk l.cu) (x.bad 8 g.router g.first g.lane)
    | none => []

/-- The cases of rule 7 that concern a memory-side lane as a whole: both legs stand in the window, and each return reaches every
source core and no other (07 R211). -/
def LoadCtx.returnCases (x : LoadCtx) (legs : List Leg) : List LoadCase :=
  ((legs.map (·.lane)).dedup).flatMap fun l =>
    match imgLane x.m l with
    | some rec =>
      if rec.kind.memSide && decide (rec.kind ≠ .engine) then
        let src := legs.filter fun g => decide (g.lane = l) && decide (g.code = srcLaunch)
        let ret := legs.filter fun g => decide (g.lane = l) && decide (g.code ≠ srcLaunch)
        match src, ret with
        | [], g :: _ | g :: _, [] => [x.bad 7 g.router g.first l]
        | _, _ =>
          ret.flatMap fun g => g.slots.flatMap fun s =>
            let lands := (traceFrom x.m x.g traceFuel g.router s.1 g.code).filterMap fun p =>
              match p with | .land q _ => some q | _ => none
            caseIf ((src.any fun h => !lands.contains h.router) || lands.any fun q => !src.any fun h => decide (h.router = q))
              (x.bad 7 g.router s.1 l)
      else []
    | none => []

/-- Where slot `i` of a leg ends. -/
def LoadCtx.placesAt (x : LoadCtx) (g : Leg) (i : Nat) : List (Nat × Nat) :=
  (traceFrom x.m x.g traceFuel g.router i g.code).map Endpoint.place

/-- The cases of rule 7 in which the slots of one leg reach different destinations, so that no one tree carries it. -/
def LoadCtx.legCases (x : LoadCtx) (legs : List Leg) : List LoadCase :=
  legs.flatMap fun g =>
    let want := x.placesAt g g.first
    (g.slots.drop 1).flatMap fun s =>
      let es := x.placesAt g s.1
      caseIf ((es.any fun p => !want.contains p) || want.any fun p => !es.contains p) (x.bad 7 g.router s.1 g.lane)

/-- The cores that a leg of a REDUCE lane reaches, at once or through the adders that it feeds (07 R211). -/
def LoadCtx.reaches (x : LoadCtx) (legs : List Leg) (l : Nat) : Nat → Nat → Nat → List Nat
  | 0, _, _ => []
  | fuel + 1, r, code =>
    match legs.find? fun g => decide (g.router = r) && decide (g.lane = l) && decide (g.code = code) with
    | some g => (x.placesAt g g.first).flatMap fun p =>
      if p.1 = 1 then [p.2] else if p.1 = 4 then x.reaches legs l fuel p.2 srcAdder else []
    | none => []

/-- The cases of rule 7 in which a REDUCE lane's contributions do not join to one tree that reaches each root core once (07 R211). -/
def LoadCtx.reduceCases (x : LoadCtx) (legs : List Leg) : List LoadCase :=
  ((legs.map (·.lane)).dedup).flatMap fun l =>
    match imgLane x.m l with
    | some rec =>
      if rec.kind = .reduce then
        let mine := legs.filter fun g => decide (g.lane = l)
        let src := mine.filter fun g => decide (g.code = srcLaunch)
        let roots := match src with | g :: _ => x.reaches legs l traceFuel g.router srcLaunch | [] => []
        let direct := mine.flatMap fun g => (x.placesAt g g.first).filter fun p => decide (p.1 = 1)
        src.flatMap fun g =>
          let rs := x.reaches legs l traceFuel g.router srcLaunch
          caseIf (rs.isEmpty || !rs.Nodup || (rs.any fun q => !roots.contains q) || (roots.any fun q => !rs.contains q) ||
            !direct.Nodup) (x.bad 7 g.router g.first l)
      else []
    | none => []

/-- The cases of rules 3 to 8 in a window. -/
def LoadCtx.windowCases (x : LoadCtx) : List LoadCase :=
  let legs := x.legs
  (x.d.cores.flatMap fun r =>
    x.adderCases r ++ (List.range x.g.frame).flatMap fun i =>
      x.rule3 r i ++ x.rule4 r i ++ x.rule5 r i ++ x.rule6 r i ++ (x.at_ r i).starts.flatMap fun c => x.traceCases r i c) ++
    x.rule8 legs ++ x.returnCases legs ++ x.legCases legs ++ x.reduceCases legs

/-- The cases of rule 9 in a segment: slots not marked CU suffice in NFRAMES frames (07 R213). -/
def LoadCtx.rule9 (x : LoadCtx) : List LoadCase :=
  x.legs.flatMap fun g =>
    match imgLane x.m g.lane with
    | some l =>
      let free := (g.slots.filter fun s => !s.2).length
      caseIf (decide (free * x.g.nframes < l.transfers * legFlits x.m x.g l g.router g.lane g.code)) (x.bad 9 g.router g.first g.lane)
    | none => []

/-- The cases of rule 7 that concern the number of a lane's source cores, over the whole schedule (07 R211, R213). -/
def countCases (m : Image) (d : Desc) (segs : List SegRec) : List LoadCase :=
  m.lanes.flatMap fun e =>
    let l := laneRec e.2
    let src := d.cores.filter fun r => segs.any fun g => !(sourceSlots m g r e.1 srcLaunch).isEmpty
    let ok := match l.kind with
      | .memRd => decide (src.length = l.members)
      | .reduce => decide (1 ≤ src.length)
      | .engine => src.isEmpty
      | _ => decide (src.length = 1)
    let at_ := m.slots.filterMap fun s =>
      if (slotRec s.2.2).names ∧ (slotRec s.2.2).lane = e.1 ∧ (src.isEmpty ∨ src.headD 0 = s.1) then
        some ({ rule := 7, router := s.1, slot := s.2.1, lane := e.1 } : LoadCase) else none
    if ok then [] else [(firstCase at_).getD { rule := 7, lane := e.1 }]

/-- The first failing case of a schedule, where one fails (07 R212, R213). -/
def loadFault (m : Image) (d : Desc) (home : Nat) : Option LoadCase :=
  match firstCase (loadRule1 m ++ loadRule2 m) with
  | some k => some k
  | none =>
    let segs := m.segs.map fun e => segRec e.2
    firstCase ((segs.flatMap fun g =>
      let x : LoadCtx := { m := m, d := d, home := home, g := g }
      x.windowCases ++ x.rule9) ++ countCases m d segs)

/-- LAT_LOAD_STATUS (07 R236). -/
def loadStatus (k : LoadCase) : Word :=
  BitVec.ofNat 64 (k.rule * 2 ^ 48 + k.lane % 2 ^ 16 * 2 ^ 32 + k.slot % 2 ^ 12 * 2 ^ 20 + k.router / 64 % 32 * 2 ^ 14 +
    k.router % 64 * 2 ^ 8 + 1)

end Sys2Proof.Machine
end

