-- ==== Sys2Proof/Machine/Launch.lean ====
section
/-! DEFINITION. Launch and resume (11 R326 to R329; 02 R57): the checks of the launch block, of the protected ranges, of the
image's container (15 R417) and tables (06 R182, R186; 10 R305; 12 R355), the load, and the start of the cores. The payload's
layout is not given, so the command carries the tables that the payload holds (log 8). -/

namespace Sys2Proof.Machine

/-! ### Status -/

/-- Values of BSN_LAUNCH_STATUS (11 R329). -/
def lStarted : Nat := 0x01
def lBusy : Nat := 0x02
def lBadState : Nat := 0x03
def lBadBlock : Nat := 0x04
def lImageAuth : Nat := 0x05
def lImageTable : Nat := 0x06
def lScheduleFault : Nat := 0x07
def lNoCheckpoint : Nat := 0x08
def lCkptMismatch : Nat := 0x09
def lImageFit : Nat := 0x0A
def lVersion : Nat := 0x0B
def lBadProt : Nat := 0x0C

/-- Reports the end of a launch operation on the VF's vector 0 (11 R329). -/
def State.endLaunch (s : State) (b st : Nat) : State :=
  (s.updBasin b fun v => { v with launchStatus := st }).notify (.vf b) 0

/-! ### Ranges -/

/-- Whether any two ranges (first, one past the last) of a list overlap. -/
def anyOverlap : List (Nat × Nat) → Bool
  | [] => false
  | r :: rs => (rs.any fun q => decide (r.1 < q.2) && decide (q.1 < r.2)) || anyOverlap rs

/-- Whether an enabled BSN_PROT entry is empty, reaches beyond BA_SIZE_PAGES or overlaps another (02 R57). -/
def Basin.protBad (v : Basin) : Bool :=
  (v.protRanges.any fun r => decide (r.2 ≤ r.1) || decide (v.desc.baPages < r.2)) || anyOverlap v.protRanges

/-! ### The launch block -/

/-- Word `i` of the launch block (11 R326). -/
def Basin.lword (v : Basin) (i : Nat) : Nat := (SMap.get 0 v.launchBlock i).toNat

/-- IMAGE_BA, IMAGE_BYTES and RESUME_SEQ. -/
def Basin.imageBa (v : Basin) : Nat := bits (v.lword 0) 47 0
def Basin.imageBytes (v : Basin) : Nat := bits (v.lword 1) 31 0
def Basin.resumeSeqArg (v : Basin) : Nat := bits (v.lword 2) 31 0

/-- Whether the launch block is refused; what concerns the image counts where one is loaded (11 R326, R328, R329). -/
def Basin.blockBad (v : Basin) (loads : Bool) : Bool :=
  decide (v.lword 3 ≠ 0) || ((List.range 20).any fun i => decide (v.lword (12 + i) ≠ 0)) ||
    decide (bits (v.lword 0) 63 48 ≠ 0) || decide (bits (v.lword 1) 63 32 ≠ 0) || decide (bits (v.lword 2) 63 32 ≠ 0) ||
    (loads && (decide (v.imageBa % 8192 ≠ 0) || decide (v.imageBytes < 4096) || decide (v.imageBytes % 4096 ≠ 0) ||
      decide (v.memBytesTotal < v.imageBa + v.imageBytes)))

/-! ### The container -/

/-- Whether the owner-key checks of an image's header hold (15 R417, steps 2 and 3). -/
def Sec.ownerAccepts (x : Sec) (h : List Byte) : Bool :=
  let ki := hdrField h 0x18 1
  let key := hdrBytes h 0x70 96
  let unsigned := decide (ki = 0xFF)
  (unsigned || decide (ki < 8)) &&
    (!unsigned || ((key ++ hdrBytes h 0x100 96).all fun y => decide (y = 0))) &&
    (x.ownerKeys.isEmpty ||
      (!unsigned && decide (SMap.get 0 x.ownerKeys ki ≠ 0) && decide (sha384 key = vecBytes (SMap.get 0 x.ownerKeys ki))))

/-- Whether a basin program image passes the checks of 15 R417. -/
def Sec.imageOk (x : Sec) (img : List Byte) (size : Nat) : Bool :=
  let h := img.take 512
  hdrValid h && decide (hdrField h 6 2 = 2) && decide (hdrField h 8 4 = size) && decide (hdrField h 0x0C 1 = 0) &&
    decide (hdrField h 0x10 8 = 0) && x.ownerAccepts h && (decide (hdrField h 0x18 1 = 0xFF) || hdrSigned h) &&
    decide (sha384 (img.drop 512) = hdrBytes h 0x40 48)

/-- Whether the image that a launch block names is authentic; one that reads as poison is not (log 8), and in the FIPS error
state none is verified (15 R443). -/
def State.imageAuth (s : State) (b : Nat) : Bool :=
  let v := s.basin b
  decide (s.sec.fips = .operational) && !v.memPoisoned v.imageBa v.imageBytes &&
    s.sec.imageOk (v.readMem v.imageBa v.imageBytes) v.imageBytes

/-! ### Fit -/

/-- Whether a core's program region keeps 03 R65, and its data lies in the scratchpad. -/
def partFits (c : CoreImage) : Bool :=
  decide (c.base % 4096 = 0) && decide (c.size % 4096 = 0) && decide (4096 ≤ c.size) && decide (c.size ≤ 65536) &&
    decide (c.base + c.size ≤ spEnd) && c.data.all fun e => decide (e.1 < spEnd)

/-- The part of an image for a core, by basin core index: the first that is listed. -/
def imgCore (m : Image) (i : Nat) : Option CoreImage := m.cores.find? fun c => decide (c.index = i)

/-- Whether an image was placed for a rectangle and gives each of its unfenced cores a program (07 R212; 11 R329). -/
def imgFits (m : Image) (d : Desc) (live : List Nat) : Bool :=
  decide (m.col = d.originCol) && decide (m.row = d.originRow) && decide (m.width = d.width) && decide (m.height = d.height) &&
    (m.slots.all fun e => d.contains e.1) && (m.cores.all partFits) &&
    live.all fun c => (imgCore m (d.coreIndex c)).isSome

/-! ### Tables -/

/-- Whether a sluice number names a sluice of the schedule. -/
def imgSluice (m : Image) (n : Nat) : Bool := (imgSeg m n).isSome

/-- Whether the block table is refused (06 R181, R182). -/
def blocksBad (m : Image) (d : Desc) : Bool :=
  let es := (m.blocks.takeWhile fun e => bit e.2.toNat 0).take 1024
  (es.any fun e => decide (bits e.2.toNat 19 1 ≠ 0) || decide (bits e.1.toNat 31 0 = 0) ||
    decide (d.baPages < bits e.1.toNat 63 32 + bits e.1.toNat 31 0) || !imgSluice m (bits e.2.toNat 63 48) ||
    !imgSluice m (bits e.2.toNat 47 32)) ||
  anyOverlap (es.map fun e => (bits e.1.toNat 63 32, bits e.1.toNat 63 32 + bits e.1.toNat 31 0))

/-- The closing sluice of an image. -/
def imgClose (m : Image) : Nat := bits m.gradHeader.toNat 15 0

/-- Whether the gradient layer table is refused (06 R186). -/
def gradsBad (m : Image) : Bool :=
  decide (bits m.gradHeader.toNat 63 16 ≠ 0) ||
    (match imgSeg m (imgClose m) with | some g => !g.ck | none => true) ||
    m.grads.any fun e =>
      let r := gradRec e.2
      decide (bits e.2.toNat 15 3 ≠ 0) || (!r.exact && decide (r.wexp ≠ 0)) || (r.valid && decide (r.expectOut = 0)) ||
        decide (4096 ≤ e.1)

/-- Whether a Whetstone schedule record is refused (10 R305, R306). -/
def schedBad (ws : List Word) : Bool :=
  decide (bits (wordAt ws 1) 31 0 = 0) || decide (bits (wordAt ws 2) 63 5 ≠ 0) || bit (wordAt ws 2) 3 ||
    decide (3 < bits (wordAt ws 2) 2 0) || decide (wordAt ws 3 ≠ 0)

/-- Whether a field of a VALID Whetstone entry holds an invalid value (10 R304, R305). -/
def whsFieldsBad (ws : List Word) : Bool :=
  let r := whsRec ws
  decide (r.lsPow = 3) || decide (r.rule = 0) ||
    decide (6 < r.rule) || decide (r.wcFmt = 3) || (decide (r.wcFmt = 2) != decide (r.rule = ruleFactor)) ||
    decide (r.rows = 0) || decide (r.cols = 0) || (decide (r.rule ≠ ruleTrust) && decide (r.rule ≠ ruleOrtho) && decide (r.auxF ≠ 0))

/-- Whether a reserved field of a Whetstone entry, VALID or not, is not zero (10 R304, R305). -/
def whsReservedSet (ws : List Word) : Bool :=
  let w0 := wordAt ws 0
  decide (bits w0 63 20 ≠ 0) || bit w0 15 || decide (bits w0 3 1 ≠ 0) ||
    ((List.range 7).any fun i => decide (bits (wordAt ws (2 + i)) 63 48 ≠ 0)) ||
    (List.range 4).any fun i => decide (wordAt ws (12 + i) ≠ 0)

/-- Whether a BA that the rule does not use is not zero (10 R305). -/
def WhsRec.unusedSet (r : WhsRec) : Bool :=
  (!r.hasM && decide (r.m ≠ 0)) || (!r.hasV && decide (r.v ≠ 0)) || (decide (r.rule = ruleFactor) && decide (r.wc ≠ 0)) ||
    (decide (r.rule ≠ ruleOrtho) && !r.emb && decide (r.aux ≠ 0))

/-- Whether an entry's tensors are refused: zero or misaligned, beyond the basin's memory, or not within one protected range
(10 R305). -/
def Basin.tensorsBad (v : Basin) (r : WhsRec) : Bool :=
  r.tensors.any fun t => decide (t.1 = 0) || decide (t.1 % 8192 ≠ 0) || decide (v.memBytesTotal < t.1 + t.2.1) ||
    (!t.2.2 && !(v.protRanges.any fun p => decide (p.1 * pageBytes ≤ t.1) && decide (t.1 + t.2.1 ≤ p.2 * pageBytes)))

/-- The VALID entries of the Whetstone layer table, as (layer, words). -/
def imgWhs (m : Image) : List (Nat × List Word) := (imgMap m.whsLayers).filter fun e => (whsRec e.2).valid

/-- Whether the Whetstone layer table is refused (10 R305). A schedule record counts where it is listed or used (log 8). -/
def Basin.whsBad (v : Basin) (m : Image) : Bool :=
  let es := imgWhs m
  let valid := ((imgMap m.grads).filter fun e => (gradRec e.2).valid).map (·.1)
  let recs := (es.map fun e => (whsRec e.2).sched) ++ m.whsScheds.map (·.1)
  ((m.whsHeader.drop 1).any fun w => decide (w ≠ 0)) ||
    (recs.any fun n => schedBad (SMap.get [] (imgMap m.whsScheds) n)) ||
    decide (es.map (·.1) ≠ valid) || ((imgMap m.whsLayers).any fun e => whsReservedSet e.2) ||
    (es.any fun e =>
      let r := whsRec e.2
      decide (4096 ≤ e.1) || whsFieldsBad e.2 || r.unusedSet || v.tensorsBad r ||
        (r.emb && decide (r.rule ≠ ruleSgd) && decide (r.rule ≠ ruleAdamw)) ||
        (decide (r.rule = ruleFactor) && decide (r.rows ≠ r.cols))) ||
    anyOverlap (es.flatMap fun e => (whsRec e.2).tensors.map fun t => (t.1, t.1 + t.2.1))

/-- The sluices from that of entry `n` on, up to the first checkpoint sluice. -/
def sluicesTo (m : Image) : Nat → Nat → List Nat
  | 0, _ => []
  | fuel + 1, n =>
    match imgSeg m n with
    | some g => n :: (if g.ck then [] else sluicesTo m fuel g.next)
    | none => []

/-- Whether COMPLETE_BY names a sluice that comes in time: for a sluice trigger one of those after it, up to the next checkpoint
sluice; for a layer trigger any (log 25). -/
def CollRec.inTime (r : CollRec) (m : Image) : Bool :=
  imgSluice m r.completeBy && (!r.onSluice ||
    (match imgSeg m r.trigger with
     | some g => (sluicesTo m m.segs.length g.next).contains r.completeBy
     | none => false))

/-- Whether an operation takes a format (12 R355). -/
def collFmtOk (op fmt : Nat) : Bool :=
  if op = opAllReduce ∨ op = opReduceScatter then decide (fmt = 0x0) || decide (fmt = 0x2) || decide (fmt = 0xB)
  else decide (fmt = 0xD)

/-- Whether an entry of the collective table is refused (12 R355). -/
def State.collBad (s : State) (v : Basin) (m : Image) (ws : List Word) : Bool :=
  let r := collRec ws
  let w0 := wordAt ws 0
  let rts := fun (q : Nat) => decide (v.desc.qset < 63) && decide ((s.qp (qpnOf v.desc.qset q)).st = .rts)
  decide (bits w0 15 10 ≠ 0) || bit w0 8 || decide (4 < r.op) || !collFmtOk r.op r.fmt || decide (r.ranks < 2) ||
    decide (r.ranks ≤ r.rank) || decide (bits (wordAt ws 1) 63 48 ≠ 0) || decide (bits (wordAt ws 2) 63 48 ≠ 0) ||
    decide (bits (wordAt ws 3) 23 13 ≠ 0) || decide (bits (wordAt ws 3) 7 5 ≠ 0) || decide (r.ba % 8192 ≠ 0) ||
    decide (v.memBytesTotal < r.ba + r.bytes) || decide (v.memBytesTotal < r.out + r.bytes) ||
    (decide (r.op ≠ opRecv) && !rts r.sendQp) || (decide (r.op ≠ opSend) && !rts r.recvQp) ||
    (if r.onSluice then !imgSluice m r.trigger else decide (4096 ≤ r.trigger)) || !r.inTime m

/-- Whether any table of an image is refused with IMAGE_TABLE. -/
def State.tablesBad (s : State) (b : Nat) (m : Image) : Bool :=
  let v := s.basin b
  blocksBad m v.desc || gradsBad m || v.whsBad m ||
    ((m.colls.take 4096).takeWhile fun ws => bit (wordAt ws 0) 0).any fun ws => s.collBad v m ws

/-! ### Refusals -/

/-- Whether an image lacks resume records for the basin's checkpoint (11 R328, R329). -/
def State.lacksRecords (s : State) (b : Nat) (m : Image) : Bool :=
  let v := s.basin b
  decide (m.resumeSeq ≠ some v.ckptSeq) ||
    (match v.ckpt.sluice with | some n => !imgSluice m n | none => true) ||
    (s.liveCores b).any fun c => !(m.resume.any fun r => decide (r.index = v.desc.coreIndex c))

/-- The basin's Ethernet lane group (12 R356, HOME_GROUP). -/
def State.homeGroup (s : State) (b : Nat) : Nat := (s.qset (s.basin b).desc.qset).home

/-- The refusal of an image that a launch or resume loads: its status, with the loader's case. -/
def State.imageRefusal (s : State) (b : Nat) (resume : Bool) (img : Option Image) : Option (Nat × Option LoadCase) :=
  let v := s.basin b
  if !s.imageAuth b then some (lImageAuth, none)
  else match img with
    | none => some (lImageTable, none)
    | some m =>
      if !imgFits m v.desc (s.liveCores b) then some (lImageFit, none)
      else if resume && s.lacksRecords b m then some (lCkptMismatch, none)
      else if s.tablesBad b m then some (lImageTable, none)
      else match loadFault m v.desc (s.homeGroup b) with
        | some k => some (lScheduleFault, some k)
        | none => none

/-- Whether an operation is accepted in a phase (11 R327, R328). -/
def BasinPhase.accepts (p : BasinPhase) (resume : Bool) : Bool :=
  decide (p = .idle) || (resume && (decide (p = .parked) || decide (p = .halted)))

/-- Whether an operation loads the image (11 R328). -/
def Basin.loads (v : Basin) (resume : Bool) : Bool := !resume || v.img.isNone

/-- The refusal of a launch operation (02 R57; 11 R326 to R329), in the order of log 18. -/
def State.launchRefusal (s : State) (b : Nat) (resume : Bool) (img : Option Image) : Option (Nat × Option LoadCase) :=
  let v := s.basin b
  if !v.phase.accepts resume then some (lBadState, none)
  else if s.link.attach ≠ 1 then some (lVersion, none)
  else if resume && !v.ckpt.valid then some (lNoCheckpoint, none)
  else if resume && decide (v.resumeSeqArg ≠ v.ckptSeq) then some (lCkptMismatch, none)
  else if v.blockBad (v.loads resume) then some (lBadBlock, none)
  else if v.protBad then some (lBadProt, none)
  else if v.loads resume then s.imageRefusal b resume img
  else none

/-! ### Loading -/

/-- A core with its part of an image: its data, and zero elsewhere (11 R327). -/
def Core.loadImage (k : Core) (c : CoreImage) : Core :=
  { k with base := c.base, size := c.size, ring0 := c.ring0, ring1 := c.ring1
           sp := c.data.foldr (fun e m => SMap.set 0 m e.1 e.2) [], spPoison := [] }

/-- The image becomes the basin's program, and its DIGEST the measurement (11 R327; 15 R417, R441). -/
def State.loadImage (s : State) (b : Nat) (m : Image) : State :=
  let v := s.basin b
  let s := s.updCores (s.liveCores b) fun c k =>
    match imgCore m (v.desc.coreIndex c) with
    | some p => k.loadImage p
    | none => k
  s.updBasin b fun v => { v with
    img := some m, latLoad := 0, measurement := digestVec (v.readMem (v.imageBa + 0x40) 48) }

/-- The checkpoint of a resume that has loaded an image: the image's records, and NEXT of the same sluice (07 R207; 11 R328). -/
def Ckpt.withImage (p : Ckpt) (m : Image) : Ckpt :=
  { p with
    recs := m.resume.foldr (fun r l => SMap.insert l r.index r) []
    next := match p.sluice.bind (imgSeg m) with | some g => g.next | none => p.next }

/-- A launch operation runs: refused, or BUSY with its image loaded until the cores start (11 R327, R328, R329). LAT_LOAD_STATUS
tells of the latest launch: its FAULT is 0 where another ground refuses it (07 R236). -/
def State.runLaunch (s : State) (b : Nat) (resume : Bool) (img : Option Image) : State :=
  match s.launchRefusal b resume img with
  | some (st, k) =>
    (s.updBasin b fun v => { v with latLoad := match k with | some k => loadStatus k | none => 0 }).endLaunch b st
  | none =>
    match (if (s.basin b).loads resume then img else none) with
    | some m =>
      let s := s.loadImage b m
      if resume then s.updBasin b fun v => { v with ckpt := v.ckpt.withImage m } else s
    | none => s

/-- A write of BSN_LAUNCH: ignored while BUSY, and held while a management gap lasts (11 R329; 13 R386). -/
def State.launchWrite (s : State) (b : Nat) (resume : Bool) (img : Option Image) : State :=
  let v := s.basin b
  if v.phase = .free ∨ v.launchStatus = lBusy then s
  else
    let s := s.updBasin b fun v => { v with launchOp := if resume then 2 else 1, launchStatus := lBusy }
    if s.mgmt.gap then
      { s with mgmt := { s.mgmt with held := s.mgmt.held ++ [if resume then .resume b img else .launch b img] } }
    else s.runLaunch b resume img

/-- LAUNCH (11 R326, R327, R329). -/
def execLaunch (b : Nat) (img : Option Image) (s : State) : Out State := .next (s.fromHost fun s => s.launchWrite b false img)

/-- RESUME (11 R326, R328, R329). -/
def execResume (b : Nat) (img : Option Image) (s : State) : Out State := .next (s.fromHost fun s => s.launchWrite b true img)

/-! ### Starting -/

/-- Registers 1 to 8 equal to the launch arguments, every other zero (11 R327). -/
def Basin.argRegs (v : Basin) : SMap Word :=
  (List.range 8).foldl (fun m i => SMap.set 0 m (i + 1) (BitVec.ofNat 64 (v.lword (4 + i)))) []

/-- A core as a launch starts it (04 R112, R113; 11 R327). Both generators restart from seed 0 and CKPT_SEQ (DESIGN CHOICE, log
80: 04 R114 names no restart of them at a launch). -/
def Core.launch (k : Core) (c : CoreImage) (args : SMap Word) (seq lscale step : Nat) : Core :=
  ({ base := k.base, size := k.size, ring0 := k.ring0, ring1 := k.ring1, sp := k.sp, spPoison := k.spPoison
     fenced := k.fenced, a := { pc := c.entryA, regs := args, stopped := false }
     x := { pc := c.entryX, regs := args, stopped := false }, ckseq := seq, lscale := lscale, step := step } : Core).restartGens

/-- The cores of a launch (11 R327). -/
def State.launchCores (s : State) (b : Nat) (m : Image) : State :=
  let v := s.basin b
  let args := v.argRegs
  s.updCores (s.liveCores b) fun c k =>
    match imgCore m (v.desc.coreIndex c) with
    | some p => k.launch p args v.ckptSeq (lscaleBits v.train.lsExp) v.train.step
    | none => k

/-- The barge fault record is cleared (08 R256). -/
def Basin.clearBrgFault (v : Basin) : Basin := { v with brgFault := 0, brgResume := 0, brgFaultBa := 0 }

/-- The halt records of a basin's cores are cleared, those of fenced cores too (03 R89). -/
def State.clearRecords (s : State) (b : Nat) : State := s.updCores (s.basin b).desc.cores fun _ k => { k with hrec := {} }

/-- A launch starts the cores: the first segment is FIRST of the schedule's header (07 R207; 11 R327). -/
def State.startLaunch (s : State) (b : Nat) (m : Image) : State :=
  let s := (((((s.clearTransport b).dropPasses b).endInterval b).commitAll b).clearRecords b).launchCores b m
  let first := bits m.schedHeader.toNat 11 0
  let s := s.updBasin b fun v =>
    ({ v.clearBrgFault.launchQueues with
       layers := [], verdict := none, suppressed := [], colls := [], collRan := [], rxTaken := [], sluice := none, restarts := 0, hostWrites := []
       whsDone := [], parkReq := false, phase := .running }).enterSegment first (up16 (s.basinTime b))
  let p := s.pointNow b first false
  s.updBasin b fun v => { v with ckpt := { v.ckpt with valid := false }, back := p }

/-- A stream whose live counts start from zero (16 R455). -/
def Stream.clearCounts (t : Stream) : Stream := { t with issue := 0, stalls := [], doneCc := 0, ahead := 0 }

/-- A core whose live counts start from zero, at a launch or a resume (04 R112; 16 R455). -/
def Core.clearCounts (k : Core) : Core := { k with cycle := 0, a := k.a.clearCounts, x := k.x.clearCounts }

/-- A resume starts the cores from the checkpoint, as a restart does (11 R328, R340). -/
def State.startResume (s : State) (b : Nat) : State :=
  if (s.basin b).heldLost then (s.markEvent b 8).haltBasin b (s.basin b).lastCause
  else
    let p := (s.basin b).ckpt
    let s := (s.clearRecords b).updCores (s.liveCores b) fun _ k => k.clearCounts
    let s := s.updBasin b fun v => { v.clearBrgFault with restarts := 0, parkReq := false, back := p }
    (s.goBack b p).runFrom b p

/-- Whether a program has a lane that crosses the seam, PORT and Ethernet lane group included (07 R234). -/
def State.laneCrosses (s : State) (b : Nat) : Bool :=
  let v := s.basin b
  match v.img with
  | none => false
  | some m =>
    (m.slots.any fun e => (slotRec e.2.2).mesh.any fun o => decide (o.2 ≠ 0) && isSeam e.1 o.1) ||
    m.lanes.any fun e =>
      let l := laneRec e.2
      let units := s.portUnit b l.port :: if l.kind = .engine then [s.portUnit b 13] else []
      l.kind.memSide && units.any fun u =>
        let a := v.desc.attachFor u
        decide (dieOf (v.desc.portal a) ≠ dieOf a)

/-- Each core whose queue ring words are invalid halts before its first instruction, with STREAM = 0b11 (03 R77). -/
def State.checkRings (s : State) (b : Nat) : State :=
  ((s.liveCores b).filter fun c => (s.core c).ringsBad).foldl (fun s c => s.haltBoth c 3 cQueue 0x03) s

/-- Whether the start of a basin must wait: launched transfers of its last run are under way (03 R87), a management gap
holds the write, Quarry tests its cores, the dies run at different steps or lattice times while a lane crosses the seam, the clocks stand, or a
latch or a management gap keeps the power manager from switching on the clusters that a trip has switched off (07 R234, R235; 11 R329;
13 R377, R378, R386; 14 R396; log 32). -/
def State.startWaits (s : State) (b : Nat) : Bool :=
  (s.mgmt.held.any fun h => match h with | .launch c _ => decide (c = b) | .resume c _ => decide (c = b) | _ => false) ||
    s.inTest b || s.inFlight b ||
    (decide (s.power.step0 ≠ s.power.step1 ∨ s.time0 ≠ s.time1) && s.laneCrosses b) || s.power.clocksStopped ||
    ((s.latched || s.mgmt.gap) && (s.basin b).desc.clusters.any fun c => !s.power.clusterOn.getLsbD c)

/-- LAUNCH_START (11 R327, R329): every core starts. An operation whose basin has left the states that accept it, or has lost its
program, ends with BAD_STATE (log 18). -/
def execLaunchStart (b : Nat) (s : State) : Out State :=
  let v := s.basin b
  let resume := decide (v.launchOp = 2)
  .next (if v.phase = .free ∨ v.launchStatus ≠ lBusy ∨ s.startWaits b then s
    else if !v.phase.accepts resume then s.endLaunch b lBadState
    else match v.img with
      | none => s.endLaunch b lBadState
      | some m =>
        let s := s.switchClusters true v.desc.clusters
        ((if resume then s.startResume b else s.startLaunch b m).endLaunch b lStarted).checkRings b)

end Sys2Proof.Machine
end

