-- ==== Sys2Proof/Machine/Host.lean ====
section
/-! DEFINITION. The host interface: snoops (11 R315), bias (R323), the interface
version (R325), resets of functions and of the link (R320; 17 R464, R466), link events (R317, R324, R344) and the loss scale's
register (06 R198). -/

namespace Sys2Proof.Machine

/-! ### Snoops and bias -/

/-- HOST_SNOOP (11 R315): the device holds no host line beyond a request in flight. -/
def execHostSnoop (line : Nat) (s : State) : Out State :=
  .next (s.fromHost fun s => if s.link.cxl then s.emit (.snoopRsp line) else s)

/-- BIAS_CHANGE (11 R323): a write of BSN_BIAS. -/
def execBiasChange (b : Nat) (w : Word) (s : State) : Out State :=
  let x := w.toNat
  .next (s.fromHost fun s =>
    if (s.basin b).phase = .free then s
    else
      let first := bits x 63 32
      let n := bits x 31 8
      s.updBasin b fun v =>
        let v := { v with biasPage := first, biasPages := n, biasToHost := bit x 1 }
        if !bit x 0 then v
        else if v.biasRun.isSome then { v with biasResult := 1 }
        else if n = 0 ∨ v.desc.baPages < first + n then { v with biasResult := 2 }
        else { v with biasResult := 0, biasRun := some (first, n, bit x 1) })

/-- BIAS_CHANGE_DONE (11 R323): it changes no data. -/
def execBiasChangeDone (b : Nat) (s : State) : Out State :=
  .next (match (s.basin b).biasRun with
    | none => s
    | some (first, n, toHost) =>
      ((List.range n).foldl (fun s i => s.updPage b (first + i) fun g => { g with hostBias := toHost }) s).updBasin b fun v =>
        { v with biasRun := none })

/-! ### Interface version -/

/-- IF_DECLARE (11 R325, R344). -/
def execIfDeclare (w : BitVec 32) (s : State) : Out State :=
  let major := bits w.toNat 31 16
  let minor := bits w.toNat 15 0
  .next (s.fromHost fun s =>
    if major = s.link.devMajor then
      { s with link := { s.link with attach := 1, enabledMinor := min minor s.link.devMinor } }
    else if s.anyBound then ({ s with link := { s.link with lastRefused := true } }).notify .pf0 6
    else ({ s with link := { s.link with attach := 2 } }).notify .pf0 6)

/-! ### Resets -/

/-- A towpath queue that is emptied with its basin's function or binding. -/
def Basin.emptyQueues (v : Basin) : Basin := { v with tp := SMap.mapV {} v.tp fun _ q => q.empty }

/-- VF_FLR (11 R320; 02 R38, R40; 12 R360): the basin stops; its queues, MSI-X table and program are cleared; binding, memory and
checkpoint records stay, and the work of a running basin since its last checkpoint is lost. A basin on which the binder works
keeps its state, and an unbinding one is not reached. -/
def execVfFlr (b : Nat) (s : State) : Out State :=
  .next (s.fromHost fun s =>
    match (s.basin b).phase with
    | .free | .unbinding => s
    | p =>
      let s := ((((s.dropTest b).stopCores b).clearTransport b).dropPasses b).resetQps b
      let s := if p = .running ∨ p = .restarting then
          (s.loseInterval b).updBasin b fun v => { v with train := v.back.train }
        else s
      let s := (s.clearProgram b).updBasin b fun v =>
        { v.emptyQueues with
          msix := [], layers := [], verdict := none, suppressed := [], colls := [], collRan := [], rxTaken := [], sluice := none
          testPause := false, parkReq := false }
      if p = .binding then s else s.enterIdle b)

/-- Every bound basin is unbound, and the attach state returns to NONE (11 R320, R325). -/
def State.flrPf0 (s : State) : State :=
  let s := s.basins.foldl (fun s e =>
    match e.2.phase with
    | .free | .unbinding => s
    | _ => s.beginUnbind e.1) s
  { s with link := { s.link with attach := 0, enabledMinor := 0 } }

/-- PF0_FLR (11 R320). -/
def execPf0Flr (s : State) : Out State := .next (s.fromHost State.flrPf0)

/-- A reset ends staging; the slot stays STAGING (15 R423). -/
def Fwu.endStaging (f : Fwu) : Fwu :=
  if f.state = 1 ∨ f.state = 2 then { f with state := 0, busy := false, block := none, units := [] } else f

/-- PERST_N (11 R320; 15 R423, R436, R438, R445; 17 R466): as an FLR of PF0; the link goes down until PERST_N_DEASSERT, and with it
IDE keys and the SPDM session (log 31). -/
def execPerstN (s : State) : Out State :=
  .next (if s.mgmt.phase = .inReset then { s with mgmt := { s.mgmt with perst := true } }
  else
    let s := s.flrPf0
    { s with
      mgmt := { s.mgmt with perst := true }
      link := { s.link with up := false, ideKeys := false, insecure := false }
      sec := { s.sec with scope := 0, pwFails := 0, lockout := false, sessionFn := none }
      fwu := s.fwu.endStaging })

/-- Whether the link trains at a width and rate in a mode (11 R315, R317). -/
def linkTrains (cxl : Bool) (width rate : Nat) : Bool :=
  if cxl then [16, 8, 4].contains width && [3, 4, 5].contains rate
  else [16, 8, 4, 2, 1].contains width && [1, 2, 3, 4, 5].contains rate

/-- BSN_BIAS and BSN_BIAS_STATUS at their reset values, for which no reset is named (00 R13; 11 R323). -/
def Basin.resetBias (v : Basin) : Basin :=
  { v with biasPage := 0, biasPages := 0, biasToHost := false, biasRun := none, biasResult := 0
           pages := SMap.mapV {} v.pages fun _ g => { g with hostBias := false } }

/-- PERST_N_DEASSERT (11 R317; 17 R464; 00 R13): the link trains; registers for which no reset is named take their reset values.
In ROM recovery mode there is no CXL.cache and no CXL.mem (15 R426). -/
def execPerstNDeassert (cxl : Bool) (width rate : Nat) (s : State) : Out State :=
  .next (if s.mgmt.phase = .inReset ∨ !s.mgmt.perst ∨ !linkTrains cxl width rate then s
  else
    { s with
      mgmt := { s.mgmt with perst := false }
      link := { s.link with
        up := true, cxl := cxl, width := width, rate := rate, ideFail := false, attach := 0, enabledMinor := 0
        lastRefused := false, memErr := 0, memErrBasin := 0 }
      qsets := []
      basins := SMap.mapV {} s.basins fun _ v => v.resetBias })

/-! ### Link events -/

/-- CXL_LINK_RETRAIN (11 R344): the link retrains of itself, in its mode. -/
def execCxlLinkRetrain (width rate : Nat) (s : State) : Out State :=
  .next (if s.link.up ∧ linkTrains s.link.cxl width rate then
    ({ s with link := { s.link with width := width, rate := rate } }).notify .pf0 6
  else s)

/-- IDE_FAIL (11 R324): an integrity failure on a stream with keys. -/
def execIdeFail (s : State) : Out State :=
  .next (if s.link.up ∧ s.link.ideKeys then
    ({ s with link := { s.link with insecure := true, ideFail := true } }).notify .pf0 6
  else s)

/-- MSIX_UNMASK (11 R344): a notice that waits is sent. The function of a FREE basin is disabled (02 R34). -/
def execMsixUnmask (fn : HostFn) (v : Nat) (s : State) : Out State :=
  let open_ := match fn with
    | .pf0 => decide (v < 64)
    | .vf b => decide (v < 31) && decide ((s.basin b).phase ≠ .free)
  .next (s.fromHost fun s =>
    if !open_ then s
    else
      let e := s.msixOf fn v
      let s := s.setMsix fn v { e with masked := false, pending := false }
      if e.pending then s.emit (.msix fn v e.addr e.data) else s)

/-- Whether registers that are written only in IDLE or PARKED take a write (02 R57; 06 R198; 09 R290). A RUNNING basin that pauses for a
Quarry test counts as RUNNING (DESIGN CHOICE, log 76: the spec does not say). -/
def Basin.quiet (v : Basin) : Bool := decide (v.phase = .idle) || decide (v.phase = .parked)

/-- BSN_LSCALE_WRITE (06 R198). -/
def execBsnLscaleWrite (b : Nat) (w : BitVec 32) (s : State) : Out State :=
  .next (s.fromHost fun s =>
    if (s.basin b).quiet then
      s.updBasin b fun v => { v with train := { v.train with lsExp := min 24 (bits w.toNat 4 0) } }
    else s)

end Sys2Proof.Machine
end

