-- ==== Sys2Proof/Machine/Power.lean ====
section
/-! DEFINITION. Input power and temperature (13 R369, R373 to R379): the samples and readings, the hardware's responses, and the
latches. The 1 µs sample is the model's clock of real time (log 3); running averages count samples that are not there yet as zero
(log 14). -/

namespace Sys2Proof.Machine

/-! ### Real time -/

/-- Bytes that a memory port moves in 1 µs at full rate (09 R269). -/
def portRate : Nat := 1600000

/-- A memory port in one more µs (16 R448): a port whose domain is off keeps its counts; its write buffer drains at its rate, and its
Weir's window begins anew (09 R264, R269). -/
def State.portUs (s : State) (n : Nat) : State :=
  let p := s.port n
  if p.st = .retired then s
  else
    let s := if 1 ≤ p.level ∧ p.level ≤ 3 then s.count .memp n 8 1 else s
    let s := if p.level = 4 then s.count .memp n 9 1 else s
    let s := if p.st = .retraining then s.count .memp n 10 1 else s
    s.updPort n fun p => { p with
      window := 0, wbuf := if p.stalled then p.wbuf else p.wbuf - (if p.level = 0 then portRate else weirBytes p.level) }

/-- One µs of real time in the counters (16 R448) and in a management gap (13 R388). -/
def State.passUs (s : State) : State :=
  let s := { s with usec := s.usec + 1 }
  let s := (List.range 12).foldl State.portUs s
  let s := (List.range 4).foldl (fun s n => if (s.group n).paused = 0 then s else s.count .eth n 4 1) s
  let s := s.basins.foldl (fun s e =>
    if e.2.phase = .running ∧ !e.2.testPause then s.count .basin e.1 0 1 else s) s
  if s.mgmt.gap then
    { s with mgmt := { s.mgmt with gapUs := s.mgmt.gapUs + 1 } }.count .device 0 10 1
  else s

/-! ### Steps and the gate -/

/-- Both dies go to given steps at an lc boundary, and a step-up in progress is cancelled, a held request with it (13 R381, R382; log 86). -/
def Power.toSteps (p : Power) (a b : Nat) : Power :=
  { p with step0 := a, step1 := b, up0 := none, up1 := none, heldStep := none, slowAcc := 0 }

/-- Hardware steps both dies one step down (13 R373, R374). -/
def Power.stepDown (p : Power) : Power := p.toSteps (min 2 (p.step0 + 1)) (min 2 (p.step1 + 1))

/-- The duty gate rises, to 12 at most (13 R375). -/
def Power.raiseGate (p : Power) (n : Nat) : Power := { p with gate := min 12 (p.gate + n) }

/-- Whether both dies are at step 2. -/
def Power.lowest (p : Power) : Bool := decide (p.step0 = 2) && decide (p.step1 = 2)

/-- The input power of the last `n` samples, in units of 0.1 W times samples (13 R373). -/
def Power.sum (p : Power) (n : Nat) : Nat := (p.samples.take n).sum

/-- The averages over 10 ms and over 1 s in W, as PWR_STATUS shows them (13 R388). -/
def Power.pin10ms (p : Power) : Nat := p.sum 10000 / 100000
def Power.pin1s (p : Power) : Nat := p.sum 1000000 / 10000000

/-! ### Loss of state -/

/-- Power-on reset: everything that the device holds is lost but what the flash, the fuses and the pins hold (13 R369; 14 R407, R408,
R410; 15 R413, R423, R433; 17 R465, R473). The queue of commands, what was sent and the count of free values are the model's. -/
def State.loseAll (s : State) : State :=
  { State.reset with
    pending := s.pending, freeCtr := s.freeCtr, outbox := s.outbox, glbId := s.glbId
    power := { vin := s.power.vin, thermN := s.power.thermN, faultN := s.power.faultN, undervoltage := s.power.undervoltage }
    mgmt := { pwrgood := s.mgmt.pwrgood, vioOk := s.mgmt.vioOk, recoveryStrap := s.mgmt.recoveryStrap }
    fwu := { slotA := s.fwu.slotA, slotB := s.fwu.slotB, active := s.fwu.active, dir0 := s.fwu.dir0, dir1 := s.fwu.dir1 }
    sec := { cmdKey := s.sec.cmdKey, verifier := s.sec.verifier, ownerKeys := s.sec.ownerKeys, lastCounter := s.sec.lastCounter
             svn := s.sec.svn, serial := s.sec.serial, nonceCount := s.sec.nonceCount }
    rel := { fenceTable := s.rel.fenceTable, log := s.rel.log, seq := s.rel.seq, powered := s.rel.poweredFlash
             poweredFlash := s.rel.poweredFlash } }

/-! ### The 1 µs sample -/

/-- The input voltage's responses (13 R369): none for a sample that loses all state. -/
def State.voltage (s : State) : Option State :=
  let p := s.power
  if 640 < p.vin ∨ 50 ≤ p.low36 then none
  else
    let out := decide (600 < p.vin) || decide (10 ≤ p.low40)
    let s := { s with power := { p with vinNow := out, faultN := decide (600 < p.vin) || p.refStop } }
    some (if out then
      let s := s.latch false 11
      if 10 ≤ p.low40 then { s with power := s.power.toSteps 2 2 } else s
    else s)

/-- The input current against ILIM (13 R374). -/
def State.current (s : State) : State :=
  let p := s.power
  let hit := decide (p.ilim ≤ p.iin)
  let s := { s with power := { p with ilimNow := hit } }
  if hit then
    let s := s.latch false 10
    if p.ilimNow then s else { s with power := s.power.stepDown }
  else s

/-- The running averages against their limits (13 R373). -/
def State.averages (s : State) : State :=
  let p := s.power
  let short := decide (3000 * 100000 < p.sum 10000)
  let long := decide (2600 * 10000000 < p.sum 1000000)
  let s := { s with power := { p with limitNow := short || long } }
  let s := if short then s.latch false 8 else s
  let s := if long then s.latch false 9 else s
  if (short || long) && !p.limitNow then { s with power := s.power.stepDown } else s

/-- POWER_SAMPLE (13 R369, R373, R374): `vin` in 0.1 V, `iin` in A. In power-on reset the device waits for its supply. -/
def execPowerSample (vin iin : Nat) (s : State) : Out State :=
  .next (if s.mgmt.phase = .inReset then { s with power := { s.power with vin := vin } }
  else
    let s := s.passUs
    let p := s.power
    let s := { s with power := { p with
      vin := vin, iin := iin, samples := (vin * iin :: p.samples).take 1000000
      low40 := if vin < 400 then p.low40 + 1 else 0, low36 := if vin < 360 then p.low36 + 1 else 0 } }
    match s.voltage with
    | none => { s with power := { s.power with faultN := true, undervoltage := decide (vin < 360) } }.loseAll
    | some s => s.current.averages)

/-- ILIM_RECHECK (13 R374): the current is still at or above ILIM. -/
def execIlimRecheck (s : State) : Out State :=
  .next (if s.power.ilimNow then
    { s with power := if s.power.lowest then s.power.raiseGate 2 else s.power.stepDown }
  else s)

/-- POWER_LIMIT_STEP (13 R373): an excess lasts; the rate at which the gate is then applied is not given, so it rises by a free
amount (log 6). -/
def execPowerLimitStep (s : State) : Out State :=
  .next (if s.power.limitNow then
    if s.power.lowest then
      { s with power := s.power.raiseGate (1 + (s.freeVal 4).toNat % 12) }.tick
    else { s with power := s.power.stepDown }
  else s)

/-- GATE_RELAX (13 R375): input power stays below 90% of every limit, and no latch is set. -/
def execGateRelax (s : State) : Out State :=
  let p := s.power
  .next (if s.latched ∨ 9 * p.ilim ≤ 10 * p.iin ∨ 2700 * 100000 ≤ p.sum 10000 ∨ 2340 * 10000000 ≤ p.sum 1000000 then s
  else { s with power := { p with gate := p.gate - 1 } })

/-! ### Junction temperature -/

/-- A basin in a thermal trip or under stopped clocks: a running one enters HALTED with every core STOPPED (13 R377, R383). -/
def State.haltForClocks (s : State) (b : Nat) : State :=
  match (s.basin b).phase with
  | .running | .restarting => s.haltBasin b 0
  | _ => s

/-- A thermal trip (13 R377): the clusters lose their supply, so every bound basin's program is cleared (log 33). -/
def State.thermalTrip (s : State) : State :=
  let s := { s with
    power := { s.power with clocksStopped := true, tripped := true, thermN := true }
    rel := { s.rel with testing := [] } }
  let s := s.latch true 12
  let bs := (s.basins.filter fun e => decide (e.2.phase ≠ .free)).map (·.1)
  let s := bs.foldl State.haltForClocks s
  let s := bs.foldl State.clearProgram s
  s.switchClusters false (List.range 64)

/-- The device leaves a trip with both dies at step 2 (13 R377); tests that are due start. -/
def State.leaveTrip (s : State) : State :=
  let s := { s with power :=
    { s.power.toSteps 2 2 with tripped := false, thermN := false, clocksStopped := s.power.refStop } }
  let s := s.basins.foldl (fun s e => if (s.basin e.1).atRest then s.restTest e.1 else s) s
  s.testUnbound

/-- Readings in a row of the hotter die. -/
def Power.hot (p : Power) : Nat := max p.hot0 p.hot1
def Power.over (p : Power) : Nat := max p.over0 p.over1

/-- The hardware's response to junction readings (13 R376, R377). -/
def State.junction (s : State) : State :=
  let p := s.power
  let s := if 3 ≤ p.hot then s.latch true 7 else s
  let s := if p.hot0 = 3 ∨ p.hot1 = 3 then { s with power := s.power.toSteps 2 2 } else s
  let s := if 3 < p.hot ∧ (p.hot - 3) % 100 = 0 then { s with power := s.power.raiseGate 2 } else s
  if p.tripped then
    if p.tj0 + 20 < p.trip ∧ p.tj1 + 20 < p.trip then s.leaveTrip else s
  else if 3 ≤ p.over then s.thermalTrip
  else s

/-- JUNCTION_READING (13 R376): the highest reading of each die in °C; none is a sensor that fails, which reads as TRIP. In power-on
reset THERM_N alone follows the readings (17 R473; log 33). -/
def execJunctionReading (d0 d1 : Option Nat) (s : State) : Out State :=
  let p := s.power
  let t0 := d0.getD p.trip
  let t1 := d1.getD p.trip
  let run := fun (n t limit : Nat) => if limit ≤ t then n + 1 else 0
  .next (if s.mgmt.phase = .inReset then
    { s with power := { p with thermN := p.thermN && !(decide (t0 + 20 < p.trip) && decide (t1 + 20 < p.trip)) } }
  else
    { s with power := { p with
      tj0 := t0, tj1 := t1, hot0 := run p.hot0 t0 p.emerg, hot1 := run p.hot1 t1 p.emerg
      over0 := run p.over0 t0 p.trip, over1 := run p.over1 t1 p.trip } }.junction)

/-! ### Latches -/

/-- Whether a cause of a latch is present (13 R378, R379). -/
def State.causePresent (s : State) (thermal : Bool) : Bool :=
  let p := s.power
  if thermal then p.tripped || decide (3 ≤ p.hot) || (List.range 12).any fun n => decide ((s.port n).level = 4)
  else p.ilimNow || p.limitNow || p.vinNow || p.refLost

/-- LATCH_CLEAR (13 R378): none of a latch's causes has been present for 100 ms. What the latches held back goes on. -/
def execLatchClear (thermal : Bool) (s : State) : Out State :=
  .next (if (if thermal then s.power.thermalLatch else s.power.powerLatch) && !s.causePresent thermal then
    let p := if thermal then { s.power with thermalLatch := false } else { s.power with powerLatch := false }
    ((({ s with power := p }).notify .pf0 3).emit (.pldmEvent thermal false)).ethDomains.testUnbound
  else s)

end Sys2Proof.Machine
end

