-- ==== Sys2Proof/Machine/Clocks.lean ====
section
/-! DEFINITION. Clock steps and the reference clock (13 R380 to R383; 07 R233 to R235), and the registers through which host
software bounds them (13 R388; 09 R285, R289). -/

namespace Sys2Proof.Machine

/-! ### The power manager -/

/-- Whether the dies must run at one step: a basin that runs, can run on or is about to start has a lane that crosses the seam
(07 R234). -/
def State.oneStep (s : State) : Bool :=
  s.basins.any fun e =>
    (decide (e.2.phase = .running) || decide (e.2.phase = .parked) || decide (e.2.phase = .restarting) ||
      decide (e.2.launchStatus = lBusy)) && s.laneCrosses e.1

/-- The fastest step that CLK_CTRL allows; 0b11 acts as 0b10 (13 R388). -/
def Power.fastest (p : Power) : Nat := min 2 p.stepMin

/-- The step that the power manager asks of a die: what its policy wants, within STEP_MIN; a hot die goes down, and up only when it
has fallen 3 °C below THROTTLE (13 R376, R382). -/
def Power.target (p : Power) (want step tj : Nat) : Nat :=
  let t := max (min 2 want) p.fastest
  if p.throttle ≤ tj then max t (min 2 (step + 1))
  else if p.throttle ≤ tj + 3 then max t step
  else t

/-- A request for a die's step: down at the next lc boundary, up after its rails have risen, never up while a latch is set (13 R378,
R381). -/
def Power.request0 (p : Power) (latched : Bool) (t : Nat) : Power :=
  if p.step0 < t then { p with step0 := t, up0 := none, slowAcc := 0 }
  else if t < p.step0 ∧ !latched then { p with up0 := some t }
  else { p with up0 := none }

/-- The same for die 1. -/
def Power.request1 (p : Power) (latched : Bool) (t : Nat) : Power :=
  if p.step1 < t then { p with step1 := t, up1 := none, slowAcc := 0 }
  else if t < p.step1 ∧ !latched then { p with up1 := some t }
  else { p with up1 := none }

/-- A request for the steps of both dies. -/
def State.requestSteps (s : State) (t0 t1 : Nat) : State :=
  { s with power := { (s.power.request0 s.latched t0).request1 s.latched t1 with heldStep := none } }

/-- Limits that the firmware sets, each brought into the range that it may set: ILIM from 40 to 72 A, EMERG and TRIP up to 15 °C lower
(13 R374, R376; log 86). -/
def Power.tighten (p : Power) (l : FwLimits) : Power :=
  { p with
    ilim := match l.ilim with | some v => max 40 (min 72 v) | none => p.ilim
    emerg := match l.emerg with | some v => max 90 (min 105 v) | none => p.emerg
    trip := match l.trip with | some v => max 100 (min 115 v) | none => p.trip }

/-- Whether a launch of a basin whose dies must agree waits while they differ (07 R234; 13 R382). -/
def State.launchHeld (s : State) : Bool :=
  decide (s.power.step0 ≠ s.power.step1) &&
    s.basins.any fun e => decide (e.2.launchStatus = lBusy) && s.laneCrosses e.1

/-- The manager's request for the two dies: where they must agree, a request that would part them waits until they need not (07 R234),
but a hot die, or a launch that waits, brings both to the lower step (13 R376, R382). -/
def State.chooseSteps (s : State) (t0 t1 : Nat) : State :=
  let p := s.power
  if !s.oneStep ∨ t0 = t1 then s.requestSteps t0 t1
  else if p.throttle ≤ p.tj0 ∨ p.throttle ≤ p.tj1 ∨ s.launchHeld then s.requestSteps (max t0 t1) (max t0 t1)
  else { s with power := { p with heldStep := some (t0, t1) } }

/-- A held one-die request goes on as soon as no basin needs the dies at one step (07 R234). -/
def State.releaseStep (s : State) : State :=
  match s.power.heldStep with
  | some t => if s.oneStep then s else s.requestSteps t.1 t.2
  | none => s

/-- POWER_MANAGER_EVAL (13 R374, R376, R382): the manager, which stands still in a management gap (R386), sets its own limits and asks
for a step of each die. What its policy wants, and the limits it sets, are the command's operands (log 33, log 86). -/
def execPowerManagerEval (want : Nat × Nat) (limits : FwLimits) (s : State) : Out State :=
  .next (if s.mgmt.phase ≠ .ready ∨ s.mgmt.gap ∨ s.power.clocksStopped then s
  else
    let s := { s with power := s.power.tighten limits }
    let p := s.power
    s.chooseSteps (p.target want.1 p.step0 p.tj0) (p.target want.2 p.step1 p.tj1))

/-- The steps after the rises in progress on some dies have ended. -/
def Power.raised (p : Power) (d0 d1 : Bool) : Power :=
  { p with
    step0 := if d0 then p.up0.getD p.step0 else p.step0, up0 := if d0 then none else p.up0
    step1 := if d1 then p.up1.getD p.step1 else p.step1, up1 := if d1 then none else p.up1, slowAcc := 0 }

/-- CLOCK_STEP_UP_DONE (13 R381): a die's rails have risen. Where the dies must agree both change at once, and a change that would
part them is held (07 R234). -/
def execClockStepUpDone (die : Nat) (s : State) : Out State :=
  let p := s.power
  let one := p.raised (decide (die = 0)) (decide (die = 1))
  let two := p.raised true true
  .next (if p.clocksStopped then s
  else if !s.oneStep then { s with power := one }
  else if (if die = 0 then p.up0 else p.up1).isSome ∧ two.step0 = two.step1 then { s with power := two }
  else s)

/-! ### Reunion -/

/-- A lattice time of die 1 in die 0's numbers. -/
def State.shifted (s : State) (t : Nat) : Nat := t + s.time0 - s.time1

/-- Whether a basin keeps die 1 from taking die 0's lattice time: it has cores there and a sluice between its first token and the
next segment's start (07 R235). -/
def State.keepsTime (s : State) (v : Basin) : Bool :=
  decide (v.phase ≠ .free) && decide (8 < v.desc.originCol + v.desc.width) &&
    ((match v.sluice with | some q => !q.tokens.isEmpty | none => false) ||
      (decide (v.phase = .running) && !v.seg.started && decide (s.time1 < v.seg.start1)))

/-- Die 1 takes die 0's lattice time: every time of die 1 that the state holds shifts with it, so every schedule keeps its relative
timing (07 R235; log 34). -/
def State.takeTime (s : State) : State :=
  let f := s.shifted
  let on1 := fun (r : Nat) => decide (dieOf r = 1)
  { s with
    time1 := s.time0
    basins := SMap.mapV {} s.basins fun _ v => { v with seg := { v.seg with start1 := f v.seg.start1 } }
    links := s.links.map fun x => if on1 x.router then { x with at_ := f x.at_ } else x
    transit := s.transit.map fun x => if on1 x.router then { x with notBefore := f x.notBefore } else x
    adders := SMap.mapV {} s.adders fun k a =>
      if on1 (k / 16) then
        { a with ops := a.ops.map fun o => { o with at_ := f o.at_ }, lastOp := a.lastOp.map f }
      else a
    seamTaken := s.seamTaken.map fun e => if e.2.1 then e else (e.1, e.2.1, f e.2.2)
    ports := SMap.mapV {} s.ports fun n p =>
      if 6 ≤ n then { p with merge := p.merge.map fun m => { m with ends := f m.ends } } else p }

/-- DIE_STEP_REUNION (07 R235): the dies run at one step again, their times agree modulo 16, and no sluice is under way on die 1. -/
def execDieStepReunion (s : State) : Out State :=
  .next (if s.power.step0 = s.power.step1 ∧ s.time0 % 16 = s.time1 % 16 ∧ s.time0 ≠ s.time1 ∧
      !(s.basins.any fun e => s.keepsTime e.2) then
    s.takeTime
  else s)

/-! ### The reference -/

/-- REFCLK_LOST (13 R383). -/
def execRefclkLost (s : State) : Out State :=
  .next (if s.mgmt.phase = .inReset ∨ s.power.refLost then s
  else { s with power := { s.power with holdover := true, refLost := true, pllLock := false } }.latch false 5)

/-- REFCLK_HOLDOVER_EXPIRY (13 R383): running basins halt, the clocks stop and FAULT_N asserts. -/
def execRefclkHoldoverExpiry (s : State) : Out State :=
  .next (if s.power.refLost ∧ !s.power.refStop then
    let s := { s with power := { s.power with clocksStopped := true, refStop := true, faultN := true, holdover := false } }
    (s.basins.map (·.1)).foldl State.haltForClocks s
  else s)

/-- The clocks start again after a stop (13 R383): the HBM PHYs and the SerDes retrain, and due tests start. -/
def State.restartClocks (s : State) : State :=
  let s := { s with power := { s.power with
    refStop := false, clocksStopped := s.power.tripped, faultN := decide (600 < s.power.vin) } }
  let s := (List.range 12).foldl (fun s n =>
    match (s.port n).st with
    | .inService | .draining | .drained => s.requestRetrain n
    | _ => s) s
  let s := (List.range 4).foldl (fun s n => if (s.group n).link then s.updGroup n fun g => { g with recalBusy := true } else s) s
  let s := s.basins.foldl (fun s e => if (s.basin e.1).atRest then s.restTest e.1 else s) s
  s.testUnbound

/-- REFCLK_RETURN (13 R383): within 1 ms the PLL relocks and nothing else happens; later, the clocks restart. -/
def execRefclkReturn (s : State) : Out State :=
  .next (if s.power.refLost then
    let s := { s with power := { s.power with holdover := false, refLost := false, pllLock := true } }
    if s.power.refStop then s.restartClocks else s
  else s)

/-! ### Registers -/

/-- A write of PWR_CAP takes effect (13 R388). -/
def State.setCap (s : State) (v : BitVec 32) : State :=
  { s with power := { s.power with cap := max 600 (min 2600 (bits v.toNat 11 0)) } }

/-- A write of PWR_TJ takes effect: a THROTTLE above its reset value, or at or above EMERG, stores the lower of the two (13 R388). -/
def State.setTj (s : State) (v : Word) : State :=
  let t := bits v.toNat 23 16
  let e := s.power.emerg
  { s with power := { s.power with throttle := if 95 < t ∨ e ≤ t then min 95 e else t } }

/-- A write that takes effect when a management gap ends (13 R386). -/
def State.heldWrite (s : State) (h : Held) (f : State → State) : State :=
  if s.mgmt.gap then { s with mgmt := { s.mgmt with held := s.mgmt.held ++ [h] } } else f s

/-- PWR_CAP_WRITE (13 R386, R388). -/
def execPwrCapWrite (v : BitVec 32) (s : State) : Out State :=
  .next (s.fromHost fun s => s.heldWrite (.pwrCap v) fun s => s.setCap v)

/-- PWR_TJ_WRITE (13 R386, R388). -/
def execPwrTjWrite (v : Word) (s : State) : Out State :=
  .next (s.fromHost fun s => s.heldWrite (.pwrTj v) fun s => s.setTj v)

/-- MEMP_WEIR_TH_WRITE (09 R289). -/
def execMempWeirThWrite (v : BitVec 32) (s : State) : Out State :=
  let x := v.toNat
  let t1 := min 90 (bits x 7 0)
  let t2 := min 95 (bits x 15 8)
  let t3 := min 100 (bits x 23 16)
  let t4 := min 105 (bits x 31 24)
  .next (s.fromHost fun s =>
    if 60 ≤ t1 ∧ t1 < t2 ∧ t2 < t3 ∧ t3 < t4 then
      { s with tier := { s.tier with weirTh := BitVec.ofNat 32 (t4 * 2 ^ 24 + t3 * 2 ^ 16 + t2 * 2 ^ 8 + t1) } }
    else s)

/-- Whether an extent holds a host-tier frame in use (09 R285). -/
def State.extentUsed (s : State) (n : Nat) : Bool :=
  s.hostSpans.any fun e => decide (e.1 = n) && s.hostUsed.any fun f => decide (e.2.1 ≤ f) && decide (f < e.2.1 + e.2.2)

/-- The base word of an extent after a write (09 R285, R289): while it is enabled its address stays. -/
def extentBase (old v : Nat) : Nat := (if bit old 0 then bits old 63 21 else bits v 63 21) * 2 ^ 21 + bits v 0 0

/-- An extent's word after a write of all its bits (09 R285, R289): a write that would take away or renumber frames in use is ignored,
and pages that wait for a host frame go on (06 R184). -/
def State.setExtent (s : State) (n : Nat) (limit : Bool) (v : Nat) : State :=
  let old := (s.extent n).1
  let put := fun (k x : Nat) =>
    ({ s with tier := { s.tier with ext := SMap.set 0 s.tier.ext k (BitVec.ofNat 64 x) } } : State).advanceTier
  if 8 ≤ n then s
  else if limit then (if bit old 0 then s else put (2 * n + 1) (bits v 63 21 * 2 ^ 21))
  else if bit old 0 ≠ bit v 0 ∧ ((List.range 8).any fun m => (decide (n < m) || decide (m = n)) && s.extentUsed m) then s
  else put (2 * n) (extentBase old v)

/-- TIER_HOST_EXT_WRITE (09 R285, R289). -/
def execTierHostExtWrite (n : Nat) (limit : Bool) (v : Word) (s : State) : Out State :=
  .next (s.fromHost fun s => s.setExtent n limit v.toNat)

end Sys2Proof.Machine
end

