-- ==== Sys2Proof/Machine/Management.lean ====
section
/-! DEFINITION. The management core: recoveries (13 R366; 14 R403), activation (13 R384 to R387; 15 R424, R425), management gaps
(13 R386), the power-up sequence (13 R371; 14 R407, R410; 17 R463 to R466) and the loss of supplies. -/

namespace Sys2Proof.Machine

/-! ### The end of a gap -/

/-- A REPORTS_LOST report follows once the ring has room (14 R410, R411; 13 R386). -/
def State.reportLost (s : State) : State :=
  if s.rel.lostPending = 0 ∨ s.mgmt.gap ∨ 256 ≤ (s.rel.produced + 2 ^ 32 - s.rel.consumed) % 2 ^ 32 then s
  else
    let n := s.rel.lostPending
    { s with rel := { s.rel with lostPending := 0 } }.report { event := 0x12, detail := n }

/-- An access that waited runs (13 R386). -/
def State.runHeld (s : State) (h : Held) : State :=
  match h with
  | .launch b img => if (s.basin b).launchStatus = lBusy then s.runLaunch b false img else s
  | .resume b img => if (s.basin b).launchStatus = lBusy then s.runLaunch b true img else s
  | .pwrCap v => s.setCap v
  | .pwrTj v => s.setTj v
  | .clkCtrl v => { s with power := { s.power with stepMin := bits v.toNat 1 0 } }
  | .keyed op k => s.runKeyed op k

/-- What waited runs in arrival order (13 R371, R385). -/
def State.runWaiting (s : State) : State :=
  s.mgmt.held.foldl State.runHeld { s with mgmt := { s.mgmt with held := [] } }

/-- Tests that are due start, where nothing holds them (14 R395). -/
def State.startDue (s : State) : State :=
  (s.basins.foldl (fun s e => if (s.basin e.1).atRest then s.restTest e.1 else s) s).testUnbound

/-- A cluster without a basin switches off when the last test in it has ended, and after a management gap (13 R370, R386). -/
def State.leaveCluster (s : State) (c : Nat) : State :=
  if s.mgmt.gap || (s.basinOf c).isSome || s.rel.testing.any (fun x => decide (clusterOf x = clusterOf c)) then s
  else s.switchClusters false [clusterOf c]

/-- Clusters whose last test ended in a management gap switch off when it ends (13 R370, R386). -/
def State.leaveClusters (s : State) : State :=
  (List.range 64).foldl (fun s k => s.leaveCluster (512 * (k / 16) + 4 * (k % 16))) s

/-- A management gap ends (13 R385, R386, R388): queued reports are posted, waiting commands and writes run, domains
follow what changed in it, and evictions and tests go on. -/
def State.endGap (s : State) : State :=
  let q := s.rel.gapQueue
  let s := { s with
    mgmt := { s.mgmt with
      gap := false, recovering := false, activating := none, fallback := false, gapMs := min 65535 (s.mgmt.gapUs / 1000) }
    rel := { s.rel with gapQueue := [] } }
  (((q.foldl State.postReport s).reportLost.runWaiting.advanceTier).ethDomains.leaveClusters).startDue

/-! ### Recovery -/

/-- WATCHDOG_RECOVERY (13 R366; 14 R403, R408, R409): `cause` 1 watchdog, 2 PMP, 3 exception, 4 SRAM. The core boots the active slot
again, and the third recovery within 10 minutes boots in ROM recovery mode. A repetition of the same component and cause before the
earlier one is classified is permanent. During an activation its own time limit governs (log 35). -/
def execWatchdogRecovery (component cause : Nat) (s : State) : Out State :=
  .next (if s.mgmt.phase ≠ .ready ∨ (s.mgmt.gap ∧ !s.mgmt.recovering) ∨ 5 < component ∨ cause < 1 ∨ 4 < cause then s
  else
    let again := s.mgmt.unsettled.contains (component, cause)
    let recent := s.usec :: s.mgmt.recoveries.filter fun t => decide (s.usec ≤ t + 600000000)
    let us := s.mgmt.unsettled.filter fun e => decide (e ≠ (component, cause))
    let s := { s with mgmt := { s.mgmt with
      wdog := satAdd 16 s.mgmt.wdog 1, recoveries := recent
      unsettled := if again then us else us ++ [(component, cause)] } }
    let s := if s.mgmt.gap then s else s.beginGap true
    let s := { s with fwu := s.fwu.endStaging }.report
      { event := 0x0F, kind := 6, cls := if again then 1 else 2, addr := component, detail := cause }
    if 3 ≤ recent.length then s.enterRecovery
    else match s.romBoot with
      | some s => s
      | none => s.markActive.enterRecovery)

/-- MGMT_RECOVERY_CLASSIFY (14 R403, R408): the earliest recovery not yet classified has gone 10 minutes without a recovery of its
component and cause. -/
def execMgmtRecoveryClassify (s : State) : Out State :=
  .next (match s.mgmt.unsettled with
    | e :: es =>
      if s.mgmt.gap then s
      else { s with mgmt := { s.mgmt with unsettled := es } }.report { event := 0x0F, kind := 6, cls := 0, addr := e.1, detail := e.2 }
    | [] => s)

/-- The end of an activation, in either outcome (13 R385, R388; 11 R344): PF0 vector 1 and the keyed command's status. -/
def State.endActivation (s : State) (st : Nat) : State :=
  ({ s with mgmt := { s.mgmt with activations := satAdd 16 s.mgmt.activations 1 } }.notify .pf0 1).endKeyed st

/-- RECOVERY_GAP_END (13 R366, R385, R386): the restored components report ready; an activation that fell back completes FAILED, with
its staged image still verified. -/
def execRecoveryGapEnd (s : State) : Out State :=
  .next (if !s.mgmt.gap then s
  else if s.mgmt.activating.isSome then
    if s.mgmt.fallback then
      ({ s with fwu := { s.fwu with state := 3 } }.endActivation kActFailed).endGap
    else s
  else s.endGap)

/-- ACTIVATION_READY (13 R385; 15 R424, R425): the new components report ready; the slot is the active one, and a COMMIT blows the SVN
fuses. The ROM's digest check of step 4 holds: no command changes a slot that is VERIFIED. -/
def execActivationReady (s : State) : Out State :=
  .next (match s.mgmt.activating with
    | some (slot, commit) =>
      if !s.mgmt.gap ∨ s.mgmt.fallback then s
      else
        let s := s.runSlot slot
        let s := if commit then s.blowFuses (s.slot slot).svn else s
        ({ s with fwu := { s.fwu with state := 0, units := [], block := none } }.endActivation kDone).endGap
    | none => s)

/-- ACTIVATION_FALLBACK (13 R385): the core resets into the previous image. -/
def execActivationFallback (s : State) : Out State :=
  .next (if s.mgmt.gap ∧ s.mgmt.activating.isSome then { s with mgmt := { s.mgmt with fallback := true } } else s)

/-! ### Power-up -/

/-- The event codes that are charged to a unit classified by history (14 R390, R402, R409). -/
def charged (r : Report) : Bool := [0x01, 0x02, 0x04, 0x05, 0x06, 0x07, 0x08, 0x0A, 0x0B, 0x0D].contains r.event

/-- The history of the last 30 days, rebuilt from the log (14 R410). -/
def State.rebuildHistory (s : State) : State :=
  let rs := s.rel.log.filter fun r => charged r && decide (s.powered ≤ r.time + 2592000)
  { s with rel := { s.rel with history := rs.map fun r => { kind := r.kind, index := r.index, time := r.time } } }

/-- Applies an entry of the fence table (14 R407). -/
def State.applyEntry (s : State) (e : Nat × Nat) : State :=
  match e.1 with
  | 1 => s.updCore e.2 fun k => { k with fenced := true }
  | 2 =>
    let s := s.updCore e.2 fun k => { k with fenced := true }
    { s with rel := { s.rel with routerFenced := SMap.set false s.rel.routerFenced e.2 true } }
  | 3 => s.updEngine e.2 fun x => { x with st := .fenced }
  | 4 => s.updPort (stackOf e.2) fun p =>
      if p.fencedFrames.contains e.2 then p else { p with fencedFrames := p.fencedFrames ++ [e.2] }
  | _ => s

/-- POWER_ON_RESET_EXIT (13 R369, R371; 15 R413, R418, R443; 17 R464, R470, R473): supplies are in range, RECOVERY_N is sampled, the
root PLL locks, XSPI_RESET_N pulses low, the security block tests itself and the ROM boots. `strap` is RECOVERY_N low. Without a
valid copy of the slot directory the ROM enters its recovery mode. Held in reset, the device
stays there until the input exceeds 40 V, and while it lies above 64 V. -/
def execPowerOnResetExit (strap : Bool) (rom : RomChecks) (s : State) : Out State :=
  .next (if s.mgmt.phase ≠ .inReset ∨ 640 < s.power.vin ∨ (s.power.undervoltage ∧ s.power.vin ≤ 400) then s
  else
    let s := { s with
      mgmt := { s.mgmt with pwrgood := true, vioOk := true, recoveryStrap := strap }
      power := { s.power with undervoltage := false, faultN := decide (600 < s.power.vin), pllLock := true }
      sec := { s.sec with fips := if rom.selfTestOk then .operational else .error } }
    let s := (s.emit .xspiReset).readDirectory rom.badDir0 rom.badDir1
    if strap || s.fwu.directory.isNone then s.enterRecovery
    else match s.romBoot with
      | some s => { s with mgmt := { s.mgmt with phase := .poweringUp } }
      | none => s.markActive.enterRecovery)

/-- POWER_UP_READY (13 R370, R371; 14 R407, R410): domains are on, the fence table is applied, and what waited runs. -/
def execPowerUpReady (s : State) : Out State :=
  .next (if s.mgmt.phase ≠ .poweringUp then s
  else
    let n := onBits (3 &&& ~~~s.power.latOn) + onBits (0xFFF &&& ~~~s.power.mempOn)
    let q := s.rel.gapQueue
    let s := { s with
      mgmt := { s.mgmt with phase := .ready }
      power := { s.power with latOn := 3, mempOn := 0xFFF }
      rel := { s.rel with gapQueue := [], testBase := s.powered } }
    (q.foldl State.postReport ((s.rel.fenceTable.foldl State.applyEntry (s.count .device 0 9 n)).rebuildHistory)).runWaiting.ethDomains)

/-! ### Loss of supplies -/

/-- PWRGOOD_FALL (17 R465): a flash operation in progress finishes, and the device enters power-on reset. -/
def execPwrgoodFall (s : State) : Out State :=
  .next (if s.mgmt.pwrgood then { s with mgmt := { s.mgmt with pwrgood := false } }.loseAll else s)

/-- VIO_MGT_LOSS (17 R460): the open-drain outputs are released and the device enters power-on reset. -/
def execVioMgtLoss (s : State) : Out State :=
  .next (if s.mgmt.vioOk then
    let s := { s with mgmt := { s.mgmt with vioOk := false } }.loseAll
    { s with power := { s.power with thermN := false, faultN := false } }
  else s)

/-- POWERED_TIME_SAVE (14 R408): powered time goes to the flash. -/
def execPoweredTimeSave (s : State) : Out State :=
  .next (if s.mgmt.phase = .ready then { s with rel := { s.rel with poweredFlash := s.powered } } else s)

/-- QUARRY_DOMAIN_OFF (13 R370): 1 ms after the last test. -/
def execQuarryDomainOff (s : State) : Out State :=
  .next (if s.rel.testing.isEmpty then s.switchQuarry false else s)

end Sys2Proof.Machine
end

