-- ==== Sys2Proof/Machine/Reliability.lean ====
section
/-! DEFINITION. Quarry tests (14 R392 to R397), shadow comparison (R400, R401), and the error ring (R411). -/

namespace Sys2Proof.Machine

/-! ### Due cores -/

/-- QUARRY_DUE (14 R395): a core falls due. An unbound core, or a basin at rest, is tested at once; a RUNNING basin at its next
checkpoint sluice or restart. -/
def execQuarryDue (c : Nat) (s : State) : Out State :=
  .next (if s.mgmt.phase ≠ .ready ∨ 2048 ≤ c ∨ (s.core c).fenced then s
  else
    let s := if s.rel.due.contains c then s else { s with rel := { s.rel with due := s.rel.due ++ [c] } }
    match s.basinOf c with
    | none => s.testUnbound
    | some b =>
      match (s.basin b).phase with
      | .idle | .parked | .halted => if s.inTest b || !s.canTest then s else s.startTest b
      | _ => s)

/-! ### Pairs -/

/-- Whether two clusters share an edge. -/
def adjacentClusters (c d : Nat) : Bool :=
  (decide (c / 16 = d / 16) && (decide (c + 1 = d) || decide (d + 1 = c))) || decide (c + 16 = d) || decide (d + 16 = c)

/-- Whether Quarry may pair a core with another (14 R393): its partner within the cluster, else an unfenced core of an adjacent
cluster of its basin, else a core of an unbound cluster, which an emergency latch or a management gap keeps off (13 R378, R386). -/
def State.pairs (s : State) (c d : Nat) : Bool :=
  let live := fun (x : Nat) => decide (x < 2048) && !(s.core x).fenced
  let free := fun (x : Nat) => (s.basinOf x).isNone
  match s.partner c with
  | some e =>
    let near := (c / 64 = e / 64)
    decide (d = e) || (decide (¬near) && live d && decide (clusterOf d = clusterOf c) && decide (d ≠ c))
  | none =>
    let beside := fun (x : Nat) => live x && adjacentClusters (clusterOf c) (clusterOf x) && !free x && decide (s.basinOf x = s.basinOf c)
    if (List.range 2048).any beside then beside d
    else live d && free d && decide (d ≠ c) && (s.power.clusterOn.getLsbD (clusterOf d) || !(s.latched || s.mgmt.gap))

/-! ### Results -/

/-- A charge of a pair test (14 R394, R409, R412). -/
def State.chargeTest (s : State) (event c partner phase : Nat) : State :=
  let s := { s with rel := { s.rel with fails := satAdd 16 s.rel.fails 1 } }
  s.charge 1 c event partner phase 0 (s.basinOf c)

/-- The outcome of the retests (14 R394). -/
def State.judge (s : State) (r : QuarryResult) : State :=
  if r.failPhase = 0 then s
  else if !r.aDiffers && !r.bDiffers then
    (s.chargeTest 0x0B r.coreA r.coreB r.failPhase).chargeTest 0x0B r.coreB r.coreA r.failPhase
  else
    let s := if r.aDiffers then s.chargeTest 0x0A r.coreA r.coreB r.failPhase else s
    if r.bDiffers then s.chargeTest 0x0A r.coreB r.coreA r.failPhase else s

/-- A residue failure during a test (14 R390, R394): an adder's is classified by the retest, which repeats it or not (R403; log 36). -/
def State.testResidue (s : State) (all : List (Nat × Nat)) (f : Nat × Nat) : State :=
  let c := f.1
  let h := (s.core c).hrec
  let b := s.basinOf c
  match f.2 with
  | 1 => s.charge 1 c 0x01 h.causeWord h.pcWord 0 b
  | 2 => s.charge 1 c 0x02 h.causeWord h.pcWord 0 b
  | 3 =>
    let again := decide (1 < (all.filter fun g => decide (g = f)).length)
    let s := s.report { event := 0x03, kind := 2, cls := if again then 1 else 0, action := if again then s.fenceAction 2 c else 0
                        basin := b, index := c }
    if again then s.fenceCore 2 c else s
  | _ => s

/-- A core as a test leaves it (14 R396): zero outside its protected areas, tiles FREE and the armed set empty. -/
def Core.tested (k : Core) : Core :=
  let keep := fun (a : Nat) => k.protectedAreas.any fun r => decide (r.1 ≤ a) && decide (a < r.1 + r.2)
  { k with sp := k.sp.filter fun e => keep e.1, spPoison := k.spPoison.filter fun e => keep (64 * e.1)
           tiles := [], fullSeq := 0, armed := {} }

/-- A core's test ends (14 R395, R412). -/
def State.coreTested (s : State) (c : Nat) : State :=
  { s.updCore c Core.tested with rel := { s.rel with
      testing := s.rel.testing.filter fun x => decide (x ≠ c), due := s.rel.due.filter fun x => decide (x ≠ c)
      lastTest := SMap.set 0 s.rel.lastTest c s.powered } }

/-- The tests of a basin have ended (14 R396): a paused basin resumes from its record, unless a PENDING re-bind or a PARK_REQ waits;
one at rest takes its PENDING re-bind. -/
def State.endPause (s : State) (b : Nat) : State :=
  let v := s.basin b
  let s := { s with rel := { s.rel with overdue := s.rel.overdue.filter fun x => decide (x ≠ b) } }
  if v.phase = .running ∧ v.testPause then
    if v.pendingRebind.isSome || v.parkReq then (s.stopCores b).enterParked b
    else (s.restoreCores b v.back).updBasin b fun v => { v with testPause := false }
  else if v.atRest then s.takeRebind b
  else s

/-- What ends with a core's test. -/
def State.afterTest (s : State) (c : Nat) : State :=
  match s.basinOf c with
  | some b => if s.inTest b then s else s.endPause b
  | none => s.leaveCluster c

/-- QUARRY_TEST_DONE (14 R392 to R396): a pair test with its retests ends. The domain of a partner in an unbound cluster was on for it
(R393; 13 R370). -/
def execQuarryTestDone (r : QuarryResult) (s : State) : Out State :=
  .next (if !s.rel.testing.contains r.coreA || 6 < r.failPhase || !s.pairs r.coreA r.coreB then s
  else
    let s := { s with rel := { s.rel with tests := satAdd 32 s.rel.tests 1 } }.count .device 0 11 1
    let s := if (s.basinOf r.coreB).isNone then s.switchClusters true [clusterOf r.coreB] else s
    let s := (s.coreTested r.coreA).coreTested r.coreB
    let s := r.residue.dedup.foldl (fun s f => if f.1 = r.coreA ∨ f.1 = r.coreB then s.testResidue r.residue f else s) s
    ((s.judge r).afterTest r.coreA).afterTest r.coreB)

/-! ### Overdue -/

/-- The powered second of a core's last test; before one in this power-up, of the power-up (log 36). -/
def State.lastTested (s : State) (c : Nat) : Nat := max s.rel.testBase (SMap.get 0 s.rel.lastTest c)

/-- Hours since the oldest test of a list of cores. -/
def State.oldestHours (s : State) (cs : List Nat) : Nat :=
  cs.foldl (fun h c => max h ((s.powered - s.lastTested c) / 3600)) 0

/-- QUARRY_OVERDUE (14 R397): a core of a basin is overdue, and again each hour. -/
def execQuarryOverdue (b : Nat) (s : State) : Out State :=
  .next (if s.mgmt.phase ≠ .ready ∨ (s.basin b).phase = .free then s
  else
    let s := { s with rel := { s.rel with overdue := if s.rel.overdue.contains b then s.rel.overdue else s.rel.overdue ++ [b] } }
    (s.report { event := 0x0C, basin := some b, addr := s.oldestHours (s.liveCores b) }).notify .pf0 4)

/-! ### Shadow sampling -/

/-- SHADOW_COMPARE (14 R400, R401): core `d` recomputes the window of the capsule in its buffer and compares the tiles. Where they differ,
a second recompute that agrees with the first halts the sampled core; one that does not charges the partner. `first` and `second` are
faults that strike the recomputes (log 17). -/
def execShadowCompare (d : Nat) (first second : Option Upset) (s : State) : Out State :=
  .next (match (s.core d).capsule with
    | none => s
    | some k =>
      let s := (s.updCore d fun p => { p with capsule := none }).count .device 0 12 1
      let b := s.basinOf k.core
      let index := match b with
        | some b => (s.basin b).desc.coreIndex k.core
        | none => 0
      if (k.recompute first).agrees k.tile then s
      else if (k.recompute second).agrees (k.recompute first) then
        let s := s.haltBoth k.core 3 cResidue 0x04
        let act := match b with
          | some b => if (s.basin b).phase = .restarting then 1 else 0
          | none => 0
        s.charge 1 k.core 0x04 index k.pass act b
      else s.charge 1 d 0x04 index k.pass 0 b)

/-! ### The error ring -/

/-- ERR_CONSUMED_WRITE (14 R411, R412): entries are freed, and a report of those lost follows. -/
def execErrConsumedWrite (v : BitVec 32) (s : State) : Out State :=
  .next (s.fromHost fun s => { s with rel := { s.rel with consumed := v.toNat } }.reportLost)

end Sys2Proof.Machine
end

