-- ==== Sys2Proof/Machine/Security.lean ====
section
/-! DEFINITION. Debug nonces and the debug lock (15 R436, R438), the FIPS error state (R443), and the SPDM responder (R433, R434, R440,
R441; 11 R324). Response codes are those of DMTF DSP0274 (PRESUMED, log 9); what an answer says beyond the spec's words is a free
value. -/

namespace Sys2Proof.Machine

/-! ### Debug -/

/-- NEW_NONCE (15 R436): the DRBG gives a fresh nonce; in the FIPS error state it stands still (R443). -/
def State.newNonce (s : State) : State :=
  if s.sec.fips ≠ .operational then s
  else { s with sec := { s.sec with nonce := some (Config.nonce s.sec.nonceCount), nonceCount := s.sec.nonceCount + 1 } }

/-- NEW_NONCE (15 R436, R443). -/
def execNewNonce (s : State) : Out State := .next (s.fromHost State.newNonce)

/-- NONCE_EXPIRY (15 R436). -/
def execNonceExpiry (s : State) : Out State := .next { s with sec := { s.sec with nonce := none } }

/-- LOCK of SEC_DEBUG_CTRL: the debug scope returns to 0 (15 R438). -/
def State.debugLock (s : State) : State := { s with sec := { s.sec with scope := 0 } }

/-- DEBUG_LOCK (15 R438). -/
def execDebugLock (s : State) : Out State := .next (s.fromHost State.debugLock)

/-- FIPS_ERROR (15 R443; 11 R324, R344): every cryptographic service stops, and a link that uses IDE enters the insecure state. -/
def execFipsError (s : State) : Out State :=
  .next (if s.mgmt.phase = .inReset ∨ s.sec.fips = .error then s
  else
    let s := { s with sec := { s.sec with fips := .error } }
    if s.link.up ∧ s.link.ideKeys then
      { s with link := { s.link with insecure := true, ideFail := true } }.notify .pf0 6
    else s)

/-! ### I3C -/

/-- The device's I3C target is there while it is out of power-on reset (17 R460). -/
def State.i3cOn (s : State) : Bool := s.mgmt.vioOk && decide (s.mgmt.phase ≠ .inReset)

/-- Whether the device acknowledges its dynamic address: its firmware runs, and no management gap lasts (17 R471). -/
def State.i3cAnswers (s : State) : Bool :=
  s.i3cOn && s.side.i3cAddr.isSome && decide (s.mgmt.phase = .ready) && !s.mgmt.gap

/-- A request at the dynamic address: without an answer it is not acknowledged, and the controller retries (17 R471). -/
def State.overI3c (s : State) (f : State → State) : State := if s.i3cAnswers then f s else s.emit .i3cNack

/-! ### SPDM -/

/-- Whether a function has a DOE mailbox: the VF of a FREE basin is disabled (11 R318). -/
def State.fnOpen (s : State) : HostFn → Bool
  | .pf0 => true
  | .vf b => decide (b < 64) && decide ((s.basin b).phase ≠ .free)

/-- An SPDM request is answered, with an error in the FIPS error state (15 R443). -/
def State.spdm (s : State) (p : SpdmPort) (f : State → State) : State :=
  if s.sec.fips ≠ .operational then s.emit (.spdmError p) else f s

/-- An SPDM request reaches the responder (15 R426, R440; 17 R471): there is no DOE in ROM recovery mode. -/
def State.toSpdm (s : State) (p : SpdmPort) (f : State → State) : State :=
  match p with
  | .doe fn => s.fromHost fun s => if s.fnOpen fn then s.spdm p f else s
  | .mctp => s.overI3c fun s => s.spdm p f

/-- The same for the messages that establish IDE keys anew, which reach the mailbox in the IDE insecure state (11 R324; log 37). -/
def State.toSession (s : State) (p : SpdmPort) (f : State → State) : State :=
  match p with
  | .doe fn => if s.mgmt.phase = .recovery ∨ !s.link.up ∨ !s.fnOpen fn then s else s.spdm p f
  | .mctp => s.overI3c fun s => s.spdm p f

/-- An answer that the alias key of this boot signs: what the spec gives of it, and a signature that key makes of it (15 R439, R441;
log 9). -/
def State.spdmAnswer (s : State) (port : SpdmPort) (code : Nat) (known : List Byte) : State :=
  (s.emit (.spdmRsp port code (known ++ Config.spdmSigned s.aliasKey known s.freeCtr))).tick

/-- Whether a request comes inside the secured session, which PF0 alone carries (15 R440). -/
def State.inSession (s : State) (port : SpdmPort) (secured : Bool) : Bool :=
  secured && decide (port = .doe .pf0) && decide (s.sec.sessionFn = some .pf0)

/-- The status of a SET_CMD_KEY (15 R434). -/
def State.setKeyStatus (s : State) (port : SpdmPort) (secured : Bool) (payload : List Byte) : Nat :=
  if s.sec.cmdKey.isSome then 1
  else if !s.inSession port secured then 2
  else if payload.length ≠ 52 ∨ payload.headD 0 ≠ 1 ∨ leNat ((payload.drop 1).take 3) ≠ 0 ∨ leNat (payload.drop 4) = 0 then 3
  else 0

/-- SET_CMD_KEY (15 R433, R434; 17 R471): a request of another vendor's is no request of this device, nor is one over MCTP. -/
def execSetCmdKey (port : SpdmPort) (secured : Bool) (vendor : BitVec 16) (payload : List Byte) (s : State) : Out State :=
  .next (s.toSpdm port fun s =>
    if port = .mctp ∨ vendor ≠ Config.vendorId then s.emit (.spdmError port)
    else
      let st := s.setKeyStatus port secured payload
      let s := if st = 0 then
          { s with sec := { s.sec with cmdKey := some (digestVec (payload.drop 4)), lastCounter := 0 } }
        else s
      s.emit (.spdmRsp port 0x7E [0x81, BitVec.ofNat 8 st, 0, 0]))

/-- Measurement `i` as a port may read it (15 R441; 17 R471). -/
def State.measurement (s : State) (port : SpdmPort) (i : Nat) : Option (List Byte) :=
  let x := s.sec
  if 1 ≤ i ∧ i ≤ 4 then some (s.bootMeasure i)
  else if i = 5 then
    some (sha384 (((List.range 8).flatMap fun n => vecBytes (SMap.get 0 x.ownerKeys n)) ++ [if x.verifier.isSome then 1 else 0]))
  else if 0x40 ≤ i ∧ i < 0x80 ∧ (port = .doe .pf0 ∨ port = .doe (.vf (i - 0x40))) then some (vecBytes (s.basin (i - 0x40)).measurement)
  else none

/-- GET_MEASUREMENTS (15 R441): the block and a signature by the alias key. -/
def execGetMeasurements (port : SpdmPort) (index : Nat) (s : State) : Out State :=
  .next (s.toSpdm port fun s =>
    match s.measurement port index with
    | some m => s.spdmAnswer port 0x60 m
    | none => s.emit (.spdmError port))

/-- GET_CERTIFICATE (15 R439, R440): slot 0 alone holds a chain: vendor root, vendor intermediate, DeviceID, and the alias key, which
the DeviceID key certifies with the measurements of this boot. -/
def execGetCertificate (port : SpdmPort) (slot : Nat) (s : State) : Out State :=
  .next (s.toSpdm port fun s =>
    if slot = 0 then
      s.emit (.spdmRsp port 0x02
        (Config.vendorChain (publicKey deviceIdKey) ++ Config.aliasCert deviceIdKey (publicKey s.aliasKey) s.sec.tcbInfo))
    else s.emit (.spdmError port))

/-- CHALLENGE (15 R440): the answer signs the requester's nonce with the alias key. -/
def execChallenge (port : SpdmPort) (nonce : BitVec 256) (s : State) : Out State :=
  .next (s.toSpdm port fun s => s.spdmAnswer port 0x03 (vecBytes nonce))

/-- KEY_EXCHANGE (15 R440): a secured session opens on PF0; no other function carries one. -/
def execKeyExchange (port : SpdmPort) (exchange : BitVec 768) (s : State) : Out State :=
  .next (s.toSession port fun s =>
    if port = .doe .pf0 then
      { s with sec := { s.sec with sessionFn := some .pf0, sessionKeys := s.sec.sessionKeys + 1 } }.spdmAnswer port 0x64 (vecBytes exchange)
    else s.emit (.spdmError port))

/-- SPDM_KEY_UPDATE (15 R440): the session's keys change. -/
def execSpdmKeyUpdate (port : SpdmPort) (s : State) : Out State :=
  .next (s.toSession port fun s =>
    if s.inSession port true then
      { s with sec := { s.sec with sessionKeys := s.sec.sessionKeys + 1 } }.emit (.spdmRsp port 0x69 [])
    else s.emit (.spdmError port))

/-- IDE_KM_KEY_PROG (11 R324; 15 R440): IDE keys are set, only inside a secured session on PF0, and the insecure state ends. -/
def execIdeKmKeyProg (port : SpdmPort) (secured : Bool) (s : State) : Out State :=
  .next (s.toSession port fun s =>
    if s.inSession port secured then { s with link := { s.link with ideKeys := true, insecure := false } }
    else s.emit (.spdmError port))

end Sys2Proof.Machine
end

