-- ==== Sys2Proof/Machine/Counters.lean ====
section
/-! DEFINITION. The counter reader (16 R449 to R456): snapshots, records, the ring and the basins' views. One PMC_SNAPSHOT is one
snapshot tick, T ticks after the one before (log 38). -/

namespace Sys2Proof.Machine

/-! ### Records -/

/-- The groups in bit order, with their instances and counters per instance (16 R447). -/
def cntGroups : List (CntGroup × Nat × Nat) :=
  [(.core, 2048, 40), (.router, 2048, 8), (.memp, 12, 16), (.tier, 1, 8), (.eth, 4, 8), (.cxl, 1, 8), (.device, 1, 16),
   (.basin, 64, 16)]

/-- The groups that a record holds. -/
def enabledGroups (groups : Nat) : List (CntGroup × Nat × Nat) := cntGroups.filter fun g => bit groups g.1.num

/-- The length of a record (16 R451). -/
def recordBytes (groups : Nat) : Nat := 64 + ((enabledGroups groups).map fun g => 8 * g.2.1 * g.2.2).sum

/-- T, in ticks: the reader writes 320,000 bytes in one (16 R450). -/
def windowT (window groups : Nat) : Nat := max (max 1 (min 100000 window)) (ceilDiv (recordBytes groups) 320000)

/-- The sections of a record. -/
def sections (groups : Nat) (counters : SMap Nat) : List Byte :=
  (enabledGroups groups).flatMap fun g => (List.range g.2.1).flatMap fun n => (List.range g.2.2).flatMap fun i =>
    leBytes 8 (SMap.get 0 counters (cntKey g.1 n i))

/-- The eight words of a header (16 R451). -/
def State.headerWords (s : State) (gap : Bool) : List Nat :=
  let p := s.pmc
  [p.tick % 2 ^ 64, p.seq * 2 ^ 32 + recordBytes p.groups.toNat,
   p.groups.toNat * 2 ^ 16 + s.power.step1 * 2 ^ 4 + s.power.step0 * 2 ^ 2 + if gap then 1 else 0, p.effTicks, 0, 0, 0, 0]

/-! ### The ring -/

/-- The ring's size, and its unread bytes (16 R452). -/
def Pmc.size (p : Pmc) : Nat := 2 ^ p.sizeLog2
def Pmc.unread (p : Pmc) : Nat := (p.wrOff + p.size - p.rdOff % p.size) % p.size

/-- Writes bytes into the ring from an offset on, from its end to its start. -/
def ringWrite (size : Nat) : SMap Byte → Nat → List Byte → SMap Byte
  | m, _, [] => m
  | m, o, x :: xs => ringWrite size (SMap.set 0 m (o % size) x) (o + 1) xs

/-- The level notice (16 R453): when the unread bytes rise to the level, and anew after they have been below it. -/
def State.levelNotice (s : State) : State :=
  let p := s.pmc
  let above := decide (p.levelKib ≠ 0) && decide (p.levelKib * 1024 ≤ p.unread)
  let t := { s with pmc := { p with levelFired := above } }
  if above && !p.levelFired then t.notify .pf0 5 else t

/-! ### The basins' views -/

/-- The sum of a counter over a basin's cores or routers since its bind (16 R454). -/
def Basin.viewSum (v : Basin) (latch : SMap Nat) (g : CntGroup) (i : Nat) : Nat :=
  (v.desc.cores.foldl (fun n c =>
    n + (SMap.get 0 latch (cntKey g c i) + (2 ^ 64 - SMap.get 0 v.viewBase (cntKey g c i)))) 0) % 2 ^ 64

/-- A basin's counter view by 64-bit word from offset 0x4000 on (16 R454). -/
def Basin.viewWords (v : Basin) (b : Nat) (latch : SMap Nat) (hdr : List Nat) : List Nat :=
  hdr ++ ((List.range 16).map fun i => SMap.get 0 latch (cntKey .basin b i)) ++
    ((List.range 40).map fun i => v.viewSum latch .core i) ++ (List.range 8).map fun i => v.viewSum latch .router i

/-- The views of the bound basins take the latched counts (16 R454). -/
def State.refreshViews (s : State) : State :=
  { s with basins := SMap.mapV {} s.basins fun b v =>
      if v.phase = .free then v else { v with view := SMap.setList 0 [] 0 (v.viewWords b s.pmc.latch s.pmc.hdr) } }

/-! ### Commands -/

/-- A record's last byte stands in the ring, and WR_OFF advances past it (16 R452, R454). -/
def State.recordWritten (s : State) : State :=
  match s.pmc.writing with
  | none => s
  | some bs =>
    let p := s.pmc
    { s with pmc := { p with
        writing := none, ring := ringWrite p.size p.ring p.wrOff bs
        wrOff := (p.wrOff + bs.length) % p.size } }.refreshViews.levelNotice

/-- A write of PMC_CTRL takes effect (16 R450, R456): EN, when it is set, starts the record numbers again. -/
def Pmc.apply (p : Pmc) (x : Nat) : Pmc :=
  let en := bit x 0
  let size := max 16 (min 24 (bits x 12 8))
  let p := if en && !p.en then { p with seq := 0, gapMark := true } else p
  let p := if size = p.sizeLog2 then p else { p with wrOff := 0, rdOff := 0, levelFired := false }
  { p with en := en, sizeLog2 := size, windowTicks := bits x 48 32, groups := BitVec.ofNat 8 (bits x 23 16), wait := none
           effTicks := windowT (bits x 48 32) (bits x 23 16) }

/-- The snapshot's record is written, or dropped where it does not fit (16 R452). -/
def State.record (s : State) : State :=
  let p := s.pmc
  let s := { s with pmc := { p with latch := p.counters, hdr := s.headerWords p.gapMark } }
  if p.size < recordBytes p.groups.toNat + p.unread then
    ({ s with pmc := { s.pmc with dropped := satAdd 32 p.dropped 1, drop := true, gapMark := true } }.refreshViews).notify .pf0 5
  else
    let bs := s.pmc.hdr.flatMap (leBytes 8) ++ sections p.groups.toNat p.counters
    { s with pmc := { s.pmc with writing := some bs, seq := (p.seq + 1) % 2 ^ 32, gapMark := false } }

/-- PMC_SNAPSHOT (16 R449, R450, R452): a write of PMC_CTRL that waits takes effect; with EN every counter latches and a record is
written. The record before is complete by then. -/
def execPmcSnapshot (s : State) : Out State :=
  .next (if s.mgmt.phase = .inReset then s
  else
    let s := s.recordWritten
    let s := { s with pmc := { s.pmc with tick := s.pmc.tick + s.pmc.effTicks } }
    let s := match s.pmc.wait with
      | some v => { s with pmc := s.pmc.apply v.toNat }
      | none => s
    if s.pmc.en then s.record else s)

/-- PMC_RECORD_WRITTEN (16 R452). -/
def execPmcRecordWritten (s : State) : Out State := .next s.recordWritten

/-- PMC_CTRL_WRITE (16 R450, R456): it waits for the next snapshot tick; one that changes SIZE_LOG2 while EN is 1 has no effect. -/
def execPmcCtrlWrite (v : Word) (s : State) : Out State :=
  .next (s.fromHost fun s =>
    if s.pmc.en ∧ max 16 (min 24 (bits v.toNat 12 8)) ≠ s.pmc.sizeLog2 then s
    else { s with pmc := { s.pmc with wait := some v } })

/-- RD_OFF_WRITE (16 R452, R453): bytes are freed, unless the write would pass WR_OFF. -/
def execRdOffWrite (v : BitVec 32) (s : State) : Out State :=
  .next (s.fromHost fun s =>
    let p := s.pmc
    if p.size ≤ v.toNat ∨ p.unread < (v.toNat + p.size - p.rdOff % p.size) % p.size then s
    else { s with pmc := { p with rdOff := v.toNat } }.levelNotice)

end Sys2Proof.Machine
end

