-- ==== Sys2Proof/Machine/Transit.lean ====
section
/-! DEFINITION. The dies' cycles (07 R233, R235), the seam (R227, R228), arrival at attached units (R219; 14 R391), ENGINE lanes
(R211, R219), and transit (R206, R225; 14 R406). -/

namespace Sys2Proof.Machine

/-! ### Clocks -/

/-- Root cycles of a lattice cycle at a step (13 R380). -/
def lcDivider (step : Nat) : Nat := if step = 0 then 4 else if step = 1 then 6 else 8

/-- Which dies run in this cycle, with what the slower die has gathered: at one step both, but for the pause in which die 1 comes
to agree with die 0 modulo 16; at two steps the faster die, and the slower one when its own cycle is full (07 R233, R235). -/
def State.pace (s : State) : Bool × Bool × Nat :=
  let p := s.power
  if p.step0 = p.step1 then (true, decide (s.time0 % 16 = s.time1 % 16), 0)
  else
    let acc := p.slowAcc + lcDivider (min p.step0 p.step1)
    let slow := lcDivider (max p.step0 p.step1)
    if slow ≤ acc then (true, true, acc - slow) else (decide (p.step0 < p.step1), decide (p.step1 < p.step0), acc)

/-- Whether the die of a router runs in this cycle. -/
def State.runsAt (s : State) (r : Nat) : Bool := if dieOf r = 0 then s.pace.1 else s.pace.2.1

/-! ### The slot of a router -/

/-- The slot of its window that a basin's router executes now, with whether its sources are live: after NFRAMES frames they are
silent unless the segment is in overtime (07 R207, R216). -/
def State.slotNow (s : State) (v : Basin) (g : SegRec) (r : Nat) : Option (Nat × Bool) :=
  let t := s.latTime r
  if v.seg.started ∧ v.phase ≠ .free ∧ v.seg.startAt r ≤ t then
    let n := t - v.seg.startAt r
    some (g.base + n % g.frame, decide (n / g.frame < g.nframes) || v.seg.overtime)
  else none

/-- The slot-table entry that a router executes now, where it belongs to a basin in a segment. -/
def State.entryAt (s : State) (r : Nat) : Option SlotRec :=
  match s.basinOf r with
  | none => none
  | some b =>
    let v := s.basin b
    match v.img, v.segRec with
    | some m, some g => (s.slotNow v g r).map fun e => imgSlot m r e.1
    | _, _ => none

/-! ### The seam -/

/-- The re-send slot of a flit that leaves onto the seam at lattice time `t` (07 R228): the first slot at phase 3 at least 5 lc
later. -/
def resendSlot (t : Nat) : Nat := t + 5 + (8 + 3 - (t + 5) % 8) % 8

/-- A flit marked poisoned in both halves. -/
def Flit.bad (f : Flit) : Flit := { f with poison0 := true, poison1 := true }

/-- A poisoned delivery across the seam of row `y` (07 R228, R237; 14 R390, R409). -/
def State.seamPoison (s : State) (y : Nat) (east : Bool) (b : Nat) : State :=
  let r := 64 * y + if east then 32 else 31
  let s := { s with seamPoisoned := satAdd 32 s.seamPoisoned 1 }.count .router r 7 1
  s.charge 8 y 0x07 (if east then 0 else 1) 0 0 (some b)

/-- A seam failure suspends the barges of the flit's lane until the re-send arrives (08 R251, R255). -/
def State.seamSuspend (s : State) (f : Flit) : State :=
  (s.liveCores f.basin).foldl (fun s c =>
    let n := ((s.core c).barges.filter fun g => decide (g.lane = f.lane) && g.requested).length
    if n = 0 then s else s.count .core c 38 n) s

/-- A flit that leaves onto the seam of row `y` at lattice time `t`: where its check fails it is sent again in its re-send slot,
or, where an earlier failed flit has taken the slot, arrives poisoned (07 R228). -/
def State.seamSend (s : State) (env : SlotEnv) (y : Nat) (east : Bool) (t : Nat) (f : Flit) : State × Flit :=
  if !env.seamFail.contains (y, east) then (s, f)
  else if s.seamTaken.any fun e => decide (e.1 = y) && (e.2.1 == east) && decide (resendSlot e.2.2 = resendSlot t) then
    (s.seamPoison y east f.basin, f.bad)
  else
    let s := { s with seamTaken := s.seamTaken ++ [(y, east, t)], seamResent := satAdd 32 s.seamResent 1 }
    ((s.count .router (64 * y + if east then 31 else 32) 6 1).seamSuspend f, f)

/-- The re-sent copies of this cycle: one that fails again is delivered as poison, a transit flit too (07 R228). -/
def State.seamResend (s : State) (env : SlotEnv) : State :=
  let now := s.seamTaken.filter fun e =>
    let r := if e.2.1 then 31 else 32
    s.runsAt r && decide (resendSlot e.2.2 = s.latTime r)
  let s := { s with seamTaken := s.seamTaken.filter fun e => !now.contains e }
  now.foldl (fun s e =>
    if env.seamFail.contains (e.1, e.2.1) then
      let r := 64 * e.1 + if e.2.1 then 32 else 31
      let side := if e.2.1 then 4 else 2
      let hit := fun (f : LinkFlit) => decide (f.router = r) && decide (f.side = side) && decide (f.at_ = e.2.2 + 16)
      let cross := fun (f : TransitFlit) => decide (f.router = r) && decide (f.side = side) && decide (f.notBefore = e.2.2 + 16)
      match s.links.find? hit, s.transit.find? cross with
      | some f, _ => ({ s with links := s.links.map fun f => if hit f then { f with flit := f.flit.bad } else f }).seamPoison e.1
          e.2.1 f.flit.basin
      | none, some f => ({ s with transit := s.transit.map fun f => if cross f then { f with flit := f.flit.bad } else f }).seamPoison
          e.1 e.2.1 f.flit.basin
      | none, none => s
    else s) s

/-! ### Units -/

/-- A flit at a landing port, a memory port or the stage after its check bits (14 R391): a single-bit error is corrected and
counted, a double-bit error makes the flit poison and is charged to the router. -/
def State.linkCheck (s : State) (env : SlotEnv) (r : Nat) (f : Flit) : State × Flit :=
  let s := s.count .router r 5 (env.linkErr.filter fun e => decide (e.1 = r) && !e.2).length
  if env.linkErr.contains (r, true) then (s.charge 2 r 0x06 f.lane 0 0 (some f.basin), f.bad) else (s, f)

/-- Places in a basin's counts of an ENGINE lane's transfers (07 R219): flits that the source leg's unit has made, requests that have
arrived, grants made, grants that have arrived. -/
def engineKey (l n : Nat) : Nat := 4 * l + n

/-- A count of an ENGINE lane. -/
def Basin.engineCount (v : Basin) (l n : Nat) : Nat := SMap.get 0 v.engGrants (engineKey l n)

/-- A count of an ENGINE lane advances. -/
def State.engineAdd (s : State) (b l n : Nat) : State :=
  s.updBasin b fun v => { v with engGrants := SMap.upd 0 v.engGrants (engineKey l n) (· + 1) }

/-- A flit reaches the unit attached to a router, or through transit (07 R219): a request waits to be taken, data of a write
arrives. On an ENGINE lane a request or a grant is counted; the data is the collective engine's, whose effect comes with its
message (12 R356; log 84). -/
def State.unitArrive (s : State) (env : SlotEnv) (r u : Nat) (f : Flit) : State :=
  let (s, f) := s.linkCheck env r f
  if ((s.basin f.basin).lane f.lane).map (·.kind) = some .engine then
    (match f.hdr with
     | some h => s.engineAdd f.basin f.lane (if h.grant then 3 else 1)
     | none => s)
  else
    match f.hdr with
    | some h =>
      match s.barge h.core h.barge with
      | some g =>
        let q : PortReq := { basin := f.basin, lane := f.lane, core := h.core, barge := h.barge, write := h.write, transfer := g.transfer }
        if 12 < u then s else s.setReqs u (s.unitReqs u ++ [q])
      | none => s
    | none => if 12 < u then s else s.putArrive u f

/-! ### ENGINE lanes -/

/-- The units of an ENGINE lane: that of its source leg and that of its return leg, of which one is the basin's Ethernet lane group
(07 R211; DEDUCED, log 84). -/
def State.engineUnits (s : State) (b l : Nat) (lr : LaneRec) (m : Image) (g : SegRec) : Option (Nat × Nat) :=
  let home := s.portUnit b 13
  let port := s.portUnit b lr.port
  (engineSource m g l).map fun q =>
    let u := if q.2 = srcExt then (attached q.1).getD home
      else if (s.basin b).desc.portal ((s.basin b).desc.attachFor home) = q.1 then home else port
    (u, if u = home then port else home)

/-- Whether the collective engine has data for the segment's ENGINE lanes: a collective whose output the segment's sluice waits for
is in progress (12 R355; log 84). -/
def Basin.engineBusy (v : Basin) : Bool :=
  v.colls.any fun c => !c.failed && decide ((v.collTable[c.entry]?).map (·.completeBy) = some v.seg.cur)

/-- Whether a unit can accept the whole of a transfer (07 R219; 09 R264, R270). -/
def State.unitAccepts (s : State) (u n : Nat) : Bool :=
  decide (12 ≤ u) || (!(s.port u).stalled && decide ((s.port u).wbuf + n ≤ 0x40000))

/-- The units of an ENGINE lane make their next flit once the one before has been sent: a request when the engine has data, its data
once the grant has arrived, a grant when the unit can accept the transfer (07 R219). -/
def State.engineLane (s : State) (b l : Nat) (lr : LaneRec) (m : Image) (g : SegRec) : State :=
  match s.engineUnits b l lr m g, engineSource m g l with
  | some (u, w), some q =>
    let v := s.basin b
    let n := lr.srcFlits
    let k := v.engineCount l 0
    let fresh := decide (k = v.sent q.1 l q.2) && decide (k < lr.transfers * n)
    let base : Flit := { basin := b, lane := l, seq := k % n % 65536, first := decide (k % n = 0), last := decide (k % n + 1 = n) }
    let s := if fresh && (if k % n = 0 then v.engineBusy else decide (k / n < v.engineCount l 3)) then
        (s.sendReturn u (if k % n = 0 then { base with hdr := some { write := true, size := lr.size } } else base)).engineAdd b l 0
      else s
    let j := v.engineCount l 2
    if j < v.engineCount l 1 ∧ s.unitAccepts w lr.size then
      (s.sendReturn w { basin := b, lane := l, first := true, last := true, hdr := some { grant := true } }).engineAdd b l 2
    else s
  | _, _ => s

/-- The ENGINE lanes of a basin in a segment. -/
def State.engineLanes (s : State) (b : Nat) : State :=
  let v := s.basin b
  match v.img, v.segRec with
  | some m, some g =>
    if v.seg.started ∧ v.phase ≠ .free then
      v.segLanes.foldl (fun s l => match imgLane m l with
        | some lr => if lr.kind = .engine then s.engineLane b l lr m g else s
        | none => s) s
    else s
  | _, _ => s

/-! ### Transit -/

/-- The unit to which a flit of a lane goes through transit: that of PORT, or the other unit of an ENGINE lane. -/
def State.transitUnit (s : State) (b : Nat) (lr : LaneRec) (f : Flit) : Nat :=
  let v := s.basin b
  match lr.kind, v.img, v.segRec with
  | .engine, some m, some g =>
    (match s.engineUnits b f.lane lr m g with
     | some e => if (match f.hdr with | some h => h.grant | none => false) then e.1 else e.2
     | none => s.portUnit b lr.port)
  | _, _, _ => s.portUnit b lr.port

/-- A flit handed to the transit queue of a portal (07 R209, R225). -/
def State.sendTransit (s : State) (b r t : Nat) (f : Flit) : State :=
  match (s.basin b).lane f.lane with
  | some lr =>
    let u := s.transitUnit b lr f
    let q : TransitFlit := { router := r, out := 8, notBefore := t + 2, dest := (s.basin b).desc.attachFor u, unit := some u, flit := f }
    { s with transit := s.transit ++ [q] }
  | none => s

/-- The mesh output of a transit flit at router `r`: along the column, stepping aside of a fenced router, then along the row (07
R225; 14 R406). -/
def State.transitSide (s : State) (r dest : Nat) : Nat :=
  let y := r / 64
  let dy := dest / 64
  if y ≠ dy then
    let next := if dy < y then r - 64 else r + 64
    if s.routerFenced next ∧ next ≠ dest then (if r % 64 = 63 then 4 else 2) else if dy < y then 1 else 3
  else if r % 64 < dest % 64 then 2 else 4

/-- The output in whose queue a transit flit stands at router `r`: a mesh link, the external link, or the portal's handover. -/
def State.transitOut (s : State) (r : Nat) (f : TransitFlit) : Nat :=
  if r = f.dest then (if f.unit.isSome then 6 else 7) else s.transitSide r f.dest

/-- Whether the queue of an output has room: 16 flits, those on their way to it counted (07 R225). -/
def State.transitRoom (s : State) (r o : Nat) : Bool :=
  let here := (s.transit.filter fun g => decide (g.router = r) && decide (g.out = o)).length
  decide ((if o = 7 then here + (s.portalQ.filter fun q => decide (q.key = r)).length else here) < 16)

/-- Whether a router belongs to a bound basin, so that transit takes phase 7 only (07 R225). -/
def State.ownedRouter (s : State) (r : Nat) : Bool := (s.basinOf r).isSome

/-- Whether transit may use an output of a router in this slot (07 R204, R206, R225): phase 7 of a mesh link, any slot but phase 3 of
the seam at an unbound router, or a slot of the external link that the schedule leaves unused. -/
def State.transitSlot (s : State) (r o : Nat) : Bool :=
  let t := s.latTime r
  if o = 5 then (match s.entryAt r with | some e => !e.sources.contains srcExt | none => true)
  else if o = 6 then (match s.entryAt r with | some e => decide (e.outX = 0) | none => true)
  else if 7 ≤ o then true
  else decide (t % 8 = 7) || (!s.ownedRouter r && !(isSeam r o && decide (t % 8 = 3)))

/-- The flow of a transit flit: the flits of one lane in one direction. -/
def TransitFlit.flow (f : TransitFlit) : Nat := (f.flit.basin * 65536 + f.flit.lane) * 2 + if f.unit.isSome then 1 else 0

/-- Where a transit flit goes next: the router and the output in whose queue it will stand. -/
def State.transitNext (s : State) (f : TransitFlit) : Option (Nat × Nat) :=
  if 1 ≤ f.out ∧ f.out ≤ 4 then (neighbour f.router f.out).map fun e => (e.1, s.transitOut e.1 f)
  else some (f.router, s.transitOut f.router f)

/-- Whether a transit flit can move: it has come, and where it goes there is room; one that leaves the lattice needs none. -/
def State.transitCan (s : State) (f : TransitFlit) : Bool :=
  decide (f.notBefore ≤ s.latTime f.router) &&
    (decide (f.out = 6) || decide (f.out = 7) ||
      match s.transitNext f with | some e => s.transitRoom e.1 e.2 | none => false)

/-- The flit that an output of a router serves: the first of the flow whose turn it is, in rotation (07 R225). -/
def State.transitPick (s : State) (r o : Nat) : Option TransitFlit :=
  let here := s.transit.filter fun f => decide (f.router = r) && decide (f.out = o)
  let heads := here.foldl (fun (acc : List TransitFlit) f => if acc.any fun g => decide (g.flow = f.flow) then acc else acc ++ [f]) []
  let turn := SMap.get 0 s.transitTurn (8 * r + o)
  let rank := fun (f : TransitFlit) => if turn ≤ f.flow then f.flow - turn else f.flow + 2 ^ 32
  (heads.filter s.transitCan).foldl (fun best f =>
    match best with
    | some g => if rank f < rank g then some f else best
    | none => some f) none

/-- One output of a router moves one transit flit, where it may and can (07 R225; 16 R448). -/
def State.transitOne (s : State) (env : SlotEnv) (r o : Nat) : State :=
  if !s.transitSlot r o then s
  else
    match s.transitPick r o with
    | none => s
    | some f =>
      let t := s.latTime r
      let s := { s with transit := s.transit.erase f, transitTurn := SMap.set 0 s.transitTurn (8 * r + o) (f.flow + 1) }
      if o = 7 then { s with portalQ := s.portalQ ++ [{ key := r, flit := f.flit }] }
      else if o = 6 then
        (match f.unit with
         | some u => ((s.count .router r 3 1).count .router r 0 1).unitArrive env r u f.flit
         | none => s)
      else
        match s.transitNext f with
        | none => s
        | some (r', o') =>
          let put := fun (s : State) (f : TransitFlit) => { s with transit := s.transit ++ [{ f with router := r', out := o' }] }
          if o = 5 then
            let s := put (s.count .router r 3 1) f
            if f.flit.last then s.releaseTiles ((attached r).getD 12) f.flit.basin f.flit.lane else s
          else if o = 8 then put s f
          else
            let s := (s.count .router r 3 1).count .router r 0 1
            let (s, x) := if isSeam r o then s.seamSend env (r / 64) (decide (o = 2)) t f.flit else (s, f.flit)
            put s { f with side := (match neighbour r o with | some e => e.2 | none => 0)
                           notBefore := s.latTime r' + linkDelay r o, flit := x }

/-- The transit flits that can move in this cycle, output by output (07 R225). -/
def State.transitStep (s : State) (env : SlotEnv) : State :=
  (((s.transit.map (·.router)).dedup).filter s.runsAt).foldl (fun s r =>
    [6, 7, 1, 2, 3, 4, 5, 8].foldl (fun s o => s.transitOne env r o) s) s

end Sys2Proof.Machine
end

