-- ==== Sys2Proof/Machine/Adders.lean ====
section
/-! DEFINITION. The adders of the routers (07 R222 to R224): the operations that the slots list, the hold store, the arithmetic with
its residue checks (05 R161, R164, R166 to R169, R171), and the emissions. -/

namespace Sys2Proof.Machine

/-! ### Buffers -/

/-- The key of adder buffer `n` of router `r`. -/
def adderKey (r n : Nat) : Nat := 16 * r + n

/-- Buffer `n` of router `r`. -/
def State.adder (s : State) (k : Nat) : Adder := SMap.get {} s.adders k

/-- The state with an adder buffer changed. -/
def State.updAdder (s : State) (k : Nat) (f : Adder → Adder) : State :=
  { s with adders := SMap.upd {} s.adders k f }

/-! ### Arithmetic -/

/-- Bytes of elements as an adder holds them: FP16 as FP32 (05 R164). -/
def widen (fmt : Nat) (bs : List Byte) : List Byte :=
  if fmt = 1 then (leWords 2 bs.length bs).flatMap fun h => leBytes 4 (fp32.encode (fp16.decode h)) else bs

/-- Bytes of a sum as they leave the node (05 R164). -/
def narrow (fmt : Nat) (bs : List Byte) : List Byte :=
  if fmt = 1 then (leWords 4 bs.length bs).flatMap fun h => leBytes 2 (fp16.encode (fp32.decode h)) else bs

/-- One addition of the adder on two elements as it holds them, with the saturation mark; `u` is a fault that strikes it and that no
check has caught (05 R161, R164, R169). -/
def adderAdd (fmt x y : Nat) (u : Option Upset) : Nat × Bool :=
  if fmt = 2 then
    let q := w64Add x y
    ((match u with | some _ => w64Enc (struckInt (w64Int q.1) u [.add, .saturate]) | none => q.1), q.2 || decide (q.1 = w64Invalid))
  else
    (fp32.struck (fp32.encode ((FVal.add (fp32.decode x) (fp32.decode y)).struck u [.shift, .add])) u, false)

/-- The checked steps of an addition (05 R167). -/
def adderSteps (fmt x y : Nat) : List ResStep :=
  if fmt = 2 then intSteps (w64Int x) (w64Int y)
  else
    let a := fp32.decode x
    let b := fp32.decode y
    let v := FVal.add a b
    addSteps a b ++ roundSteps fp32 v (fp32.roundedAt v (fp32.encode v))

/-- The pairs of elements that an ADD adds. -/
def Adder.pairs (a : Adder) (f : Flit) : List (Nat × Nat) :=
  let n := if a.fmt = 2 then 8 else 4
  let w := widen a.fmt f.data
  (leWords n a.flit.data.length a.flit.data).zip (leWords n w.length w)

/-- A buffer after LOAD in a format (07 R222). -/
def Adder.load (a : Adder) (fmt : Nat) (f : Flit) : Adder :=
  let inval := decide (fmt = 2) && (leWords 8 f.data.length f.data).any fun h => decide (h = w64Invalid)
  { a with fmt := fmt, flit := { f with data := widen fmt f.data, sat := f.sat || inval } }

/-- A buffer after ADD; a header that reaches it is discarded (07 R222; 05 R164, R171). A fault numbers the elements. -/
def Adder.add (a : Adder) (f : Flit) (u : Option Upset) : Adder :=
  if f.first then a
  else
    let n := if a.fmt = 2 then 8 else 4
    let sums := (a.pairs f).zipIdx.map fun e => adderAdd a.fmt e.1.1 e.1.2 (upsetAt u e.2)
    { a with flit := { a.flit with
        data := sums.flatMap fun e => leBytes n e.1, sat := a.flit.sat || f.sat || sums.any (·.2)
        poison0 := a.flit.poison0 || f.poison0, poison1 := a.flit.poison1 || f.poison1
        layer := match a.flit.layer with | some n => some n | none => f.layer } }

/-- Whether a check catches a fault in an ADD (05 R167, R169). -/
def Adder.caught (a : Adder) (f : Flit) (u : Upset) : Bool :=
  !f.first && (match (a.pairs f)[u.index]? with
    | some e => upsetCaught u (adderSteps a.fmt e.1 e.2)
    | none => false)

/-- A residue failure in a router's adder (05 R168; 14 R390, R403, R409): the core beside the router halts, and a second failure
before the interval's checkpoint sluice fences both. -/
def State.adderResidue (s : State) (b r lane slot : Nat) : State :=
  let again := s.rel.adderPending.any fun a => decide (a.1 = r)
  let s := s.haltBoth r 3 cResidue 0x03
  let s := s.report { event := 0x03, kind := 2, cls := if again then 1 else 2,
                      action := if again then s.fenceAction 2 r else if (s.basin b).phase = .restarting then 1 else 0,
                      basin := some b, index := r, addr := lane, detail := slot }
  if again then
    { s with rel := { s.rel with adderPending := s.rel.adderPending.filter fun a => decide (a.1 ≠ r) } }.fenceCore 2 r
  else { s with rel := { s.rel with adderPending := s.rel.adderPending ++ [(r, lane)] } }

/-! ### Operations -/

/-- Runs the head operation of a buffer where its flit has come and the spacing allows it (07 R223, R224). One whose check fails
writes no result, and the buffer emits nothing more (05 R168). -/
def State.runAdder (s : State) (env : SlotEnv) (r n t slot : Nat) : State :=
  let k := adderKey r n
  let a := s.adder k
  match a.ops with
  | o :: os =>
    match o.got with
    | some f =>
      if (match a.lastOp with | some l => decide (l + 2 ≤ t) | none => true) then
        let u := (env.adderFault.find? fun e => decide (e.1 = r) && decide (e.2.1 = n)).map (·.2.2)
        let s := s.count .router r 4 1
        if o.op ≠ 1 && (match u with | some x => a.caught f x | none => false) then
          (s.updAdder k fun a => { a with ops := [], lastOp := some t }).adderResidue a.basin r o.lane slot
        else
          s.updAdder k fun _ => { (if o.op = 1 then a.load o.fmt f else a.add f u) with ops := os, lastOp := some t }
      else s
    | none => s
  | [] => s

/-- Lists an entry's operation: in a slot not marked CU, while the segment's transfers last (07 R222; log 55). -/
def State.listAdder (s : State) (b r t : Nat) (e : SlotRec) (lr : LaneRec) (op src : Nat) : State :=
  let key := legKey r e.lane (9 + src)
  let v := s.basin b
  if e.cu ∨ lr.transfers * lr.srcFlits ≤ SMap.get 0 v.legs key then s
  else
    let s := s.updBasin b fun v => { v with legs := SMap.upd 0 v.legs key (· + 1) }
    s.updAdder (adderKey r e.addBuf) fun a => { a with
      basin := b, ops := a.ops ++ [{ op := op, lane := e.lane, fmt := e.addFmt, at_ := t, src := src }] }

/-- Whether an operation waits for a flit of a leg of a lane. -/
def AddOp.waits (o : AddOp) (l src : Nat) : Bool := decide (o.op ≠ 3) && decide (o.lane = l) && decide (o.src = src) && o.got.isNone

/-- The adder buffer at a router whose earliest operation waits for a flit of a leg of a lane (07 R224). -/
def State.adderFor (s : State) (r l src : Nat) : Option Nat :=
  ((List.range 16).foldl (fun (best : Option (Nat × Nat)) n =>
    match (s.adder (adderKey r n)).ops.find? fun o => o.waits l src with
    | some o => (match best with
      | some (t, _) => if o.at_ < t then some (o.at_, n) else best
      | none => some (o.at_, n))
    | none => best) none).map (·.2)

/-- Gives a flit to the first operation of a buffer that waits for its leg. -/
def giveOp (l src : Nat) (f : Flit) : List AddOp → List AddOp
  | [] => []
  | o :: os => if o.waits l src then { o with got := some f } :: os else o :: giveOp l src f os

/-- Flits that a router's hold store keeps (07 R224). -/
def State.heldFlits (s : State) (r : Nat) : Nat :=
  ((List.range 16).map fun n => ((s.adder (adderKey r n)).ops.filter fun o => o.got.isSome).length).sum

/-- A flit arrives at a router's adders on a leg (07 R224): a full hold store halts the lane's source cores. -/
def State.feedAdder (s : State) (b r l src : Nat) (f : Flit) : State :=
  match s.adderFor r l src with
  | none => s
  | some n =>
    if 64 < s.heldFlits r + 1 then s.overrun b l 0x02
    else s.updAdder (adderKey r n) fun a => { a with ops := giveOp l src f a.ops }

/-- The flit that an ADDER slot of a buffer emits (07 R222 to R224): the sum leaves no earlier than 4 lc after the last
operation, and the training support unit inspects it (06 R190). A void own slot of a lane that owes a flit counts as late, and a
catch-up slot that carries one as such (07 R218). -/
def State.emitAdder (s : State) (b r t : Nat) (e : SlotRec) : State × Option Flit :=
  let k := adderKey r e.addBuf
  let a := s.adder k
  let owes := a.ops.any fun o => decide (o.op = 3) && decide (o.lane = e.lane) && decide (o.at_ < t)
  let void := fun (s : State) => ((if owes then s.count .router r 1 1 else s, none) : State × Option Flit)
  match a.ops with
  | o :: os =>
    if decide (o.op = 3) && decide (o.lane = e.lane) && (match a.lastOp with | some l => decide (l + 4 ≤ t) | none => true) then
      let f := { a.flit with basin := b, lane := e.lane, data := narrow a.fmt a.flit.data }
      let s := s.updAdder k fun a => { a with ops := os }
      let s := if e.cu then s.count .router r 2 1 else s
      let s := s.updBasin b fun v => v.inspect f.layer (addFmtOf a.fmt) f.data (f.poison0 || f.poison1) f.sat
      (s, some f)
    else void s
  | [] => void s

/-- What a code of an entry supplies. -/
def supplied (fs : List (Nat × Flit)) (code : Nat) : Option Flit := (fs.find? fun e => decide (e.1 = code)).map (·.2)

/-- The adder's part of an entry: its operation and its emission are listed and the input arrives (07 R222, R224). -/
def State.entryLists (s : State) (b r t : Nat) (e : SlotRec) (live : Bool) (fs : List (Nat × Flit)) : State :=
  match (s.basin b).lane e.lane with
  | none => s
  | some lr =>
    let s := if live && decide (e.addOp ≠ 0) then s.listAdder b r t e lr e.addOp e.addSrc else s
    let s := if live && e.sources.contains srcAdder then s.listAdder b r t e lr 3 16 else s
    if e.addOp = 0 then s
    else match supplied fs e.addSrc with
      | some f => s.feedAdder b r e.lane e.addSrc f
      | none => s

/-- The adders of a router in a slot: what the entry lists and brings, every buffer's run, and the emission (07 R222 to R224). -/
def State.entryAdder (s : State) (env : SlotEnv) (b r t slot : Nat) (e : SlotRec) (live : Bool) (fs : List (Nat × Flit)) :
    State × List (Nat × Flit) :=
  let s := (List.range 16).foldl (fun s n => s.runAdder env r n t slot) (s.entryLists b r t e live fs)
  if e.sources.contains srcAdder then
    match s.emitAdder b r t e with
    | (s, some f) => (s, fs ++ [(srcAdder, f)])
    | (s, none) => (s, fs)
  else (s, fs)

end Sys2Proof.Machine
end

