-- ==== Sys2Proof/Machine/Lattice.lean ====
section
/-! DEFINITION. One lattice cycle: every router executes its slot-table entry (07 R208, R209), sources send in their own slots
(R214, R215), links and the seam carry flits (R227, R228), adders fold (R222 to R224; 05 R164), landing ports write (R211; 08
R243 to R245, R250), transit flits move (R225; 14 R406), and every core counts its cycles (03 R84; 16 R448). -/

namespace Sys2Proof.Machine

/-! ### Sources -/

/-- The bytes of data flit `j` of a barge's stream in scratchpad. -/
def Barge.flitBytes (g : Barge) (k : Core) (j : Nat) : List (Byte × Bool) :=
  (sliceRows g.destRows (128 * j) (min 128 (g.size - 128 * j))).flatMap fun r => k.spBytes r.1 r.2

/-- The header or request flit of a barge (07 R211; 04 R122, R123). -/
def Barge.header (g : Barge) (b c : Nat) (lr : LaneRec) : Flit :=
  { basin := b, lane := g.lane, seq := 0, first := true, last := decide (g.launches = 1), layer := g.grad,
    hdr := some { core := c, barge := g.id, dest := g.desc2, arrive := if lr.arriveFe then some lr.arriveFlg else none,
                  write := decide (g.kind = .putMem) || decide (g.kind = .putTp), size := g.size } }

/-- The next flit that a core's launch port has for a lane, with its barge: the earliest barge of the lane that has a flit left;
data of a memory or towpath write waits for the grant (07 R214, R219). -/
def State.launchNext (s : State) (b c : Nat) (lr : LaneRec) (l : Nat) : Option (Barge × Flit) :=
  let k := s.core c
  match k.barges.find? fun g => decide (g.lane = l) && !g.dropped && decide (g.launched < g.launches) with
  | none => none
  | some g =>
    if g.launched = 0 then some (g, g.header b c lr)
    else if (g.kind = .putMem ∨ g.kind = .putTp) ∧ !g.granted then none
    else
      let j := g.launched - 1
      let bs := g.flitBytes k j
      some (g, { basin := b, lane := l, seq := g.launched % 65536, last := decide (g.launched + 1 = g.launches),
                 poison0 := (bs.take 64).any (·.2), poison1 := (bs.drop 64).any (·.2), data := bs.map (·.1),
                 layer := g.grad })

/-- A flit leaves a core's launch port (06 R190; 16 R448, PUT_BYTES). -/
def State.launchTake (s : State) (b c : Nat) (g : Barge) (f : Flit) : State :=
  let p := f.poison0 || f.poison1
  let s := s.updBarge c g.id fun g => { g with launched := g.launched + 1, requested := true, poisoned := g.poisoned || p }
  let s := if g.kind = .putMem then s
    else s.updBasin b fun v => v.inspect g.grad (opDesc g.desc).fmt f.data p false
  if f.data = [] then s else s.count .core c 35 f.data.length

/-- The first flit of a list that waits for a key and a lane. -/
def firstFor (q : List SourceFlit) (key b l t : Nat) : Option SourceFlit :=
  q.find? fun f => decide (f.key = key) && decide (f.flit.basin = b) && decide (f.flit.lane = l) && decide (f.notBefore ≤ t)

/-- What a source of code `code` at router `r` has ready, with the state after it has been taken (07 R209). -/
def State.sourceTake (s : State) (b r l code t : Nat) (lr : LaneRec) : Option (State × Flit) :=
  if code = srcLaunch then
    (s.launchNext b r lr l).map fun e => (s.launchTake b r e.1 e.2, e.2)
  else if code = srcExt then
    match attached r with
    | some u => (firstFor s.extQ u b l t).map fun f =>
        let s := { s with extQ := s.extQ.erase f }
        (if f.flit.last then s.releaseTiles u b l else s, f.flit)
    | none => none
  else (firstFor s.portalQ r b l t).map fun f => ({ s with portalQ := s.portalQ.erase f }, f.flit)

/-- A source in an own slot of a lane (07 R214, R215, R218): its next flit, if it is due (owed, in a catch-up slot) and ready,
else a void flit. Late slots and catch-up flits count at the router. -/
def State.source (s : State) (b r l code t : Nat) (cu : Bool) : State × Option Flit :=
  let v := s.basin b
  match v.img, v.segRec, v.lane l with
  | some m, some g, some lr =>
    match dueTime v m g lr r l code (v.sent r l code) with
    | none => (s, none)
    | some due =>
      if (if cu then decide (due < t) else decide (due ≤ t)) then
        match s.sourceTake b r l code t lr with
        | some (s, f) =>
          let s := s.updBasin b fun v => { v with legs := SMap.upd 0 v.legs (legKey r l code) (· + 1) }
          (if cu then s.count .router r 2 1 else s, some f)
        | none =>
          (if due < t ∧ v.sent r l code < lr.transfers * legFlits m g lr r l code then s.count .router r 1 1 else s, none)
      else (s, none)
  | _, _, _ => (s, none)

/-! ### Links and the seam -/

/-- A flit leaves router `r` on a mesh link (07 R209, R227; R213: never out of the rectangle). -/
def State.sendLink (s : State) (env : SlotEnv) (d : Desc) (r side t : Nat) (f : Flit) : State :=
  match neighbour r side with
  | some (r', side') =>
    if !d.contains r' then s
    else
      let s := s.count .router r 0 1
      let (s, f) := if isSeam r side then s.seamSend env (r / 64) (decide (side = 2)) t f else (s, f)
      { s with links := s.links ++ [{ at_ := t + linkDelay r side, router := r', side := side', flit := f }] }
  | none => s

/-! ### Landing -/

/-- The addresses of runs of scratchpad. -/
def runAddrs (rows : List (Nat × Nat)) : List Nat := rows.flatMap fun x => (List.range x.2).map fun i => x.1 + i

/-- Writes the bytes of one cc, 64 at most, over scratchpad (03 R62): each block that they touch is poisoned where one of them is, and
keeps its poison where they do not cover it (R68; 08 R250). -/
def Core.landCc (k : Core) (cells : List (Nat × Byte × Bool)) : Core :=
  let blks := (cells.map fun e => e.1 / 64).dedup
  { k with
    sp := cells.foldl (fun m e => SMap.set 0 m e.1 e.2.1) k.sp
    spPoison := blks.foldl (fun m j => SMap.upd false m j fun old =>
      let mine := cells.filter fun e => decide (e.1 / 64 = j)
      mine.any (·.2.2) || (decide (((mine.map (·.1)).dedup).length < 64) && old)) k.spPoison }

/-- Writes landing bytes over scratchpad rows, 64 bytes of the stream in a cc (03 R62). -/
def Core.landRows (k : Core) (rows : List (Nat × Nat)) (bs : List (Byte × Bool)) : Core :=
  (chunksOf 64 (bs.length + 1) ((runAddrs rows).zip bs)).foldl (fun k c => k.landCc (c.map fun e => (e.1, e.2.1, e.2.2))) k

/-- The bytes of a flit with the poison of their halves (07 R203, R250). -/
def Flit.bytes (f : Flit) : List (Byte × Bool) :=
  f.data.zipIdx.map fun e => (e.1, if e.2 < 64 then f.poison0 else f.poison1)

/-- A flit of a CORE or REDUCE transfer lands (07 R211, R480; 03 R65; 05 R164). The training support unit inspects the poison that it
has taken on its way (06 R190). -/
def State.landCore (s : State) (b r : Nat) (f : Flit) : State :=
  let key := laneKey r f.lane
  let ld : Landing := SMap.get {} (s.basin b).landings key
  let put := fun (s : State) (x : Landing) => s.updBasin b fun v => { v with landings := SMap.set {} v.landings key x }
  if f.first then put s { ld with hdr := f.hdr, bytes := 0, sat := false }
  else
    match ld.hdr with
    | none => s
    | some h =>
      let d := opDesc h.dest
      let n := min f.data.length (d.bytes - ld.bytes)
      let rows := sliceRows ((streamRows d {} 0 0).map fun x => (x.1, x.2.2)) ld.bytes n
      let hit := rows.any fun x => (s.core r).hitsProtected x.1 x.2
      let s := if f.poison0 || f.poison1 then s.updBasin b fun v => v.inspect f.layer d.fmt [] true false else s
      let s := if hit then s.haltBoth r 3 cPrivilege 0x02
        else (s.updCore r fun k => k.landRows rows f.bytes).setXstat r f.sat
      if f.last then
        let s := put s { hdr := none, arrived := ld.arrived + 1 }
        match h.arrive with | some x => s.setFlag r x | none => s
      else put s { ld with bytes := ld.bytes + n }

/-- The destination rows that a piece of a BRGT forms (04 R121; 08 R245): element row e takes the elements of the group's memory
rows, `vs` holding the piece's bytes row by row. -/
def pieceRows (d : OpDesc) (p : Piece) (vs : List (Byte × Bool)) : List (Nat × List (Byte × Bool)) :=
  (List.range (p.len / d.esize)).map fun i =>
    let e := p.byte / d.esize + i
    (d.rowAddr e + p.row * d.esize, (List.range p.rows).flatMap fun j => (vs.drop (j * p.len + i * d.esize)).take d.esize)

/-- Takes from a transposition buffer the pieces that it now holds in full; `skip` bytes of the stream are written already. -/
def takePieces (d : OpDesc) : List Piece → Nat → List (Byte × Bool) → List (Nat × List (Byte × Bool)) × List (Byte × Bool)
  | [], _, buf => ([], buf)
  | p :: ps, skip, buf =>
    let n := p.rows * p.len
    if n ≤ skip then takePieces d ps (skip - n) buf
    else if buf.length < n then ([], buf)
    else
      let rest := takePieces d ps 0 (buf.drop n)
      (pieceRows d p (buf.take n) ++ rest.1, rest.2)

/-- A data flit of a BRG or BRGT lands (08 R243, R245, R250, R254; 03 R65): a dropped or cancelled barge's flit is discarded. -/
def State.landBarge (s : State) (r : Nat) (f : Flit) : State :=
  match (s.core r).barges.find? fun g =>
      decide (g.lane = f.lane) && g.requested && !g.kind.sendsData && decide (g.landed < g.flits) with
  | none => s
  | some g =>
    let bs := f.bytes.take (g.size - 128 * g.landed)
    let p := f.poison0 || f.poison1
    let next := fun (s : State) (h : Barge → Barge) => s.updBarge r g.id fun x => { h x with landed := x.landed + 1 }
    if g.dropped || g.cancelled then next s id
    else
      let s := s.count .core r 34 bs.length
      let s := s.updBarge r g.id fun x => { x with poisoned := x.poisoned || p }
      let out : List (Nat × List (Byte × Bool)) × List (Byte × Bool) := match g.kind with
        | .brgt =>
          let old := g.buf.zip (g.bufPoison ++ List.replicate g.buf.length false)
          takePieces (opDesc g.desc) (brgtPieces (opDesc g.desc)) (128 * g.landed - g.buf.length) (old ++ bs)
        | _ => ((sliceRows g.destRows (128 * g.landed) bs.length).foldl
            (fun (acc : List (Nat × List (Byte × Bool)) × List (Byte × Bool)) x =>
              (acc.1 ++ [(x.1, acc.2.take x.2)], acc.2.drop x.2)) ([], bs))
      let rows := out.1
      let s := next s fun x => { x with buf := out.2.map (·.1), bufPoison := out.2.map (·.2) }
      if rows.any fun x => (s.core r).hitsProtected x.1 x.2.length then s.haltAt r .a g.pc cPrivilege 0x03
      else s.updCore r fun k => k.landRows (rows.map fun x => (x.1, x.2.length)) (rows.flatMap (·.2))

/-- A flit reaches a core's landing port (07 R211). -/
def State.land (s : State) (env : SlotEnv) (b r : Nat) (f : Flit) : State :=
  let (s, f) := s.linkCheck env r f
  match (s.basin b).lane f.lane with
  | some lr =>
    match lr.kind with
    | .core | .reduce => s.landCore b r f
    | .memRd | .tpIn => s.landBarge r f
    | .memWr | .tpOut =>
      match f.hdr with
      | some h => if h.core = r then s.updBarge r h.barge fun g => { g with granted := true } else s
      | none => s
    | _ => s
  | none => s

/-! ### One router -/

/-- The flit that enters a router by a side in this cycle. -/
def State.inputFlit (s : State) (r side t : Nat) : Option Flit :=
  (s.links.find? fun f => decide (f.router = r) && decide (f.side = side) && decide (f.at_ = t)).map (·.flit)

/-- The sources of an entry with what each supplies (07 R209). -/
def State.entrySources (s : State) (b r t : Nat) (e : SlotRec) (live : Bool) : State × List (Nat × Flit) :=
  let ins := [1, 2, 3, 4].filterMap fun side => (s.inputFlit r side t).map fun f => (side, f)
  ([srcExt, srcLaunch, srcTransit].filter fun c => e.sources.contains c).foldl (fun (acc : State × List (Nat × Flit)) c =>
    if live then
      match acc.1.source b r e.lane c t e.cu with
      | (s, some f) => (s, acc.2 ++ [(c, f)])
      | (s, none) => (s, acc.2)
    else acc) (s, ins)

/-- The outputs of an entry (07 R208, R209). -/
def State.entryOutputs (s : State) (env : SlotEnv) (b r t : Nat) (e : SlotRec) (fs : List (Nat × Flit)) : State :=
  let d := (s.basin b).desc
  let s := e.mesh.foldl (fun s o =>
    match supplied fs o.2 with
    | some f => s.sendLink env d r o.1 t f
    | none => s) s
  let s := match supplied fs e.outL with | some f => s.land env b r f | none => s
  let s := match supplied fs e.outX, attached r with
    | some f, some u => (s.count .router r 0 1).unitArrive env r u f
    | _, _ => s
  match supplied fs e.tx with | some f => s.sendTransit b r t f | none => s

/-- A router of a basin executes its slot-table entry (07 R207 to R209, R216): sources are silent after NFRAMES frames unless
the segment is in overtime. -/
def State.runRouter (s : State) (env : SlotEnv) (b : Nat) (m : Image) (g : SegRec) (r : Nat) : State :=
  match s.slotNow (s.basin b) g r with
  | none => s
  | some (slot, live) =>
    let t := s.latTime r
    let e := imgSlot m r slot
    let (s, fs) := s.entrySources b r t e live
    let (s, fs) := s.entryAdder env b r t slot e live fs
    s.entryOutputs env b r t e fs

/-- The routers of a basin execute their entries. -/
def State.runBasinSlots (s : State) (env : SlotEnv) (b : Nat) : State :=
  let v := s.basin b
  match v.img, v.segRec with
  | some m, some g =>
    if v.seg.started ∧ v.phase ≠ .free then
      let s := if v.seg.overtime then s.count .basin b 3 1 else s
      ((imgRouters m).filter s.runsAt).foldl (fun s r => s.runRouter env b m g r) s
    else s
  | _, _ => s

/-! ### Cycles -/

/-- The cycles of a basin's cores. -/
def State.cycleBasin (s : State) (env : SlotEnv) (b : Nat) : State :=
  if (s.basin b).phase = .running ∧ !(s.basin b).testPause then
    ((s.liveCores b).filter s.runsAt).foldl (fun s c => s.cycleCore env b c) s
  else s

/-- Flits that entered a router in this cycle are gone from the links. -/
def State.dropUsed (s : State) : State :=
  { s with links := s.links.filter fun f => !s.runsAt f.router || decide (s.latTime f.router < f.at_) }

/-- A die's cycle in the counters: at its step, and the gated cycles that the duty gate inserts among 16 (16 R448; 13 R375). -/
def State.countLc (s : State) (die step t : Nat) : State :=
  let g := s.power.gate
  let s := s.count .device 0 (3 * die + min 2 step) 1
  if g ≠ 0 ∧ t % (16 - g) = 0 then s.count .device 0 (6 + die) g else s

/-- The lattice times advance (07 R204). -/
def State.advanceTime (s : State) : State :=
  let q := s.pace
  let s := if q.1 then { s.countLc 0 s.power.step0 s.time0 with time0 := (s.time0 + 1) % 2 ^ 64 } else s
  let s := if q.2.1 then { s.countLc 1 s.power.step1 s.time1 with time1 := (s.time1 + 1) % 2 ^ 64 } else s
  { s with power := { s.power with slowAcc := q.2.2 } }

/-- LATTICE_SLOT (07 R209): one lattice cycle of the dies that run in it; nothing moves while the clocks stand. -/
def execLatticeSlot (env : SlotEnv) (s : State) : Out State :=
  .next (if s.power.clocksStopped then s
    else
      let s := s.releaseStep.applyEcc env.ecc
      let bs := s.basins.map (·.1)
      let s := s.seamResend env
      let s := bs.foldl (fun s b => (s.engineLanes b).runBasinSlots env b) s
      let s := s.transitStep env
      ((bs.foldl (fun s b => s.cycleBasin env b) s).dropUsed).advanceTime)

end Sys2Proof.Machine
end

