-- ==== Sys2Proof/Machine/Sideband.lean ====
section
/-! DEFINITION. The sideband interfaces: MCTP over I3C with PLDM and MCTP control (17 R471), and JTAG (17 R472; 15 R437). Message
codes of the MCTP and PLDM standards are not the spec's; answers carry the values only. -/

namespace Sys2Proof.Machine

/-! ### I3C -/

/-- I3C_DYNAMIC_ADDRESS (17 R471): SETDASA or ENTDAA. -/
def execI3cDynamicAddress (addr : BitVec 7) (s : State) : Out State :=
  .next (if s.i3cOn then { s with side := { s.side with i3cAddr := some addr } } else s)

/-! ### Sensors -/

/-- The key of a sensor among the readings. -/
def sensorKey : Sensor → Nat
  | .tjD0 => 0
  | .tjD1 => 1
  | .vin => 2
  | .iin => 3
  | .pin1s => 4
  | .powerLatch => 5
  | .thermalLatch => 6
  | .thermN => 7
  | .faultN => 8
  | .stack n => 16 + n % 12

/-- What a sensor senses now (17 R471). -/
def State.sense (s : State) : Sensor → Nat
  | .tjD0 => s.power.tj0
  | .tjD1 => s.power.tj1
  | .vin => s.power.vin
  | .iin => s.power.iin
  | .pin1s => s.power.pin1s
  | .powerLatch => flagValue s.power.powerLatch
  | .thermalLatch => flagValue s.power.thermalLatch
  | .thermN => flagValue s.power.thermN
  | .faultN => flagValue s.power.faultN
  | .stack n => (s.port (n % 12)).temp

/-- Every sensor. -/
def sensors : List Sensor :=
  [.tjD0, .tjD1, .vin, .iin, .pin1s, .powerLatch, .thermalLatch, .thermN, .faultN] ++ (List.range 12).map .stack

/-- SENSOR_REFRESH (17 R471): each 100 ms. -/
def execSensorRefresh (s : State) : Out State :=
  .next (if s.mgmt.phase = .ready ∧ !s.mgmt.gap then
    { s with side := { s.side with sensors := sensors.foldl (fun m x => SMap.set 0 m (sensorKey x) (s.sense x)) s.side.sensors } }
  else s)

/-- PLDM_SENSOR_READ (17 R471): the reading of the latest refresh. -/
def execPldmSensorRead (x : Sensor) (s : State) : Out State :=
  .next (s.overI3c fun s => s.emit (.pldm (SMap.get 0 s.side.sensors (sensorKey x))))

/-- MCTP_CONTROL_REQUEST (17 R471): endpoint discovery and identification. -/
def execMctpControlRequest (m : MctpControl) (s : State) : Out State :=
  .next (s.overI3c fun s =>
    match m with
    | .setEndpointId e => { s with side := { s.side with eid := e } }.emit (.mctp e.toNat)
    | .getEndpointId => s.emit (.mctp s.side.eid.toNat)
    | .discovery => s.emit (.mctp s.side.eid.toNat))

/-! ### JTAG -/

/-- The TAP controller's next state (IEEE 1149.1; 17 R472; log 21). -/
def TapState.step (t : TapState) (tms : Bool) : TapState :=
  match t with
  | .testLogicReset => if tms then .testLogicReset else .runTestIdle
  | .runTestIdle => if tms then .selectDr else .runTestIdle
  | .selectDr => if tms then .selectIr else .captureDr
  | .captureDr => if tms then .exit1Dr else .shiftDr
  | .shiftDr => if tms then .exit1Dr else .shiftDr
  | .exit1Dr => if tms then .updateDr else .pauseDr
  | .pauseDr => if tms then .exit2Dr else .pauseDr
  | .exit2Dr => if tms then .updateDr else .shiftDr
  | .updateDr => if tms then .selectDr else .runTestIdle
  | .selectIr => if tms then .testLogicReset else .captureIr
  | .captureIr => if tms then .exit1Ir else .shiftIr
  | .shiftIr => if tms then .exit1Ir else .shiftIr
  | .exit1Ir => if tms then .updateIr else .pauseIr
  | .pauseIr => if tms then .exit2Ir else .pauseIr
  | .exit2Ir => if tms then .updateIr else .shiftIr
  | .updateIr => if tms then .selectDr else .runTestIdle

/-- The instructions that every scope opens, by code (PRESUMED, log 21): BYPASS is all ones, IDCODE 0x01 and SAMPLE 0x02. -/
def openIr (x : BitVec 8) : Bool := decide (x = 0xFF) || decide (x = 0x01) || decide (x = 0x02)

/-- The instruction in force: one that the debug scope does not open acts as BYPASS (15 R437; 17 R472; log 21). -/
def State.tapIr (s : State) : BitVec 8 := if openIr s.side.ir || decide (s.sec.scope ≠ 0) then s.side.ir else 0xFF

/-- Bits of the data register in force: 1 for BYPASS, 32 for IDCODE, else the shift register's (log 21). -/
def drBits (ir : BitVec 8) : Nat := if ir = 0xFF then 1 else if ir = 0x01 then 32 else 64

/-- What the TAP does in its state at a TCK edge (17 R472; log 21): captured data beyond the spec's words is a free value. -/
def State.tapAct (s : State) (tdi : Bool) : State :=
  let x := s.side
  let put := fun (y : Side) => ({ s with side := y } : State)
  let ir := s.tapIr
  match x.tap with
  | .testLogicReset => put { x with ir := 0x01 }
  | .captureIr => put { x with irShift := 0x01 }
  | .shiftIr =>
    put { x with tdo := x.irShift.getLsbD 0, irShift := (x.irShift >>> 1) ||| (if tdi then 0x80 else 0) }
  | .updateIr => put { x with ir := x.irShift }
  | .captureDr =>
    if ir = 0xFF then put { x with drShift := 0 } else ({ s with side := { x with drShift := s.freeVal 64 } }).tick
  | .shiftDr =>
    let n := drBits ir
    let v := x.drShift.toNat % 2 ^ n / 2 + (if tdi then 2 ^ (n - 1) else 0)
    put { x with tdo := x.drShift.getLsbD 0, drShift := BitVec.ofNat 64 v }
  | _ => s

/-- JTAG_TAP_OPERATION (17 R472): one edge of TCK with TMS and TDI. What boundary scan and debug do beyond the TAP is not given and
changes nothing here (log 21). -/
def execJtagTapOperation (tms tdi : Bool) (s : State) : Out State :=
  .next (if s.mgmt.vioOk then
    let s := s.tapAct tdi
    let s := { s with side := { s.side with tap := s.side.tap.step tms } }
    s.emit (.tdo s.side.tdo)
  else s)

end Sys2Proof.Machine
end

