-- ==== Sys2Proof/Machine/Registers.lean ====
section
/-! DEFINITION. Register writes of host software (00 R10, R11; 11 R318, R319). A write of a register that a command of its own writes too,
or of one half of it, is that command; only BSN_LAUNCH and KCMD_GO, whose commands carry the image and the block, do nothing here (log
39). -/

namespace Sys2Proof.Machine

/-! ### Basin control pages -/

/-- TIER_PLACE's fields: word 0 and word 1 (09 R290). -/
def placeFields (i : Nat) : List (Nat × Nat) := if i % 2 = 0 then [(63, 32), (27, 16), (11, 8), (0, 0)] else [(63, 32)]

/-- BSN_PROT's fields: base and limit (02 R57). -/
def protFields (i : Nat) : List (Nat × Nat) := if i % 2 = 0 then [(63, 21), (0, 0)] else [(63, 21)]

/-- TP_STATUS's W1C bits (11 R342). -/
def TpQueue.clearBits (q : TpQueue) (a : RegAcc) : TpQueue :=
  { q with
    depthRefused := a.w1c 8 q.depthRefused, ptrErr := a.w1c 7 q.ptrErr, poison := a.w1c 6 q.poison
    flushedHeld := a.w1c 5 q.flushedHeld, timeout := a.w1c 4 q.timeout, underrun := a.w1c 3 q.underrun
    overrun := a.w1c 2 q.overrun }

/-- An MSI-X entry's address word, and its data and vector control word (11 R344). -/
def MsixEntry.write (e : MsixEntry) (a : RegAcc) (second : Bool) : MsixEntry :=
  if second then { e with data := a.rw 31 0 e.data, masked := e.masked || decide (a.rw 32 32 0 = 1) }
  else { e with addr := a.rw 63 32 (bits e.addr 63 32) * 2 ^ 32 + a.rw 31 0 (bits e.addr 31 0) }

/-- A write of an MSI-X entry; one that clears the mask is MSIX_UNMASK (11 R344). -/
def msixWrite (fn : HostFn) (v : Nat) (second : Bool) (a : RegAcc) (s : State) : Out State :=
  let s := s.fromHost fun s => s.setMsix fn v ((s.msixOf fn v).write a second)
  if second && a.covers 32 32 && !bit a.val 32 then execMsixUnmask fn v s else .next s

/-- A write within a basin's control page, at 64-bit word `w` (11 R319). -/
def Basin.pageWrite (v : Basin) (w : Nat) (a : RegAcc) : Basin :=
  let off := 8 * w
  if off < 0x100 then { v with launchBlock := SMap.upd 0 v.launchBlock w a.word }
  else if off = 0x108 then { v with restartLimit := a.rw 11 8 v.restartLimit }
  else if off = 0x110 then { v with sluiceTimeout := a.rw 31 0 v.sluiceTimeout }
  else if off = 0x118 then { v with event := v.event &&& ~~~(BitVec.ofNat 32 (a.rw 31 0 0)) }
  else if off = 0x140 then { v with winBase := a.rw 47 21 v.winBase }
  else if 0x200 ≤ off ∧ off < 0x300 then
    if v.quiet then
      let i := w - 64
      { v with prot := SMap.upd 0 v.prot i fun x => a.fields x (protFields i) }
    else v
  else if off = 0x600 then
    if v.quiet then { v with growth := a.rw 31 16 v.growth, lsFixed := decide (a.rw 0 0 (flagValue v.lsFixed) = 1) } else v
  else if off = 0x610 then if v.quiet then { v with train := { v.train with step := a.rw 31 0 v.train.step } } else v
  else if 0xA00 ≤ off ∧ off < 0xA80 then
    if v.quiet then
      let i := w - 0x140
      { v with place := SMap.upd (if i % 2 = 0 then 0x900 else 0) v.place i fun x => a.fields x (placeFields i) }
    else v
  else if 0x1000 ≤ off ∧ off < 0x1400 ∧ w % 4 = 1 then v.updQueue ((off - 0x1000) / 32) fun q => q.clearBits a
  else v

/-- TP_CTRL's fields (11 R342). -/
def tpCtrlFields : List (Nat × Nat) := [(55, 32), (30, 10), (9, 5), (4, 0)]

/-- TP_CTRL as it reads (11 R342). -/
def TpQueue.ctrlWord (q : TpQueue) : Nat :=
  q.timeoutUs * 2 ^ 32 + q.notifyLevel * 2 ^ 10 + q.vector * 2 ^ 5 + q.wantDepth.getD q.depthLog2

/-- BSN_BIAS as it reads (11 R323). -/
def Basin.biasWord (v : Basin) : Nat := v.biasPage * 2 ^ 32 + v.biasPages * 2 ^ 8 + flagValue v.biasToHost * 2

/-- A write of a register of basin `b`'s page with a command of its own: the command, on the fields that the write covers (00 R10). -/
def pageCommand (b w : Nat) (a : RegAcc) (s : State) : Option (Out State) :=
  let off := 8 * w
  let v := s.basin b
  let j := (off - 0x1000) / 32
  if off = 0x108 then
    some (.next (s.fromHost fun s =>
      let s := s.updBasin b fun v => v.pageWrite w a
      if bit a.val 0 then s.requestPark b else s))
  else if off = 0x148 then
    some (execBiasChange b (a.fields (BitVec.ofNat 64 v.biasWord) [(63, 32), (31, 8), (1, 1), (0, 0)]) s)
  else if off = 0x608 then some (execBsnLscaleWrite b (BitVec.ofNat 32 a.val) s)
  else if 0x1000 ≤ off ∧ off < 0x1400 then
    match w % 4 with
    | 0 => some (execTpCtrlWrite b j (a.fields (BitVec.ofNat 64 (v.queue j).ctrlWord) tpCtrlFields) s)
    | 3 =>
      match bits a.val 1 0 with
      | 1 => some (execAdvance b j (bits a.val 28 8) s)
      | 2 => some (execFlush b j s)
      | _ => none
    | _ => none
  else if 0x2000 ≤ off ∧ off < 0x21F0 then some (msixWrite (.vf b) ((off - 0x2000) / 16) (decide (w % 2 = 1)) a s)
  else none

/-- Whether a word of a control page holds a 32-bit register, which host software must write with a 32-bit access (00 R10). -/
def pageNarrow (w : Nat) : Bool :=
  [0x108, 0x110, 0x118, 0x130, 0x138, 0x150, 0x600, 0x608, 0x610].contains (8 * w) ||
    (decide (0x1000 ≤ 8 * w) && decide (8 * w < 0x1400) && decide (w % 4 = 3))

/-! ### Global registers -/

/-- GLB_LANE_POL (17 R469): a bit of a lane whose group is not off stays. -/
def State.lanePolAfter (s : State) (x : Nat) : BitVec 32 :=
  (List.range 32).foldl (fun (p : BitVec 32) i =>
    let m := (s.group (i % 16 / 4)).mode
    if m = 0 ∨ m = 3 then setBit p i (bit x i) else p) s.link.lanePol

/-- Causes of PWR_EMERG after a write: bits 12 to 5 are W1C (13 R388). -/
def Power.clearCauses (p : Power) (x : Nat) : Power := { p with causes := p.causes &&& ~~~(BitVec.ofNat 32 (bits x 12 5 * 32)) }

/-- QRY_CTRL (14 R412). -/
def Rel.writeCtrl (r : Rel) (x : Nat) : Rel :=
  { r with rateLog2 := max 4 (min 16 (bits x 20 16)), shadowEn := bit x 8, dueH := bits x 4 0 }

/-- A queue pair's word `w` after a write (12 R362); word 7 is RO. -/
def Qp.writeWord (q : Qp) (w : Nat) (a : RegAcc) : Qp :=
  match w with
  | 0 => q.writeCtrl a
  | 1 => { q with remoteRkey := a.rw 63 32 q.remoteRkey, remoteQpn := a.rw 23 0 q.remoteQpn }
  | 2 => { q with localRkey := a.rw 63 32 q.localRkey, udpSport := a.rw 15 0 q.udpSport }
  | 3 => { q with remoteMac := BitVec.ofNat 48 (a.rw 47 0 q.remoteMac.toNat) }
  | 4 =>
    let i := q.remoteIp.toNat
    { q with remoteIp := BitVec.ofNat 128 (putBits i 63 0 (a.word (BitVec.ofNat 64 (bits i 63 0))).toNat) }
  | 5 =>
    let i := q.remoteIp.toNat
    { q with remoteIp := BitVec.ofNat 128 (putBits i 127 64 (a.word (BitVec.ofNat 64 (bits i 127 64))).toNat) }
  | 6 => { q with rxPsn := a.rw 55 32 q.rxPsn, txPsn := a.rw 23 0 q.txPsn }
  | _ => q

/-- A lane group's address registers (12 R361): word 1 MAC, words 2 and 3 the IP address. -/
def EthGroup.writeAddr (g : EthGroup) (w : Nat) (a : RegAcc) : EthGroup :=
  let i := g.ip.toNat
  match w with
  | 1 => { g with mac := BitVec.ofNat 48 (a.rw 47 0 g.mac.toNat) }
  | 2 => { g with ip := BitVec.ofNat 128 (putBits i 63 0 (a.word (BitVec.ofNat 64 (bits i 63 0))).toNat) }
  | 3 => { g with ip := BitVec.ofNat 128 (putBits i 127 64 (a.word (BitVec.ofNat 64 (bits i 127 64))).toNat) }
  | _ => g

/-- PMC_NOTIFY (16 R453, R456): a level below the unread bytes counts as risen to. -/
def State.writeNotify (s : State) (a : RegAcc) : State :=
  let p := s.pmc
  let p := { p with drop := a.w1c 24 p.drop, levelKib := a.rw 14 0 p.levelKib }
  { s with pmc := { p with levelFired := decide (p.levelKib ≠ 0) && decide (p.levelKib * 1024 ≤ p.unread) } }

/-- A write among PF0's global 32-bit registers. -/
def State.narrowWrite (s : State) (off x : Nat) (a : RegAcc) : State :=
  if off = 0x28 then { s with link := { s.link with ideFail := a.w1c 16 s.link.ideFail } }
  else if off = 0x38 then { s with link := { s.link with lanePol := s.lanePolAfter x } }
  else if off = 0x5000 then { s with tier := { s.tier with ctrlStack := bits x 3 0 } }
  else if off = 0x5008 then { s with tier := { s.tier with timeoutMs := bits x 15 0 } }
  else if off = 0x40008 then { s with power := s.power.clearCauses x }
  else if off = 0x41008 then
    s.heldWrite (.clkCtrl (BitVec.ofNat 32 x)) fun s => { s with power := { s.power with stepMin := bits x 1 0 } }
  else if off = 0x50000 then { s with rel := s.rel.writeCtrl x }
  else if off = 0x2000018 then s.writeNotify a
  else s

/-- A write among PF0's global 64-bit registers, buffers and tables, at 64-bit word `w`. -/
def State.wideWrite (s : State) (w : Nat) (a : RegAcc) : State :=
  let off := 8 * w
  if off = 0x18 then { s with link := { s.link with lastRefused := a.w1c 2 s.link.lastRefused } }
  else if 0x8000 ≤ off ∧ off < 0x8100 then s.updGroup ((off - 0x8000) / 64) fun g => g.writeAddr (w % 8) a
  else if 0x8400 ≤ off ∧ off < 0x8400 + 16 * 63 then
    let n := (off - 0x8400) / 16
    if w % 2 = 0 then s.updQset n fun q => { q with home := a.rw 1 0 q.home }
    else s.updQset n fun q => { q with collFailed := a.w1c 0 q.collFailed }
  else if 0x10000 ≤ off ∧ off < 0x10000 + 0x800 * 63 then
    s.updQp (qpnOf ((off - 0x10000) / 0x800) ((off - 0x10000) % 0x800 / 64)) fun q => q.writeWord (w % 8) a
  else if 0x200000 ≤ off ∧ off < 0x200100 then
    if s.sec.busy then s
    else { s with sec := { s.sec with buf := SMap.setList 0 s.sec.buf (off - 0x200000 + a.lo / 8) a.bytes } }
  else if off = 0x200108 then { s with sec := { s.sec with droppedGo := a.w1c 17 s.sec.droppedGo } }
  else s

/-- PF0's global 32-bit registers. -/
def narrowOffs : List Nat :=
  [0x10, 0x28, 0x38, 0x4100, 0x5000, 0x5008, 0x8000, 0x8040, 0x8080, 0x80C0, 0x40008, 0x40010, 0x41008, 0x50000, 0x70010, 0x2000018]

/-- A write of one of PF0's global 32-bit registers with a command of its own: the command. OP of TIER_STACK_CTRL, and the bits of
SEC_DEBUG_CTRL, start theirs (09 R289; 15 R445). -/
def narrowCommand (off : Nat) (x : BitVec 32) (s : State) : Option (Out State) :=
  let n := x.toNat
  if off = 0x10 then some (execIfDeclare x s)
  else if off = 0x4100 then some (execMempWeirThWrite x s)
  else if off = 0x5000 then
    match bits n 9 8 with
    | 1 => some (.next (s.fromHost fun s => s.ctrlRetrain (bits n 3 0)))
    | 2 => some (.next (s.fromHost fun s => s.ctrlRetire (bits n 3 0)))
    | _ => none
  else if 0x8000 ≤ off ∧ off < 0x8100 then some (execEthGroupCtrlWrite ((off - 0x8000) / 64) x s)
  else if off = 0x40010 then some (execPwrCapWrite x s)
  else if off = 0x70010 then
    some (.next (s.fromHost fun s =>
      let s := if bit n 0 then s.debugLock else s
      if bit n 1 then s.newNonce else s))
  else none

/-- An extent's base or limit word as it reads (09 R289). -/
def State.extWord (s : State) (w : Nat) : Nat := (SMap.get 0 s.tier.ext w).toNat

/-- A write of one of PF0's global 64-bit registers with a command of its own: the command, on the fields that the write covers (00 R10).
Registers that must be accessed with 64 bits (15 R444; 16 R456) take no half. -/
def wideCommand (w : Nat) (wide : Bool) (a : RegAcc) (s : State) : Option (Out State) :=
  let off := 8 * w
  let v := BitVec.ofNat 64 a.val
  if 0x5100 ≤ off ∧ off < 0x5180 then
    let k := w - 0xA20
    some (execTierHostExtWrite (k / 2) (decide (k % 2 = 1))
      (a.fields (BitVec.ofNat 64 (s.extWord k)) (if k % 2 = 0 then [(63, 21), (0, 0)] else [(63, 21)])) s)
  else if 0x30000 ≤ off ∧ off < 0x30400 then some (msixWrite .pf0 ((off - 0x30000) / 16) (decide (w % 2 = 1)) a s)
  else if off = 0x40028 then if a.covers 23 16 then some (execPwrTjWrite v s) else none
  else if off = 0x64000 then if a.covers 31 0 then some (execErrConsumedWrite (BitVec.ofNat 32 a.val) s) else none
  else if off = 0x2000000 then if wide then some (execPmcCtrlWrite v s) else none
  else if off = 0x2000008 then if wide then some (execRdOffWrite (BitVec.ofNat 32 a.val) s) else none
  else none

/-- A write of an FWU_ register with commands of its own (15 R444): FWU_CTRL's OP, and FWU_BLOCK as a whole. -/
def fwuCommand (off : Nat) (wide : Bool) (v : Word) (s : State) : Option (Out State) :=
  if off = 0x100000 ∧ !wide then
    match bits v.toNat 2 0 with
    | 1 => some (execFwuStart s)
    | 2 => some (execFwuVerify s)
    | 3 => some (execFwuAbort s)
    | 4 => some (execRecoverBoot s)
    | _ => none
  else if off = 0x100010 ∧ wide then some (execFwuBlock v s)
  else none

/-- The FWU_ registers and window, which ROM recovery mode serves too (15 R426, R444). -/
def State.fwuWrite (s : State) (off : Nat) (wide : Bool) (a : RegAcc) : State :=
  if off = 0x100008 then if wide then s else { s with fwu := { s.fwu with size := a.rw 31 0 0 } }
  else if off = 0x100018 then if wide then s else { s with fwu := { s.fwu with crc := BitVec.ofNat 32 (a.rw 31 0 0) } }
  else if 0x110000 ≤ off ∧ off < 0x120000 then { s with fwu := { s.fwu with data := SMap.setList 0 s.fwu.data (off - 0x110000) a.bytes } }
  else s

/-- Whether an offset lies among the FWU_ registers. -/
def isFwu (off : Nat) : Bool := decide (0x100000 ≤ off) && decide (off < 0x120000)

/-- The basin and the offset in its control page that an offset of a function's BAR0 names (11 R318, R319). -/
def pageOf (fn : HostFn) (off : Nat) : Option (Nat × Nat) :=
  match fn with
  | .vf b => if b < 64 ∧ off < 0x10000 then some (b, off) else none
  | .pf0 => if 0x1000000 ≤ off ∧ off < 0x1400000 then some ((off - 0x1000000) / 0x10000, off % 0x10000) else none

/-- Whether a queue pair's word of a RUNNING basin lies at an offset: host software must not write it (12 R362). -/
def State.qpOpenAt (s : State) (off : Nat) : Option Nat :=
  if 0x10000 ≤ off ∧ off < 0x10000 + 0x800 * 63 then s.qpClosed ((off - 0x10000) / 0x800) else none

/-- A write that keeps the rules of access, outside control pages: a wide access to a 32-bit register has no effect that the spec
gives, and no basin is affected (00 R10, R15; log 39). -/
def globalWrite (off : Nat) (wide : Bool) (v : Word) (s : State) : Out State :=
  let a := regAcc off wide v
  if isFwu off then (fwuCommand off wide v s).getD (.next (s.toFwu fun s => s.fwuWrite off wide a))
  else if narrowOffs.contains off then
    if wide then .next s
    else (narrowCommand off (BitVec.ofNat 32 a.val) s).getD (.next (s.fromHost fun s => s.narrowWrite off a.val a))
  else (wideCommand (off / 8) wide a s).getD (.next (s.fromHost fun s => s.wideWrite (off / 8) a))

/-- REGISTER_WRITE (00 R10, R11). A write that breaks a "must" about a basin's registers leaves the device's behaviour undefined for that
basin (00 R15): a misaligned or a wrong-sized access to its page, or a write of its queue pairs while it is RUNNING. -/
def execRegisterWrite (fn : HostFn) (off : Nat) (wide : Bool) (v : Word) (s : State) : Out State :=
  let aligned := decide (off % (if wide then 8 else 4) = 0)
  match pageOf fn off with
  | some (b, o) =>
    if s.mgmt.phase = .recovery ∨ !s.link.up ∨ s.link.insecure ∨ (s.basin b).phase = .free then .next s
    else if !aligned || (wide && pageNarrow (o / 8)) then .next (s.undefine b)
    else if pageNarrow (o / 8) ∧ o % 8 ≠ 0 then .next s
    else
      let a := regAcc o wide v
      (pageCommand b (o / 8) a s).getD (.next (s.updBasin b fun v' => v'.pageWrite (o / 8) a))
  | none =>
    if fn ≠ .pf0 ∨ !aligned then .next s
    else
      match s.qpOpenAt off with
      | some b => .next (s.fromHost fun s => s.undefine b)
      | none => globalWrite off wide v s

end Sys2Proof.Machine
end

