-- ==== Sys2Proof/Machine/Vector.lean ====
section
/-! DEFINITION. The vector unit: elementwise instructions, conversions, row reductions, and VLDX and VSTX (04 R132 to
R137; 05 R151 to R156, R161, R171 to R174). -/

namespace Sys2Proof.Machine

/-- The opcodes of the vector group (04 R101). -/
def oVadd : Nat := 0x40
def oVmul : Nat := 0x41
def oVfma : Nat := 0x42
def oVexp : Nat := 0x43
def oVrsq : Nat := 0x44
def oVmax : Nat := 0x45
def oVcvt : Nat := 0x46
def oVred : Nat := 0x47
def oVstx : Nat := 0x49

/-- Whether an opcode takes two sources, of which the last may be a register (04 R132). -/
def twoSources (code : Nat) : Bool :=
  decide (code = oVadd) || decide (code = oVmul) || decide (code = oVfma) || decide (code = oVmax)

/-- Whether the last source is a register: OPT[0] (04 R132). -/
def regForm (code : Nat) (i : Insn) : Bool := twoSources code && i.opt.getLsbD 0

/-- The fields of a vector instruction (04 R132, R133, R135). VCVT uses IMM[7:0] whatever its formats, as a window exponent where
one of them is W64 (DESIGN CHOICE, log 79: R135 does not say whether the field is unused elsewhere). -/
def vecFields (code : Nat) (i : Insn) : Fields :=
  { op := code, words := [if twoSources code && !i.opt.getLsbD 0 then 4 else 3], only := some .x
    imm := if code = oVcvt then 0xFF else 0
    opt := (if twoSources code then 1 else 0) ||| 2 ||| (if code = oVmax ∨ code = oVred then 4 else 0)
    rb := regForm code i }

/-- The source descriptors (04 R132). -/
def vecSources (code : Nat) (i : Insn) : List OpDesc :=
  if twoSources code && !i.opt.getLsbD 0 then [opDesc i.w2, opDesc i.w3] else [opDesc i.w2]

/-- Formats of the vector unit (04 R133). -/
def vecFmt (f : Nat) : Bool := decide (f ≤ fE5m2)

/-- Whether a source fits D: its shape, one reused row, one broadcast element per row, or both (04 R132). A VRED reads
whole rows and writes one element per row (R133). -/
def shapeOk (code : Nat) (d s : OpDesc) : Bool :=
  (decide (s.rows = d.rows) || decide (s.rows = 1)) &&
    (if code = oVred then decide (d.cols = 1) else decide (s.cols = d.cols) || decide (s.cols = 1))

/-- The format conditions of VCVT (04 R135). -/
def vcvtOk (d s : OpDesc) (stoch : Bool) : Bool :=
  decide (d.fmt ≤ fInt32) && decide (s.fmt ≤ fInt32) &&
    (decide (d.fmt = fFp32) || decide (s.fmt = fFp32) || (decide (s.fmt = fW64) && isHalf d.fmt)) &&
    (!stoch || stochFmt d.fmt)

/-- The FORMAT_CONFLICT conditions (04 R133, R135). -/
def vecFmtConds (code : Nat) (i : Insn) : List Cond :=
  let d := opDesc i.w1
  let ss := vecSources code i
  let stoch := i.opt.getLsbD 1
  if code = oVcvt then cond (!ss.all fun s => vcvtOk d s stoch) cFormat 0x04
  else if d.fmt = fW64 then
    cond (regForm code i || ss.any fun s => decide (s.fmt ≠ fW64)) cFormat 0x03 ++
    cond (stoch || (decide (code ≠ oVadd) && decide (code ≠ oVred))) cFormat 0x04
  else
    cond (ss.any fun s => !vecFmt s.fmt) cFormat 0x03 ++
    cond (!vecFmt d.fmt || (stoch && decide (d.fmt = fFp32))) cFormat 0x04

/-- The halt conditions of a vector instruction (04 R132, R133, R135). -/
def vecConds (code : Nat) (i : Insn) : List Cond :=
  let d := opDesc i.w1
  let ss := vecSources code i
  d.conds true ++ (ss.flatMap fun s => s.conds false) ++
  cond (ss.any fun s => !shapeOk code d s) cBadDesc 0x05 ++ vecFmtConds code i

/-- Dispatches work to the vector unit, which holds one executing and one waiting (04 R103). -/
def State.dispatchVec (s : State) (i : Issue) (o : Op) : State :=
  let k := s.core i.core
  if 2 ≤ k.vecPipe.length then s.unitWait i.core i.strm 11
  else
    (s.updCore i.core fun k => { k with
      vecPipe := k.vecPipe ++ [{ o with id := k.nextOp }], nextOp := k.nextOp + 1 }).retire i.core i.strm
        i.insn.wc.toNat 1

/-- A vector instruction: its checks, and its dispatch with the register operand read at issue. -/
def State.vec (s : State) (i : Issue) (code : Nat) : State :=
  s.present i (fun _ _ => vecFields code i.insn) (fun _ _ _ => vecConds code i.insn) fun s =>
    let t := (s.core i.core).stream i.strm
    s.dispatchVec i { code := code, pc := t.pc, strm := i.strm, insn := i.insn, opB := t.reg i.insn.rb.toNat,
                      tagB := t.tag i.insn.rb.toNat }

/-- VADD (04 R133). -/
def execVadd (i : Issue) (s : State) : Out State := .next (s.vec i oVadd)

/-- VMUL (04 R133). -/
def execVmul (i : Issue) (s : State) : Out State := .next (s.vec i oVmul)

/-- VFMA (04 R133). -/
def execVfma (i : Issue) (s : State) : Out State := .next (s.vec i oVfma)

/-- VEXP (04 R133, 05 R174). -/
def execVexp (i : Issue) (s : State) : Out State := .next (s.vec i oVexp)

/-- VRSQ (04 R133, 05 R174). -/
def execVrsq (i : Issue) (s : State) : Out State := .next (s.vec i oVrsq)

/-- VMAX (04 R133). -/
def execVmax (i : Issue) (s : State) : Out State := .next (s.vec i oVmax)

/-- VCVT (04 R135). -/
def execVcvt (i : Issue) (s : State) : Out State := .next (s.vec i oVcvt)

/-- VRED (04 R133, R134). -/
def execVred (i : Issue) (s : State) : Out State := .next (s.vec i oVred)

/-- The address of VLDX and VSTX (04 R137). -/
def vecAddr (t : Stream) (i : Insn) : Nat := (t.reg i.ra.toNat + sext32 i.imm).toNat

/-- The halt conditions of VLDX and VSTX (04 R137, 03 R60, R69). -/
def vecAddrConds (t : Stream) (i : Insn) : List Cond :=
  cond (t.tag i.ra.toNat) cPoison 0x02 ++ cond (decide (spEnd < vecAddr t i + 8)) cBadDesc 0x02 ++
  cond (decide (vecAddr t i % 8 ≠ 0)) cMisaligned 0x04

/-- VLDX (04 R137): in vector-unit order, so that it waits while the unit holds work; a poisoned block tags RD. -/
def execVldx (i : Issue) (s : State) : Out State :=
  .next (s.present i (fun _ _ => { op := 0x48, words := [1], only := some .x, imm := BitVec.allOnes 32, ra := true, rd := true })
    (fun _ _ t => vecAddrConds t i.insn)
    fun s =>
      if !(s.core i.core).vecPipe.isEmpty then s.unitWait i.core i.strm 11
      else
        (s.updCore i.core fun k =>
          let t := k.stream i.strm
          let a := vecAddr t i.insn
          k.setStream i.strm (t.setReg i.insn.rd.toNat (BitVec.ofNat 64 (leNat (k.spRead a 8))) (k.spPoisoned a 8))).retire
            i.core i.strm 0 3)

/-- VSTX (04 R137): dispatched to the vector unit. -/
def execVstx (i : Issue) (s : State) : Out State :=
  .next (s.present i (fun _ _ => { op := 0x49, words := [1], only := some .x, imm := BitVec.allOnes 32, ra := true, rb := true })
    (fun _ _ t => vecAddrConds t i.insn)
    fun s =>
      let t := (s.core i.core).stream i.strm
      s.dispatchVec i { code := oVstx, pc := t.pc, strm := i.strm, insn := i.insn, opA := BitVec.ofNat 64 (vecAddr t i.insn),
                        opB := t.reg i.insn.rb.toNat, tagB := t.tag i.insn.rb.toNat })

/-! ### The work of the vector unit -/

/-- A source's element for element (r, c) of D: its own, the reused row's, or the broadcast one (04 R132). -/
def srcElem (k : Core) (s : OpDesc) (wexp r c : Nat) : FVal × Bool :=
  loadElem k s wexp (if s.rows = 1 then 0 else r) (if s.cols = 1 then 0 else c)

/-- A source's raw bits for element (r, c) of D. -/
def srcRaw (k : Core) (s : OpDesc) (r c : Nat) : Nat × Bool :=
  loadRaw k s (if s.rows = 1 then 0 else r) (if s.cols = 1 then 0 else c)

/-- The last source's element for element (r, c) of D, or the register operand, with its poison (04 R132); zero where there is
none. -/
def vecB (k : Core) (o : Op) (wexp r c : Nat) : FVal × Bool :=
  if regForm o.code o.insn then (fp32.decode (bits o.opB.toNat 31 0), o.tagB)
  else match vecSources o.code o.insn with
    | [_, b] => srcElem k b wexp r c
    | _ => (.fin false 0 0, false)

/-- D's element, which VFMA reads (04 R133). -/
def vecD (k : Core) (o : Op) (wexp r c : Nat) : FVal × Bool :=
  if o.code = oVfma then loadElem k (opDesc o.insn.w1) wexp r c else (.fin false 0 0, false)

/-- The FP32 result of an elementwise instruction from its operands and D's element (04 R133; 05 R173). `sel` is
OPT[2]. -/
def vecValue (code : Nat) (sel : Bool) (a b d : FVal) : FVal :=
  if code = oVadd then FVal.toFp32 (FVal.add a b)
  else if code = oVmul then FVal.toFp32 (FVal.mul a b)
  else if code = oVfma then FVal.toFp32 (FVal.add (FVal.mul a b) d)
  else if code = oVexp then fp32.decode (vexpBits (fp32.encode a))
  else if code = oVrsq then fp32.decode (vrsqBits (fp32.encode a))
  else if code = oVmax then FVal.maxMin sel a b
  else a

/-- One level of the pairwise tree: elements pair in ascending order, one without a partner passes on (04 R134). -/
def pairUp {α : Type} (f : α → α → α) : List α → List α
  | a :: b :: l => f a b :: pairUp f l
  | l => l

/-- The pairwise tree over a beat of at most 32 elements (04 R134). -/
def treeBeat {α : Type} (f : α → α → α) (l : List α) : List α :=
  pairUp f (pairUp f (pairUp f (pairUp f (pairUp f l))))

/-- A row reduced: beats of 32 by their trees, and the beats in ascending order (04 R134). -/
def reduceRow {α : Type} (f : α → α → α) (l : List α) : Option α :=
  match (chunksOf 32 (l.length + 1) l).flatMap (treeBeat f) with
  | [] => none
  | a :: as => some (as.foldl f a)

/-- The greater of two W64 elements as signed integers; INVALID wins (04 R133). -/
def w64Greater (a b : Nat) : Nat :=
  if a = w64Invalid ∨ b = w64Invalid then w64Invalid else if w64Int a < w64Int b then b else a

/-- An output element's bits in D's format from an exact value, with the EXACT_OVF mark (04 R133, R135; 05 R151, R154,
R160). -/
def encodeElem (f wexp : Nat) (stoch : Bool) (draw : Nat) (v : FVal) : Nat × Bool :=
  if f = fW64 then w64Quant wexp v
  else
    match fmtFloat f with
    | some g => (if stoch then g.encodeStoch draw v else g.encode v, false)
    | none => (intEnc (fmtBits f) v, false)

/-- The FP32 result of an elementwise instruction that a fault has struck. -/
def vecStruck (code : Nat) (sel : Bool) (a b d : FVal) (u : Option Upset) : FVal :=
  let p := (FVal.mul a b).struck u [.multiply, .exponent]
  let v :=
    if code = oVadd then FVal.toFp32 ((FVal.add a b).struck u [.shift, .add, .exponent])
    else if code = oVmul then FVal.toFp32 p
    else if code = oVfma then FVal.toFp32 ((FVal.add p d).struck u [.shift, .add])
    else vecValue code sel a b d
  v

/-- The checked steps of an output element: its multiply and add, and the rounding of an exact value `x` to D (05 R167). -/
def vecSteps (code f : Nat) (stoch : Bool) (draw : Nat) (a b d x : FVal) : List ResStep :=
  (if code = oVmul ∨ code = oVfma then mulSteps a b else []) ++
  (if code = oVadd then addSteps a b else if code = oVfma then addSteps (FVal.mul a b) d else []) ++
  (match fmtFloat f with
   | some g => roundSteps g x (g.roundedAt x (if stoch then g.encodeStoch draw x else g.encode x))
   | none => [])

/-- An output element's bits that a fault in its rounding, or in a W64 sum or quantisation, has struck. -/
def elemStruck (f v : Nat) (u : Option Upset) : Nat :=
  match fmtFloat f with
  | some g => g.struck v u
  | none =>
    if u.isNone then v
    else if f = fW64 then w64Enc (struckInt (w64Int v) u [.add, .round]) else (struckInt v u [.round] % 2 ^ fmtBits f).toNat

/-- Element (r, c) of the result of a row: bits, poison, EXACT_OVF mark (04 R133 to R135; 05 R171); `u` is a fault that no check
has caught. -/
def vecElem (k : Core) (o : Op) (r c draw : Nat) (u : Option Upset) : (Nat × Bool) × Bool :=
  let d := opDesc o.insn.w1
  let ss := vecSources o.code o.insn
  let a := ss.headD {}
  let wexp := bits o.insn.imm.toNat 7 0
  let sel := o.insn.opt.getLsbD 2
  let stoch := o.insn.opt.getLsbD 1
  if o.code = oVred then
    if d.fmt = fW64 then
      let es := (List.range a.cols).map fun j => loadRaw k a (if a.rows = 1 then 0 else r) j
      let p := es.any (·.2)
      if sel then ((elemStruck d.fmt ((reduceRow w64Greater (es.map (·.1))).getD 0) u, p), false)
      else
        let q := (reduceRow (fun (x y : Nat × Bool) =>
          let z := w64Add x.1 y.1
          (z.1, x.2 || y.2 || z.2)) (es.map fun e => (e.1, false))).getD (0, false)
        ((elemStruck d.fmt q.1 u, p), q.2)
    else
      let es := (List.range a.cols).map fun j => loadElem k a wexp (if a.rows = 1 then 0 else r) j
      let v := (reduceRow (fun x y => if sel then FVal.maxMin false x y else FVal.toFp32 (FVal.add x y))
        (es.map (·.1))).getD .nan
      let q := encodeElem d.fmt wexp stoch draw v
      ((elemStruck d.fmt q.1 u, es.any (·.2)), q.2)
  else if o.code = oVadd ∧ d.fmt = fW64 then
    let x := srcRaw k a r c
    let y := srcRaw k (ss.getD 1 {}) r c
    let z := w64Add x.1 y.1
    ((elemStruck d.fmt z.1 u, x.2 || y.2), z.2)
  else
    let x := srcElem k a wexp r c
    let y := vecB k o wexp r c
    let z := vecD k o wexp r c
    let q := encodeElem d.fmt wexp stoch draw
      (if u.isSome then vecStruck o.code sel x.1 y.1 z.1 u else vecValue o.code sel x.1 y.1 z.1)
    ((elemStruck d.fmt q.1 u, x.2 || y.2 || z.2), q.2)

/-- Whether a fault in the operations that form element (r, c) is caught (05 R167, R168): of a reduction those that form its
result, of a W64 sum the last addition. -/
def vecCaught (k : Core) (o : Op) (r c draw : Nat) (u : Option Upset) : Bool :=
  match u with
  | none => false
  | some u =>
    let d := opDesc o.insn.w1
    let ss := vecSources o.code o.insn
    let a := ss.headD {}
    let wexp := bits o.insn.imm.toNat 7 0
    let q := w64Int (vecElem k o r c draw none).1.1
    if d.fmt = fW64 then
      if o.code = oVadd then
        upsetCaught u (intSteps (w64Int (srcRaw k a r c).1) (w64Int (srcRaw k (ss.getD 1 {}) r c).1))
      else upsetCaught u ({ stage := .round, value := q, expect := res31 q } :: intSteps q 0)
    else
      let x := (srcElem k a wexp r c).1
      let y := (vecB k o wexp r c).1
      let z := (vecD k o wexp r c).1
      let v := if o.code = oVred then
          ((fmtFloat d.fmt).map fun g => g.decode (vecElem k o r c draw none).1.1).getD .nan
        else vecValue o.code (o.insn.opt.getLsbD 2) x y z
      upsetCaught u (vecSteps o.code d.fmt (o.insn.opt.getLsbD 1) draw x y z v)

/-- Row `r` of a vector instruction; a write that would touch a protected area is discarded and ends it (03 R65), as a failed
residue check does (05 R168). A source that overlaps D in other rows reads there what the rows before have written (DESIGN CHOICE,
log 79). Element (r, c) is operation r · columns + c. -/
def vecRow (o : Op) (u : Option Upset) (acc : DrainAcc) (r : Nat) : DrainAcc :=
  if acc.stopped then acc
  else
    let k := acc.core
    let d := opDesc o.insn.w1
    let stoch := o.insn.opt.getLsbD 1
    let es := (List.range d.cols).map fun c =>
      vecElem k o r c (genDraw (genAfter k.genVec (c + 1))) (upsetAt u (r * d.cols + c))
    if k.hitsProtected (d.rowAddr r) d.rowlen then { acc with refused := true }
    else if (List.range d.cols).any fun c =>
        vecCaught k o r c (genDraw (genAfter k.genVec (c + 1))) (upsetAt u (r * d.cols + c)) then
      { acc with failed := true }
    else
      let k := storeElems k (d.rowAddr r) (fmtBits d.fmt) (es.map (·.1))
      { core := if stoch then { k with genVec := genAfter k.genVec d.cols } else k
        ov := acc.ov || es.any (·.2), refused := false }

/-- ⌊log2⌋ of a non-zero magnitude. -/
def floorLog2 (m : Nat) (e : Int) : Int := (Nat.log2 m : Int) + e

/-- emax of an MX element format (05 R153). -/
def mxEmax (f : Nat) : Int :=
  if f = fMx8e4 then 8 else if f = fMx8e5 then 15 else if f = fMx6e3 then 4 else 2

/-- A magnitude above the largest finite value of an element saturates (05 R151, MX element formats). -/
def FFmt.saturate (g : FFmt) (pat : Nat) : Nat :=
  let mag := pat % 2 ^ (g.ebits + g.mbits)
  if g.maxPat < mag then pat - mag + g.maxPat else pat

/-- A block of elements converted to an MX format: the scale byte and the elements (05 R153). -/
def mxBlock (f : Nat) (vs : List FVal) : Nat × List Nat :=
  let g := (fmtFloat f).getD e4m3
  let mags := vs.filterMap fun v => match v with | .fin _ m e => if m = 0 then none else some (floorLog2 m e) | _ => none
  if vs.any (·.special) then (0xFF, vs.map fun _ => 0)
  else
    match mags with
    | [] => (0x7F, vs.map fun _ => 0)
    | x :: xs =>
      let e := max (-127) (min 127 (xs.foldl max x - mxEmax f))
      ((e + 127).toNat, vs.map fun v => g.saturate (g.encode (v.scale (-e))))

/-- Group `g` of 32 rows of a conversion to an MX format: the element rows, then the scale row; a block of one column is
poisoned whole (05 R153, R171). -/
def mxGroup (o : Op) (u : Option Upset) (acc : DrainAcc) (g : Nat) : DrainAcc :=
  if acc.stopped then acc
  else
    let k := acc.core
    let d := opDesc o.insn.w1
    let a := (vecSources o.code o.insn).headD {}
    let wexp := bits o.insn.imm.toNat 7 0
    let cols := (List.range d.cols).map fun c =>
      let es := (List.range 32).map fun r => srcElem k a wexp (32 * g + r) c
      (mxBlock d.fmt (es.map (·.1)), es.any (·.2))
    let hit := (List.range 33).any fun r => k.hitsProtected (d.rowAddr (33 * g + r)) (d.width (33 * g + r))
    let caught := (List.range (32 * d.cols)).any fun j =>
      match upsetAt u (32 * g * d.cols + j) with
      | none => false
      | some u =>
        let v := (srcElem k a wexp (32 * g + j / d.cols) (j % d.cols)).1
        let e : Int := ((cols.getD (j % d.cols) ((0x7F, []), false)).1.1 : Int) - 127
        let f := (fmtFloat d.fmt).getD e4m3
        upsetCaught u (roundSteps f (v.scale (-e)) (f.roundedAt (v.scale (-e)) (f.encode (v.scale (-e)))))
    if hit then { acc with refused := true }
    else if caught then { acc with failed := true }
    else
      let k := (List.range 32).foldl (fun k r => storeElems k (d.rowAddr (33 * g + r)) (fmtBits d.fmt)
        (cols.zipIdx.map fun q =>
          (elemStruck d.fmt (q.1.1.2.getD r 0) (upsetAt u ((32 * g + r) * d.cols + q.2)), q.1.2))) k
      { acc with core := storeElems k (d.rowAddr (33 * g + 32)) 8 (cols.map fun q => (q.1.1, q.2)) }

/-- The writes of a vector instruction (04 R136). -/
def vecWork (k : Core) (o : Op) (u : Option Upset) : DrainAcc :=
  let d := opDesc o.insn.w1
  if o.code = oVstx then
    let a := o.opA.toNat
    if k.hitsProtected a 8 then { core := k, refused := true }
    else { core := k.spWrite a (leBytes 8 o.opB.toNat) o.tagB }
  else if isMx d.fmt then (List.range (d.rows / 32)).foldl (mxGroup o u) { core := k }
  else (List.range d.rows).foldl (vecRow o u) { core := k }

/-- The beats of a vector instruction (04 R136). -/
def vecBeats (o : Op) : Nat :=
  let d := opDesc o.insn.w1
  if o.code = oVstx then 0
  else d.rows * ceilDiv (if o.code = oVred then ((vecSources o.code o.insn).headD {}).cols else d.cols) 32

/-- VECTOR_COMPLETE (04 R136): the first instruction of the vector unit makes its writes. `fault` strikes the operations of one
output element: a failed check halts the core, and that row and those after it are not written (05 R168). -/
def execVectorComplete (c : Nat) (fault : Option Upset) (ecc : List EccHit) (s : State) : Out State :=
  .next (match (s.core c).vecPipe with
    | [] => s
    | o :: os =>
      let s := s.applyEcc ecc
      let acc := vecWork (s.core c) o fault
      let s := (s.setCore c { acc.core with vecPipe := os }).setXstat c acc.ov
      if acc.failed then s.residueHalt c o.strm o.pc 0x02 0x02
      else
        let s := s.count .core c 32 (vecBeats o)
        if acc.refused then s.haltAt c o.strm o.pc cPrivilege 0x03 else s)

end Sys2Proof.Machine
end

