-- ==== Sys2Proof/Machine/Dispatch.lean ====
section
/-! DEFINITION. One arm per command: each is one direct call of its meaning. -/

namespace Sys2Proof.Machine

/-- The effect of a command on everything but the queue of waiting commands. -/
def exec (i : Instr) (s : State) : Host.Outcome State Fault Refusal :=
  match i with
  | .nop issue => Sys2Proof.Machine.execNop issue s
  | .halt issue => Sys2Proof.Machine.execHalt issue s
  | .br issue => Sys2Proof.Machine.execBr issue s
  | .brc issue => Sys2Proof.Machine.execBrc issue s
  | .loop issue => Sys2Proof.Machine.execLoop issue s
  | .fence issue => Sys2Proof.Machine.execFence issue s
  | .fenceRelease core st => Sys2Proof.Machine.execFenceRelease core st s
  | .sluice issue => Sys2Proof.Machine.execSluice issue s
  | .qpush issue => Sys2Proof.Machine.execQpush issue s
  | .qpop issue => Sys2Proof.Machine.execQpop issue s
  | .queueStallRelease core st => Sys2Proof.Machine.execQueueStallRelease core st s
  | .queueStageRefill core read => Sys2Proof.Machine.execQueueStageRefill core read s
  | .waitf issue => Sys2Proof.Machine.execWaitf issue s
  | .waitfSatisfied core st => Sys2Proof.Machine.execWaitfSatisfied core st s
  | .setf issue => Sys2Proof.Machine.execSetf issue s
  | .movs issue => Sys2Proof.Machine.execMovs issue s
  | .movsw issue => Sys2Proof.Machine.execMovsw issue s
  | .add issue => Sys2Proof.Machine.execAdd issue s
  | .sub issue => Sys2Proof.Machine.execSub issue s
  | .mul issue => Sys2Proof.Machine.execMul issue s
  | .and issue => Sys2Proof.Machine.execAnd issue s
  | .or issue => Sys2Proof.Machine.execOr issue s
  | .xor issue => Sys2Proof.Machine.execXor issue s
  | .shl issue => Sys2Proof.Machine.execShl issue s
  | .shr issue => Sys2Proof.Machine.execShr issue s
  | .sra issue => Sys2Proof.Machine.execSra issue s
  | .min issue => Sys2Proof.Machine.execMin issue s
  | .max issue => Sys2Proof.Machine.execMax issue s
  | .movi issue => Sys2Proof.Machine.execMovi issue s
  | .movhi issue => Sys2Proof.Machine.execMovhi issue s
  | .brg issue => Sys2Proof.Machine.execBrg issue s
  | .brgt issue => Sys2Proof.Machine.execBrgt issue s
  | .put issue => Sys2Proof.Machine.execPut issue s
  | .reds issue => Sys2Proof.Machine.execReds issue s
  | .bcan issue => Sys2Proof.Machine.execBcan issue s
  | .oparm issue => Sys2Proof.Machine.execOparm issue s
  | .opstr issue fault => Sys2Proof.Machine.execOpstr issue fault s
  | .opdrn issue => Sys2Proof.Machine.execOpdrn issue s
  | .vadd issue => Sys2Proof.Machine.execVadd issue s
  | .vmul issue => Sys2Proof.Machine.execVmul issue s
  | .vfma issue => Sys2Proof.Machine.execVfma issue s
  | .vexp issue => Sys2Proof.Machine.execVexp issue s
  | .vrsq issue => Sys2Proof.Machine.execVrsq issue s
  | .vmax issue => Sys2Proof.Machine.execVmax issue s
  | .vcvt issue => Sys2Proof.Machine.execVcvt issue s
  | .vred issue => Sys2Proof.Machine.execVred issue s
  | .vldx issue => Sys2Proof.Machine.execVldx issue s
  | .vstx issue => Sys2Proof.Machine.execVstx issue s
  | .opstrComplete core events => Sys2Proof.Machine.execOpstrComplete core events s
  | .opdrnComplete core fault ecc => Sys2Proof.Machine.execOpdrnComplete core fault ecc s
  | .vectorComplete core fault ecc => Sys2Proof.Machine.execVectorComplete core fault ecc s
  | .bargeComplete core id => Sys2Proof.Machine.execBargeComplete core id s
  | .restartResume basin => Sys2Proof.Machine.execRestartResume basin s
  | .mutualWait core => Sys2Proof.Machine.execMutualWait core s
  | .sluiceReady core => Sys2Proof.Machine.execSluiceReady core s
  | .sluiceComplete basin => Sys2Proof.Machine.execSluiceComplete basin s
  | .segmentStart basin => Sys2Proof.Machine.execSegmentStart basin s
  | .sluiceTimeout basin => Sys2Proof.Machine.execSluiceTimeout basin s
  | .latticeSlot env => Sys2Proof.Machine.execLatticeSlot env s
  | .overtimeStart basin => Sys2Proof.Machine.execOvertimeStart basin s
  | .slotOverrun basin => Sys2Proof.Machine.execSlotOverrun basin s
  | .mempRequest unit => Sys2Proof.Machine.execMempRequest unit s
  | .mergeWindowExpiry port held => Sys2Proof.Machine.execMergeWindowExpiry port held s
  | .mempReadData unit env => Sys2Proof.Machine.execMempReadData unit env s
  | .mempWriteGrant grant => Sys2Proof.Machine.execMempWriteGrant grant s
  | .hbmWriteCrcFail place => Sys2Proof.Machine.execHbmWriteCrcFail place s
  | .stackRetrain call => Sys2Proof.Machine.execStackRetrain call s
  | .stackRetrainDone stack => Sys2Proof.Machine.execStackRetrainDone stack s
  | .stackRetrainTimeout stack => Sys2Proof.Machine.execStackRetrainTimeout stack s
  | .stackRetire stack => Sys2Proof.Machine.execStackRetire stack s
  | .stackDrained stack => Sys2Proof.Machine.execStackDrained stack s
  | .stackRetired stack => Sys2Proof.Machine.execStackRetired stack s
  | .weirReading stack temp => Sys2Proof.Machine.execWeirReading stack temp s
  | .patrolScrub frame crc corrected uncorrectable => Sys2Proof.Machine.execPatrolScrub frame crc corrected uncorrectable s
  | .tileCopyDone move env => Sys2Proof.Machine.execTileCopyDone move env s
  | .reclaim => Sys2Proof.Machine.execReclaim s
  | .homingMove basin page => Sys2Proof.Machine.execHomingMove basin page s
  | .frameWaitDone basin page => Sys2Proof.Machine.execFrameWaitDone basin page s
  | .hostTierResponse basin req answer => Sys2Proof.Machine.execHostTierResponse basin req answer s
  | .hostTierTimeout basin req lost => Sys2Proof.Machine.execHostTierTimeout basin req lost s
  | .bargeResume core id => Sys2Proof.Machine.execBargeResume core id s
  | .whetstoneChunk engine firstFails repeatFails events => Sys2Proof.Machine.execWhetstoneChunk engine firstFails repeatFails events s
  | .trustNormCombine basin layer => Sys2Proof.Machine.execTrustNormCombine basin layer s
  | .bind k => Sys2Proof.Machine.execBind k s
  | .rebind k => Sys2Proof.Machine.execRebind k s
  | .unbind k => Sys2Proof.Machine.execUnbind k s
  | .keyedFence k => Sys2Proof.Machine.execKeyedFence k s
  | .fwActivate k => Sys2Proof.Machine.execFwActivate k s
  | .keyRotate k => Sys2Proof.Machine.execKeyRotate k s
  | .debugUnlock k => Sys2Proof.Machine.execDebugUnlock k s
  | .zeroize k => Sys2Proof.Machine.execZeroize k s
  | .binderCompletion basin => Sys2Proof.Machine.execBinderCompletion basin s
  | .parkReq basin => Sys2Proof.Machine.execParkReq basin s
  | .launch basin img => Sys2Proof.Machine.execLaunch basin img s
  | .resume basin img => Sys2Proof.Machine.execResume basin img s
  | .launchStart basin => Sys2Proof.Machine.execLaunchStart basin s
  | .bsnLscaleWrite basin v => Sys2Proof.Machine.execBsnLscaleWrite basin v s
  | .hostMemRead path addr read => Sys2Proof.Machine.execHostMemRead path addr read s
  | .hostMemWrite path addr data events => Sys2Proof.Machine.execHostMemWrite path addr data events s
  | .hostSnoop line => Sys2Proof.Machine.execHostSnoop line s
  | .biasChange basin v => Sys2Proof.Machine.execBiasChange basin v s
  | .biasChangeDone basin => Sys2Proof.Machine.execBiasChangeDone basin s
  | .ifDeclare v => Sys2Proof.Machine.execIfDeclare v s
  | .vfFlr basin => Sys2Proof.Machine.execVfFlr basin s
  | .pf0Flr => Sys2Proof.Machine.execPf0Flr s
  | .perstN => Sys2Proof.Machine.execPerstN s
  | .ideFail => Sys2Proof.Machine.execIdeFail s
  | .tpOutItemRead basin queue off len => Sys2Proof.Machine.execTpOutItemRead basin queue off len s
  | .tpInItemWrite basin queue off data ep => Sys2Proof.Machine.execTpInItemWrite basin queue off data ep s
  | .tpInBulkWrite basin queue slot off data ep => Sys2Proof.Machine.execTpInBulkWrite basin queue slot off data ep s
  | .advance basin slot count => Sys2Proof.Machine.execAdvance basin slot count s
  | .flush basin slot => Sys2Proof.Machine.execFlush basin slot s
  | .tpCtrlWrite basin slot v => Sys2Proof.Machine.execTpCtrlWrite basin slot v s
  | .tpIdleTimeout basin slot => Sys2Proof.Machine.execTpIdleTimeout basin slot s
  | .tpPtrMismatch basin slot => Sys2Proof.Machine.execTpPtrMismatch basin slot s
  | .msixUnmask fn vector => Sys2Proof.Machine.execMsixUnmask fn vector s
  | .ethGroupCtrlWrite group v => Sys2Proof.Machine.execEthGroupCtrlWrite group v s
  | .recal group => Sys2Proof.Machine.execRecal group s
  | .recalDone group => Sys2Proof.Machine.execRecalDone group s
  | .ethLinkNegotiation group supported => Sys2Proof.Machine.execEthLinkNegotiation group supported s
  | .rdmaWrite p => Sys2Proof.Machine.execRdmaWrite p s
  | .rdmaWriteImm p imm => Sys2Proof.Machine.execRdmaWriteImm p imm s
  | .ack qpn psn => Sys2Proof.Machine.execAck qpn psn s
  | .psnSequenceNak qpn psn => Sys2Proof.Machine.execPsnSequenceNak qpn psn s
  | .remoteAccessNak qpn => Sys2Proof.Machine.execRemoteAccessNak qpn s
  | .cnpRx qpn => Sys2Proof.Machine.execCnpRx qpn s
  | .pauseFrameRx group prio pause => Sys2Proof.Machine.execPauseFrameRx group prio pause s
  | .frameDropped group => Sys2Proof.Machine.execFrameDropped group s
  | .ackTimeout qpn => Sys2Proof.Machine.execAckTimeout qpn s
  | .rateIncrease qpn => Sys2Proof.Machine.execRateIncrease qpn s
  | .zynwinFrameRx f => Sys2Proof.Machine.execZynwinFrameRx f s
  | .zynwinReplayRequest group seq => Sys2Proof.Machine.execZynwinReplayRequest group seq s
  | .zynwinRetrainEnd group ok => Sys2Proof.Machine.execZynwinRetrainEnd group ok s
  | .qpWrite qset q v => Sys2Proof.Machine.execQpWrite qset q v s
  | .collectiveComplete basin entry => Sys2Proof.Machine.execCollectiveComplete basin entry s
  | .powerSample vin iin => Sys2Proof.Machine.execPowerSample vin iin s
  | .ilimRecheck => Sys2Proof.Machine.execIlimRecheck s
  | .powerLimitStep => Sys2Proof.Machine.execPowerLimitStep s
  | .gateRelax => Sys2Proof.Machine.execGateRelax s
  | .junctionReading d0 d1 => Sys2Proof.Machine.execJunctionReading d0 d1 s
  | .latchClear thermal => Sys2Proof.Machine.execLatchClear thermal s
  | .powerManagerEval want limits => Sys2Proof.Machine.execPowerManagerEval want limits s
  | .clockStepUpDone die => Sys2Proof.Machine.execClockStepUpDone die s
  | .dieStepReunion => Sys2Proof.Machine.execDieStepReunion s
  | .refclkLost => Sys2Proof.Machine.execRefclkLost s
  | .refclkHoldoverExpiry => Sys2Proof.Machine.execRefclkHoldoverExpiry s
  | .refclkReturn => Sys2Proof.Machine.execRefclkReturn s
  | .watchdogRecovery component cause => Sys2Proof.Machine.execWatchdogRecovery component cause s
  | .mgmtRecoveryClassify => Sys2Proof.Machine.execMgmtRecoveryClassify s
  | .pwrCapWrite v => Sys2Proof.Machine.execPwrCapWrite v s
  | .pwrTjWrite v => Sys2Proof.Machine.execPwrTjWrite v s
  | .mempWeirThWrite v => Sys2Proof.Machine.execMempWeirThWrite v s
  | .tierHostExtWrite entry limit v => Sys2Proof.Machine.execTierHostExtWrite entry limit v s
  | .quarryDomainOff => Sys2Proof.Machine.execQuarryDomainOff s
  | .powerOnResetExit recoveryStrap rom => Sys2Proof.Machine.execPowerOnResetExit recoveryStrap rom s
  | .powerUpReady => Sys2Proof.Machine.execPowerUpReady s
  | .pwrgoodFall => Sys2Proof.Machine.execPwrgoodFall s
  | .activationReady => Sys2Proof.Machine.execActivationReady s
  | .activationFallback => Sys2Proof.Machine.execActivationFallback s
  | .poweredTimeSave => Sys2Proof.Machine.execPoweredTimeSave s
  | .quarryDue core => Sys2Proof.Machine.execQuarryDue core s
  | .quarryTestDone r => Sys2Proof.Machine.execQuarryTestDone r s
  | .quarryOverdue basin => Sys2Proof.Machine.execQuarryOverdue basin s
  | .shadowCompare core first second => Sys2Proof.Machine.execShadowCompare core first second s
  | .errConsumedWrite v => Sys2Proof.Machine.execErrConsumedWrite v s
  | .fwuStart => Sys2Proof.Machine.execFwuStart s
  | .fwuBlock v => Sys2Proof.Machine.execFwuBlock v s
  | .fwuBlockDone flashOk => Sys2Proof.Machine.execFwuBlockDone flashOk s
  | .fwuVerify => Sys2Proof.Machine.execFwuVerify s
  | .fwuVerifyDone => Sys2Proof.Machine.execFwuVerifyDone s
  | .fwuAbort => Sys2Proof.Machine.execFwuAbort s
  | .recoverBoot => Sys2Proof.Machine.execRecoverBoot s
  | .newNonce => Sys2Proof.Machine.execNewNonce s
  | .nonceExpiry => Sys2Proof.Machine.execNonceExpiry s
  | .debugLock => Sys2Proof.Machine.execDebugLock s
  | .fipsError => Sys2Proof.Machine.execFipsError s
  | .setCmdKey port secured vendor payload => Sys2Proof.Machine.execSetCmdKey port secured vendor payload s
  | .getMeasurements port index => Sys2Proof.Machine.execGetMeasurements port index s
  | .getCertificate port slot => Sys2Proof.Machine.execGetCertificate port slot s
  | .challenge port nonce => Sys2Proof.Machine.execChallenge port nonce s
  | .keyExchange port exchange => Sys2Proof.Machine.execKeyExchange port exchange s
  | .pldmSensorRead sensor => Sys2Proof.Machine.execPldmSensorRead sensor s
  | .sensorRefresh => Sys2Proof.Machine.execSensorRefresh s
  | .pmcSnapshot => Sys2Proof.Machine.execPmcSnapshot s
  | .pmcRecordWritten => Sys2Proof.Machine.execPmcRecordWritten s
  | .pmcCtrlWrite v => Sys2Proof.Machine.execPmcCtrlWrite v s
  | .rdOffWrite v => Sys2Proof.Machine.execRdOffWrite v s
  | .registerWrite fn off wide v => Sys2Proof.Machine.execRegisterWrite fn off wide v s
  | .vioMgtLoss => Sys2Proof.Machine.execVioMgtLoss s
  | .perstNDeassert cxl width rate => Sys2Proof.Machine.execPerstNDeassert cxl width rate s
  | .cxlLinkRetrain width rate => Sys2Proof.Machine.execCxlLinkRetrain width rate s
  | .ethLinkLoss group => Sys2Proof.Machine.execEthLinkLoss group s
  | .ideKmKeyProg port secured => Sys2Proof.Machine.execIdeKmKeyProg port secured s
  | .spdmKeyUpdate port => Sys2Proof.Machine.execSpdmKeyUpdate port s
  | .i3cDynamicAddress addr => Sys2Proof.Machine.execI3cDynamicAddress addr s
  | .mctpControlRequest m => Sys2Proof.Machine.execMctpControlRequest m s
  | .jtagTapOperation tms tdi => Sys2Proof.Machine.execJtagTapOperation tms tdi s
  | .recoveryGapEnd => Sys2Proof.Machine.execRecoveryGapEnd s

end Sys2Proof.Machine
end

