-- ==== Sys2Proof/Safety.lean ====
section
/-! DEFINITION. The notions in which statements about the machine are written: when an instruction passes its checks, what
one instruction of a stream leaves as it was, the bytes of scratchpads and of basin memory, and the invariants of a
device. -/

namespace Sys2Proof.Machine

/-! ### Bytes -/

/-- A byte of a core's scratchpad. -/
def State.spByte (s : State) (c a : Nat) : Byte := SMap.get 0 (s.core c).sp a

/-- A byte of a basin's memory, by its basin address. -/
def State.memByte (s : State) (b a : Nat) : Byte := SMap.get 0 (s.basin b).mem a

/-- Every byte of every scratchpad and of every basin's memory reads the same. -/
def State.sameBytes (s t : State) : Prop := (∀ c a, t.spByte c a = s.spByte c a) ∧ ∀ b a, t.memByte b a = s.memByte b a

/-- A memory of bytes is in its canonical form: addresses strictly rising, and no entry equal to 0, what an unlisted address reads
as (log 7). -/
abbrev Memory.wf (m : SMap Byte) : Bool := SMap.wf 0 m

/-- The memories of a state that instructions and hosts address, every one in its canonical form: each core's scratchpad and each
basin's memory. -/
def State.memoryWf (s : State) : Prop := (∀ c, Memory.wf (s.core c).sp = true) ∧ ∀ b, Memory.wf (s.basin b).mem = true

/-! ### Issue -/

/-- The stream that an instruction is presented by. -/
def State.streamOf (s : State) (i : Issue) : Stream := (s.core i.core).stream i.strm

/-- An instruction passes its checks (04 R96): its stream can issue, its words hold its opcode (R101), and once the stored errors that its
reads meet have been applied, its words are fetched and none of its halt conditions holds. -/
def State.clears (s : State) (i : Issue) (f : Fields) (cs : List Cond) : Bool :=
  s.canIssue i.core i.strm && decide (i.insn.opcode = f.op) &&
    decide (fetchCond ((s.applyEcc i.ecc).core i.core) i.insn ((s.applyEcc i.ecc).streamOf i) = none) &&
    decide (firstFail (f.conds i.insn i.strm ((s.applyEcc i.ecc).streamOf i) ++ cs) = none)

/-- Register `n` is the count register of an open loop level that ends at `last` (04 R109). -/
def Stream.counts (t : Stream) (last n : Nat) : Bool := t.loops.any fun l => decide (l.last = last) && decide (l.rd = n)

/-- Whether an open loop level ends at `last`. -/
def Stream.ends (t : Stream) (last : Nat) : Bool := t.loops.any fun l => decide (l.last = last)

/-- Only stream `st` of core `c` and that core's counters may differ between `s` and `t`. -/
def State.onlyStream (s t : State) (c : Nat) (st : Strm) : Prop :=
  { t with cores := s.cores, pmc := { t.pmc with counters := s.pmc.counters } } = s ∧
    (∀ c', c' ≠ c → t.core c' = s.core c') ∧ (t.core c).setStream st ((s.core c).stream st) = s.core c ∧
    (∀ key, (∀ j, key ≠ cntKey .core c j) → SMap.get 0 t.pmc.counters key = SMap.get 0 s.pmc.counters key) ∧
    s.sameBytes t

/-- What a stream that goes on from `u` to `v` past an instruction of `wc + 1` words and `cc` cycles of issue keeps and takes
(04 R102, R109): the next instruction's address where no open loop level ends with it. -/
def Stream.goesOn (u v : Stream) (wc cc : Nat) : Prop :=
  (u.ends (u.pc + 8 * wc) = false → v.pc = u.pc + 8 * (wc + 1) ∧ v.loops = u.loops) ∧ v.issue = u.issue + cc ∧
    v.wait = .none ∧ v.halted = u.halted ∧ v.stopped = u.stopped

/-- Every register and tag but those of `rd` and of the count registers of the loop levels that end at `last` stays. -/
def Stream.keepsRegs (u v : Stream) (last rd : Nat) : Prop :=
  ∀ n, n < 16 → n ≠ rd ∨ rd = 0 → u.counts last n = false → v.reg n = u.reg n ∧ v.tag n = u.tag n

/-- Only core `c`, its counters and, of a device, nothing else may differ between `s` and `t`. -/
def State.onlyCore (s t : State) (c : Nat) : Prop :=
  { t with cores := s.cores, pmc := { t.pmc with counters := s.pmc.counters } } = s ∧
    (∀ c', c' ≠ c → t.core c' = s.core c') ∧
    (∀ key, (∀ j, key ≠ cntKey .core c j) → SMap.get 0 t.pmc.counters key = SMap.get 0 s.pmc.counters key) ∧
    ∀ b a, t.memByte b a = s.memByte b a

/-- The counter of the issue cycles of a stream (16 R448). -/
def issueCounter : Strm → Nat
  | .a => 1
  | .x => 2

/-- The instruction that a stream presents with a command, where the command is one, and its opcode (04 R101). -/
def presentedOf : Instr → Option (Issue × Nat)
  | .nop i => some (i, 0x00)
  | .halt i => some (i, 0x01)
  | .br i => some (i, 0x02)
  | .brc i => some (i, 0x03)
  | .loop i => some (i, 0x04)
  | .fence i => some (i, 0x05)
  | .sluice i => some (i, 0x06)
  | .qpush i => some (i, 0x07)
  | .qpop i => some (i, 0x08)
  | .waitf i => some (i, 0x09)
  | .setf i => some (i, 0x0A)
  | .movs i => some (i, 0x0B)
  | .movsw i => some (i, 0x0C)
  | .add i => some (i, 0x10)
  | .sub i => some (i, 0x11)
  | .mul i => some (i, 0x12)
  | .and i => some (i, 0x13)
  | .or i => some (i, 0x14)
  | .xor i => some (i, 0x15)
  | .shl i => some (i, 0x16)
  | .shr i => some (i, 0x17)
  | .sra i => some (i, 0x18)
  | .min i => some (i, 0x19)
  | .max i => some (i, 0x1A)
  | .movi i => some (i, 0x1B)
  | .movhi i => some (i, 0x1C)
  | .brg i => some (i, 0x20)
  | .brgt i => some (i, 0x21)
  | .put i => some (i, 0x22)
  | .reds i => some (i, 0x23)
  | .bcan i => some (i, 0x24)
  | .oparm i => some (i, 0x30)
  | .opstr i _ => some (i, 0x31)
  | .opdrn i => some (i, 0x32)
  | .vadd i => some (i, 0x40)
  | .vmul i => some (i, 0x41)
  | .vfma i => some (i, 0x42)
  | .vexp i => some (i, 0x43)
  | .vrsq i => some (i, 0x44)
  | .vmax i => some (i, 0x45)
  | .vcvt i => some (i, 0x46)
  | .vred i => some (i, 0x47)
  | .vldx i => some (i, 0x48)
  | .vstx i => some (i, 0x49)
  | _ => none

/-- The instruction that a stream presents with a command, where the command is one. -/
def issueOf (c : Instr) : Option Issue := (presentedOf c).map (·.1)

/-! ### Scalar instructions -/

/-- The arithmetic instructions with their issue time in cc and their result from a and b (04 R106). -/
def aluOf : Instr → Option (Issue × Nat × (Word → Word → Word))
  | .add i => some (i, 1, fun a b => a + b)
  | .sub i => some (i, 1, fun a b => a - b)
  | .mul i => some (i, 2, fun a b => a * b)
  | .and i => some (i, 1, fun a b => a &&& b)
  | .or i => some (i, 1, fun a b => a ||| b)
  | .xor i => some (i, 1, fun a b => a ^^^ b)
  | .shl i => some (i, 1, fun a b => a <<< (b.toNat % 64))
  | .shr i => some (i, 1, fun a b => a >>> (b.toNat % 64))
  | .sra i => some (i, 1, fun a b => a.sshiftRight (b.toNat % 64))
  | .min i => some (i, 1, fun a b => if b.toInt < a.toInt then b else a)
  | .max i => some (i, 1, fun a b => if a.toInt < b.toInt then b else a)
  | _ => none

/-! ### Units of a core -/

/-- Instruction `i` has dispatched barge `g` at its core (04 R103, R119): it stands last in the barge engine, it has taken the next
transfer of its lane, and the stream has gone on; no byte, flag or register changes. -/
def State.dispatched (s t : State) (i : Issue) (g : Barge) : Prop :=
  let k := s.core i.core
  let u := s.streamOf i
  (t.core i.core).barges = k.barges ++ [g] ∧ (t.core i.core).nextOp = k.nextOp + 1 ∧ (t.core i.core).flags = k.flags ∧
    (t.basin (s.basinAt i.core)).issued i.core g.lane = (s.basin (s.basinAt i.core)).issued i.core g.lane + 1 ∧
    u.goesOn (t.streamOf i) i.insn.wc.toNat 1 ∧ u.keepsRegs (t.streamOf i) (u.pc + 8 * i.insn.wc.toNat) 0 ∧
    (∀ c, c ≠ i.core → t.core c = s.core c) ∧ (∀ b, b ≠ s.basinAt i.core → t.basin b = s.basin b) ∧ s.sameBytes t

/-- The stream of an instruction waits for a unit, counting the stall cause of a rank (03 R84); nothing else changes. -/
def State.waitsFor (s t : State) (i : Issue) (rank : Nat) : Prop :=
  t.streamOf i = { s.streamOf i with wait := .unit rank } ∧ s.onlyStream t i.core i.strm

/-- The vector instructions that work on descriptors, with their opcodes (04 R101, R133, R135). -/
def vecOf : Instr → Option (Issue × Nat)
  | .vadd i => some (i, 0x40)
  | .vmul i => some (i, 0x41)
  | .vfma i => some (i, 0x42)
  | .vexp i => some (i, 0x43)
  | .vrsq i => some (i, 0x44)
  | .vmax i => some (i, 0x45)
  | .vcvt i => some (i, 0x46)
  | .vred i => some (i, 0x47)
  | _ => none

/-! ### Whetstone engines -/

/-- Engine `n` takes chunk `k`: it is ACTIVE, the headers that waited have been written, the chunk's basin runs, and its inputs can be
read and its outputs written, which leaves `s2` (10 R294, R295; 09 R270, R271, R280, R481). -/
def State.takes (s : State) (n : Nat) (k : Chunk) (s2 : State) : Prop :=
  let s0 := s.finishPasses n
  (s.engine n).st = .active ∧ s.power.clocksStopped = false ∧ s0.nextChunk n = some k ∧ (s0.basin k.basin).phase = .running ∧
    ∃ s1, s0.readReady k.basin (s0.chunkInputs k) = (s1, true) ∧ s1.outputsReady k = (s2, true)

/-- The state after the inputs of a chunk have been read, where the reads meet no error (10 R310). -/
def State.chunkRead (s : State) (k : Chunk) : State :=
  let blks := ((s.chunkInputs k).flatMap fun y => span 64 y.1 y.2).dedup
  ((s.useAnswers k.basin blks).readMet k.basin blks {}).1

/-! ### Keyed commands and the host -/

/-- A keyed command block that the device runs at once and whose checks pass (15 R428, R429, R430): the link carries it, no other
runs, the device is READY outside a management gap, and its reserved bytes are zero. -/
def State.runsKeyed (s : State) (opcode : Nat) (k : KBlock) : Bool :=
  s.link.up && !s.link.insecure && !s.sec.busy && decide (s.mgmt.phase = .ready) && !s.mgmt.gap &&
    decide (s.keyedRefusal opcode k = none) && decide (k.basin.toNat < 64) && decide (k.rsv = 0) && decide (k.tail = 0)

/-- The keyed commands with their opcodes (15 R431). -/
def keyedOf : Instr → Option (KBlock × Nat)
  | .bind k => some (k, 1)
  | .rebind k => some (k, 2)
  | .unbind k => some (k, 3)
  | .keyedFence k => some (k, 4)
  | .fwActivate k => some (k, 5)
  | .keyRotate k => some (k, 6)
  | .debugUnlock k => some (k, 7)
  | .zeroize k => some (k, 8)
  | _ => none

/-- Whether host software's accesses reach the device's registers: the link is up and secure, and the device does not run its ROM's
recovery mode (11 R325; 15 R426, R434). -/
def State.hostReaches (s : State) : Bool := s.link.up && !s.link.insecure && decide (s.mgmt.phase ≠ .recovery)

/-! ### Limits -/

/-- The limits of the power state: the gate (13 R375), the steps in force and those to which a die is raised or a held request asks (R380; 07 R234), the power target
and THROTTLE (R388). -/
def State.powerLegal (s : State) : Prop :=
  s.power.gate ≤ 12 ∧ s.power.step0 ≤ 2 ∧ s.power.step1 ≤ 2 ∧ (∀ n, s.power.up0 = some n → n ≤ 2) ∧
    (∀ n, s.power.up1 = some n → n ≤ 2) ∧ (∀ x, s.power.heldStep = some x → x.1 ≤ 2 ∧ x.2 ≤ 2) ∧ 600 ≤ s.power.cap ∧
    s.power.cap ≤ 2600 ∧ s.power.throttle ≤ 95

end Sys2Proof.Machine
end

