-- ==== Sys2Proof/Certificates/Slice0/Obligations.lean ====
section
/-! DEFINITION. The statements for the provers: what each command does, what it leaves unchanged and that it completes, by family, and
invariants that every step keeps. -/

open Sys2Proof Sys2Proof.Machine

/-! ### Scalar and control instructions (family SCALAR) -/

/-- 04 R106 with R69, R102: every arithmetic instruction that passes its checks completes: reg[RD] takes the result of
reg[RA] and b, with a poison tag if either source has one; register 0 discards it; no other register, tag, byte or state
changes but the stream's address, its open loops and their count registers, and its issue count. -/
def Obligations.ScalarArithmetic : Prop :=
  ∀ (s : State) (c : Instr) (i : Issue) (cc n : Nat) (f : Word → Word → Word), aluOf c = some (i, cc, f) →
    presentedOf c = some (i, n) → s.clears i (aluFields n i.insn) [] = true →
    ∃ t, exec c s = .next t ∧
      let s1 := s.applyEcc i.ecc
      let u := s1.streamOf i
      let v := t.streamOf i
      let rd := i.insn.rd.toNat
      let b := if i.insn.opt.getLsbD 0 then sext32 i.insn.imm else u.reg i.insn.rb.toNat
      let tagB := if i.insn.opt.getLsbD 0 then false else u.tag i.insn.rb.toNat
      (rd ≠ 0 → u.counts u.pc rd = false →
        v.reg rd = f (u.reg i.insn.ra.toNat) b ∧ v.tag rd = (u.tag i.insn.ra.toNat || tagB)) ∧
      (∀ n, n < 16 → n ≠ rd ∨ rd = 0 → u.counts u.pc n = false → v.reg n = u.reg n ∧ v.tag n = u.tag n) ∧
      (u.ends u.pc = false → v.pc = u.pc + 8 ∧ v.loops = u.loops) ∧
      v.issue = u.issue + cc ∧ v.wait = .none ∧ s1.onlyStream t i.core i.strm

/-- 04 R107: MOVI and MOVHI complete. MOVI writes sext(IMM) and clears the tag; MOVHI writes the upper half from IMM, and
keeps the lower half and the tag; nothing else changes. -/
def Obligations.MoveImmediate : Prop :=
  ∀ (s : State) (i : Issue),
    let s1 := s.applyEcc i.ecc
    let u := s1.streamOf i
    let rd := i.insn.rd.toNat
    (s.clears i (moviFields 0x1B) [] = true → ∃ t, exec (.movi i) s = .next t ∧
      (rd ≠ 0 → u.counts u.pc rd = false →
        (t.streamOf i).reg rd = i.insn.imm.signExtend 64 ∧ (t.streamOf i).tag rd = false) ∧
      u.keepsRegs (t.streamOf i) u.pc rd ∧ u.goesOn (t.streamOf i) 0 1 ∧ s1.onlyStream t i.core i.strm) ∧
    (s.clears i (moviFields 0x1C) [] = true → ∃ t, exec (.movhi i) s = .next t ∧
      (rd ≠ 0 → u.counts u.pc rd = false →
        ((t.streamOf i).reg rd).extractLsb' 32 32 = i.insn.imm ∧
        ((t.streamOf i).reg rd).extractLsb' 0 32 = (u.reg rd).extractLsb' 0 32 ∧ (t.streamOf i).tag rd = u.tag rd) ∧
      u.keepsRegs (t.streamOf i) u.pc rd ∧ u.goesOn (t.streamOf i) 0 1 ∧ s1.onlyStream t i.core i.strm)

/-- 04 R112, R114: MOVS copies a special register, without a tag, into reg[RD]; MOVSW to CORE_SEED writes it and restarts
the generators, or waits with VECTOR_BUSY while a stochastic conversion is under way; MOVSW to CORE_XSTAT clears the bit
written 1. -/
def Obligations.SpecialRegisters : Prop :=
  (∀ (s : State) (i : Issue) (n : Nat), n = bits i.insn.imm.toNat 7 0 →
    s.clears i { op := 0x0B, words := [1], imm := 0xFF, rd := true } (movsConds (s.applyEcc i.ecc) i) = true →
    let s1 := s.applyEcc i.ecc
    let u := s1.streamOf i
    let k := s1.core i.core
    let rd := i.insn.rd.toNat
    ∃ t, exec (.movs i) s = .next t ∧
      (rd ≠ 0 → u.counts u.pc rd = false →
        (t.streamOf i).tag rd = false ∧
        ((t.streamOf i).reg rd =
          if n = 0x00 then BitVec.ofNat 64 ((s1.basin (s1.basinAt i.core)).desc.coreIndex i.core)
          else if n = 0x01 then BitVec.ofNat 64 ((s1.basin (s1.basinAt i.core)).desc.geom i.core)
          else if n = 0x02 then BitVec.ofNat 64 (s1.liveCores (s1.basinAt i.core)).length
          else if n = 0x03 then BitVec.ofNat 64 k.ckseq
          else if n = 0x04 then BitVec.ofNat 64 k.lscale
          else if n = 0x05 then BitVec.ofNat 64 k.verdict
          else if n = 0x06 then BitVec.ofNat 64 k.step
          else if n = 0x08 then k.seed
          else if n = 0x09 then BitVec.ofNat 64 (if k.xstat then 1 else 0)
          else if n = 0x10 then BitVec.ofNat 64 k.cycle
          else if n = 0x40 then BitVec.ofNat 64 u.issue
          else BitVec.ofNat 64 (SMap.get 0 u.stalls (n - 0x40)))) ∧
      u.keepsRegs (t.streamOf i) u.pc rd ∧ u.goesOn (t.streamOf i) 0 1 ∧ s1.onlyStream t i.core i.strm) ∧
  (∀ (s : State) (i : Issue) (n : Nat), n = bits i.insn.imm.toNat 7 0 →
    s.clears i { op := 0x0C, words := [1], imm := 0xFF, ra := true } (movswConds i) = true →
    let s1 := s.applyEcc i.ecc
    let u := s1.streamOf i
    let k := s1.core i.core
    let v := u.reg i.insn.ra.toNat
    ∃ t, exec (.movsw i) s = .next t ∧ s1.onlyCore t i.core ∧ s1.sameBytes t ∧
      (n = 0x08 → k.stochastic = false →
        (t.core i.core).seed = v ∧ (t.core i.core).genDrain = genRestart v k.ckseq kDrain ∧
        (t.core i.core).genVec = genRestart v k.ckseq kVec ∧ u.keepsRegs (t.streamOf i) u.pc 0 ∧
        u.goesOn (t.streamOf i) 0 1) ∧
      (n = 0x08 → k.stochastic = true → t.streamOf i = { u with wait := .unit 11 }) ∧
      (n ≠ 0x08 →
        (t.core i.core).xstat = (k.xstat && !v.getLsbD 0) ∧ (t.core i.core).seed = k.seed ∧
        u.keepsRegs (t.streamOf i) u.pc 0 ∧ u.goesOn (t.streamOf i) 0 1))

/-- 04 R108, R102; 03 R83: BR, and BRC whose condition holds, take the stream to their target in 1 cc of issue and 2 of
FETCH, leaving the loop levels that do not hold the target; BRC whose condition fails goes on. -/
def Obligations.Branches : Prop :=
  (∀ (s : State) (i : Issue),
    s.clears i { op := 0x02, words := [1], imm := BitVec.allOnes 32, opt := 1, ra := i.insn.opt.getLsbD 0 }
      (Machine.cond (i.insn.opt.getLsbD 0 && ((s.applyEcc i.ecc).streamOf i).tag i.insn.ra.toNat) cPoison 0x04 ++
        targetConds ((s.applyEcc i.ecc).core i.core) (brTarget ((s.applyEcc i.ecc).streamOf i) i.insn)) = true →
    let s1 := s.applyEcc i.ecc
    let u := s1.streamOf i
    let base := if i.insn.opt.getLsbD 0 then u.reg i.insn.ra.toNat else BitVec.ofNat 64 u.pc
    let target := (base + 8 * i.insn.imm.signExtend 64).toNat
    ∃ t, exec (.br i) s = .next t ∧ (t.streamOf i).pc = target ∧ (t.streamOf i).issue = u.issue + 1 ∧
      (t.streamOf i).loops = leaveLoops target u.loops ∧
      SMap.get 0 (t.streamOf i).stalls 13 = SMap.get 0 u.stalls 13 + 2 ∧
      (∀ n, (t.streamOf i).reg n = u.reg n ∧ (t.streamOf i).tag n = u.tag n) ∧ s1.onlyStream t i.core i.strm) ∧
  (∀ (s : State) (i : Issue),
    s.clears i { op := 0x03, words := [1], imm := BitVec.allOnes 32, opt := 7, ra := true, rb := true,
                 reserved := decide (6 ≤ bits i.insn.opt.toNat 2 0) }
      (Machine.cond (((s.applyEcc i.ecc).streamOf i).tag i.insn.ra.toNat || ((s.applyEcc i.ecc).streamOf i).tag i.insn.rb.toNat)
          cPoison 0x04 ++
        if ((s.applyEcc i.ecc).streamOf i).brc i.insn then
          targetConds ((s.applyEcc i.ecc).core i.core) (brcTarget ((s.applyEcc i.ecc).streamOf i) i.insn) else []) = true →
    let s1 := s.applyEcc i.ecc
    let u := s1.streamOf i
    let a := u.reg i.insn.ra.toNat
    let b := u.reg i.insn.rb.toNat
    let op := i.insn.opt.toNat % 8
    let holds := op = 0 ∧ a = b ∨ op = 1 ∧ a ≠ b ∨ op = 2 ∧ a.toInt < b.toInt ∨ op = 3 ∧ b.toInt ≤ a.toInt ∨
      op = 4 ∧ a.toNat < b.toNat ∨ op = 5 ∧ b.toNat ≤ a.toNat
    let target := (BitVec.ofNat 64 u.pc + 8 * i.insn.imm.signExtend 64).toNat
    ∃ t, exec (.brc i) s = .next t ∧ s1.onlyStream t i.core i.strm ∧
      (holds → (t.streamOf i).pc = target ∧ (t.streamOf i).issue = u.issue + 1 ∧
        (t.streamOf i).loops = leaveLoops target u.loops ∧
        SMap.get 0 (t.streamOf i).stalls 13 = SMap.get 0 u.stalls 13 + 2 ∧
        ∀ n, (t.streamOf i).reg n = u.reg n ∧ (t.streamOf i).tag n = u.tag n) ∧
      (¬ holds → u.keepsRegs (t.streamOf i) u.pc 0 ∧ u.goesOn (t.streamOf i) 0 1))

/-- 03 R72, R73; 04 R111: SETF sets the flags of its mask, or clears them with OPT[0]; WAITF whose flags are set clears them,
unless KEEP, and goes on, where the A-stream's waiting WAITF does not go first; else it waits and takes nothing; WAITF_SATISFIED ends
that wait, under the same condition. No register changes. -/
def Obligations.EventFlags : Prop :=
  (∀ (s : State) (i : Issue),
    let s1 := s.applyEcc i.ecc
    let u := s1.streamOf i
    let k := s1.core i.core
    let m : BitVec 32 := if i.insn.opt.getLsbD 1 then (u.reg i.insn.ra.toNat).setWidth 32 else i.insn.imm
    let takes := k.flags &&& m = m ∧ ¬ (i.strm = .x ∧ k.aFirst m (i.insn.opt.getLsbD 0) = true)
    (s.clears i (maskFields 0x0A i.insn) (maskConds u i.insn) = true → ∃ t, exec (.setf i) s = .next t ∧ s1.onlyCore t i.core ∧ u.goesOn (t.streamOf i) 0 1 ∧
      u.keepsRegs (t.streamOf i) u.pc 0 ∧
      (t.core i.core).setStream i.strm u =
        { k with flags := if i.insn.opt.getLsbD 0 then k.flags &&& ~~~m else k.flags ||| m }) ∧
    (s.clears i (maskFields 0x09 i.insn) (maskConds u i.insn) = true → ∃ t, exec (.waitf i) s = .next t ∧ s1.onlyCore t i.core ∧
      (takes → u.goesOn (t.streamOf i) 0 1 ∧ u.keepsRegs (t.streamOf i) u.pc 0 ∧
        (t.core i.core).setStream i.strm u =
          { k with flags := if i.insn.opt.getLsbD 0 then k.flags else k.flags &&& ~~~m }) ∧
      (¬ takes → t.streamOf i = { u with wait := .flags m (i.insn.opt.getLsbD 0) } ∧
        (t.core i.core).setStream i.strm u = k))) ∧
  (∀ (s : State) (c : Nat) (st : Strm) (m : BitVec 32) (keep : Bool), s.active c st = true →
    ((s.core c).stream st).wait = .flags m keep → (s.core c).flags &&& m = m →
    (st = .x → (s.core c).aFirst m keep = false) →
    ∃ t, exec (.waitfSatisfied c st) s = .next t ∧ s.onlyCore t c ∧
      ((s.core c).stream st).goesOn ((t.core c).stream st) 0 1 ∧
      (t.core c).setStream st ((s.core c).stream st) =
        { s.core c with flags := if keep then (s.core c).flags else (s.core c).flags &&& ~~~m })

/-- 03 R75 to R79; 04 R110: QPUSH puts reg[RA] and its tag into the register stage where the ring is empty and the stage has
room, else at the ring's tail in scratchpad; a full queue makes it wait. QPOP moves the head of the stage into reg[RD]; an empty
stage makes it wait. QUEUE_STALL_RELEASE ends such a wait, and QUEUE_STAGE_REFILL moves the ring's head into the stage. -/
def Obligations.DataQueues : Prop :=
  (∀ (s : State) (i : Issue) (q : Nat), q = i.insn.imm.toNat % 8 →
    s.clears i { op := 0x07, words := [1], imm := 7, ra := true } (queueConds i true) = true →
    let s1 := s.applyEcc i.ecc
    let u := s1.streamOf i
    let k := s1.core i.core
    let w := u.reg i.insn.ra.toNat
    let p := u.tag i.insn.ra.toNat
    ∃ t, exec (.qpush i) s = .next t ∧ s1.onlyCore t i.core ∧
      ((k.queue q).ring = [] → (k.queue q).stage.length < 8 →
        ((t.core i.core).queue q).stage = (k.queue q).stage ++ [(w, p)] ∧ ((t.core i.core).queue q).ring = [] ∧
        s1.sameBytes t ∧ u.goesOn (t.streamOf i) 0 1) ∧
      ((k.queue q).ring ≠ [] ∨ 8 ≤ (k.queue q).stage.length → (k.queue q).ring.length < (k.ring q).2 →
        ((t.core i.core).queue q).ring = (k.queue q).ring ++ [p] ∧
        ((t.core i.core).queue q).stage = (k.queue q).stage ∧
        (let at_ := (k.ring q).1 + 8 * ((k.queue q).tail % (k.ring q).2)
         (t.core i.core).spRead at_ 8 = leBytes 8 w.toNat ∧
           ∀ a, a < at_ ∨ at_ + 8 ≤ a → t.spByte i.core a = s1.spByte i.core a) ∧
        u.goesOn (t.streamOf i) 0 1) ∧
      ((k.queue q).ring ≠ [] ∨ 8 ≤ (k.queue q).stage.length → (k.ring q).2 ≤ (k.queue q).ring.length →
        t.streamOf i = { u with wait := .push q w p } ∧ s1.onlyStream t i.core i.strm)) ∧
  (∀ (s : State) (i : Issue) (q : Nat), q = i.insn.imm.toNat % 8 →
    s.clears i { op := 0x08, words := [1], imm := 7, rd := true } (queueConds i false) = true →
    let s1 := s.applyEcc i.ecc
    let u := s1.streamOf i
    let k := s1.core i.core
    let rd := i.insn.rd.toNat
    ∃ t, exec (.qpop i) s = .next t ∧ s1.onlyCore t i.core ∧ s1.sameBytes t ∧
      (∀ w p es, (k.queue q).stage = (w, p) :: es →
        ((t.core i.core).queue q).stage = es ∧ ((t.core i.core).queue q).ring = (k.queue q).ring ∧
        (rd ≠ 0 → u.counts u.pc rd = false → (t.streamOf i).reg rd = w ∧ (t.streamOf i).tag rd = p) ∧
        u.keepsRegs (t.streamOf i) u.pc rd ∧ u.goesOn (t.streamOf i) 0 1) ∧
      ((k.queue q).stage = [] → t.streamOf i = { u with wait := .pop q rd } ∧ s1.onlyStream t i.core i.strm)) ∧
  (∀ (s : State) (c : Nat) (st : Strm) (q rd : Nat) (w : Word) (p : Bool) (es : List (Word × Bool)), s.active c st = true →
    let u := (s.core c).stream st
    u.wait = .pop q rd → rd < 16 → ((s.core c).queue q).stage = (w, p) :: es →
    ∃ t, exec (.queueStallRelease c st) s = .next t ∧ s.onlyCore t c ∧ ((t.core c).queue q).stage = es ∧
      (rd ≠ 0 → u.counts u.pc rd = false → ((t.core c).stream st).reg rd = w ∧ ((t.core c).stream st).tag rd = p) ∧
      u.goesOn ((t.core c).stream st) 0 1) ∧
  (∀ (s : State) (c : Nat) (st : Strm) (q : Nat) (w : Word) (p : Bool), s.active c st = true →
    let u := (s.core c).stream st
    u.wait = .push q w p → ((s.core c).queue q).ring = [] → ((s.core c).queue q).stage.length < 8 →
    ∃ t, exec (.queueStallRelease c st) s = .next t ∧ s.onlyCore t c ∧
      ((t.core c).queue q).stage = ((s.core c).queue q).stage ++ [(w, p)] ∧ u.goesOn ((t.core c).stream st) 0 1) ∧
  (∀ (s : State) (c q : Nat) (ecc : List EccHit) (p : Bool) (ps : List Bool), s.active c .a = true ∨ s.active c .x = true →
    ((s.core c).queue q).ring = p :: ps → ((s.core c).queue q).stage.length < 8 →
    let v := (s.core c).queue q
    let at_ := ((s.core c).ring q).1 + 8 * ((v.tail - v.ring.length) % ((s.core c).ring q).2)
    let s1 := s.applyEcc ecc
    ∃ t, exec (.queueStageRefill c ⟨q, ecc⟩) s = .next t ∧ s1.onlyCore t c ∧ s.sameBytes t ∧
      ((t.core c).queue q).ring = ps ∧
      ((t.core c).queue q).stage = v.stage ++
        [(BitVec.ofNat 64 (leNat ((s.core c).spRead at_ 8)), p || (s1.core c).spPoisoned at_ 8)])

/-- 04 R116: FENCE with nothing in flight that it covers goes on in 1 cc, else its stream waits for those operations; and
FENCE_RELEASE lets it go on once none of them is in flight. -/
def Obligations.Fences : Prop :=
  (∀ (s : State) (i : Issue), s.clears i { op := 0x05, words := [1], imm := 1, opt := 0xF } [] = true →
    let s1 := s.applyEcc i.ecc
    let u := s1.streamOf i
    let ops := (s1.core i.core).covered i.insn.opt i.strm (i.insn.imm.getLsbD 0)
    ∃ t, exec (.fence i) s = .next t ∧ s1.onlyStream t i.core i.strm ∧
      (ops = [] → u.keepsRegs (t.streamOf i) u.pc 0 ∧ u.goesOn (t.streamOf i) 0 1) ∧
      (i.insn.opt = 0 → ops = []) ∧
      (ops ≠ [] → t.streamOf i = { u with wait := .fence ops })) ∧
  (∀ (s : State) (c : Nat) (st : Strm) (ops : List Nat), s.active c st = true →
    ((s.core c).stream st).wait = .fence ops →
    ∃ t, exec (.fenceRelease c st) s = .next t ∧
      ((∀ o ∈ ops, o ∉ (s.core c).inFlight) → s.onlyStream t c st ∧
        ((s.core c).stream st).goesOn ((t.core c).stream st) 0 1) ∧
      ((∃ o ∈ ops, o ∈ (s.core c).inFlight) → t = s))

/-- 04 R115; 03 R88: NOP takes 1 cc and has no effect. HALT takes 1 cc and stops its stream at its address; while the core's other
stream runs nothing else changes, and when both have executed it the core's record holds HALT_INSTR with STREAM = 0b11, unless it
has latched one; the basin enters IDLE when every unfenced core has finished. -/
def Obligations.NopAndHalt : Prop :=
  (∀ (s : State) (i : Issue), s.clears i { op := 0x00, words := [1] } [] = true →
     let s1 := s.applyEcc i.ecc
     let u := s1.streamOf i
     ∃ t, exec (.nop i) s = .next t ∧ u.keepsRegs (t.streamOf i) u.pc 0 ∧ u.goesOn (t.streamOf i) 0 1 ∧
       s1.onlyStream t i.core i.strm) ∧
  (∀ (s : State) (i : Issue), s.clears i { op := 0x01, words := [1] } [] = true →
     let s1 := s.applyEcc i.ecc
     let u := s1.streamOf i
     let k := s1.core i.core
     ∃ t, exec (.halt i) s = .next t ∧
       ((k.stream (otherStrm i.strm)).halted = false →
         t.streamOf i = { u with halted := true, wait := .none, issue := u.issue + 1, ahead := u.ahead + 1 } ∧
         s1.onlyStream t i.core i.strm) ∧
       (t.streamOf i).halted = true ∧
       ((k.stream (otherStrm i.strm)).halted = true → k.hrec.latched = false →
         (t.core i.core).hrec = { latched := true, aPc := k.a.pc, xPc := k.x.pc, stream := 3, cause := 0x0F }) ∧
       ((k.stream (otherStrm i.strm)).halted = true → ∀ b, s1.basinOf i.core = some b →
         let rest := (s1.liveCores b).all fun c => decide (c = i.core) || (s1.core c).finished
         (rest = false → t.basins = s1.basins) ∧
         (rest = true → (s1.basin b).fencePending = [] → s1.anyDue b = false → (s1.basin b).pendingRebind = none →
           (t.basin b).phase = .idle)))

/-- 04 R109; 03 R81, R82: LOOP with a count opens a level whose body begins at the next word, writing 0 to its index register;
with a count of zero it goes on past the body. When the instruction that ends a body finishes, the innermost level that it ends advances: with an
iteration left the stream returns to the body's start, its index register holding the iteration's number; and a level with
none left closes, and the enclosing one that shares its end advances next. Shown at NOP. -/
def Obligations.HardwareLoops : Prop :=
  (∀ (s : State) (i : Issue),
     s.clears i { op := 0x04, words := [1], imm := 0xFFFF, ra := true, rd := true }
       (loopConds ((s.applyEcc i.ecc).streamOf i) i.insn) = true →
     let s1 := s.applyEcc i.ecc
     let u := s1.streamOf i
     let rd := i.insn.rd.toNat
     let body := i.insn.imm.toNat % 2 ^ 16
     let n := (u.reg i.insn.ra.toNat).toNat % 2 ^ 32
     ∃ t, exec (.loop i) s = .next t ∧ s1.onlyStream t i.core i.strm ∧ (t.streamOf i).issue = u.issue + 1 ∧
       (n ≠ 0 →
         (t.streamOf i).loops = { start := u.pc + 8, last := u.pc + 8 * body, count := n, it := 0, rd := rd } :: u.loops ∧
         (t.streamOf i).pc = u.pc + 8 ∧ (rd ≠ 0 → (t.streamOf i).reg rd = 0) ∧
         ∀ m, m ≠ rd → (t.streamOf i).reg m = u.reg m) ∧
       (n = 0 → u.ends (u.pc + 8 * body) = false →
         (t.streamOf i).loops = u.loops ∧ (t.streamOf i).pc = u.pc + 8 * (body + 1) ∧
         ∀ m, (t.streamOf i).reg m = u.reg m)) ∧
  (∀ (s : State) (i : Issue) (l : LoopLevel) (ls : List LoopLevel), s.clears i { op := 0x00, words := [1] } [] = true →
     let s1 := s.applyEcc i.ecc
     let u := s1.streamOf i
     u.loops = l :: ls → l.last = u.pc →
     ∃ t, exec (.nop i) s = .next t ∧
       (l.it + 1 < l.count →
         (t.streamOf i).pc = l.start ∧ (t.streamOf i).loops = { l with it := l.it + 1 } :: ls ∧
         (l.rd ≠ 0 → (t.streamOf i).reg l.rd = BitVec.ofNat 64 (l.it + 1)) ∧
         ∀ n, n ≠ l.rd → (t.streamOf i).reg n = u.reg n) ∧
       (l.count ≤ l.it + 1 → (ls.any fun m => decide (m.last = u.pc)) = false →
         (t.streamOf i).pc = u.pc + 8 ∧ (t.streamOf i).loops = ls ∧ ∀ n, (t.streamOf i).reg n = u.reg n) ∧
       (l.count ≤ l.it + 1 → ∀ m ms, ls = m :: ms → m.last = u.pc → m.it + 1 < m.count →
         (t.streamOf i).pc = m.start ∧ (t.streamOf i).loops = { m with it := m.it + 1 } :: ms))

/-- 04 R96; 03 R58, R84: every instruction's first check. One fetched from a poisoned block halts its core with POISON_IN_CONTROL, DETAIL
0x01, and one that lies outside the program region with PRIVILEGE, DETAIL 0x01: the record takes both streams' addresses, and
the streams stop where they stand with their registers. An instruction of a stream that cannot issue (its core is in no RUNNING basin, the stream has stopped or
executed HALT, or it waits) changes nothing. -/
def Obligations.IssueChecks : Prop :=
  (∀ (s : State) (c : Instr) (i : Issue) (n : Nat) (e : Cond), presentedOf c = some (i, n) → i.insn.presents n = true →
     s.canIssue i.core i.strm = true →
     let s1 := s.applyEcc i.ecc
     let k := s1.core i.core
     let u := s1.streamOf i
     let n := 8 * (i.insn.wc.toNat + 1)
     (k.spPoisoned u.pc n = true ∧ e = (cPoison, 0x01) ∨
       k.spPoisoned u.pc n = false ∧ (u.pc < k.base ∨ k.base + k.size < u.pc + n) ∧ e = (cPrivilege, 0x01)) →
     k.hrec.latched = false →
     ∃ t, exec c s = .next t ∧
       (t.core i.core).hrec =
         { latched := true, aPc := k.a.pc, xPc := k.x.pc, detail := e.2, stream := (if i.strm = .a then 0 else 1), cause := e.1 } ∧
       (t.core i.core).a.stopped = true ∧ (t.core i.core).x.stopped = true ∧
       (∀ st n, ((t.core i.core).stream st).reg n = (k.stream st).reg n ∧
         ((t.core i.core).stream st).pc = (k.stream st).pc) ∧
       ∀ a, t.spByte i.core a = s1.spByte i.core a) ∧
  (∀ (s : State) (c : Instr) (i : Issue), issueOf c = some i → s.canIssue i.core i.strm = false → exec c s = .next s)

/-! ### Barges, arrays and the vector unit (families BARGE, ARRAY and VECTOR) -/

/-- 04 R103, R119 to R124; 06 R187; 08 R247: BRG, BRGT, PUT and REDS whose checks pass take a descriptor of the barge engine, the
next transfer of their lane, and for a G-marked PUT or REDS one contribution of the layer; with sixteen descriptors held they
wait with BARGE_FULL. -/
def Obligations.BargesDispatch : Prop :=
  (∀ (s : State) (i : Issue),
    let s1 := s.applyEcc i.ecc
    let mem := decide (bits i.insn.opt.toNat 1 0 = 0)
    s.clears i { op := 0x20, words := if 2 ≤ bits i.insn.opt.toNat 1 0 then [2, 3] else if mem then [3] else [2], only := some .a,
                 imm := if mem then 0xFFFF else 0xFFFFF, opt := 3, ra := mem, fe := true,
                 reserved := decide (2 ≤ bits i.insn.opt.toNat 1 0) }
      (brgConds (s1.basin (s1.basinAt i.core)) i.core (s1.core i.core) (s1.streamOf i) i.insn) = true →
    let k := s1.core i.core
    let g : Barge :=
      { id := k.nextOp, pc := (s1.streamOf i).pc, lane := i.insn.imm.toNat % 2 ^ 16, desc := i.insn.w1
        flag := if i.insn.fe then some i.insn.flg.toNat else none
        transfer := (s1.basin (s1.basinAt i.core)).issued i.core (i.insn.imm.toNat % 2 ^ 16) }
    ∃ t, exec (.brg i) s = .next t ∧
      (16 ≤ k.barges.length → s1.waitsFor t i 9) ∧
      (k.barges.length < 16 → i.insn.opt.toNat % 4 = 0 → s1.dispatched t i
        { g with kind := .brg, mstride := (memSide i.insn.w2).mstride, shape := shapeWords k i.insn.w2
                 ba := ((s1.streamOf i).reg i.insn.ra.toNat).toNat
                 size := streamLen (opDesc i.insn.w1) (shapeOf (shapeWords k i.insn.w2)) }) ∧
      (k.barges.length < 16 → i.insn.opt.toNat % 4 = 1 → s1.dispatched t i
        { g with kind := .brgTp, queue := i.insn.imm.toNat / 2 ^ 16 % 16, size := (opDesc i.insn.w1).bytes })) ∧
  (∀ (s : State) (i : Issue),
    let s1 := s.applyEcc i.ecc
    s.clears i { op := 0x21, words := [3], only := some .a, imm := 0xFFFF, ra := true, fe := true }
      (brgtConds (s1.basin (s1.basinAt i.core)) i.core (s1.streamOf i) i.insn) = true →
    let k := s1.core i.core
    ∃ t, exec (.brgt i) s = .next t ∧
      (16 ≤ k.barges.length → s1.waitsFor t i 9) ∧
      (k.barges.length < 16 → s1.dispatched t i
        { id := k.nextOp, pc := (s1.streamOf i).pc, lane := i.insn.imm.toNat % 2 ^ 16, desc := i.insn.w1
          flag := if i.insn.fe then some i.insn.flg.toNat else none
          transfer := (s1.basin (s1.basinAt i.core)).issued i.core (i.insn.imm.toNat % 2 ^ 16)
          kind := .brgt, mstride := (memSide i.insn.w2).mstride
          ba := ((s1.streamOf i).reg i.insn.ra.toNat).toNat, size := (opDesc i.insn.w1).bytes })) ∧
  (∀ (s : State) (i : Issue),
    let s1 := s.applyEcc i.ecc
    let b := s1.basinAt i.core
    s.clears i (putFields i.insn) (putConds (s1.basin b) i.core (s1.core i.core) (s1.streamOf i) i.insn) = true →
    let k := s1.core i.core
    let layer := if i.insn.opt.getLsbD 3 then some (i.insn.imm.toNat / 2 ^ 20) else none
    let g : Barge :=
      { id := k.nextOp, pc := (s1.streamOf i).pc, lane := i.insn.imm.toNat % 2 ^ 16, desc := i.insn.w1
        flag := if i.insn.fe then some i.insn.flg.toNat else none
        transfer := (s1.basin b).issued i.core (i.insn.imm.toNat % 2 ^ 16) }
    ∃ t, exec (.put i) s = .next t ∧
      (16 ≤ k.barges.length → s1.waitsFor t i 9) ∧
      (k.barges.length < 16 → i.insn.opt.toNat % 4 = 0 → s1.dispatched t i
        { g with kind := .putMem, mstride := (memSide i.insn.w2).mstride, shape := shapeWords k i.insn.w2
                 ba := ((s1.streamOf i).reg i.insn.ra.toNat).toNat, grad := layer
                 size := streamLen (opDesc i.insn.w1) (shapeOf (shapeWords k i.insn.w2)) } ∧
        ∀ n, layer = some n → ((t.basin b).layer n).out = ((s1.basin b).layer n).out + 1) ∧
      (k.barges.length < 16 → i.insn.opt.toNat % 4 = 1 → s1.dispatched t i
        { g with kind := .putLat, desc2 := i.insn.w2, size := (opDesc i.insn.w1).bytes, grad := layer } ∧
        ∀ n, layer = some n → ((t.basin b).layer n).red = ((s1.basin b).layer n).red + 1) ∧
      (k.barges.length < 16 → i.insn.opt.toNat % 4 = 2 → s1.dispatched t i
        { g with kind := .putTp, queue := i.insn.imm.toNat / 2 ^ 16 % 16, size := (opDesc i.insn.w1).bytes })) ∧
  (∀ (s : State) (i : Issue),
    let s1 := s.applyEcc i.ecc
    let b := s1.basinAt i.core
    s.clears i { op := 0x23, words := [3], only := some .a, imm := 0xFFFF ||| gImm i.insn, opt := 8, fe := true }
      (redsConds (s1.basin b) i.core i.insn) = true →
    let k := s1.core i.core
    let layer := if i.insn.opt.getLsbD 3 then some (i.insn.imm.toNat / 2 ^ 20) else none
    ∃ t, exec (.reds i) s = .next t ∧
      (16 ≤ k.barges.length → s1.waitsFor t i 9) ∧
      (k.barges.length < 16 → s1.dispatched t i
        { id := k.nextOp, pc := (s1.streamOf i).pc, lane := i.insn.imm.toNat % 2 ^ 16, desc := i.insn.w1
          flag := if i.insn.fe then some i.insn.flg.toNat else none
          transfer := (s1.basin b).issued i.core (i.insn.imm.toNat % 2 ^ 16)
          kind := .reds, desc2 := i.insn.w2, size := (opDesc i.insn.w1).bytes, grad := layer } ∧
        ∀ n, layer = some n → ((t.basin b).layer n).red = ((s1.basin b).layer n).red + 1))

/-- 04 R125; 08 R254: BCAN cancels every BRG, BRGT and towpath BRG of the core whose flag its mask names, poisons their
destinations' blocks, and touches no other barge, block or byte. -/
def Obligations.BcanCancels : Prop :=
  ∀ (s : State) (i : Issue), s.clears i { op := 0x24, words := [1], only := some .a, imm := BitVec.allOnes 32 } [] = true →
    let s1 := s.applyEcc i.ecc
    let u := s1.streamOf i
    let k := s1.core i.core
    let hit := fun (g : Barge) => (g.kind = .brg ∨ g.kind = .brgt ∨ g.kind = .brgTp) ∧ g.cancelled = false ∧
      g.dropped = false ∧ ∃ f, g.flag = some f ∧ i.insn.imm.getLsbD f = true
    ∃ t, exec (.bcan i) s = .next t ∧ s1.onlyCore t i.core ∧ s1.sameBytes t ∧ u.goesOn (t.streamOf i) 0 1 ∧
      u.keepsRegs (t.streamOf i) u.pc 0 ∧ (t.core i.core).flags = k.flags ∧
      (t.core i.core).barges.length = k.barges.length ∧
      (∀ (n : Nat) (g : Barge), k.barges[n]? = some g →
        (hit g → (t.core i.core).barges[n]? = some { g with cancelled := true }) ∧
        (¬ hit g → (t.core i.core).barges[n]? = some g)) ∧
      (∀ g ∈ k.barges, hit g → ∀ j ∈ g.destBlocks, SMap.get false (t.core i.core).spPoison j = true) ∧
      ∀ j, (∀ g ∈ k.barges, hit g → j ∉ g.destBlocks) →
        SMap.get false (t.core i.core).spPoison j = SMap.get false k.spPoison j

/-- 04 R119; 08 R251 to R253, R255: a barge of no layer whose last byte is written leaves its descriptor, sets its flag with status OK or
POISONED and none with another, and changes nothing else; one that ended FAILED sets no flag, and its core halts with TIER_ERROR,
DETAIL 0x02; and a suspended read or write whose cause has ended goes on. -/
def Obligations.BargesEnd : Prop :=
  (∀ (s : State) (c id b : Nat) (g : Barge), (s.core c).barges.find? (fun h => decide (h.id = id)) = some g →
    s.basinOf c = some b → s.bargeEnded b g = true → g.grad = none →
    (g.failed = false ∨ g.dropped = true ∨ g.cancelled = true) →
    ∃ t, exec (.bargeComplete c id) s = .next t ∧ s.onlyCore t c ∧ s.sameBytes t ∧
      (∀ h, h ∈ (t.core c).barges ↔ h ∈ (s.core c).barges ∧ h.id ≠ id) ∧
      (∀ f, g.dropped = false → g.cancelled = false → g.flag = some f → f < 32 →
        (t.core c).flags.getLsbD f = true ∧ ∀ n, n ≠ f → (t.core c).flags.getLsbD n = (s.core c).flags.getLsbD n) ∧
      ((g.dropped = true ∨ g.cancelled = true ∨ g.flag = none) → (t.core c).flags = (s.core c).flags)) ∧
  (∀ (s : State) (c id b : Nat) (g : Barge), (s.core c).barges.find? (fun h => decide (h.id = id)) = some g →
    s.basinOf c = some b → s.bargeEnded b g = true → g.failed = true → g.dropped = false → g.cancelled = false →
    c ∈ s.liveCores b → (s.basin b).phase = .running → (s.basin b).restarts < (s.basin b).restartLimit →
    ∃ t, exec (.bargeComplete c id) s = .next t ∧ s.sameBytes t ∧ (∀ h ∈ (t.core c).barges, h.id ≠ id) ∧
      (t.core c).flags = (s.core c).flags ∧ (t.basin b).phase = .restarting ∧
      ((s.core c).hrec.latched = false →
        (t.core c).hrec.latched = true ∧ (t.core c).hrec.cause = 0x0E ∧ (t.core c).hrec.detail = 0x02)) ∧
  (∀ (s : State) (c id u : Nat) (r : PortReq) (g : Barge), u < 12 →
    (∀ v, v < u → (s.port v).reqs.find? (fun q => decide (q.core = c) && decide (q.barge = id)) = none) →
    (s.port u).reqs.find? (fun q => decide (q.core = c) && decide (q.barge = id)) = some r →
    s.barge c id = some g → g.suspended = true →
    (r.write = false → s.asked u r = [r] ∧
      ∀ a ∈ sliceRows g.memRowsOf (128 * r.readied) (min 128 (g.size - 128 * r.readied)), ∀ q ∈ splitTiles a.1 a.2,
        s.readBlocked r.basin g q.1 = false) →
    (r.write = true → s.writeBlocked u r.basin g = false) →
    ∃ t, exec (.bargeResume c id) s = .next t ∧ t.barge c id = some { g with suspended := false } ∧
      (∀ c', c' ≠ c → t.core c' = s.core c') ∧ s.sameBytes t)

/-- 04 R126, R127, R129, R130: OPARM loads the armed set; OPSTR with no row sets its flag at once and else enters the stream
pipeline unless it holds two; OPDRN enters the drain pipeline unless it holds two. -/
def Obligations.ArrayIssue : Prop :=
  (∀ (s : State) (i : Issue),
    let s1 := s.applyEcc i.ecc
    let u := s1.streamOf i
    let k := s1.core i.core
    s.clears i { op := 0x30, words := [2], only := some .x, imm := 0xF, opt := 1 } (oparmConds k i.insn) = true →
    ∃ t, exec (.oparm i) s = .next t ∧
      (k.streamPipe ≠ [] → s1.waitsFor t i 10) ∧
      (k.streamPipe = [] →
        (t.core i.core).armed =
          { arrays := (List.range 4).filter fun j => i.insn.imm.getLsbD j, rDesc := i.insn.w1, k := (opDesc i.insn.w1).rows,
            p := 0, exact := i.insn.opt.getLsbD 0 } ∧
        (t.core i.core).tiles = k.tiles ∧ u.goesOn (t.streamOf i) 1 1 ∧ u.keepsRegs (t.streamOf i) (u.pc + 8) 0 ∧
        s1.onlyCore t i.core ∧ s1.sameBytes t)) ∧
  (∀ (s : State) (i : Issue) (fault : Option Upset),
    let s1 := s.applyEcc i.ecc
    let u := s1.streamOf i
    let k := s1.core i.core
    s.clears i { op := 0x31, words := [2], only := some .x, ra := true, fe := true } (opstrConds k u i.insn) = true →
    ∃ t, exec (.opstr i fault) s = .next t ∧
      ((u.reg i.insn.ra.toNat).toNat = 0 →
        u.goesOn (t.streamOf i) 1 1 ∧ s1.onlyCore t i.core ∧ s1.sameBytes t ∧
        (t.core i.core).flags = if i.insn.fe then setBit k.flags i.insn.flg.toNat true else k.flags) ∧
      ((u.reg i.insn.ra.toNat).toNat ≠ 0 → 2 ≤ k.streamPipe.length → s1.waitsFor t i 10) ∧
      ((u.reg i.insn.ra.toNat).toNat ≠ 0 → k.streamPipe.length < 2 →
        ¬ (k.streamPipe = [] ∧ k.rowFits = true ∧ k.rowCaught (opDesc i.insn.w1) 0 fault = true) →
        (t.core i.core).nextOp = k.nextOp + 1 ∧ (t.core i.core).streamPipe.length = k.streamPipe.length + 1 ∧
        (∃ o, (t.core i.core).streamPipe.getLast? = some o ∧ o.id = k.nextOp ∧ o.insn = i.insn ∧
          o.total = (u.reg i.insn.ra.toNat).toNat) ∧
        u.goesOn (t.streamOf i) 1 1 ∧ s1.sameBytes t)) ∧
  (∀ (s : State) (i : Issue),
    let s1 := s.applyEcc i.ecc
    let u := s1.streamOf i
    let k := s1.core i.core
    s.clears i { op := 0x32, words := [2], only := some .x, imm := 0xFF0F, opt := 7, ra := i.insn.opt.getLsbD 1, fe := true }
      (opdrnConds k i.insn) = true →
    ∃ t, exec (.opdrn i) s = .next t ∧
      (2 ≤ k.drainPipe.length → s1.waitsFor t i 10) ∧
      (k.drainPipe.length < 2 →
        (t.core i.core).drainPipe = k.drainPipe ++
          [{ id := k.nextOp, code := 0x32, pc := u.pc, strm := i.strm, insn := i.insn, opA := u.reg i.insn.ra.toNat
             tagA := u.tag i.insn.ra.toNat }] ∧
        u.goesOn (t.streamOf i) 1 1 ∧ s1.onlyCore t i.core ∧ s1.sameBytes t))

/-- 04 R129, R130; 05 R144, R168: an OPSTR all of whose rows have entered leaves the pipeline, its ended passes become FULL and its
flag is set; an OPDRN drains the arrays of its mask that hold FULL tiles into D's rows and nowhere else, and after the last one leaves
the pipeline and sets its flag. A fault that a residue check catches is another matter: the core halts (R168). -/
def Obligations.ArrayCompletion : Prop :=
  (∀ (s : State) (c : Nat) (fault : Option Upset) (ecc : List EccHit) (o : Op) (os : List Op), (s.core c).streamPipe = o :: os →
    o.total ≤ o.rows →
    let k := (s.applyEcc ecc).core c
    k.cellCaught fault = false →
    ∃ t, exec (.opstrComplete c ⟨fault, ecc⟩) s = .next t ∧ s.sameBytes t ∧
      (t.core c).streamPipe.map Op.id = os.map Op.id ∧
      (t.core c).flags = (if o.insn.fe then setBit k.flags o.insn.flg.toNat true else k.flags) ∧
      (os = [] → ∀ n, (SMap.get {} k.tiles n).ended = true →
        (SMap.get {} (t.core c).tiles n).st = .full ∧ (SMap.get {} (t.core c).tiles n).ended = false ∧
        (fault = none → SMap.get {} (t.core c).tiles n = { SMap.get {} k.tiles n with st := .full, ended := false }))) ∧
  (∀ (s : State) (c : Nat) (fault : Option Upset) (ecc : List EccHit) (o : Op) (os : List Op), (s.core c).drainPipe = o :: os →
    ((s.core c).stream o.strm).stopped = false →
    let mask := (List.range 4).filter fun j => o.insn.imm.getLsbD j
    let d := opDesc o.insn.w1
    let s1 := s.applyEcc ecc
    let now := (mask.zipIdx.drop o.rows).takeWhile fun e => ((s.core c).fullTile e.1).isSome
    let rows := o.rows + now.length
    let acc := now.foldl (fun acc e => drainArray o fault acc e.1 e.2) { core := s1.core c }
    now ≠ [] → acc.refused = false → acc.failed = false →
    ∃ t, exec (.opdrnComplete c fault ecc) s = .next t ∧
      (t.core c).drainPipe = (if mask.length ≤ rows then os else { o with rows := rows } :: os) ∧
      (t.core c).flags = (if mask.length ≤ rows ∧ o.insn.fe = true then setBit (s1.core c).flags o.insn.flg.toNat true
        else (s1.core c).flags) ∧
      (∀ a, t.spByte c a = SMap.get 0 acc.core.sp a) ∧
      (∀ a, (∀ r, r < 16 → a < d.rowAddr r ∨ d.rowAddr r + 2 * mask.length * fmtBits d.fmt ≤ a) →
        t.spByte c a = s1.spByte c a) ∧
      (∀ c' a, c' ≠ c → t.spByte c' a = s1.spByte c' a) ∧ ∀ b a, t.memByte b a = s1.memByte b a)

/-- 04 R103, R132, R133, R135, R137: a vector instruction that passes its checks enters the vector unit with the register operand
it has read, or waits with VECTOR_BUSY while the unit holds two; VSTX does so too; VLDX takes 8 bytes of scratchpad into reg[RD], with
a tag where their block is poisoned, once the unit holds nothing. -/
def Obligations.VectorIssue : Prop :=
  (∀ (s : State) (c : Instr) (i : Issue) (code : Nat), vecOf c = some (i, code) →
    s.clears i (vecFields code i.insn) (vecConds code i.insn) = true →
    let s1 := s.applyEcc i.ecc
    let u := s1.streamOf i
    let k := s1.core i.core
    ∃ t, exec c s = .next t ∧ s1.onlyCore t i.core ∧ s1.sameBytes t ∧
      (2 ≤ k.vecPipe.length → s1.waitsFor t i 11) ∧
      (k.vecPipe.length < 2 →
        (t.core i.core).vecPipe = k.vecPipe ++
          [{ id := k.nextOp, code := code, pc := u.pc, strm := i.strm, insn := i.insn, opB := u.reg i.insn.rb.toNat
             tagB := u.tag i.insn.rb.toNat }] ∧
        u.goesOn (t.streamOf i) i.insn.wc.toNat 1 ∧ u.keepsRegs (t.streamOf i) (u.pc + 8 * i.insn.wc.toNat) 0)) ∧
  (∀ (s : State) (i : Issue),
    let s1 := s.applyEcc i.ecc
    let u := s1.streamOf i
    let k := s1.core i.core
    s.clears i { op := 0x49, words := [1], only := some .x, imm := BitVec.allOnes 32, ra := true, rb := true }
      (vecAddrConds u i.insn) = true →
    ∃ t, exec (.vstx i) s = .next t ∧ s1.onlyCore t i.core ∧ s1.sameBytes t ∧
      (2 ≤ k.vecPipe.length → s1.waitsFor t i 11) ∧
      (k.vecPipe.length < 2 →
        (t.core i.core).vecPipe = k.vecPipe ++
          [{ id := k.nextOp, code := 0x49, pc := u.pc, strm := i.strm, insn := i.insn
             opA := u.reg i.insn.ra.toNat + i.insn.imm.signExtend 64, opB := u.reg i.insn.rb.toNat
             tagB := u.tag i.insn.rb.toNat }])) ∧
  (∀ (s : State) (i : Issue),
    let s1 := s.applyEcc i.ecc
    let u := s1.streamOf i
    let k := s1.core i.core
    let rd := i.insn.rd.toNat
    let at_ := (u.reg i.insn.ra.toNat + i.insn.imm.signExtend 64).toNat
    s.clears i { op := 0x48, words := [1], only := some .x, imm := BitVec.allOnes 32, ra := true, rd := true }
      (vecAddrConds u i.insn) = true →
    ∃ t, exec (.vldx i) s = .next t ∧
      (k.vecPipe ≠ [] → s1.waitsFor t i 11) ∧
      (k.vecPipe = [] →
        (rd ≠ 0 → u.counts u.pc rd = false →
          (t.streamOf i).reg rd = BitVec.ofNat 64 (leNat (k.spRead at_ 8)) ∧
          (t.streamOf i).tag rd = k.spPoisoned at_ 8) ∧
        u.keepsRegs (t.streamOf i) u.pc rd ∧ u.goesOn (t.streamOf i) 0 3 ∧ s1.onlyStream t i.core i.strm))

/-- 04 R136, R137; 03 R68: the first instruction of the vector unit makes its writes and leaves it. VSTX writes its 8 bytes; another
writes D's rows only; no other byte of the core changes.
The results of VEXP and VRSQ within their stated bounds are the model's picks (log 11). -/
def Obligations.VectorCompletion : Prop :=
  ∀ (s : State) (c : Nat) (fault : Option Upset) (ecc : List EccHit) (o : Op) (os : List Op),
    (s.core c).vecPipe = o :: os →
    let s1 := s.applyEcc ecc
    let d := opDesc o.insn.w1
    let acc := vecWork (s1.core c) o fault
    acc.refused = false → acc.failed = false →
    ∃ t, exec (.vectorComplete c fault ecc) s = .next t ∧ (t.core c).vecPipe = os ∧
      (∀ a, t.spByte c a = SMap.get 0 acc.core.sp a) ∧
      (o.code = 0x49 → t.spByte c = fun a =>
        if o.opA.toNat ≤ a ∧ a < o.opA.toNat + 8 then (o.opB >>> (8 * (a - o.opA.toNat))).setWidth 8 else s1.spByte c a) ∧
      (o.code ≠ 0x49 → isMx d.fmt = false →
        ∀ a, (∀ r, r < d.rows → a < d.rowAddr r ∨ d.rowAddr r + (d.cols * fmtBits d.fmt + 7) / 8 ≤ a) →
          t.spByte c a = s1.spByte c a) ∧
      (t.core c).flags = (s1.core c).flags ∧ (∀ st n, ((t.core c).stream st).reg n = ((s1.core c).stream st).reg n) ∧
      (∀ c' a, c' ≠ c → t.spByte c' a = s1.spByte c' a) ∧ ∀ b a, t.memByte b a = s1.memByte b a

/-! ### The run of a basin (families SLUICE, SEGMENT, HALT and RESTART) -/

/-- 04 R117; 07 R230: a stream that issues SLUICE waits there, and once both streams of its core have issued the sluice that the
schedule expects the core arrives; a core whose operations have all ended then sends its token. -/
def Obligations.SluiceArrival : Prop :=
  (∀ (s : State) (i : Issue),
    let s1 := s.applyEcc i.ecc
    let u := s1.streamOf i
    let k := s1.core i.core
    let ck := i.insn.opt.getLsbD 0
    let n := i.insn.imm.toNat % 2 ^ 16
    let b := s1.basinAt i.core
    s.clears i { op := 0x06, words := [1], imm := 0xFFFF, opt := 1, fe := true }
      (Machine.cond (ck && !u.loops.isEmpty) cLoopDepth 0x02 ++ Machine.cond (k.stream (otherStrm i.strm)).halted cSluice 0x02) = true →
    ∃ t, exec (.sluice i) s = .next t ∧
      ((k.stream (otherStrm i.strm)).atSluice = none →
        t.streamOf i = { u with wait := .sluice n ck i.insn.fe i.insn.flg.toNat, issue := u.issue + 1, ahead := u.ahead + 1 } ∧
        s1.onlyStream t i.core i.strm) ∧
      ((k.stream (otherStrm i.strm)).atSluice = some (n, ck) → n = (s1.basin b).seg.cur →
        (∃ g, (s1.basin b).segRec = some g ∧ g.ck = ck) → (∀ q, k.queue q = {}) → (s1.basin b).short = false →
        (t.basin b).sluice = some (match (s1.basin b).sluice with
          | some q => { q with arrived := q.arrived ++ [i.core] }
          | none => { n := n, ck := ck, arrived := [i.core] }) ∧
        (∀ c, c ≠ i.core → t.core c = s1.core c) ∧ s1.sameBytes t)) ∧
  (∀ (s : State) (c : Nat) (q : Sluice), (s.basin (s.basinAt c)).sluice = some q →
    (s.basin (s.basinAt c)).phase = .running → (s.core c).streamPipe = [] → (s.core c).drainPipe = [] →
    (s.core c).vecPipe = [] → (s.core c).barges = [] → q.arrived.contains c = true → q.tokens.contains c = false →
    ∃ t, exec (.sluiceReady c) s = .next t ∧
      (t.basin (s.basinAt c)).sluice = some { q with
        tokens := q.tokens ++ [c], stamps := SMap.set 0 q.stamps c (s.latTime c), tLast := max q.tLast (s.latTime c) } ∧
      (∀ b, b ≠ s.basinAt c → t.basin b = s.basin b) ∧ t.cores = s.cores)

/-- 07 R216, R230 to R232; 04 R113; 02 R46, R51: a sluice that every token and wave has reached and that nothing else holds up completes:
its segment's successor begins at the next multiple of 16 lc from T_last + T − 4, and at a checkpoint sluice CKPT_SEQ rises and
BSN_RESTARTS returns to 0; where neither a checkpoint nor a page move, a collective or a closing step joins it, no other state
changes but the streams that wait there. A segment starts at its time, or, where that has passed, at the next multiple of 16 lc; and OVERTIME
starts once its frames have passed while a lane still owes. -/
def Obligations.SluicesComplete : Prop :=
  (∀ (s : State) (b : Nat) (q : Sluice) (g : SegRec), (s.basin b).sluice = some q → (s.basin b).segRec = some g →
    (s.basin b).phase = .running → s.sluiceDone b q = true → ((s.basin b).closes q.n = true → s.passActive b = false) →
    ∃ t, exec (.sluiceComplete b) s = .next t ∧ (t.basin b).sluice = none ∧
      (t.basin b).seg.cur = g.next ∧ (t.basin b).seg.started = false ∧
      (t.basin b).seg.start % 16 = 0 ∧ q.tLast + (s.basin b).desc.sluiceBound - 4 ≤ (t.basin b).seg.start ∧
      (t.basin b).seg.start < q.tLast + (s.basin b).desc.sluiceBound - 4 + 16 ∧
      (q.ck = true → (t.basin b).ckptSeq = ((s.basin b).ckptSeq + 1) % 2 ^ 32 ∧ (t.basin b).restarts = 0) ∧
      ((s.basin b).validLayers = [] → q.ck = false → (s.basin b).collTable = [] → (s.basin b).blocks = [] →
        (s.basin b).pushing = [] →
        (t.basin b).phase = .running ∧ (∀ b', b' ≠ b → t.basin b' = s.basin b') ∧ s.sameBytes t ∧
        (∀ c, c ∉ s.liveCores b → t.core c = s.core c) ∧
        ∀ c ∈ s.liveCores b, ∀ st n ck fe flg, ((s.core c).stream st).wait = .sluice n ck fe flg →
          ((t.core c).stream st).wait = .none ∧ (fe = true → flg < 32 → (t.core c).flags.getLsbD flg = true))) ∧
  (∀ (s : State) (b : Nat), (s.basin b).phase = .running → (s.basin b).testPause = false → (s.basin b).seg.started = false →
    (s.basin b).segRec.isSome = true →
    ∃ t, exec (.segmentStart b) s = .next t ∧ (t.basin b).seg.started = true ∧ (t.basin b).seg.cur = (s.basin b).seg.cur ∧
      (s.time0 ≤ (s.basin b).seg.start → (t.basin b).seg.start = (s.basin b).seg.start) ∧
      ((s.basin b).seg.start < s.time0 → (t.basin b).seg.start % 16 = 0 ∧ s.time0 ≤ (t.basin b).seg.start ∧
        (t.basin b).seg.start < s.time0 + 16) ∧
      (s.time1 ≤ (s.basin b).seg.start1 → (t.basin b).seg.start1 = (s.basin b).seg.start1) ∧
      ((s.basin b).seg.start1 < s.time1 → (t.basin b).seg.start1 % 16 = 0 ∧ s.time1 ≤ (t.basin b).seg.start1 ∧
        (t.basin b).seg.start1 < s.time1 + 16) ∧
      (∀ b', b' ≠ b → t.basin b' = s.basin b') ∧ t.cores = s.cores) ∧
  (∀ (s : State) (b : Nat) (g : SegRec), (s.basin b).segRec = some g → (s.basin b).phase ≠ .free →
    (s.basin b).seg.started = true → (s.basin b).seg.overtime = false →
    (s.basin b).segStart + g.nframes * g.frame ≤ s.basinTime b → s.owing b ≠ [] →
    ∃ t, exec (.overtimeStart b) s = .next t ∧ (t.basin b).seg = { (s.basin b).seg with overtime := true } ∧
      (∀ b', b' ≠ b → t.basin b' = s.basin b') ∧ t.cores = s.cores)

/-- 02 R50, R55; 03 R85, R86; 07 R217: the sluice timeout halts every core with WATCHDOG, STREAM = 0b11, and records those
that gave no token; mutual wait halts a core with the code of its waiting stream or of both; an owing lane at the end of OVERTIME
restarts the basin with SLOT_OVERRUN. -/
def Obligations.RunHalts : Prop :=
  (∀ (s : State) (b : Nat) (q : Sluice), (s.basin b).sluice = some q → (s.basin b).phase = .running →
    ((s.basin b).closes q.n = true → s.sluiceDone b q = true → s.passActive b = false) →
    ∃ t, exec (.sluiceTimeout b) s = .next t ∧
      (∀ c ∈ s.liveCores b, (s.core c).hrec.latched = false →
        (t.core c).hrec =
          { latched := true, aPc := (s.core c).a.pc, xPc := (s.core c).x.pc, stream := 3, cause := 0x10 }) ∧
      ((s.basin b).fencePending = [] → (t.basin b).lastCause = 0x10) ∧ (t.basin b).event.getLsbD 0 = true ∧ (t.basin b).event.getLsbD 2 = true ∧
      (t.basin b).sluiceBlocked = blockedMap (s.basin b).desc ((s.liveCores b).filter fun c => !q.tokens.contains c)) ∧
  (∀ (s : State) (c b : Nat), s.basinOf c = some b → (s.core c).hrec.latched = false →
    let k := s.core c
    let ba := s.active c .a && s.blocked b c .a
    let bx := s.active c .x && s.blocked b c .x
    ∃ t, exec (.mutualWait c) s = .next t ∧
      (∀ n, ba = true ∧ bx = true ∧ n = 2 ∨ ba = true ∧ bx = false ∧ k.x.halted = true ∧ n = 0 ∨
          ba = false ∧ bx = true ∧ k.a.halted = true ∧ n = 1 →
        (t.core c).hrec = { latched := true, aPc := k.a.pc, xPc := k.x.pc, aWait := waitCode k k.a, xWait := waitCode k k.x,
                            stream := n, cause := 0x07 }) ∧
      (ba = false → bx = false → t = s)) ∧
  (∀ (s : State) (b l c : Nat) (cs : List Nat) (m : Image) (g : SegRec), (s.basin b).segRec = some g →
    (s.basin b).img = some m → (s.basin b).phase = .running → (s.basin b).seg.overtime = true →
    (s.basin b).segStart + (g.nframes + g.overtime) * g.frame ≤ s.basinTime b → s.owing b = [l] →
    (sourceCores m g l).filter (fun d => !(s.core d).fenced) = c :: cs → s.basinOf c = some b →
    (s.basin b).restarts < (s.basin b).restartLimit → (s.core c).hrec.latched = false →
    ∃ t, exec (.slotOverrun b) s = .next t ∧ (t.basin b).phase = .restarting ∧ (t.basin b).lastCause = 0x0B ∧
      (t.core c).hrec = { latched := true, aPc := (s.core c).a.pc, xPc := (s.core c).x.pc, detail := 1, stream := 0, cause := 0x0B })

/-- 02 R50, R51; 03 R71; 04 R113, R114: a restart that nothing changes the place of runs the basin from its last checkpoint sluice:
every core takes its record's addresses, registers, tags, flags, seed and CORE_XSTAT, with empty queues and pipelines.
That a basin at rest stands at its checkpoint sluice is the model's choice (log 22). -/
def Obligations.RestartRestores : Prop :=
  ∀ (s : State) (b : Nat), (s.basin b).phase = .restarting → s.inFlight b = false →
    (s.basin b).heldLost = false → (s.basin b).fencePending = [] →
    (s.basin b).pendingRebind = none → s.anyDue b = false →
    let p := (s.basin b).back
    ∃ t, exec (.restartResume b) s = .next t ∧ (t.basin b).phase = .running ∧ (t.basin b).seg.cur = p.next ∧
      (t.basin b).restarts = min 255 ((s.basin b).restarts + 1) ∧ (t.basin b).train = p.train ∧ (t.basin b).sluice = none ∧
      (t.basin b).event.getLsbD 1 = true ∧
      ∀ c ∈ s.liveCores b, ∀ r, SMap.get none (p.recs.map fun e => (e.1, some e.2)) ((s.basin b).desc.coreIndex c) = some r →
        (t.core c).a.pc = r.aPc ∧ (t.core c).x.pc = r.xPc ∧ (t.core c).a.regs = r.aRegs ∧ (t.core c).x.regs = r.xRegs ∧
        (t.core c).a.tags = r.aTags ∧ (t.core c).x.tags = r.xTags ∧ (t.core c).flags = r.flags ∧ (t.core c).seed = r.seed ∧
        (t.core c).xstat = r.xstat ∧ (t.core c).queues = [] ∧ (t.core c).streamPipe = [] ∧ (t.core c).barges = [] ∧
        (t.core c).a.stopped = false ∧ (t.core c).x.stopped = false ∧
        (t.core c).ckseq = (s.basin b).ckptSeq ∧ (t.core c).lscale = p.lscale ∧ (t.core c).verdict = p.verdict ∧ (t.core c).step = p.step

/-- 07 R204, R233, R235; 13 R380: a cycle of the lattice advances the lattice time of each die that runs in it: of both where they run
at one step and agree modulo 16, of die 0 where they do not agree, and at two steps of the faster die at least. It changes no core and
no basin where nothing is bound and nothing moves; nothing at all happens while the clocks stand. -/
def Obligations.LatticeTime : Prop :=
  ∀ (s : State) (env : SlotEnv),
    (s.power.clocksStopped = true → exec (.latticeSlot env) s = .next s) ∧
    (s.power.clocksStopped = false →
      let u := s.releaseStep
      ∃ t, exec (.latticeSlot env) s = .next t ∧
        t.time0 = (if u.pace.1 then (s.time0 + 1) % 2 ^ 64 else s.time0) ∧
        t.time1 = (if u.pace.2.1 then (s.time1 + 1) % 2 ^ 64 else s.time1) ∧
        (u.power.step0 = u.power.step1 → s.time0 % 16 = s.time1 % 16 →
          t.time0 = (s.time0 + 1) % 2 ^ 64 ∧ t.time1 = (s.time1 + 1) % 2 ^ 64) ∧
        (u.power.step0 = u.power.step1 → s.time0 % 16 ≠ s.time1 % 16 →
          t.time0 = (s.time0 + 1) % 2 ^ 64 ∧ t.time1 = s.time1) ∧
        (u.power.step0 < u.power.step1 → t.time0 = (s.time0 + 1) % 2 ^ 64) ∧
        (u.power.step1 < u.power.step0 → t.time1 = (s.time1 + 1) % 2 ^ 64) ∧
        (s.basins = [] → s.transit = [] → s.seamTaken = [] → s.links = [] → env = {} →
          t.cores = s.cores ∧ t.basins = s.basins))

/-! ### Memory ports, stacks, tiers and Whetstone engines (families MEMP, STACK, TIER and WHETSTONE) -/

/-- 07 R219, R220; 09 R264, R269; 11 R337: a unit takes its next request, holds a merged tile until its time ends, answers a read with
the bytes that memory, or its queue, holds in stream order, and grants a write whose pages are ready and for which its buffer, its Weir
and its queue have room: a memory PUT's bytes stand in memory at its rows and nowhere else. -/
def Obligations.MemoryPorts : Prop :=
  (∀ (s : State) (u : Nat) (r : PortReq) (g : Barge), s.power.clocksStopped = false →
    (s.unitReqs u).find? (fun q => !q.taken && !s.power.clocksStopped) = some r → s.barge r.core r.barge = some g →
    (r.write = true ∨ u = 12 ∨ (s.basin r.basin).membersOf r.lane = 1 ∨
      (s.unitReqs u).Nodup ∧ u < 12 ∧ (s.asked u r).length + 1 < (s.basin r.basin).membersOf r.lane ∧
        (s.asked u r = [] → (s.port u).mergeFull = false)) →
    ∃ t, exec (.mempRequest u) s = .next t ∧
      t.unitReqs u = (s.unitReqs u).map (fun q => if q = r then { q with taken := true } else q) ∧ t.cores = s.cores ∧
      ∀ b a, t.memByte b a = s.memByte b a) ∧
  (∀ (s : State) (n i : Nat) (m : MergeTile), (s.port n).merge[i]? = some m → m.sending = false →
    m.ends ≤ (if n < 6 then s.time0 else s.time1) →
    ∃ t, exec (.mergeWindowExpiry n i) s = .next t ∧ t.port n = { s.port n with merge := (s.port n).merge.eraseIdx i } ∧
      { t with ports := s.ports } = s ∧ ∀ n', n' ≠ n → t.port n' = s.port n') ∧
  (∀ (s : State) (u : Nat) (r : PortReq) (g : Barge), u < 12 → s.power.clocksStopped = false → s.nextReturn u = some (r, g) →
    (s.basin r.basin).hasExt u r.lane = true → r.readied = 0 → s.readable r.basin g (sliceRows g.memRowsOf 0 g.size) = g.size →
    (s.port u).accepts g.size = g.size →
    ∃ t, exec (.mempReadData u {}) s = .next t ∧
      t.extQ = s.extQ ++ (dataFlits r.basin r.lane 0 g.flits ((s.basin r.basin).readParts (sliceRows g.memRowsOf 0 g.size) [])).map
        (fun f => { key := u, flit := f }) ∧
      (∀ q ∈ (t.port u).reqs, q.same r = false) ∧ t.cores = s.cores ∧ ∀ b a, t.memByte b a = s.memByte b a) ∧
  (∀ (s : State) (r : PortReq) (g : Barge) (env : ReadEnv), s.power.clocksStopped = false → s.nextReturn 12 = some (r, g) →
    g.size / 64 ≤ (s.queue r.basin g.queue).items.length →
    ∃ t, exec (.mempReadData 12 env) s = .next t ∧ (∀ q ∈ t.stageReqs, q.same r = false) ∧ t.cores = s.cores ∧
      ∀ b a, t.memByte b a = s.memByte b a) ∧
  (∀ (s s2 : State) (u : Nat) (env : ReadEnv) (r : PortReq) (g : Barge), u < 12 → s.power.clocksStopped = false →
    (s.unitReqs u).find? (fun q => q.taken && q.write && !q.granted && !s.power.clocksStopped) = some r →
    s.barge r.core r.barge = some g → (s.port u).stalled = false → (s.port u).wbuf + g.size ≤ 0x40000 →
    g.size ≤ (s.port u).accepts g.size → s.prepPages r.basin g.pages = (s2, .ready) → s2.writeBlocked u r.basin g = false →
    ∃ t, exec (.mempWriteGrant ⟨u, env⟩) s = .next t ∧
      (∀ a, (∀ p ∈ g.memRowsOf, a < p.1 ∨ p.1 + p.2 ≤ a) → t.memByte r.basin a = s.memByte r.basin a) ∧
      (∀ ba n, g.memRowsOf = [(ba, n)] → (g.sourceBytes (s.core r.core)).length = n →
        ∀ j, j < n → some (t.memByte r.basin (ba + j)) = ((g.sourceBytes (s.core r.core))[j]?).map (·.1)) ∧
      (∀ b a, b ≠ r.basin → t.memByte b a = s.memByte b a) ∧ (∀ c a, t.spByte c a = s.spByte c a) ∧
      (t.barge r.core r.barge).map Barge.written = some true) ∧
  (∀ (s : State) (env : ReadEnv) (r : PortReq) (g : Barge), s.power.clocksStopped = false →
    s.stageReqs.find? (fun q => q.taken && q.write && !q.granted && !s.power.clocksStopped) = some r →
    s.barge r.core r.barge = some g → s.reserved r.basin g.queue + g.size / 64 ≤ (s.queue r.basin (16 + g.queue)).room →
    ∃ t, exec (.mempWriteGrant ⟨12, env⟩) s = .next t ∧
      t.stageReqs = s.stageReqs.map (fun q => if q = r then { q with granted := true } else q) ∧ t.cores = s.cores ∧ t.basins = s.basins)

/-- 09 R265, R271, R272, R273: the states of a stack. The first two errors of a written block are counted, and the block is sent again; the third
starts a retraining; a retraining holds the earlier state and gives it back, or ends in FAILED after its time; RETIRE drains a stack in service
where the others can hold what is guaranteed, refuses otherwise, and a drained stack with no named port is switched off with its
Whetstone engine. What the end of such a state lets go on follows (nextRetrain, advanceTier, wake). -/
def Obligations.StackStates : Prop :=
  (∀ (s : State) (n block : Nat), n < 12 → stackOf (block / 32768) = n → (s.port n).gone = false → (s.port n).st ≠ .retraining →
    (SMap.get 0 (s.port n).wfail block < 2 → ((s.port n).crcTimes.filter fun t => decide (s.usec < t + 1000)).length < 64 →
      ∃ t, exec (.hbmWriteCrcFail ⟨n, block⟩) s = .next t ∧
        SMap.get 0 (t.port n).wfail block = SMap.get 0 (s.port n).wfail block + 1 ∧
        (t.port n).crcRetry = min (2 ^ 16 - 1) ((s.port n).crcRetry + 1) ∧ (t.port n).st = (s.port n).st ∧
        (∀ n', n' ≠ n → t.port n' = s.port n') ∧ t.basins = s.basins) ∧
    (SMap.get 0 (s.port n).wfail block = 2 → s.tier.retrainWait = [] →
      (∀ i, i < 6 → (s.port (n / 6 * 6 + i)).st ≠ .retraining) →
      ∃ t, exec (.hbmWriteCrcFail ⟨n, block⟩) s = .next t ∧ (t.port n).st = .retraining ∧ (t.port n).before = (s.port n).st ∧
        SMap.get 0 (t.port n).wfail block = 3 ∧ (∀ n', n' ≠ n → t.port n' = s.port n') ∧ t.basins = s.basins)) ∧
  (∀ (s : State) (n : Nat), n < 12 → (s.port n).gone = false → (s.port n).st ≠ .retraining →
    s.tier.retrainWait = [] → (∀ i, i < 6 → (s.port (n / 6 * 6 + i)).st ≠ .retraining) →
    (s.hostReaches = true → s.tier.ctrlBusy = false →
      ∃ t, exec (.stackRetrain ⟨n, false⟩) s = .next t ∧ (t.port n).st = .retraining ∧ (t.port n).before = (s.port n).st ∧
        (t.port n).retrains = min (2 ^ 16 - 1) ((s.port n).retrains + 1) ∧ t.tier.ctrlBusy = true ∧ t.tier.ctrlStack = n ∧
        (∀ n', n' ≠ n → t.port n' = s.port n')) ∧
    ∃ t, exec (.stackRetrain ⟨n, true⟩) s = .next t ∧ (t.port n).st = .retraining ∧ (t.port n).before = (s.port n).st ∧
      t.tier = s.tier ∧ (∀ n', n' ≠ n → t.port n' = s.port n')) ∧
  (∀ (s : State) (n : Nat), s.hostReaches = true → s.tier.ctrlBusy = true →
    ∃ t, exec (.stackRetrain ⟨n, false⟩) s = .next t ∧ t.tier.ctrlResult = 1 ∧ t.ports = s.ports) ∧
  (∀ (s : State) (n : Nat), (s.port n).st = .retraining →
    ((s.port n).crcTimes.filter fun t => decide (s.usec < t + 1000)).length +
      ((s.port n).wfail.filter fun e => decide (e.2 = 3) || decide (e.2 = 4)).length ≤ 64 →
    ∃ t : State, exec (.stackRetrainDone n) s = .next ((t.nextRetrain n).advanceTier.wake) ∧ (t.port n).st = (s.port n).before ∧
      ((s.port n).before ≠ .draining → (s.port n).busyHere = true → t.tier.ctrlBusy = false ∧ t.tier.ctrlResult = 0) ∧
      t.basins = s.basins ∧ ∀ n', n' ≠ n → t.port n' = s.port n') ∧
  (∀ (s : State) (n : Nat), (s.port n).st = .retraining →
    ∃ t : State, exec (.stackRetrainTimeout n) s = .next ((t.nextRetrain n).advanceTier.wake) ∧ (t.port n).st = .failed ∧
      ((s.port n).busyHere = true → t.tier.ctrlBusy = false ∧ t.tier.ctrlResult = 4) ∧
      ∃ r rs, t.rel.log = r :: rs ∧ r.event = 0x11 ∧ r.kind = 5 ∧ r.index = n) ∧
  (∀ (s : State) (n : Nat), n < 12 → s.hostReaches = true → (s.port n).st = .inService → s.tier.ctrlBusy = false →
    (s.guarantees ≤ s.capacityWithout n →
      ∃ t : State, exec (.stackRetire n) s = .next t.advanceTier ∧ (t.port n).st = .draining ∧ t.tier.ctrlBusy = true ∧ t.basins = s.basins) ∧
    (s.capacityWithout n < s.guarantees → ∃ t, exec (.stackRetire n) s = .next t ∧ t.tier.ctrlResult = 2 ∧ t.ports = s.ports)) ∧
  (∀ (s : State) (n : Nat), (s.port n).st = .draining → (∀ f ∈ s.usedFrames, stackOf f ≠ n) →
    ∃ t, exec (.stackDrained n) s = .next t ∧ (t.port n).st = .drained ∧
      ((s.port n).busyHere = true → t.tier.ctrlBusy = false ∧ t.tier.ctrlResult = 0) ∧ t.basins = s.basins) ∧
  (∀ (s : State) (n : Nat), (s.port n).st = .drained → s.portNamed n = false → n < 12 →
    ∃ t, exec (.stackRetired n) s = .next t ∧ (t.port n).st = .retired ∧ t.power.mempOn.getLsbD n = false ∧
      ((s.engine n).st = .active → (t.engine n).st = .off) ∧ ∀ n', n' ≠ n → t.port n' = s.port n')

/-- 09 R265 to R270: a reading sets its stack's temperature and Weir level: level 4 for a sensor that has failed or a reading at its
threshold, which sets the thermal latch, and below level 4 the accesses that waited go on; and the scrubber's corrections in a page's
frame, or in one of a receive log or a towpath ring, are counted without a byte changing. -/
def Obligations.WeirAndScrub : Prop :=
  (∀ (s : State) (n temp : Nat), n < 12 → (s.port n).st ≠ .retired → (s.port n).level ≤ 4 →
    let th := fun i => bits s.tier.weirTh.toNat (8 * i - 1) (8 * i - 8)
    ∃ t : State, exec (.weirReading n temp) s = .next (if (t.port n).level = 4 then t else t.wake) ∧ (t.port n).temp = temp ∧
      (temp = 0xFF → (t.port n).level = 4) ∧ (th 1 ≤ temp → th 2 ≤ temp → th 3 ≤ temp → th 4 ≤ temp → (t.port n).level = 4) ∧
      (temp ≠ 0xFF → (s.port n).level = 0 → temp < th 1 → temp < th 2 → temp < th 3 → temp < th 4 → (t.port n).level = 0) ∧
      (temp ≠ 0xFF → (s.port n).level = 1 → temp < th 1 → temp < th 2 → temp < th 3 → temp < th 4 →
        (t.port n).level = if th 1 ≤ temp + 3 then 1 else 0) ∧
      ((t.port n).level = 4 → t.power.thermalLatch = true) ∧ (∀ n', n' ≠ n → t.port n' = s.port n') ∧ t.cores = s.cores) ∧
  (∀ (s : State) (f : Nat) (cs : List Nat), stackOf f < 12 → (s.port (stackOf f)).stalled = false →
    s.power.clocksStopped = false → (s.port (stackOf f)).corr < 2 ^ 16 →
    ((∃ e, s.frameOwner f = some e ∧ (s.basin e.1).frameBlocks e.2 f ≠ [] ∧
        ∀ i ∈ cs, i < ((s.basin e.1).frameBlocks e.2 f).length) ∨ s.frameOwner f = none ∧ (s.rawOwner f).isSome = true) →
    ∃ t, exec (.patrolScrub f [] cs []) s = .next t ∧
      (t.port (stackOf f)).corr = min (2 ^ 16 - 1) ((s.port (stackOf f)).corr + cs.length) ∧
      t.basins = s.basins ∧ t.cores = s.cores ∧ ∀ n, n ≠ stackOf f → t.port n = s.port n)

/-- 09 R274, R277, R279, R280, R283, R481: a move switches its page's tiles one after another, and ends after the last, without a byte
changing; an eviction begins while the free frames lie below those owed; a displaced page moves home, and an access that waited for a
frame takes it or starts the return of its page. The accesses that waited then go on (wake).
Which free frame is taken is the model's choice, the lowest (log 10). -/
def Obligations.PageMoves : Prop :=
  (∀ (s : State) (i : Nat) (m : Move), s.tier.moves[i]? = some m → i < 8 → m.raw = false → s.power.clocksStopped = false →
    let g := (s.basin m.basin).page m.page
    g.asked = false → g.moveStacks.any (fun n => (s.port n).paused) = false →
    let next := nextTile g (decide (m.cause = .commit)) pageTiles (g.moved + 1)
    ∃ t : State, (next < pageTiles → exec (.tileCopyDone i {}) s = .next ((t.askMove m.basin m.page).wake)) ∧
      (pageTiles ≤ next → exec (.tileCopyDone i {}) s = .next ((t.endMove i m).wake)) ∧
      (t.basin m.basin).page m.page = { g with moved := next, got := false } ∧
      t.tier.moves = s.tier.moves ∧ t.cores = s.cores ∧ ∀ b a, t.memByte b a = s.memByte b a) ∧
  (∀ (s : State) (v : Nat × Nat) (h : Nat), s.freeFrames < s.owed → s.mgmt.gap = false →
    s.tier.moves.any (fun m => decide (m.cause = .eviction)) = false →
    s.victim (fun _ w => decide (w.desc.guarantee < w.held)) = some v → s.hostFree = some h →
    (((s.basin v.1).page v.2).hasMap = true ∨ s.mapsUsed < 32768) →
    ∃ t, exec .reclaim s = .next t ∧
      t.tier.moves = s.tier.moves ++ [{ basin := v.1, page := v.2, cause := .eviction }] ∧
      ((t.basin v.1).page v.2).toHost = some h ∧ ((t.basin v.1).page v.2).moved = 0 ∧
      (∀ b a, t.memByte b a = s.memByte b a) ∧ t.cores = s.cores) ∧
  (∀ (s : State) (b p f : Nat), ((s.basin b).page p).st = .hbm → s.displaced b p = true →
    s.freeOn (s.homes (s.basin b) p).2 ≠ 0 → s.laterDisplaced b p = false → s.supply b p = .frame f →
    (((s.basin b).page p).hasMap = true ∨ s.mapsUsed < 32768) →
    ∃ t, exec (.homingMove b p) s = .next t ∧
      t.tier.moves = s.tier.moves ++ [{ basin := b, page := p, cause := .homing }] ∧
      ((t.basin b).page p).toFrame = some (s.frameOn (s.homes (s.basin b) p).2) ∧
      ∀ b a, t.memByte b a = s.memByte b a) ∧
  (∀ (s : State) (b p f : Nat), s.supply b p = .frame f → (((s.basin b).page p).hasMap = true ∨ s.mapsUsed < 32768) →
    (((s.basin b).page p).want = .ret →
      ∃ t : State, exec (.frameWaitDone b p) s = .next t.wake ∧
        t.tier.moves = s.tier.moves ++ [{ basin := b, page := p, cause := .ret }] ∧
        ((t.basin b).page p).toFrame = some f ∧ ((t.basin b).page p).want = .none ∧
        ∀ b a, t.memByte b a = s.memByte b a) ∧
    (((s.basin b).page p).want = .frame → (s.basin b).storeFull p = false →
      ((s.basin b).protected p && (s.basin b).inInterval) = false → ((s.basin b).page p).frame = none →
      ((s.basin b).page p).hostFrame = none → ((s.basin b).page p).toFrame = none →
      ∃ t : State, exec (.frameWaitDone b p) s = .next t.wake ∧ ((t.basin b).page p).frame = some f ∧
        ((t.basin b).page p).want = .none ∧ ∀ b a, t.memByte b a = s.memByte b a))

/-- 09 R287, R288; 08 R253: the host's data lets the barge or the engine that asked go on, the lines that it poisons are poison; an error
and a time-out are counted, the read of the barge that asked has FAILED, with CAUSE 1 or 2, and the page takes an HBM frame where one is
supplied, the lines that the host no longer returns being poison. The accesses that waited then go on (advanceTier, wake). -/
def Obligations.HostTierRequests : Prop :=
  (∀ (s : State) (b p : Nat) (who : TierWho), s.hostAsked b p who = true → s.hostReaches = true →
    let done := fun (t : State) => t.sameBytes s ∧
      (who = .engine → t.cores = s.cores ∧ (t.basin b).page p = { (s.basin b).page p with asked := false, got := true }) ∧
      (∀ c id g, who = .barge c id → s.barge c id = some g →
        t.barge c id = some { g with hostAsks := g.hostAsks.filter (fun q => decide (q ≠ p)), hostOk := g.hostOk ++ [p] } ∧
          (t.basin b).page p = (s.basin b).page p)
    (∃ t : State, exec (.hostTierResponse b ⟨p, who⟩ .data) s = .next t.wake ∧ done t ∧ (t.basin b).memPoison = (s.basin b).memPoison) ∧
    (∀ ls : List Nat, ∃ t : State, exec (.hostTierResponse b ⟨p, who⟩ (.poisoned ls)) s = .next t.wake ∧ done t ∧
      ∀ i ∈ ls, SMap.get false (t.basin b).memPoison (p * 32768 + i % 32768) = true)) ∧
  (∀ (s : State) (b p f : Nat) (lost : List Nat), s.hostAsked b p .engine = true →
    ((s.basin b).page p).fresh = none → ((s.basin b).page p).toFrame = none → ((s.basin b).page p).toHost = none →
    ((s.basin b).page p).hostFrame.isSome = true →
    let s1 := ((s.count .tier 0 7 1).updBasin b fun v =>
      v.poison (pageLines p (lost.filter fun i => (s.basin b).blockOnHost (p * 32768 + i % 32768)))).updPage b p
        fun g => { g with asked := false }
    s1.supply b p = .frame f →
    ∃ t : State, exec (.hostTierTimeout b ⟨p, .engine⟩ lost) s = .next t.advanceTier.wake ∧
      (s.hostReaches = true → exec (.hostTierResponse b ⟨p, .engine⟩ (.error lost)) s = .next t.advanceTier.wake) ∧
      (t.basin b).page p = { (s.basin b).page p with asked := false, frame := some f, hostFrame := none, want := .none } ∧
      (∀ i ∈ lost, (s.basin b).blockOnHost (p * 32768 + i % 32768) = true →
        SMap.get false (t.basin b).memPoison (p * 32768 + i % 32768) = true) ∧
      t.counter .tier 0 7 = (s.counter .tier 0 7 + 1) % 2 ^ 64) ∧
  (∀ (s : State) (b p c id u : Nat) (g : Barge) (r : PortReq) (lost : List Nat), s.hostAsked b p (.barge c id) = true →
    s.barge c id = some g → g.kind = .brg → s.readOf c id = some (u, r) →
    (∃ t : State, exec (.hostTierTimeout b ⟨p, (.barge c id)⟩ lost) s = .next ((t.rescuePage b p lost).wake) ∧
      (t.barge c id).map (fun h => (h.failed, h.failCause)) = some (true, 2) ∧
      t.counter .tier 0 7 = (s.counter .tier 0 7 + 1) % 2 ^ 64) ∧
    (s.hostReaches = true →
      ∃ t : State, exec (.hostTierResponse b ⟨p, (.barge c id)⟩ (.error lost)) s = .next ((t.rescuePage b p lost).wake) ∧
        (t.barge c id).map (fun h => (h.failed, h.failCause)) = some (true, 1)))

/-- 10 R294, R299, R311, R312: an engine takes its next chunk; a norm chunk adds its sums to its layer's; a poisoned gradient aborts
the pass; a check that fails and whose repeat fails fences the engine; an update chunk writes its outputs; and once every chunk of a
TRUST layer has given its norms the lead engine forms r and they are spent.
The steps of the FP64 routines are opaque (log 12). -/
def Obligations.WhetstoneChunks : Prop :=
  (∀ (s s2 : State) (n : Nat) (k : Chunk) (fault : Option Upset), s.takes n k s2 →
    let s3 := s2.chunkRead k
    let v := s3.basin k.basin
    (v.gradBad (v.whsLayer k.layer) k = false → k.norm = true →
      ∃ t, exec (.whetstoneChunk n false false ⟨fault, {}⟩) s = .next t ∧
        t.norms = s3.norms ++ [v.chunkNorms (s3.chunkCtx v k) k] ∧
        (t.engine n).queue = (s3.engine n).queue.erase k ∧ (t.engine n).turn = k.basin ∧
        ∀ b a, t.memByte b a = (s.finishPasses n).memByte b a) ∧
    (v.gradBad (v.whsLayer k.layer) k = true → v.restarts < v.restartLimit → v.phase = .running →
      ∃ t, exec (.whetstoneChunk n false false ⟨fault, {}⟩) s = .next t ∧ (t.basin k.basin).phase = .restarting ∧
        (t.basin k.basin).whsAborts = min 255 (v.whsAborts + 1) ∧ (t.basin k.basin).whsAbortCause = 2 ∧
        ∀ b a, t.memByte b a = (s.finishPasses n).memByte b a) ∧
    (∀ s5 p, v.gradBad (v.whsLayer k.layer) k = false → k.norm = false →
      let s4 := s3.openPass k.basin k.layer
      let c := s4.chunkCtx v k
      let o := v.computeChunk c k p
      v.untouched c.r k.chunk = false → s4.pass k.basin k.layer = some p → s4.engineWrite k.basin o.writes = (s5, true) →
      ∃ t : State, exec (.whetstoneChunk n false false ⟨fault, {}⟩) s = .next (t.endChunk k.basin k.layer k.chunk) ∧
        (∀ b a, t.memByte b a = s5.memByte b a) ∧ (t.engine n).queue = (s5.engine n).queue.erase k ∧
        (t.basin k.basin).whsWcSat = min (2 ^ 16 - 1) ((s5.basin k.basin).whsWcSat + o.sat))) ∧
  (∀ (s s2 : State) (n : Nat) (k : Chunk) (fault : Option Upset) (env : ReadEnv), s.takes n k s2 →
    ∃ t, exec (.whetstoneChunk n true true ⟨fault, env⟩) s = .next t ∧ (t.engine n).st = .fenced ∧
      (fault = none → (t.engine n).cause = 1) ∧ ((t.engine n).cause = 1 ∨ (t.engine n).cause = 2) ∧
      (t.engine n).retries = min (2 ^ 16 - 1) ((s2.engine n).retries + 1) ∧ (t.engine n).lastLayer = k.layer) ∧
  (∀ (s : State) (b n : Nat),
    let r := (s.basin b).whsLayer n
    let ns := s.layerNorms b n r.chunks
    r.rule = ruleTrust → r.chunks ≠ 0 → ns.length = r.chunks →
    s.trust.any (fun t => decide (t.1 = b) && decide (t.2.1 = n)) = false →
    ∃ t, exec (.trustNormCombine b n) s = .next t ∧
      t.trust = s.trust ++ [(b, n, BitVec.ofNat 32 (fp32.encode (trustRatio (fp32.decode r.auxF) ns)))] ∧
      (∀ x ∈ t.norms, ¬ (x.basin = b ∧ x.layer = n)) ∧ t.basins = s.basins)

/-! ### Keyed commands and the binder (families KEYED and BIND) -/

/-- 02 R35, R38, R40: a BIND, REBIND or UNBIND that the binder accepts moves its basin to BINDING or UNBINDING, with the command
BUSY; a re-bind of a RUNNING or RESTARTING basin is PENDING; and every accepted command consumes its counter. -/
def Obligations.BinderAccepts : Prop :=
  (∀ (s : State) (k : KBlock), s.runsKeyed 1 k = true → kZeroFrom k 64 = true →
    (kWord k 0) % 64 = k.basin.toNat → s.bindRefusal k.basin.toNat k false = none →
    ∃ t, exec (.bind k) s = .next t ∧
      t.basin k.basin.toNat = { phase := .binding, newDesc := some (bindDesc k), kcmd := true } ∧
      t.sec.lastCounter = k.counter.toNat ∧ t.sec.busy = true ∧ t.sec.status = 0x02 ∧
      (∀ b, b ≠ k.basin.toNat → t.basin b = s.basin b) ∧ t.cores = s.cores) ∧
  (∀ (s : State) (k : KBlock), s.runsKeyed 2 k = true → kZeroFrom k 64 = true →
    (kWord k 0) % 64 = k.basin.toNat → s.bindRefusal k.basin.toNat k true = none →
    let x := s.basin k.basin.toNat
    ∃ t, exec (.rebind k) s = .next t ∧ t.sec.lastCounter = k.counter.toNat ∧ t.cores = s.cores ∧
      (x.phase = .running ∨ x.phase = .restarting →
        (t.basin k.basin.toNat).pendingRebind = some (bindDesc k) ∧ (t.basin k.basin.toNat).phase = x.phase ∧
        t.sec.status = 0x03 ∧ t.sec.busy = false) ∧
      (x.phase ≠ .running → x.phase ≠ .restarting →
        t.basin k.basin.toNat = { x with phase := .binding, newDesc := some (bindDesc k), kcmd := true } ∧
        t.sec.busy = true)) ∧
  (∀ (s : State) (k : KBlock), s.runsKeyed 3 k = true → kZeroFrom k 0 = true → (s.basin k.basin.toNat).phase ≠ .free →
    ∃ t, exec (.unbind k) s = .next t ∧ (t.basin k.basin.toNat).phase = .unbinding ∧
      (t.basin k.basin.toNat).kcmd = true ∧ (t.basin k.basin.toNat).pendingRebind = none ∧ t.sec.busy = true ∧
      t.sec.lastCounter = k.counter.toNat ∧
      ∀ c ∈ s.liveCores k.basin.toNat, (t.core c).a.stopped = true ∧ (t.core c).x.stopped = true) ∧
  (∀ (s : State) (b : Nat), s.link.up = true → s.link.insecure = false → s.mgmt.phase ≠ .recovery →
    (s.basin b).phase = .running →
    ∃ t, exec (.parkReq b) s = .next t ∧ t.basin b = { s.basin b with parkReq := true } ∧
      (∀ b', b' ≠ b → t.basin b' = s.basin b') ∧ t.cores = s.cores)

/-- 02 R35, R36, R38; 13 R370; 15 R430: the binder's completion leaves a bound basin IDLE with its descriptor, its cores zeroed and
its clusters' domains on, a re-bound one PARKED, or IDLE on another rectangle, with its memory, and an unbound one FREE with nothing left of
it; the keyed command that it carried out reads DONE.
Which frames are held in reserve, and what waits for a sluice, are the model's choices (log 10, 29). -/
def Obligations.BinderCompletes : Prop :=
  (∀ (s : State) (b : Nat) (d : Desc), (s.basin b).phase = .binding → (s.basin b).newDesc = some d →
    (s.basin b).desc.width = 0 →
    ∃ t, exec (.binderCompletion b) s = .next t ∧ (t.basin b).phase = .idle ∧ (t.basin b).desc = d ∧
      (t.basin b).newDesc = none ∧ (t.basin b).mem = [] ∧ (t.basin b).img = none ∧ (t.basin b).kcmd = false ∧
      (∀ c ∈ d.cores, t.core c = { fenced := (s.core c).fenced }) ∧
      (∀ n ∈ d.clusters, n < 64 → t.power.clusterOn.getLsbD n = true) ∧
      ((s.basin b).kcmd = true → t.sec.status = 0x01 ∧ t.sec.busy = false)) ∧
  (∀ (s : State) (b : Nat) (d : Desc), (s.basin b).phase = .binding → (s.basin b).newDesc = some d →
    (s.basin b).desc.width ≠ 0 → (s.basin b).fencePending = [] → (s.basin b).pendingRebind = none →
    ∃ t, exec (.binderCompletion b) s = .next t ∧ (t.basin b).desc = d ∧ (t.basin b).newDesc = none ∧
      (t.basin b).phase = (if (s.basin b).desc.sameRect d then .parked else .idle) ∧ (t.basin b).kcmd = false ∧
      ((s.basin b).kcmd = false → (t.basin b).event.getLsbD 4 = true) ∧
      ((s.basin b).kcmd = true → t.sec.status = 0x01 ∧ t.sec.busy = false) ∧ ∀ a, t.memByte b a = s.memByte b a) ∧
  (∀ (s : State) (b : Nat), (s.basin b).phase = .unbinding → SMap.wf {} s.basins = true →
    ∃ t, exec (.binderCompletion b) s = .next t ∧ t.basin b = {} ∧
      (∀ c ∈ (s.basin b).desc.cores, (t.core c).sp = [] ∧ (t.core c).a.regs = [] ∧ (t.core c).x.regs = []) ∧
      (∀ m ∈ t.tier.moves, m.basin ≠ b) ∧ ((s.basin b).kcmd = true → t.sec.status = 0x01 ∧ t.sec.busy = false))

/-- 14 R404, R405, R407; 15 R424, R425, R431: a keyed FENCE of an HBM frame, of a core or router of an unbound cluster or of a Whetstone
engine takes effect at once and reads DONE; FW_ACTIVATE of the verified staged slot begins a management gap in which it is
activated, and of the active slot with COMMIT blows the fuses up to the slot's SVN. -/
def Obligations.FenceAndActivate : Prop :=
  (∀ (s : State) (k : KBlock) (kind i : Nat), s.runsKeyed 4 k = true → kWord k 0 = kind * 2 ^ 20 → kWord k 1 = i →
    kZeroFrom k 16 = true → i < fenceUnits kind →
    ∃ t, exec (.keyedFence k) s = .next t ∧ t.sec.status = 0x01 ∧ t.sec.busy = false ∧
      t.sec.lastCounter = k.counter.toNat ∧
      (kind = 4 → i ∈ (t.port (stackOf i)).fencedFrames) ∧ (kind = 3 → (t.engine i).st = .fenced) ∧
      (kind = 1 → s.basinOf i = none → (t.core i).fenced = true) ∧
      (kind = 2 → s.basinOf i = none → (t.core i).fenced = true ∧ t.routerFenced i = true)) ∧
  (∀ (s : State) (k : KBlock) (slot commit : Bool), s.runsKeyed 5 k = true →
    kWord k 0 = (if slot then 2 ^ 8 else 0) + (if commit then 1 else 0) → kZeroFrom k 8 = true → s.latched = false →
    ∃ t, exec (.fwActivate k) s = .next t ∧ t.sec.lastCounter = k.counter.toNat ∧
      (¬ (commit = true ∧ slot = s.fwu.active) → s.fwu.state = 3 → slot = s.fwu.stageSlot → (s.slot slot).st = .verified →
        s.incompatible slot = false →
        t.mgmt.activating = some (slot, commit) ∧ t.mgmt.gap = true ∧ t.fwu.state = 4 ∧ t.sec.busy = true) ∧
      (commit = true → slot = s.fwu.active →
        t.sec.svn = max s.sec.svn (min 64 (s.slot slot).svn)) ∧
      (commit = true → slot = s.fwu.active → t.sec.status = 0x01 ∧ t.sec.busy = false))

/-- 15 R432, R436: KEY_ROTATE stores an owner key digest or the key that it unwraps, and a new command key restarts the
counter; and DEBUG_UNLOCK with a response that verifies opens its scope and spends the nonce.
Key unwrapping and the checks of a response are presumed of their standards (log 9). -/
def Obligations.KeyCommands : Prop :=
  (∀ (s : State) (k : KBlock), s.runsKeyed 6 k = true →
    ∃ t, exec (.keyRotate k) s = .next t ∧ t.sec.busy = false ∧
      (2 ≤ kWord k 0 → kWord k 0 ≤ 9 → kZeroFrom k 56 = true →
        t.sec.status = 0x01 ∧ SMap.get 0 t.sec.ownerKeys (kWord k 0 - 2) = digestVec (kBytesAt k 8 48) ∧
        t.sec.cmdKey = s.sec.cmdKey ∧ t.sec.lastCounter = k.counter.toNat) ∧
      (∀ v, kWord k 0 = 0 → kZeroFrom k 84 = true → s.unwrap (s.sec.cmdKey.getD 0) k = some v →
        t.sec.status = 0x01 ∧ t.sec.cmdKey = some v ∧ t.sec.lastCounter = 0) ∧
      (∀ v, kWord k 0 = 1 → kZeroFrom k 84 = true → s.unwrap (s.sec.cmdKey.getD 0) k = some v →
        t.sec.status = 0x01 ∧ t.sec.verifier = some v ∧ t.sec.cmdKey = s.sec.cmdKey) ∧
      (9 < kWord k 0 → t.sec.status = 0x13 ∧ t.sec.cmdKey = s.sec.cmdKey ∧ t.sec.verifier = s.sec.verifier)) ∧
  (∀ (s : State) (k : KBlock) (n : BitVec 384) (owner : Bool) (scope : Nat), s.runsKeyed 7 k = true →
    kWord k 0 = scope * 2 ^ 8 + (if owner then 1 else 0) → (scope = 1 ∨ scope = 2 ∧ owner = false) →
    kZeroFrom k (if owner then 56 else 104) = true → s.sec.lockout = false → (scope = 2 → s.anyBound = false) →
    s.sec.nonce = some n →
    ∃ t, exec (.debugUnlock k) s = .next t ∧ t.sec.nonce = none ∧ t.sec.busy = false ∧
      ((if owner then s.ownerOk k n else s.vendorOk k n scope) = true → t.sec.scope = scope ∧ t.sec.status = 0x01) ∧
      ((if owner then s.ownerOk k n else s.vendorOk k n scope) = false →
        t.sec.scope = s.sec.scope ∧ t.sec.status = 0x13 ∧
        t.sec.pwFails = (if owner then min 5 (s.sec.pwFails + 1) else s.sec.pwFails)))

/-- 15 R429, R430: a keyed command whose tag does not verify ends BAD_MAC: it is counted, consumes no counter, and neither a
basin, a core, a key, a slot nor a memory stack changes. One given while another runs is dropped. -/
def Obligations.KeyedRefusals : Prop :=
  ∀ (s : State) (c : Instr) (k : KBlock) (op : Nat), keyedOf c = some (k, op) → s.link.up = true → s.link.insecure = false →
    (s.sec.busy = true →
      exec c s = .next { s with sec := { s.sec with droppedGo := true } }) ∧
    (s.sec.busy = false → s.mgmt.phase = .ready → s.mgmt.gap = false → s.keyedRefusal op k = some 0x10 →
      ∃ t, exec c s = .next t ∧ t.sec.status = 0x10 ∧ t.sec.busy = false ∧
        t.sec.badMac = min (2 ^ 16 - 1) (s.sec.badMac + 1) ∧ t.sec.lastCounter = s.sec.lastCounter ∧
        t.sec.cmdKey = s.sec.cmdKey ∧ t.sec.ownerKeys = s.sec.ownerKeys ∧ t.sec.svn = s.sec.svn ∧
        t.sec.scope = s.sec.scope ∧ t.basins = s.basins ∧ t.cores = s.cores ∧ t.fwu = s.fwu ∧ t.ports = s.ports)

/-- 15 R435: ZEROIZE is refused with BASIN_BOUND while any basin is bound; otherwise it erases K_cmd, V, the owner image key hashes,
every IDE and SPDM session key and the counter log, and touches neither the device's identity, the firmware slots, the health log nor
the fence table. -/
def Obligations.Zeroize : Prop :=
  ∀ (s : State) (k : KBlock), s.runsKeyed 8 k = true → kZeroFrom k 0 = true →
    ∃ t, exec (.zeroize k) s = .next t ∧ t.sec.busy = false ∧
      (s.anyBound = true → t.sec.status = 0x16 ∧ t.sec.cmdKey = s.sec.cmdKey ∧ t.sec.verifier = s.sec.verifier ∧
        t.sec.ownerKeys = s.sec.ownerKeys ∧ t.sec.sessionFn = s.sec.sessionFn ∧ t.link = s.link) ∧
      (s.anyBound = false → t.sec.status = 0x01 ∧ t.sec.cmdKey = none ∧ t.sec.verifier = none ∧ t.sec.ownerKeys = [] ∧
        t.link.ideKeys = false ∧ t.sec.sessionFn = none ∧ t.sec.sessionKeys = 0 ∧ t.sec.lastCounter = 0) ∧
      t.sec.serial = s.sec.serial ∧ t.glbId = s.glbId ∧ t.sec.svn = s.sec.svn ∧ t.fwu = s.fwu ∧ t.rel = s.rel ∧
      t.basins = s.basins ∧ t.cores = s.cores

/-! ### The host interface (families LAUNCH, HOST, LINK and COLL) -/

/-- 11 R326, R329; 13 R386: a write of BSN_LAUNCH makes the operation BUSY; in a management gap it is held, an operation that is
refused ends with its status and changes no core (LAT_LOAD_STATUS tells a loader's fault, and reads 0 for another ground: 07 R236), an
image that passes is loaded into its cores, and a write while BUSY is ignored.
That the command carries the image it names is the model's choice (log 8). -/
def Obligations.LaunchWrites : Prop :=
  ∀ (s : State) (b : Nat) (resume : Bool) (img : Option Image), s.hostReaches = true → (s.basin b).phase ≠ .free →
    let c := if resume then Instr.resume b img else Instr.launch b img
    let s1 := s.updBasin b fun v => { v with launchOp := if resume then 2 else 1, launchStatus := 0x02 }
    ((s.basin b).launchStatus = 0x02 → exec c s = .next s) ∧
    ((s.basin b).launchStatus ≠ 0x02 →
      ∃ t, exec c s = .next t ∧ (t.basin b).phase = (s.basin b).phase ∧ (∀ b', b' ≠ b → t.basin b' = s.basin b') ∧
        (∀ b' a, t.memByte b' a = s.memByte b' a) ∧
        (s.mgmt.gap = true → (t.basin b).launchStatus = 0x02 ∧ t.cores = s.cores ∧
          t.mgmt.held = s.mgmt.held ++ [if resume then .resume b img else .launch b img]) ∧
        (∀ st k, s.mgmt.gap = false → s1.launchRefusal b resume img = some (st, k) →
          (t.basin b).launchStatus = st ∧ t.cores = s.cores ∧ (t.basin b).img = (s.basin b).img ∧
          (t.basin b).latLoad = (match k with | some k => loadStatus k | none => 0)) ∧
        (∀ m, s.mgmt.gap = false → s1.launchRefusal b resume img = none → (s.basin b).loads resume = true → img = some m →
          (t.basin b).launchStatus = 0x02 ∧ (t.basin b).img = some m ∧ (t.basin b).latLoad = 0 ∧
          ∀ c ∈ s.liveCores b, ∀ p, imgCore m ((s.basin b).desc.coreIndex c) = some p →
            (t.core c).base = p.base ∧ (t.core c).size = p.size ∧ (t.core c).ring0 = p.ring0 ∧ (t.core c).ring1 = p.ring1 ∧
            (t.core c).spPoison = [] ∧ (t.core c).a = (s.core c).a ∧ (t.core c).x = (s.core c).x))

/-- 11 R327, R328, R329; 07 R207: LAUNCH_START of a launch for which nothing waits runs the basin: both streams of every core start at
their entries with registers 1 to 8 equal to the launch arguments, and FIRST is the segment; of a resume it runs the basin from
its checkpoint's records, from IDLE, PARKED or HALTED. The status reads STARTED. A core whose queue ring words are invalid halts
before its first instruction with QUEUE_MISUSE, DETAIL = 0x03 and STREAM = 0b11 (03 R77).
That the command carries the image it names, and what a launch waits for, are the model's choices (log 8, 32). -/
def Obligations.LaunchStarts : Prop :=
  ∀ (s : State) (b : Nat) (m : Image), (s.basin b).launchStatus = 0x02 → s.startWaits b = false → (s.basin b).img = some m →
    (∀ b', (s.basin b').logShort = false) →
    ((s.basin b).launchOp = 1 → (s.basin b).phase = .idle → (∀ c ∈ s.liveCores b, (s.core c).ringsBad = false) →
      ∃ t, exec (.launchStart b) s = .next t ∧ (t.basin b).phase = .running ∧ (t.basin b).launchStatus = 0x01 ∧
        (t.basin b).seg.cur = m.schedHeader.toNat % 2 ^ 12 ∧ (t.basin b).seg.started = false ∧ (t.basin b).restarts = 0 ∧
        (t.basin b).ckpt.valid = false ∧ (∀ b' a, t.memByte b' a = s.memByte b' a) ∧
        (∀ c ∈ s.liveCores b, ∀ p, imgCore m ((s.basin b).desc.coreIndex c) = some p →
          (t.core c).a.pc = p.entryA ∧ (t.core c).x.pc = p.entryX ∧ (t.core c).a.stopped = false ∧
          (t.core c).x.stopped = false ∧ (t.core c).flags = 0 ∧ (t.core c).sp = (s.core c).sp ∧
          (∀ n, 1 ≤ n → n ≤ 8 → (t.core c).a.reg n = SMap.get 0 (s.basin b).launchBlock (n + 3) ∧
            (t.core c).x.reg n = SMap.get 0 (s.basin b).launchBlock (n + 3)) ∧
          ∀ n, 8 < n → (t.core c).a.reg n = 0 ∧ (t.core c).x.reg n = 0) ∧
        ∀ n ∈ (s.basin b).desc.clusters, n < 64 → t.power.clusterOn.getLsbD n = true) ∧
    (∀ c p, (s.basin b).launchOp = 1 → (s.basin b).phase = .idle → ((s.liveCores b).filter fun c => (s.core c).ringsBad) = [c] →
      imgCore m ((s.basin b).desc.coreIndex c) = some p → s.basinOf c = some b →
      ∃ t, exec (.launchStart b) s = .next t ∧ (t.basin b).phase ≠ .running ∧
        (t.core c).hrec = { latched := true, aPc := p.entryA, xPc := p.entryX, detail := 0x03, stream := 3, cause := 0x06 }) ∧
    ((s.basin b).launchOp = 2 → (s.basin b).heldLost = false → (s.basin b).phase.accepts true = true →
      (∀ c ∈ s.liveCores b, (s.core c).ringsBad = false) →
      let p := (s.basin b).ckpt
      ∃ t, exec (.launchStart b) s = .next t ∧ (t.basin b).phase = .running ∧ (t.basin b).launchStatus = 0x01 ∧
        (t.basin b).seg.cur = p.next ∧ (t.basin b).restarts = 0 ∧ (t.basin b).train = p.train ∧
        ∀ c ∈ s.liveCores b, ∀ r, SMap.get none (p.recs.map fun e => (e.1, some e.2)) ((s.basin b).desc.coreIndex c) = some r →
          (t.core c).a.pc = r.aPc ∧ (t.core c).x.pc = r.xPc ∧ (t.core c).a.regs = r.aRegs ∧ (t.core c).x.regs = r.xRegs ∧
          (t.core c).flags = r.flags ∧ (t.core c).seed = r.seed)

/-- 11 R315, R321, R322; 09 R270, R271, R280, R287, R481: a host read that nothing holds up answers the bytes of the basin's memory with
their poison, a host write that nothing holds up stores its bytes and no other; one of a basin whose earlier access waits, or that its
tier or stack holds up, waits; an access to a FREE basin or beyond its memory is counted, a read answering zeros with poison; a snoop
is answered, for the device holds no host line. -/
def Obligations.HostMemory : Prop :=
  (∀ (s : State) (path : MemPath) (b off n : Nat), s.hostReaches = true → s.pathOpen path = true → b < 64 → off < windowBytes →
    let ba := (s.basin b).winBase * 0x200000 + off
    (s.accessBad b ba n = false → (∀ q ∈ s.hostQ, q.basin ≠ b) → (s.askPages b (span 64 ba n) false).2 = true →
      s.readHeld b ba n = false →
      ∃ t l, exec (.hostMemRead path (b * windowBytes + off) ⟨n, {}⟩) s = .next t ∧ s.sameBytes t ∧ t.cores = s.cores ∧
        t.outbox = s.outbox ++ l ++ [.memData ((List.range n).map fun i => s.memByte b (ba + i)) ((s.basin b).memPoisoned ba n)] ∧
        t.link = s.link ∧ t.hostQ = s.hostQ) ∧
    (∀ env, s.accessBad b ba n = false → (s.hostQ.any fun q => decide (q.basin = b)) = true →
      exec (.hostMemRead path (b * windowBytes + off) ⟨n, env⟩) s =
        .next { s with hostQ := s.hostQ ++ [{ basin := b, ba := ba, len := n, env := env }] }) ∧
    (∀ env, s.accessBad b ba n = true →
      ∃ t, exec (.hostMemRead path (b * windowBytes + off) ⟨n, env⟩) s = .next t ∧ s.sameBytes t ∧ t.cores = s.cores ∧
        t.outbox = s.outbox ++ [.memData (List.replicate n 0) true] ∧
        t.link.memErr = min (2 ^ 32 - 1) (s.link.memErr + 1) ∧ t.link.memErrBasin = b ∧ t.basins = s.basins)) ∧
  (∀ (s : State) (path : MemPath) (b off : Nat) (bs : List Byte) (pz : Bool), s.hostReaches = true → s.pathOpen path = true →
    b < 64 → off < windowBytes →
    let ba := (s.basin b).winBase * 0x200000 + off
    (∀ s1, s.accessBad b ba bs.length = false → (∀ q ∈ s.hostQ, q.basin ≠ b) →
      s.hostPreps b (span 0x200000 ba bs.length) = (s1, .ready) → s1.writeHeld b ba bs.length = false →
      ∃ t, exec (.hostMemWrite path (b * windowBytes + off) bs ⟨pz, {}⟩) s = .next t ∧ t.cores = s.cores ∧
        (∀ i, i < bs.length → t.memByte b (ba + i) = bs.getD i 0) ∧
        (∀ a, a < ba ∨ ba + bs.length ≤ a → t.memByte b a = s.memByte b a) ∧
        (∀ b' a, b' ≠ b → t.memByte b' a = s.memByte b' a)) ∧
    (∀ s1 env, s.accessBad b ba bs.length = false → (∀ q ∈ s.hostQ, q.basin ≠ b) →
      s.hostPreps b (span 0x200000 ba bs.length) = (s1, .waits) →
      ∃ t, exec (.hostMemWrite path (b * windowBytes + off) bs ⟨pz, env⟩) s = .next t ∧ s.sameBytes t ∧
        t.hostQ = s.hostQ ++ [{ basin := b, ba := ba, write := true, data := bs, poison := pz, env := env }]) ∧
    (∀ env, s.accessBad b ba bs.length = true →
      ∃ t, exec (.hostMemWrite path (b * windowBytes + off) bs ⟨pz, env⟩) s = .next t ∧ s.sameBytes t ∧ t.cores = s.cores ∧
        t.link.memErr = min (2 ^ 32 - 1) (s.link.memErr + 1) ∧ t.link.memErrBasin = b)) ∧
  (∀ (s : State) (line : Nat), s.hostReaches = true →
    exec (.hostSnoop line) s = .next (if s.link.cxl then { s with outbox := s.outbox ++ [.snoopRsp line] } else s))

/-- 06 R198; 11 R323, R325, R344: a bias change runs for its pages and ends with their bias turned and no byte changed; IF_DECLARE of
the device's major version attaches the host with the lower minor; LS_EXP is written in IDLE and PARKED only; unmasking a vector
sends the notice that waits. -/
def Obligations.HostControl : Prop :=
  (∀ (s : State) (b : Nat) (w : Word), s.hostReaches = true → (s.basin b).phase ≠ .free →
    ∃ t, exec (.biasChange b w) s = .next t ∧ t.cores = s.cores ∧ s.sameBytes t ∧
      (t.basin b).biasPage = w.toNat / 2 ^ 32 ∧ (t.basin b).biasPages = w.toNat / 2 ^ 8 % 2 ^ 24 ∧
      (w.getLsbD 0 = true → (s.basin b).biasRun = none → w.toNat / 2 ^ 8 % 2 ^ 24 ≠ 0 →
        w.toNat / 2 ^ 32 + w.toNat / 2 ^ 8 % 2 ^ 24 ≤ (s.basin b).desc.baPages →
        (t.basin b).biasRun = some (w.toNat / 2 ^ 32, w.toNat / 2 ^ 8 % 2 ^ 24, w.getLsbD 1) ∧ (t.basin b).biasResult = 0) ∧
      (w.getLsbD 0 = true → (s.basin b).biasRun.isSome = true →
        (t.basin b).biasRun = (s.basin b).biasRun ∧ (t.basin b).biasResult = 1)) ∧
  (∀ (s : State) (b first n : Nat) (toHost : Bool), (s.basin b).biasRun = some (first, n, toHost) →
    ∃ t, exec (.biasChangeDone b) s = .next t ∧ (t.basin b).biasRun = none ∧ s.sameBytes t ∧ t.cores = s.cores ∧
      (∀ p, first ≤ p → p < first + n → ((t.basin b).page p).hostBias = toHost) ∧
      (∀ p, p < first ∨ first + n ≤ p → (t.basin b).page p = (s.basin b).page p)) ∧
  (∀ (s : State) (w : BitVec 32), s.hostReaches = true →
    ∃ t, exec (.ifDeclare w) s = .next t ∧ t.basins = s.basins ∧ t.cores = s.cores ∧
      (w.toNat / 2 ^ 16 = s.link.devMajor → t.link.attach = 1 ∧
        t.link.enabledMinor = min (w.toNat % 2 ^ 16) s.link.devMinor) ∧
      (w.toNat / 2 ^ 16 ≠ s.link.devMajor → s.anyBound = true → t.link.attach = s.link.attach ∧ t.link.lastRefused = true) ∧
      (w.toNat / 2 ^ 16 ≠ s.link.devMajor → s.anyBound = false → t.link.attach = 2)) ∧
  (∀ (s : State) (b : Nat) (w : BitVec 32), s.hostReaches = true →
    ∃ t, exec (.bsnLscaleWrite b w) s = .next t ∧ t.cores = s.cores ∧ (∀ b', b' ≠ b → t.basin b' = s.basin b') ∧
      ((s.basin b).phase = .idle ∨ (s.basin b).phase = .parked →
        (t.basin b).train = { (s.basin b).train with lsExp := min 24 (w.toNat % 32) }) ∧
      ((s.basin b).phase ≠ .idle → (s.basin b).phase ≠ .parked → t = s)) ∧
  (∀ (s : State) (v : Nat), s.hostReaches = true → v < 64 →
    ∃ t, exec (.msixUnmask .pf0 v) s = .next t ∧ (t.msixOf .pf0 v).masked = false ∧ (t.msixOf .pf0 v).pending = false ∧
      t.basins = s.basins ∧ t.cores = s.cores ∧
      t.outbox = s.outbox ++ (if (s.msixOf .pf0 v).pending then
        [.msix .pf0 v (s.msixOf .pf0 v).addr (s.msixOf .pf0 v).data] else []))

/-- 00 R13; 11 R317, R320, R323, R324, R344; 15 R436, R438: a VF's FLR leaves its basin IDLE without program, queues or vectors; PF0's unbinds every
basin and detaches the host; PERST_N also takes the link, its IDE keys and the debug scope; an IDE failure makes the link
insecure, and the link trains again when PERST_N rises, which gives the bias registers their reset values.
What PERST_N leaves beyond the spec's list is the model's choice (log 31). -/
def Obligations.ResetsAndLink : Prop :=
  (∀ (s : State) (b : Nat), s.hostReaches = true → (s.basin b).phase ≠ .free → (s.basin b).phase ≠ .unbinding →
    (s.basin b).phase ≠ .binding → (s.basin b).fencePending = [] → (s.anyDue b && s.canTest) = false →
    (s.basin b).pendingRebind = none →
    ∃ t, exec (.vfFlr b) s = .next t ∧ (t.basin b).phase = .idle ∧ (t.basin b).img = none ∧ (t.basin b).msix = [] ∧
      (t.basin b).desc = (s.basin b).desc ∧ (t.basin b).ckpt = (s.basin b).ckpt ∧ (t.basin b).sluice = none ∧
      (∀ c ∈ s.liveCores b, (t.core c).a.stopped = true ∧ (t.core c).x.stopped = true ∧ (t.core c).base = 0) ∧
      ∀ b', b' ≠ b → (t.basin b').desc = (s.basin b').desc ∧ (t.basin b').img = (s.basin b').img ∧
        ∀ a, t.memByte b' a = s.memByte b' a) ∧
  (∀ (s : State), s.hostReaches = true →
    ∃ t, exec .pf0Flr s = .next t ∧ t.link.attach = 0 ∧ t.link.enabledMinor = 0 ∧ t.link.up = s.link.up ∧
      ∀ b, (t.basin b).phase = .free ∨ (t.basin b).phase = .unbinding) ∧
  (∀ (s : State), s.mgmt.phase ≠ .inReset →
    ∃ t, exec .perstN s = .next t ∧ t.link.up = false ∧ t.link.ideKeys = false ∧ t.link.insecure = false ∧ t.link.attach = 0 ∧
      t.sec.scope = 0 ∧ t.sec.sessionFn = none ∧ t.mgmt.perst = true ∧ t.sec.cmdKey = s.sec.cmdKey ∧ t.sec.svn = s.sec.svn ∧
      t.fwu.slotA = s.fwu.slotA ∧ t.fwu.slotB = s.fwu.slotB) ∧
  (∀ (s : State) (cxl : Bool) (width rate : Nat), s.mgmt.phase ≠ .inReset → s.mgmt.perst = true → linkTrains cxl width rate = true →
    ∃ t, exec (.perstNDeassert cxl width rate) s = .next t ∧ t.link.up = true ∧ t.link.cxl = cxl ∧ t.link.width = width ∧
      t.link.rate = rate ∧ t.mgmt.perst = false ∧ t.cores = s.cores ∧ t.sec = s.sec ∧
      s.sameBytes t ∧ ∀ b, (t.basin b).biasPage = 0 ∧ (t.basin b).biasPages = 0 ∧ (t.basin b).biasRun = none ∧
        (t.basin b).phase = (s.basin b).phase ∧ ∀ p, ((t.basin b).page p).hostBias = false) ∧
  (∀ (s : State), s.link.up = true → s.link.ideKeys = true →
    ∃ t, exec .ideFail s = .next t ∧ t.link = { s.link with insecure := true, ideFail := true } ∧ t.basins = s.basins ∧
      t.cores = s.cores ∧ t.sec = s.sec) ∧
  (∀ (s : State) (width rate : Nat), s.link.up = true → linkTrains s.link.cxl width rate = true →
    ∃ t, exec (.cxlLinkRetrain width rate) s = .next t ∧ t.link = { s.link with width := width, rate := rate } ∧
      t.basins = s.basins ∧ t.cores = s.cores)

/-- 12 R355, R356; 09 R270, R271, R280, R481: a collective whose messages have all come and gone, whose output's pages are ready and
which nothing holds up leaves: its entry is no longer in progress; its output stands where OUT_BA says, and where no layer and no other
collective joins it no other byte of any basin changes; a SEND writes nothing.
What stands for the other ranks' messages is the model's choice (log 25). -/
def Obligations.CollectiveCompletes : Prop :=
  ∀ (s s1 : State) (b e : Nat) (r : CollRec) (c : Coll), (s.basin b).phase = .running → (s.basin b).coll e = some c →
    (s.basin b).collTable[e]? = some r → s.collDone b e = true →
    let ws := (s.basin b).collWrites r c
    s.storeParts b ws = (s1, .ready) →
    ∃ t, exec (.collectiveComplete b e) s = .next t ∧ (t.basin b).coll e = none ∧
      (c.layer = none → (s.basin b).colls = [c] → (s.basin b).validLayers = [] → (s.basin b).sluice = none →
        (t.basin b).colls = [] ∧ (t.basin b).phase = .running ∧
        (∀ b' a, b' ≠ b → t.memByte b' a = s.memByte b' a) ∧ (∀ x a, t.spByte x a = s.spByte x a) ∧
        (r.op = opSend → ∀ a, t.memByte b a = s.memByte b a) ∧
        (r.op ≠ opSend → ∃ out bs, ws = [(out, bs)] ∧
          (∀ i, i < bs.length → t.memByte b (out + i) = (bs.getD i (0, false)).1) ∧
          ∀ a, a < out ∨ out + bs.length ≤ a → t.memByte b a = s.memByte b a))

/-! ### Towpath queues (family TOWPATH) -/

/-- 11 R333 to R342; 14 R409: host software's side of the bound queues: the item port of an out-queue gives its oldest item and a read
of its last byte consumes it, which holds it; its bulk window gives the item of a slot and consumes none; the slot of an unbound
queue reads zeros; an in-queue's port and staging area append items; what finds the queue empty or full
sets UNDERRUN or OVERRUN and moves nothing; a flush empties the queue. -/
def Obligations.TowpathHost : Prop :=
  (∀ (s : State) (b n off len : Nat), s.hostReaches = true → (s.basin b).boundQueue (16 + n) = false →
    exec (.tpOutItemRead b n off len) s = .next { s with outbox := s.outbox ++ [.itemData (List.replicate len 0) false] }) ∧
  (∀ (s : State) (b n off len : Nat), s.hostReaches = true → (s.basin b).boundQueue (16 + n) = true →
    let q := s.queue b (16 + n)
    let i := q.items[off / 64]?
    ∃ t, exec (.tpOutItemRead b n (0x1000 + off) len) s = .next t ∧ t.cores = s.cores ∧ s.sameBytes t ∧
      t.outbox = s.outbox ++ [.itemData (itemBytes i (off % 64) len) (i.any Item.poison)] ∧
      t.queue b (16 + n) = { q with poison := q.poison || i.any Item.poison }) ∧
  (∀ (s : State) (b n off len : Nat), s.hostReaches = true → (s.basin b).boundQueue (16 + n) = true → off < 0x1000 →
    let q := s.queue b (16 + n)
    ∃ t, exec (.tpOutItemRead b n off len) s = .next t ∧ t.cores = s.cores ∧ s.sameBytes t ∧
      (∀ i is, q.items = i :: is → (∃ l, t.outbox = s.outbox ++ .itemData (itemBytes (some i) off len) i.poison :: l) ∧
        (off + len = 64 → len ≠ 0 → (t.queue b (16 + n)).items = is ∧ (t.queue b (16 + n)).held = q.held ++ [i] ∧
          (t.queue b (16 + n)).head = (q.head + 1) % 2 ^ 32) ∧
        (off + len ≠ 64 → (t.queue b (16 + n)).items = q.items ∧ (t.queue b (16 + n)).head = q.head)) ∧
      (q.items = [] → (t.queue b (16 + n)).underrun = true ∧ (t.queue b (16 + n)).head = q.head)) ∧
  (∀ (s : State) (b n off : Nat) (bs : List Byte) (ep : Bool), s.hostReaches = true → n < 16 →
    (s.basin b).boundQueue n = true →
    let q := s.queue b n
    ∃ t, exec (.tpInItemWrite b n off bs ep) s = .next t ∧ t.cores = s.cores ∧ s.sameBytes t ∧
      (off + bs.length = 64 → bs ≠ [] → q.room ≠ 0 →
        (t.queue b n).items = q.items ++ [asmItem (SMap.setList 0 q.asm off bs) 0 (q.asmPoison || ep)] ∧
        (t.queue b n).tail = (q.tail + 1) % 2 ^ 32 ∧ (t.queue b n).asm = []) ∧
      (off + bs.length = 64 → bs ≠ [] → q.room = 0 →
        (t.queue b n).items = q.items ∧ (t.queue b n).overrun = true ∧ (t.queue b n).tail = q.tail) ∧
      (off + bs.length ≠ 64 → (t.queue b n).items = q.items ∧ (t.queue b n).asm = SMap.setList 0 q.asm off bs)) ∧
  (∀ (s : State) (b n i off : Nat) (bs : List Byte) (ep : Bool), s.hostReaches = true → n < 16 →
    (s.basin b).boundQueue n = true →
    ∃ t, exec (.tpInBulkWrite b n i off bs ep) s = .next t ∧ t.cores = s.cores ∧ s.sameBytes t ∧
      (t.queue b n).items = (s.queue b n).items ∧
      (i < (s.queue b n).room → (t.queue b n).staged = SMap.setList 0 (s.queue b n).staged (64 * i + off) bs) ∧
      ((s.queue b n).room ≤ i → t.queue b n = { s.queue b n with overrun := true })) ∧
  (∀ (s : State) (b j k : Nat), s.hostReaches = true → (s.basin b).boundQueue j = true →
    let q := s.queue b j
    ∃ t, exec (.advance b j k) s = .next t ∧ t.cores = s.cores ∧ s.sameBytes t ∧
      (j < 16 → (t.queue b j).items = q.items ++
          (List.range (min k q.room)).map fun i => asmItem q.staged (64 * i) (SMap.get false q.stagedPoison i)) ∧
      (j < 16 → (t.queue b j).overrun = (q.overrun || decide (q.room < k))) ∧
      (16 ≤ j → (t.queue b j).items = q.items.drop k ∧ (t.queue b j).held = q.held ++ q.items.take k ∧
        (t.queue b j).underrun = (q.underrun || decide (q.items.length < k)))) ∧
  (∀ (s : State) (b j : Nat), s.hostReaches = true → (s.basin b).boundQueue j = true →
    ∃ t, exec (.flush b j) s = .next t ∧ (t.queue b j).items = [] ∧ (t.queue b j).held = [] ∧ (t.queue b j).head = 0 ∧
      (t.queue b j).tail = 0 ∧ (t.queue b j).flushedHeld = ((s.queue b j).flushedHeld || !(s.queue b j).held.isEmpty) ∧
      t.cores = s.cores ∧ s.sameBytes t) ∧
  (∀ (s : State) (b j : Nat) (w : Word), s.hostReaches = true → (s.basin b).phase ≠ .free →
    ∃ t, exec (.tpCtrlWrite b j w) s = .next t ∧ (t.queue b j).timeoutUs = w.toNat / 2 ^ 32 % 2 ^ 24 ∧
      (t.queue b j).notifyLevel = w.toNat / 2 ^ 10 % 2 ^ 21 ∧ (t.queue b j).vector = w.toNat / 2 ^ 5 % 2 ^ 5 ∧
      (t.queue b j).items = (s.queue b j).items ∧ s.sameBytes t ∧
      ((∀ b', (s.basin b').logShort = false) → t.cores = s.cores) ∧
      ((s.basin b).phase = .running → (t.queue b j).depthLog2 = (s.queue b j).depthLog2)) ∧
  (∀ (s : State) (b j : Nat), (s.basin b).boundQueue j = true → (s.queue b j).timeoutUs ≠ 0 → (s.queue b j).items ≠ [] →
    (s.queue b j).idleFired = false →
    ∃ t, exec (.tpIdleTimeout b j) s = .next t ∧ t.queue b j = { s.queue b j with timeout := true, idleFired := true } ∧
      t.cores = s.cores ∧ s.sameBytes t) ∧
  (∀ (s : State) (b j : Nat), (s.basin b).boundQueue j = true →
    ∃ t, exec (.tpPtrMismatch b j) s = .next t ∧ (t.queue b j).items = [] ∧ (t.queue b j).head = 0 ∧ (t.queue b j).tail = 0 ∧
      (t.queue b j).ptrErr = true ∧ t.rel.seq = (s.rel.seq + 1) % 2 ^ 32 ∧ t.cores = s.cores ∧ s.sameBytes t)

/-! ### Ethernet (family ETH) -/

/-- 12 R345 to R347, R350, R353: MODE changes only while no queue pair in RTS names the group, and a change takes the link down; one
group at a time recalibrates; a link that is negotiated is up, one that is lost is down; a pause frame on a priority in PFC_EN is
honoured; a frame that an Ethernet group drops is counted.
What the commands carry of the link and its frames is the model's choice (log 26). -/
def Obligations.EthernetGroups : Prop :=
  (∀ (s : State) (n : Nat) (w : BitVec 32), s.hostReaches = true → n < 4 →
    ∃ t, exec (.ethGroupCtrlWrite n w) s = .next t ∧ (t.group n).xoff = w.toNat / 2 ^ 16 % 2 ^ 8 ∧
      (t.group n).ecnEn = w.getLsbD 13 ∧ (t.group n).pfcEn.toNat = w.toNat / 2 ^ 4 % 2 ^ 8 ∧ t.qps = s.qps ∧
      (s.groupBusy n = true → (t.group n).mode = (s.group n).mode ∧ (t.group n).link = (s.group n).link) ∧
      (s.groupBusy n = false → (t.group n).mode = w.toNat % 4 ∧
        (w.toNat % 4 ≠ (s.group n).mode → (t.group n).link = false)) ∧
      ∀ m, m ≠ n → m ≠ n ^^^ 1 → t.group m = s.group m) ∧
  (∀ (s : State) (n : Nat), s.hostReaches = true → n < 4 →
    ∃ t, exec (.recal n) s = .next t ∧ (∀ m, m ≠ n → t.group m = s.group m) ∧ t.qps = s.qps ∧
      ((∀ e ∈ s.eth, e.2.recalBusy = true → e.1 = n) → t.group n = { s.group n with recalBusy := true })) ∧
  (∀ (s : State) (n : Nat), (s.group n).recalBusy = true →
    ∃ t, exec (.recalDone n) s = .next t ∧ (t.group n).recalBusy = false ∧ (t.group n).rxWait = [] ∧
      ((s.group n).rxWait = [] → (t.group n).link = (s.group n).link ∧ t.basins = s.basins ∧ t.cores = s.cores)) ∧
  (∀ (s : State) (n : Nat) (ok : Bool), n < 4 → (s.group n).mode = 1 ∨ (s.group n).mode = 2 →
    ∃ t, exec (.ethLinkNegotiation n ok) s = .next t ∧ (t.group n).link = ((s.group n).link || ok) ∧
      (t.group n).mode = (s.group n).mode ∧ t.basins = s.basins ∧ t.cores = s.cores) ∧
  (∀ (s : State) (n : Nat), n < 4 →
    ∃ t, exec (.ethLinkLoss n) s = .next t ∧
      t.group n = { s.group n with link := false, zynRetraining := false, rxWait := [], rxBuf := [], pauseSent := 0, paused := 0 } ∧
      (∀ m, m ≠ n → t.group m = s.group m) ∧ t.qps = s.qps ∧ t.basins = s.basins) ∧
  (∀ (s : State) (n prio : Nat) (pause : Bool), n < 4 → prio < 8 → (s.group n).mode = 1 → (s.group n).link = true →
    (s.group n).pfcEn.getLsbD prio = true →
    ∃ t, exec (.pauseFrameRx n prio pause) s = .next t ∧ t.basins = s.basins ∧
      ((s.group n).recalBusy = false → (t.group n).paused.getLsbD prio = pause) ∧
      ((s.group n).recalBusy = true →
        t.group n = { s.group n with rxWait := (s.group n).rxWait ++ [.pauseFrameRx n prio pause] } ∧ t.outbox = s.outbox)) ∧
  (∀ (s : State) (n : Nat), n < 4 → (s.group n).link = true → (s.group n).mode = 1 →
    ∃ t, exec (.frameDropped n) s = .next t ∧
      t.group n = { s.group n with dropped := min (2 ^ 16 - 1) ((s.group n).dropped + 1) } ∧ t.qps = s.qps)

/-- 12 R351 to R353, R360, R362: an acknowledgement retires the packets up to its PSN; a timeout or a sequence NAK sends the rest again
until RETRY_CNT is reached, which is an error, as a remote access NAK is; a congestion notification halves the rate, which rises
again by five percent; and a write of a queue pair's word 0 resets or starts it; while its basin is RUNNING that write leaves the
basin's behaviour undefined, and no other's (00 R15). An answer that reaches a group which recalibrates waits (R347).
That a rate keeps at least one percent is the model's choice (log 26). -/
def Obligations.QueuePairs : Prop :=
  (∀ (s : State) (n psn : Nat), isQpn n = true → (s.qp n).st = .rts → s.zynwin (s.qp n) = false →
    (∀ g gs, (s.qp n).groupList = g :: gs → (s.group g).recalBusy = false) → (s.qp n).groupList ≠ [] →
    (∀ pre d m post, psn < 2 ^ 24 → (s.qp n).unacked = pre ++ (psn, d, m) :: post → (∀ e ∈ pre, e.1 ≠ (psn + 1) % 2 ^ 24) →
      (∀ e, post.head? = some e → e.1 = (psn + 1) % 2 ^ 24) →
      ∃ t, exec (.ack n psn) s = .next t ∧ (t.qp n).unacked = post ∧ (t.qp n).retries = 0 ∧ (t.qp n).st = .rts ∧
        (∀ m, m ≠ n → t.qp m = s.qp m) ∧ t.basins = s.basins) ∧
    ((∀ e ∈ (s.qp n).unacked, e.1 ≠ psn) → exec (.ack n psn) s = .next s) ∧
    (∀ d m post, (s.qp n).unacked = (psn, d, m) :: post → (s.qp n).retries < (s.qp n).retryCnt →
      ∃ t, exec (.psnSequenceNak n psn) s = .next t ∧ (t.qp n).unacked = (s.qp n).unacked ∧ (t.qp n).st = .rts ∧
        (t.qp n).retries = (s.qp n).retries + 1) ∧
    ((∀ e ∈ (s.qp n).unacked, e.1 ≠ psn) → psn ≠ (s.qp n).txNext →
      ∃ t, exec (.psnSequenceNak n psn) s = .next t ∧ (t.qp n).st = .error ∧ (t.qp n).errCause = 3) ∧
    (∃ t, exec (.remoteAccessNak n) s = .next t ∧ (t.qp n).st = .error ∧ (t.qp n).errCause = 2 ∧ (t.qp n).unacked = [] ∧
      ∀ m, m ≠ n → t.qp m = s.qp m) ∧
    (∃ t, exec (.cnpRx n) s = .next t ∧ (t.qp n).cnpRx = min (2 ^ 16 - 1) ((s.qp n).cnpRx + 1) ∧
      ((∀ g, (s.qp n).groups.getLsbD g = true → (s.group g).ecnEn = true) → (s.qp n).cutAt = none →
        (t.qp n).ratePct = max 1 ((s.qp n).ratePct / 2)) ∧
      ∀ m, m ≠ n → t.qp m = s.qp m)) ∧
  (∀ (s : State) (n : Nat), isQpn n = true → (s.qp n).st = .rts → s.zynwin (s.qp n) = false →
    ∃ t, exec (.ackTimeout n) s = .next t ∧ ((s.qp n).unacked = [] → t = s) ∧
      ((s.qp n).unacked ≠ [] → (s.qp n).retryCnt ≤ (s.qp n).retries → (t.qp n).st = .error ∧ (t.qp n).errCause = 1) ∧
      ((s.qp n).unacked ≠ [] → (s.qp n).retries < (s.qp n).retryCnt → (t.qp n).st = .rts ∧
        (t.qp n).retries = (s.qp n).retries + 1 ∧ (t.qp n).unacked = (s.qp n).unacked)) ∧
  (∀ (s : State) (n g psn : Nat) (gs : List Nat) (c : Instr), (s.qp n).groupList = g :: gs → (s.group g).recalBusy = true →
    c = .ack n psn ∨ c = .psnSequenceNak n psn ∨ c = .remoteAccessNak n ∨ c = .cnpRx n →
    exec c s = .next (s.updGroup g fun e => { e with rxWait := e.rxWait ++ [c] })) ∧
  (∀ (s : State) (n : Nat), isQpn n = true →
    ∃ t, exec (.rateIncrease n) s = .next t ∧ t.qp n = { s.qp n with ratePct := min 100 ((s.qp n).ratePct + 5) } ∧
      ∀ m, m ≠ n → t.qp m = s.qp m) ∧
  (∀ (s : State) (set i : Nat) (w : Word), s.link.up = true → s.link.insecure = false → set < 63 → i < 32 →
    (∀ b, s.qsetOwner set = some b → (s.basin b).phase = .running →
      exec (.qpWrite set i w) s = .next (s.undefine b)) ∧
    ((∀ b, s.qsetOwner set = some b → (s.basin b).phase ≠ .running) →
      ∃ t, exec (.qpWrite set i w) s = .next t ∧ (∀ m, m ≠ qpnOf set i → t.qp m = s.qp m) ∧ t.basins = s.basins ∧
        (t.qp (qpnOf set i)).groups.toNat = w.toNat / 2 ^ 4 % 2 ^ 4 ∧
        (t.qp (qpnOf set i)).retryCnt = w.toNat / 2 ^ 28 % 2 ^ 3 ∧
        (w.getLsbD 0 = false → (t.qp (qpnOf set i)).st = .reset ∧ (t.qp (qpnOf set i)).unacked = []) ∧
        (w.getLsbD 0 = true → (t.qp (qpnOf set i)).st = .rts ∧
          ((s.qp (qpnOf set i)).st ≠ .rts → (t.qp (qpnOf set i)).txNext = (s.qp (qpnOf set i)).txPsn ∧
            (t.qp (qpnOf set i)).rxNext = (s.qp (qpnOf set i)).rxPsn))))

/-- 12 R348, R350, R351, R358, R359: a write packet with the expected PSN, the right key and a place in the receive region is acknowledged, the
PSN advances and its payload enters the receive log of its set's basin; a PSN ahead is answered with a sequence NAK, a wrong key or
place with a remote access NAK, and neither changes a queue pair; a packet waits while its group recalibrates, and is lost where its
payload finds the receive buffer full. A Zynwin frame with the expected sequence number is accepted, one whose CRC fails or that lies ahead is answered with a
request for a replay; a request replays the frames from its number on, and the eighth in succession retrains the link, which goes
down after three failed retrainings.
What the commands carry of a packet, and which answers go into the outbox, are the model's choices (log 20, 26, 92). -/
def Obligations.PacketsAndFrames : Prop :=
  (∀ (s : State) (p : RdmaPkt) (imm : Option (BitVec 32)) (b : Nat), p.group < 4 → (s.group p.group).mode = 1 →
     (s.group p.group).link = true → (s.group p.group).recalBusy = false → isQpn p.qpn = true → (s.qp p.qpn).st = .rts →
     (s.qp p.qpn).groups.getLsbD p.group = true → (s.group p.group).hasRoom p.payload.length = true →
     s.qsetOwner (qsetOf p.qpn) = some b →
     let c := match imm with | some m => Instr.rdmaWriteImm p m | none => .rdmaWrite p
     let q := s.qp p.qpn
     let bad := match imm with | some m => immBlocks m | none => []
     ∃ t, exec c s = .next t ∧ s.sameBytes t ∧
       (p.psn = q.rxNext → p.rkey = q.localRkey → p.offset + p.payload.length ≤ Config.recvRegion p.qpn →
         (t.qp p.qpn).rxNext = (q.rxNext + 1) % 2 ^ 24 ∧ .ethAck p.qpn p.psn ∈ t.outbox ∧
         (t.basin b).rxLog = (s.basin b).rxLog ++ [(p.qpn, withPoison p.payload bad)] ∧
         (p.ce = false → (s.basin b).colls = [] → t.qp p.qpn = { q with rxNext := (q.rxNext + 1) % 2 ^ 24 } ∧
           (p.payload.length + (s.basin b).logBytes ≤ (s.basin b).logFrames.length * pageBytes →
             t.cores = s.cores ∧ ∃ l, t.outbox = s.outbox ++ .ethAck p.qpn p.psn :: l))) ∧
       (p.ce = false → p.psn = q.rxNext → p.rkey ≠ q.localRkey ∨ Config.recvRegion p.qpn < p.offset + p.payload.length →
         t.qps = s.qps ∧ t.outbox = s.outbox ++ [.ethNakAccess p.qpn p.psn] ∧ t.basins = s.basins ∧ t.cores = s.cores) ∧
       (p.ce = false → p.psn ≠ q.rxNext → t.qps = s.qps ∧ t.basins = s.basins ∧ t.cores = s.cores ∧ t.outbox = s.outbox ++
         [if psnAhead p.psn q.rxNext then .ethNakSeq p.qpn q.rxNext else .ethAck p.qpn p.psn])) ∧
  (∀ (s : State) (p : RdmaPkt) (imm : Option (BitVec 32)), p.group < 4 → (s.group p.group).mode = 1 →
     (s.group p.group).link = true →
     let c := match imm with | some m => Instr.rdmaWriteImm p m | none => .rdmaWrite p
     ((s.group p.group).recalBusy = true → exec c s = .next (s.updGroup p.group fun e => { e with rxWait := e.rxWait ++ [c] })) ∧
     ((s.group p.group).recalBusy = false → isQpn p.qpn = true → (s.qp p.qpn).st = .rts →
       (s.qp p.qpn).groups.getLsbD p.group = true → (s.group p.group).hasRoom p.payload.length = false → exec c s = .next s)) ∧
  (∀ (s : State) (f : ZynFrame), f.group < 4 → (s.group f.group).mode = 2 → (s.group f.group).link = true →
    (s.group f.group).zynRetraining = false → (s.group f.group).recalBusy = false →
    ∃ t, exec (.zynwinFrameRx f) s = .next t ∧
      (s.qsetOwner (qsetOf f.qpn) = none → t.basins = s.basins ∧ t.cores = s.cores) ∧
      (f.crcOk = false ∨ (s.group f.group).zynRx < f.seq →
        t.outbox = s.outbox ++ [.zynReplay f.group (s.group f.group).zynRx] ∧ t.eth = s.eth ∧ t.qps = s.qps) ∧
      (f.crcOk = true → f.seq = (s.group f.group).zynRx → (t.group f.group).zynRx = f.seq + 1) ∧
      (f.crcOk = true → f.seq < (s.group f.group).zynRx → t = s)) ∧
  (∀ (s : State) (n seq : Nat), n < 4 → (s.group n).mode = 2 → (s.group n).link = true →
    (s.group n).zynRetraining = false → (s.group n).recalBusy = false →
    let k := if seq = (s.group n).zynAsked then (s.group n).zynReplays + 1 else 1
    ∃ t, exec (.zynwinReplayRequest n seq) s = .next t ∧ (t.group n).zynRetraining = decide (8 ≤ k) ∧
      (t.group n).zynAsked = seq ∧ (k < 8 → (t.group n).zynReplays = k) ∧ t.qps = s.qps ∧ t.basins = s.basins ∧
      t.outbox = s.outbox ++ (((s.group n).zynTx.filter fun e => decide (seq ≤ e.1)).reverse.map fun e =>
        .zynFrame n e.1 e.2.1 e.2.2.1 e.2.2.2)) ∧
  (∀ (s : State) (n : Nat) (ok : Bool), (s.group n).zynRetraining = true →
    ∃ t, exec (.zynwinRetrainEnd n ok) s = .next t ∧
      (ok = true → (t.group n).zynRetraining = false ∧ (t.group n).zynRetrains = 0 ∧ (t.group n).link = (s.group n).link) ∧
      (ok = false → (s.group n).zynRetrains + 1 < 3 → (t.group n).zynRetrains = (s.group n).zynRetrains + 1 ∧
        (t.group n).link = (s.group n).link ∧ t.qps = s.qps) ∧
      (ok = false → 3 ≤ (s.group n).zynRetrains + 1 → (t.group n).link = false ∧
        ∀ e ∈ s.qps, e.2 = s.qp e.1 → e.2.groups.getLsbD n = true → e.2.st = .rts →
          (t.qp e.1).st = .error ∧ (t.qp e.1).errCause = 4))

/-! ### Power, temperature and clocks (families POWER, THERMAL, CLOCK) -/

/-- 13 R369, R373, R374, R375, R388: a sample is taken into the averages; a current at ILIM steps both dies down and latches, a supply
above 64 V loses all state but what flash and fuses hold; while an excess lasts the dies step down and then the gate rises; the gate
relaxes where no limit is near; PWR_CAP is clamped to 600 to 2,600 W.
How the averages take missing samples and by how much the gate rises and falls are the model's choices (log 14, 6). -/
def Obligations.PowerLimits : Prop :=
  (∀ (s : State) (vin iin : Nat), s.mgmt.phase ≠ .inReset →
    ∃ t, exec (.powerSample vin iin) s = .next t ∧
      (vin ≤ 640 → (vin < 360 → s.power.low36 + 1 < 50) →
        t.power.vin = vin ∧ t.power.iin = iin ∧ t.power.samples = (vin * iin :: s.power.samples).take 1000000 ∧
        t.usec = s.usec + 1 ∧ t.cores = s.cores ∧ t.power.ilimNow = decide (s.power.ilim ≤ iin) ∧
        (s.power.ilim ≤ iin → t.power.powerLatch = true) ∧
        (s.power.ilim ≤ iin → s.power.ilimNow = false →
          min 2 (s.power.step0 + 1) ≤ t.power.step0 ∧ min 2 (s.power.step1 + 1) ≤ t.power.step1)) ∧
      (640 < vin → t.mgmt.phase = .inReset ∧ t.cores = [] ∧ t.basins = [] ∧ t.power.faultN = true ∧
        t.fwu.slotA = s.fwu.slotA ∧ t.fwu.slotB = s.fwu.slotB ∧ t.sec.svn = s.sec.svn ∧ t.sec.cmdKey = s.sec.cmdKey ∧
        t.rel.fenceTable = s.rel.fenceTable ∧ t.rel.log = s.rel.log)) ∧
  (∀ (s : State), s.power.ilimNow = true →
    ∃ t, exec .ilimRecheck s = .next t ∧ t.basins = s.basins ∧ t.cores = s.cores ∧
      (s.power.step0 = 2 → s.power.step1 = 2 → t.power = { s.power with gate := min 12 (s.power.gate + 2) }) ∧
      (s.power.step0 < 2 ∨ s.power.step1 < 2 → t.power.step0 = min 2 (s.power.step0 + 1) ∧
        t.power.step1 = min 2 (s.power.step1 + 1) ∧ t.power.gate = s.power.gate)) ∧
  (∀ (s : State), s.power.limitNow = true → s.power.gate ≤ 12 →
    ∃ t, exec .powerLimitStep s = .next t ∧ t.basins = s.basins ∧ t.cores = s.cores ∧
      (s.power.step0 = 2 → s.power.step1 = 2 → t.power.gate ≤ 12 ∧ min 12 (s.power.gate + 1) ≤ t.power.gate ∧
        t.power.step0 = 2 ∧ t.power.step1 = 2) ∧
      (s.power.step0 < 2 ∨ s.power.step1 < 2 → t.power.step0 = min 2 (s.power.step0 + 1) ∧
        t.power.step1 = min 2 (s.power.step1 + 1) ∧ t.power.gate = s.power.gate)) ∧
  (∀ (s : State), s.latched = false → 10 * s.power.iin < 9 * s.power.ilim → s.power.sum 10000 < 2700 * 100000 →
    s.power.sum 1000000 < 2340 * 10000000 →
    exec .gateRelax s = .next { s with power := { s.power with gate := s.power.gate - 1 } }) ∧
  (∀ (s : State) (v : BitVec 32), s.hostReaches = true →
    ∃ t, exec (.pwrCapWrite v) s = .next t ∧ t.basins = s.basins ∧ t.cores = s.cores ∧
      (s.mgmt.gap = false → t.power = { s.power with cap := max 600 (min 2600 (v.toNat % 2 ^ 12)) } ∧ t.mgmt = s.mgmt) ∧
      (s.mgmt.gap = true → t.power = s.power ∧ t.mgmt.held = s.mgmt.held ++ [.pwrCap v]))

/-- 13 R370, R376 to R378, R388: the third reading at EMERG in a row latches and takes both dies to step 2; the third at TRIP stops the
clocks and the clusters' supply and clears every program; the device leaves the trip 20 °C below; a latch clears where none of its
causes is present; THROTTLE takes no value above 95 or at EMERG; and the Quarry domain goes off where no core is tested.
That a trip clears every program, and that its halt records no cause, is the model's choice (log 33). -/
def Obligations.Thermal : Prop :=
  (∀ (s : State) (d0 d1 : Option Nat), s.mgmt.phase ≠ .inReset →
    let t0 := d0.getD s.power.trip
    let t1 := d1.getD s.power.trip
    ∃ t, exec (.junctionReading d0 d1) s = .next t ∧ t.power.tj0 = t0 ∧ t.power.tj1 = t1 ∧
      (t0 < s.power.emerg → t1 < s.power.emerg → s.power.emerg ≤ s.power.trip → s.power.tripped = false →
        t.power = { s.power with tj0 := t0, tj1 := t1, hot0 := 0, hot1 := 0, over0 := 0, over1 := 0 } ∧
        t.basins = s.basins ∧ t.cores = s.cores) ∧
      (s.power.emerg ≤ t0 → s.power.hot0 = 2 → s.power.hot1 = 0 → t0 < s.power.trip → t1 < s.power.emerg →
        s.power.emerg ≤ s.power.trip → s.power.tripped = false →
        t.power.step0 = 2 ∧ t.power.step1 = 2 ∧ t.power.thermalLatch = true ∧ t.power.gate = s.power.gate) ∧
      (s.power.trip ≤ t0 → s.power.over0 = 2 → s.power.tripped = false →
        t.power.tripped = true ∧ t.power.clocksStopped = true ∧ t.power.clusterOn = 0 ∧ t.power.thermN = true ∧
        t.power.thermalLatch = true ∧
        ∀ b, (s.basin b).phase ≠ .free → (t.basin b).img = none ∧ (t.basin b).phase ≠ .running) ∧
      (t0 + 20 < s.power.trip → t1 + 20 < s.power.trip → s.power.tripped = true → s.power.refStop = false →
        t.power.tripped = false ∧ t.power.thermN = false ∧ t.power.clocksStopped = false ∧ t.power.step0 = 2 ∧
        t.power.step1 = 2)) ∧
  (∀ (s : State) (thermal : Bool), (if thermal then s.power.thermalLatch else s.power.powerLatch) = true →
    ∃ t, exec (.latchClear thermal) s = .next t ∧ (s.causePresent thermal = true → t = s) ∧
      (s.causePresent thermal = false → (if thermal then t.power.thermalLatch else t.power.powerLatch) = false ∧
        (if thermal then t.power.powerLatch = s.power.powerLatch else t.power.thermalLatch = s.power.thermalLatch) ∧
        t.power.causes = s.power.causes)) ∧
  (∀ (s : State) (v : Word), s.hostReaches = true → s.mgmt.gap = false →
    ∃ t, exec (.pwrTjWrite v) s = .next t ∧ t.basins = s.basins ∧ t.cores = s.cores ∧
      (v.toNat / 2 ^ 16 % 2 ^ 8 ≤ 95 → v.toNat / 2 ^ 16 % 2 ^ 8 < s.power.emerg →
        t.power = { s.power with throttle := v.toNat / 2 ^ 16 % 2 ^ 8 }) ∧
      (95 < v.toNat / 2 ^ 16 % 2 ^ 8 ∨ s.power.emerg ≤ v.toNat / 2 ^ 16 % 2 ^ 8 →
        t.power = { s.power with throttle := min 95 s.power.emerg })) ∧
  (∀ (s : State), s.rel.testing = [] →
    ∃ t, exec .quarryDomainOff s = .next t ∧ t.power.quarryOn = false ∧ t.basins = s.basins ∧ t.cores = s.cores)

/-- 07 R234, R235; 13 R374, R376, R380 to R383: the power manager keeps its own limits within their ranges, slows a die at once and lets it
rise only when its rails have and no latch is set; where a lane crosses the seam both dies change together, and a request that would
part them is held; a rise that has ended takes effect; where the dies run at one step again die 1 takes die 0's lattice time; on the loss of the
reference the device holds over and latches, when the holdover ends the clocks stop, and they go on when it returns.
That the power manager's wants are operands, and how the lattice times reunite, are the model's choices (log 33, 34, 86). -/
def Obligations.Clocks : Prop :=
  (∀ (s : State) (w0 w1 : Nat) (lim : FwLimits), s.mgmt.phase = .ready → s.mgmt.gap = false → s.power.clocksStopped = false →
    let p := s.power.tighten lim
    let t0 := p.target w0 p.step0 p.tj0
    let t1 := p.target w1 p.step1 p.tj1
    let hot := p.throttle ≤ p.tj0 ∨ p.throttle ≤ p.tj1 ∨ s.launchHeld = true
    ∃ t, exec (.powerManagerEval (w0, w1) lim) s = .next t ∧ t.basins = s.basins ∧ t.cores = s.cores ∧ t.power.gate = s.power.gate ∧
      (∀ v, lim.ilim = some v → 40 ≤ t.power.ilim ∧ t.power.ilim ≤ 72 ∧ (40 ≤ v → v ≤ 72 → t.power.ilim = v)) ∧
      (∀ v, lim.emerg = some v → 90 ≤ t.power.emerg ∧ t.power.emerg ≤ 105 ∧ (90 ≤ v → v ≤ 105 → t.power.emerg = v)) ∧
      (∀ v, lim.trip = some v → 100 ≤ t.power.trip ∧ t.power.trip ≤ 115 ∧ (100 ≤ v → v ≤ 115 → t.power.trip = v)) ∧
      (s.oneStep = false ∨ t0 = t1 →
        t.power.step0 = max s.power.step0 t0 ∧ t.power.step1 = max s.power.step1 t1 ∧ t.power.heldStep = none ∧
        t.power.up0 = (if t0 < s.power.step0 ∧ s.latched = false then some t0 else none) ∧
        t.power.up1 = (if t1 < s.power.step1 ∧ s.latched = false then some t1 else none)) ∧
      (s.oneStep = true → t0 ≠ t1 → hot →
        t.power.step0 = max s.power.step0 (max t0 t1) ∧ t.power.step1 = max s.power.step1 (max t0 t1)) ∧
      (s.oneStep = true → t0 ≠ t1 → ¬hot → t.power = { p with heldStep := some (t0, t1) })) ∧
  (∀ (s : State), s.power.clocksStopped = false → s.oneStep = false →
    (∃ t, exec (.clockStepUpDone 0) s = .next t ∧ t.power.step0 = s.power.up0.getD s.power.step0 ∧ t.power.up0 = none ∧
      t.power.step1 = s.power.step1 ∧ t.power.up1 = s.power.up1 ∧ t.cores = s.cores) ∧
    (∃ t, exec (.clockStepUpDone 1) s = .next t ∧ t.power.step1 = s.power.up1.getD s.power.step1 ∧ t.power.up1 = none ∧
      t.power.step0 = s.power.step0 ∧ t.power.up0 = s.power.up0 ∧ t.cores = s.cores)) ∧
  (∀ (s : State) (die : Nat), s.power.clocksStopped = false → s.oneStep = true →
    let a := s.power.up0.getD s.power.step0
    let b := s.power.up1.getD s.power.step1
    ∃ t, exec (.clockStepUpDone die) s = .next t ∧ t.cores = s.cores ∧ t.basins = s.basins ∧
      ((if die = 0 then s.power.up0 else s.power.up1).isSome = true → a = b →
        t.power.step0 = a ∧ t.power.step1 = b ∧ t.power.up0 = none ∧ t.power.up1 = none) ∧
      ((if die = 0 then s.power.up0 else s.power.up1).isSome = false ∨ a ≠ b → t = s)) ∧
  (∀ (s : State), s.power.step0 = s.power.step1 → s.time0 % 16 = s.time1 % 16 →
    (∀ e ∈ s.basins, s.keepsTime e.2 = false) →
    ∃ t, exec .dieStepReunion s = .next t ∧ t.time0 = s.time0 ∧ t.time1 = s.time0 ∧ t.cores = s.cores ∧ t.power = s.power) ∧
  (∀ (s : State), s.mgmt.phase ≠ .inReset → s.power.refLost = false →
    ∃ t, exec .refclkLost s = .next t ∧ t.power.refLost = true ∧ t.power.holdover = true ∧ t.power.pllLock = false ∧
      t.power.powerLatch = true ∧ t.power.causes.getLsbD 5 = true ∧ t.basins = s.basins ∧ t.cores = s.cores) ∧
  (∀ (s : State), s.power.refLost = true → s.power.refStop = false →
    ∃ t, exec .refclkHoldoverExpiry s = .next t ∧ t.power.clocksStopped = true ∧ t.power.refStop = true ∧
      t.power.faultN = true ∧ t.power.holdover = false ∧ ∀ b, (t.basin b).phase ≠ .running) ∧
  (∀ (s : State), s.power.refLost = true →
    ∃ t, exec .refclkReturn s = .next t ∧ t.power.refLost = false ∧ t.power.holdover = false ∧ t.power.pllLock = true ∧
      (s.power.refStop = true → s.power.tripped = false → t.power.clocksStopped = false ∧ t.power.refStop = false) ∧
      (s.power.refStop = false → t.basins = s.basins ∧ t.cores = s.cores ∧
        t.power.clocksStopped = s.power.clocksStopped))

/-! ### Management and power-up (family MGMT) -/

/-- 13 R366, R384 to R387; 14 R403, R408; 15 R424, R425: a recovery begins a management gap, counts, ends staging and is reported; an
unrepeated one is classified transient later; a gap ends with what waited; an activation that is ready makes its slot the active
one, one that falls back fails with its image still verified; powered time is saved in the flash.
That a recovery during an activation is ignored, and what counts as its repetition, are the model's choices (log 35). -/
def Obligations.Management : Prop :=
  (∀ (s : State) (component cause : Nat), s.mgmt.phase = .ready → s.mgmt.gap = false → component ≤ 5 → 1 ≤ cause → cause ≤ 4 →
    ∃ t, exec (.watchdogRecovery component cause) s = .next t ∧ t.mgmt.wdog = min (2 ^ 16 - 1) (s.mgmt.wdog + 1) ∧
      t.mgmt.recoveries = s.usec :: (s.mgmt.recoveries.filter fun u => decide (s.usec ≤ u + 600000000)) ∧
      (s.fwu.state = 1 ∨ s.fwu.state = 2 → t.fwu.busy = false ∧ t.fwu.state = 0) ∧
      ((s.mgmt.recoveries.filter fun u => decide (s.usec ≤ u + 600000000)).length = 2 → t.mgmt.phase = .recovery)) ∧
  (∀ (s : State) (e : Nat × Nat) (es : List (Nat × Nat)), s.mgmt.unsettled = e :: es → s.mgmt.gap = false →
    ∃ t, exec .mgmtRecoveryClassify s = .next t ∧ t.mgmt.unsettled = es ∧ t.rel.seq = (s.rel.seq + 1) % 2 ^ 32 ∧
      t.rel.log.head? = some { event := 0x0F, kind := 6, cls := 0, addr := e.1, detail := e.2, seq := s.rel.seq,
                               time := s.powered } ∧ t.basins = s.basins ∧ t.cores = s.cores) ∧
  (∀ (s : State), s.mgmt.gap = true → s.mgmt.activating = none ∨ s.mgmt.fallback = true →
    ∃ t, exec .recoveryGapEnd s = .next t ∧ t.mgmt.gapMs = min 65535 (s.mgmt.gapUs / 1000) ∧
      (s.mgmt.held = [] → t.mgmt.gap = false ∧ t.mgmt.recovering = false ∧ t.mgmt.activating = none ∧
        (s.mgmt.activating.isSome = true → t.fwu.state = 3 ∧ t.sec.status = 0x1B))) ∧
  (∀ (s : State), s.mgmt.phase = .ready → ∃ t, exec .poweredTimeSave s = .next t ∧
      t = { s with rel := { s.rel with poweredFlash := s.powered } }) ∧
  (∀ (s : State) (slot commit : Bool), s.mgmt.activating = some (slot, commit) → s.mgmt.gap = true →
    s.mgmt.fallback = false →
    ∃ t, exec .activationReady s = .next t ∧ t.mgmt.activations = min (2 ^ 16 - 1) (s.mgmt.activations + 1) ∧
      (s.mgmt.held = [] → t.fwu.active = slot ∧ t.fwu.state = 0 ∧ t.mgmt.gap = false ∧ t.mgmt.activating = none ∧
      t.sec.svn = (if commit then max s.sec.svn (min 64 (s.slot slot).svn) else s.sec.svn))) ∧
  (∀ (s : State), s.mgmt.gap = true → s.mgmt.activating.isSome = true →
    exec .activationFallback s = .next { s with mgmt := { s.mgmt with fallback := true } })

/-- 13 R369, R371; 14 R407; 15 R418; 17 R460, R464, R465, R470, R473: out of power-on reset XSPI_RESET_N pulses low and the ROM boots the device, or enters its recovery
mode where RECOVERY_N asks for it or no copy of the slot directory is valid; ready, its domains are on and the fence table is applied; and the fall of PWRGOOD or the loss of
VIO or VMGT returns it to power-on reset with the queue of commands, fuses, keys and slots kept.
What of the state a loss of domains keeps beyond flash and fuses is the model's choice (log 5, 28). -/
def Obligations.PowerUp : Prop :=
  (∀ (s : State) (strap ok bad0 bad1 : Bool), s.mgmt.phase = .inReset → s.power.vin ≤ 640 → s.power.undervoltage = false ∨ 400 < s.power.vin →
    ∃ t, exec (.powerOnResetExit strap ⟨ok, bad0, bad1⟩) s = .next t ∧ t.mgmt.pwrgood = true ∧ t.mgmt.vioOk = true ∧
      t.mgmt.recoveryStrap = strap ∧ t.power.pllLock = true ∧ (∃ l, t.outbox = s.outbox ++ .xspiReset :: l) ∧ (strap = true → t.mgmt.phase = .recovery) ∧
      (bad0 = true → bad1 = true → t.mgmt.phase = .recovery) ∧
      (strap = false → t.mgmt.phase = .poweringUp ∨ t.mgmt.phase = .recovery)) ∧
  (∀ (s : State), s.mgmt.phase = .poweringUp →
    ∃ t, exec .powerUpReady s = .next t ∧ t.mgmt.phase = .ready ∧ t.power.latOn = 3 ∧
      t.power.mempOn = 0xFFF ∧ ∀ c, (1, c) ∈ s.rel.fenceTable → (t.core c).fenced = true) ∧
  (∀ (s : State), s.mgmt.pwrgood = true →
    ∃ t, exec .pwrgoodFall s = .next t ∧ t.mgmt.phase = .inReset ∧ t.mgmt.pwrgood = false ∧ t.cores = [] ∧ t.basins = [] ∧
      t.link.up = false ∧ t.pending = s.pending ∧ t.sec.cmdKey = s.sec.cmdKey ∧ t.sec.ownerKeys = s.sec.ownerKeys ∧
      t.sec.svn = s.sec.svn ∧ t.fwu.slotA = s.fwu.slotA ∧ t.fwu.slotB = s.fwu.slotB ∧ t.rel.log = s.rel.log) ∧
  (∀ (s : State), s.mgmt.vioOk = true →
    ∃ t, exec .vioMgtLoss s = .next t ∧ t.mgmt.phase = .inReset ∧ t.mgmt.vioOk = false ∧ t.power.thermN = false ∧
      t.power.faultN = false ∧ t.cores = [] ∧ t.basins = [] ∧ t.sec.svn = s.sec.svn ∧ t.rel.log = s.rel.log)

/-! ### Quarry, firmware, security, sideband, counters and registers (families QUARRY, FWU, SEC, SIDE, PMC, REG) -/

/-- 14 R392 to R401, R411: a core that falls due is tested at once where its basin is at rest; a test that passes leaves the cores' bytes
outside their protected areas zero and their due marks clear; an overdue basin is marked and reported; a shadow comparison that
holds takes the capsule and nothing else, a mismatch that repeats halts the sampled core, and one that does not is charged to the partner; consumed reports free the ring.
What a retest classifies and when a pair was last tested at power-up are the model's choices (log 36). -/
def Obligations.Quarry : Prop :=
  (∀ (s : State) (c : Nat), s.mgmt.phase = .ready → c < 2048 → (s.core c).fenced = false →
    ∃ t, exec (.quarryDue c) s = .next t ∧ c ∈ t.rel.due ∧ t.cores = s.cores ∧ s.sameBytes t ∧
      (∀ b, s.basinOf c = some b → (s.basin b).phase = .idle → s.inTest b = false → s.canTest = true →
        ∀ x ∈ s.liveCores b, x ∈ t.rel.testing)) ∧
  (∀ (s : State) (r : QuarryResult), r.coreA ∈ s.rel.testing → r.failPhase ≤ 6 → s.pairs r.coreA r.coreB = true →
    ∃ t, exec (.quarryTestDone r) s = .next t ∧ t.rel.tests = min (2 ^ 32 - 1) (s.rel.tests + 1) ∧
      (r.failPhase = 0 → r.residue = [] → t.rel.fails = s.rel.fails ∧
      ∀ c, c = r.coreA ∨ c = r.coreB → c ∉ t.rel.due ∧ SMap.get 0 t.rel.lastTest c = s.powered ∧
        ∀ a, t.spByte c a =
          if (s.core c).protectedAreas.any fun p => decide (p.1 ≤ a) && decide (a < p.1 + p.2) then s.spByte c a else 0)) ∧
  (∀ (s : State) (b : Nat), s.mgmt.phase = .ready → (s.basin b).phase ≠ .free →
    ∃ t, exec (.quarryOverdue b) s = .next t ∧ b ∈ t.rel.overdue ∧ t.rel.seq = (s.rel.seq + 1) % 2 ^ 32 ∧
      t.basins = s.basins ∧ t.cores = s.cores) ∧
  (∀ (s : State) (d : Nat) (k : Capsule) (u v : Option Upset), (s.core d).capsule = some k →
    ((k.recompute u).agrees k.tile = true →
      ∃ t, exec (.shadowCompare d u v) s = .next t ∧ t.core d = { s.core d with capsule := none } ∧
        (∀ c, c ≠ d → t.core c = s.core c) ∧ t.basins = s.basins ∧ t.rel = s.rel) ∧
    ((k.recompute u).agrees k.tile = false → (k.recompute v).agrees (k.recompute u) = true →
      ∃ t, exec (.shadowCompare d u v) s = .next t ∧
        ((s.core k.core).hrec.latched = false → (t.core k.core).hrec.latched = true ∧
          (t.core k.core).hrec.cause = 0x09 ∧ (t.core k.core).hrec.detail = 0x04 ∧ (t.core k.core).hrec.stream = 3)) ∧
    ((k.recompute u).agrees k.tile = false → (k.recompute v).agrees (k.recompute u) = false →
      ∃ t, exec (.shadowCompare d u v) s = .next t ∧
        ∃ h ∈ t.rel.history, h.kind = 1 ∧ h.index = d ∧ h.time = s.powered)) ∧
  (∀ (s : State) (v : BitVec 32), s.hostReaches = true →
    ∃ t, exec (.errConsumedWrite v) s = .next t ∧ t.rel.consumed = v.toNat ∧ t.basins = s.basins ∧ t.cores = s.cores)

/-- 15 R416, R418, R420 to R423, R427: staging erases the slot that does not run and takes its blocks, each checked by its CRC before it
is programmed; verification gives the result of the firmware check, and only an image that passes is VERIFIED; an abort makes the slot
INVALID; and RECOVER_BOOT runs a verified slot. The running slot never changes in it.
The digests and signatures are those of the presumed standards (log 9). -/
def Obligations.FirmwareStaging : Prop :=
  (∀ (s : State), s.mgmt.phase = .ready → s.link.up = true → s.link.insecure = false →
    ∃ t, exec .fwuStart s = .next t ∧ t.fwu.active = s.fwu.active ∧ t.slot s.fwu.active = s.slot s.fwu.active ∧
      (s.fwu.busy = false → s.fwu.state ≠ 2 → s.fwu.state ≠ 4 → s.fwu.size % 4096 = 0 → 4096 ≤ s.fwu.size →
        s.fwu.size ≤ 8388608 → t.fwu.state = 1 ∧ t.fwu.result = 0x01 ∧ t.fwu.units = [] ∧ t.fwu.stageSlot = !s.fwu.active ∧
        t.slot (!s.fwu.active) = { st := .staging, size := s.fwu.size }) ∧
      (s.fwu.busy = true ∨ s.fwu.state = 2 ∨ s.fwu.state = 4 → t.fwu = { s.fwu with result := 0x0C })) ∧
  (∀ (s : State) (v : Word), s.mgmt.phase = .ready → s.link.up = true → s.link.insecure = false →
    ∃ t, exec (.fwuBlock v) s = .next t ∧ (s.fwu.busy = true → t = s) ∧
      (s.fwu.busy = false →
        t.fwu = { s.fwu with busy := true, block := some (v.toNat / 2 ^ 32, v.toNat / 2 ^ 16 % 2 ^ 5) })) ∧
  (∀ (s : State) (off len : Nat) (ok : Bool), s.fwu.block = some (off, len) →
    ∃ t, exec (.fwuBlockDone ok) s = .next t ∧ t.fwu.busy = false ∧ t.fwu.block = none ∧
      t.slot (!s.fwu.stageSlot) = s.slot (!s.fwu.stageSlot) ∧
      (∀ r, s.blockCheck off len = some r → t.fwu.result = r ∧ t.slot s.fwu.stageSlot = s.slot s.fwu.stageSlot) ∧
      (s.blockCheck off len = none → ok = true → t.fwu.result = 0x01 ∧
        (∀ i, i < 4096 * len → SMap.get 0 (t.slot s.fwu.stageSlot).bytes (off + i) = SMap.get 0 s.fwu.data i) ∧
        ∀ a, a < off ∨ off + 4096 * len ≤ a →
          SMap.get 0 (t.slot s.fwu.stageSlot).bytes a = SMap.get 0 (s.slot s.fwu.stageSlot).bytes a) ∧
      (s.blockCheck off len = none → ok = false → t.fwu.result = 0x0B ∧ (t.slot s.fwu.stageSlot).st = .invalid ∧
        t.fwu.state = 0)) ∧
  (∀ (s : State), s.mgmt.phase = .ready → s.link.up = true → s.link.insecure = false → s.fwu.busy = false →
    s.fwu.state = 1 ∨ s.fwu.state = 3 →
    ∃ t, exec .fwuVerify s = .next t ∧ t.fwu.slotA = s.fwu.slotA ∧ t.fwu.slotB = s.fwu.slotB ∧
      ((s.slot s.fwu.stageSlot).size / 4096 ≤ s.fwu.units.length → t.fwu.state = 2) ∧
      (s.fwu.units.length < (s.slot s.fwu.stageSlot).size / 4096 → t.fwu.state = s.fwu.state ∧ t.fwu.result = 0x05)) ∧
  (∀ (s : State), s.fwu.state = 2 → s.sec.fips = .operational →
    let f := s.slot s.fwu.stageSlot
    ∃ t, exec .fwuVerifyDone s = .next t ∧ t.fwu.result = fwCheck f.image f.size s.sec.svn ∧
      (t.fwu.result = 0x01 ↔ (t.slot s.fwu.stageSlot).st = .verified) ∧ (t.fwu.result = 0x01 ↔ t.fwu.state = 3) ∧
      t.slot (!s.fwu.stageSlot) = s.slot (!s.fwu.stageSlot) ∧ (t.slot s.fwu.stageSlot).bytes = f.bytes) ∧
  (∀ (s : State), s.mgmt.phase = .ready → s.link.up = true → s.link.insecure = false →
    s.fwu.state = 1 ∨ s.fwu.state = 2 ∨ s.fwu.state = 3 →
    ∃ t, exec .fwuAbort s = .next t ∧ t.fwu.state = 0 ∧ (t.slot s.fwu.stageSlot).st = .invalid ∧
      t.slot (!s.fwu.stageSlot) = s.slot (!s.fwu.stageSlot)) ∧
  (∀ (s : State), s.mgmt.phase = .recovery → s.link.up = true → s.link.insecure = false → s.fwu.state = 3 →
    s.sec.fips = .operational → (s.slot s.fwu.stageSlot).boots s.sec.svn = true →
    ∃ t, exec .recoverBoot s = .next t ∧ t.mgmt.phase = .poweringUp ∧ t.fwu.active = s.fwu.stageSlot ∧ t.fwu.state = 0)

/-- 11 R324; 15 R433, R434, R436, R438 to R441, R443: a new nonce is that of the DRBG and one expires alone; the debug lock ends the
scope; the FIPS error state makes a link with IDE keys insecure; in a secured session the first command key is stored, and no second
one; measurements and challenge are answered with what this boot's alias key signs, and the certificate chain ends in that key's; a session opens on PF0, its keys change, and
in it IDE keys are set.
The signatures, certificates, keys and nonces are free values and the response codes those of DSP0274 (log 9). -/
def Obligations.SecurityServices : Prop :=
  (∀ (s : State), s.hostReaches = true → s.sec.fips = .operational →
    exec .newNonce s = .next { s with
      sec := { s.sec with nonce := some (Config.nonce s.sec.nonceCount), nonceCount := s.sec.nonceCount + 1 } }) ∧
  (∀ (s : State), exec .nonceExpiry s = .next { s with sec := { s.sec with nonce := none } }) ∧
  (∀ (s : State), s.hostReaches = true → exec .debugLock s = .next { s with sec := { s.sec with scope := 0 } }) ∧
  (∀ (s : State), s.mgmt.phase ≠ .inReset → s.sec.fips ≠ .error →
    ∃ t, exec .fipsError s = .next t ∧ t.sec = { s.sec with fips := .error } ∧ t.basins = s.basins ∧ t.cores = s.cores ∧
      (s.link.up = true → s.link.ideKeys = true → t.link = { s.link with insecure := true, ideFail := true }) ∧
      (s.link.ideKeys = false → t.link = s.link)) ∧
  (∀ (s : State) (payload : List Byte), s.hostReaches = true → s.sec.fips = .operational →
    ∃ t, exec (.setCmdKey (.doe .pf0) true Config.vendorId payload) s = .next t ∧
      let st := s.setKeyStatus (.doe .pf0) true payload
      t.outbox = s.outbox ++ [.spdmRsp (.doe .pf0) 0x7E [0x81, BitVec.ofNat 8 st, 0, 0]] ∧
      (st = 0 → t.sec = { s.sec with cmdKey := some (digestVec (payload.drop 4)), lastCounter := 0 }) ∧
      (st ≠ 0 → t.sec = s.sec) ∧ (s.sec.cmdKey.isSome = true → st = 1) ∧ t.basins = s.basins ∧ t.cores = s.cores) ∧
  (∀ (s : State) (port : SpdmPort) (vendor : BitVec 16) (payload : List Byte) (secured : Bool), (∀ f, s.toSpdm port f = f s) →
    port = .mctp ∨ vendor ≠ Config.vendorId →
    exec (.setCmdKey port secured vendor payload) s = .next { s with outbox := s.outbox ++ [.spdmError port] }) ∧
  (∀ (s : State) (port : SpdmPort), (∀ f, s.toSpdm port f = f s) →
    (∀ i m, s.measurement port i = some m → ∃ t, exec (.getMeasurements port i) s = .next t ∧
      t.outbox = s.outbox ++ [.spdmRsp port 0x60 (m ++ Config.spdmSigned s.aliasKey m s.freeCtr)] ∧ t.sec = s.sec) ∧
    (∀ i, s.measurement port i = none →
      exec (.getMeasurements port i) s = .next { s with outbox := s.outbox ++ [.spdmError port] }) ∧
    (∃ t, exec (.getCertificate port 0) s = .next t ∧
      t.outbox = s.outbox ++ [.spdmRsp port 0x02
        (Config.vendorChain (publicKey deviceIdKey) ++ Config.aliasCert deviceIdKey (publicKey s.aliasKey) s.sec.tcbInfo)] ∧
      t.sec = s.sec) ∧
    ∀ n, ∃ t, exec (.challenge port n) s = .next t ∧
      t.outbox = s.outbox ++ [.spdmRsp port 0x03 (vecBytes n ++ Config.spdmSigned s.aliasKey (vecBytes n) s.freeCtr)] ∧
      t.sec = s.sec) ∧
  (∀ (s : State), s.hostReaches = true → s.sec.fips = .operational →
    (∀ x, ∃ t, exec (.keyExchange (.doe .pf0) x) s = .next t ∧ t.sec.sessionFn = some .pf0 ∧
      t.sec.sessionKeys = s.sec.sessionKeys + 1 ∧ t.sec.cmdKey = s.sec.cmdKey) ∧
    (s.sec.sessionFn = some .pf0 →
      (∃ t, exec (.spdmKeyUpdate (.doe .pf0)) s = .next t ∧ t.sec = { s.sec with sessionKeys := s.sec.sessionKeys + 1 } ∧
        t.link = s.link) ∧
      exec (.ideKmKeyProg (.doe .pf0) true) s =
        .next { s with link := { s.link with ideKeys := true, insecure := false } }))

/-- 17 R471, R472: the I3C target takes its dynamic address; each refresh takes every sensor's value and a reading gives that of the
last one; MCTP control answers with the endpoint identifier; without an answer a request is not acknowledged; and five edges of TCK
with TMS high take the TAP to its reset state from anywhere.
The TAP's states are those of IEEE 1149.1, which is the model's presumption (log 21). -/
def Obligations.Sideband : Prop :=
  (∀ (s : State) (a : BitVec 7), s.mgmt.vioOk = true → s.mgmt.phase ≠ .inReset →
    exec (.i3cDynamicAddress a) s = .next { s with side := { s.side with i3cAddr := some a } }) ∧
  (∀ (s : State), s.mgmt.phase = .ready → s.mgmt.gap = false →
    ∃ t, exec .sensorRefresh s = .next t ∧ (∀ x, SMap.get 0 t.side.sensors (sensorKey x) = s.sense x) ∧
      t.power = s.power ∧ t.basins = s.basins ∧ t.cores = s.cores) ∧
  (∀ (s : State) (x : Sensor), exec (.pldmSensorRead x) s =
    .next { s with outbox := s.outbox ++
      [if s.i3cAnswers then .pldm (SMap.get 0 s.side.sensors (sensorKey x)) else .i3cNack] }) ∧
  (∀ (s : State) (e : BitVec 8), s.i3cAnswers = true →
    exec (.mctpControlRequest (.setEndpointId e)) s =
      .next { s with side := { s.side with eid := e }, outbox := s.outbox ++ [.mctp e.toNat] } ∧
    exec (.mctpControlRequest .getEndpointId) s = .next { s with outbox := s.outbox ++ [.mctp s.side.eid.toNat] } ∧
    exec (.mctpControlRequest .discovery) s = .next { s with outbox := s.outbox ++ [.mctp s.side.eid.toNat] }) ∧
  (∀ (s : State) (m : MctpControl), s.i3cAnswers = false →
    exec (.mctpControlRequest m) s = .next { s with outbox := s.outbox ++ [.i3cNack] }) ∧
  (∀ (s : State) (tms tdi : Bool), s.mgmt.vioOk = true →
    ∃ t, exec (.jtagTapOperation tms tdi) s = .next t ∧ t.side.tap = s.side.tap.step tms ∧ t.sec = s.sec ∧
      t.basins = s.basins ∧ t.cores = s.cores) ∧
  (∀ (x : TapState), ((((x.step true).step true).step true).step true).step true = .testLogicReset)

/-- 16 R446, R449 to R456: a snapshot latches every counter and begins a record, or drops it where it does not fit; a record that is
written advances WR_OFF by its length; PMC_CTRL waits for the next tick and does not change the size while EN is 1; RD_OFF frees
bytes, and no more than are unread.
That one snapshot is one tick of T is the model's choice (log 38). -/
def Obligations.Counters : Prop :=
  (∀ (s : State), s.mgmt.phase ≠ .inReset →
    ∃ t, exec .pmcSnapshot s = .next t ∧ t.pmc.tick = s.pmc.tick + s.pmc.effTicks ∧ t.cores = s.cores ∧
      (s.pmc.writing = none → s.pmc.wait = none → t.pmc.counters = s.pmc.counters ∧
      (s.pmc.en = true → t.pmc.latch = s.pmc.counters) ∧
      (s.pmc.en = true → recordBytes s.pmc.groups.toNat + s.pmc.unread ≤ s.pmc.size →
        t.pmc.writing.isSome = true ∧ t.pmc.seq = (s.pmc.seq + 1) % 2 ^ 32 ∧ t.pmc.wrOff = s.pmc.wrOff ∧ t.basins = s.basins) ∧
      (s.pmc.en = true → s.pmc.size < recordBytes s.pmc.groups.toNat + s.pmc.unread →
        t.pmc.writing = none ∧ t.pmc.dropped = min (2 ^ 32 - 1) (s.pmc.dropped + 1) ∧ t.pmc.drop = true ∧
        t.pmc.seq = s.pmc.seq ∧ t.pmc.ring = s.pmc.ring) ∧
      (s.pmc.en = false → t.basins = s.basins ∧ t.pmc.seq = s.pmc.seq))) ∧
  (∀ (s : State) (bs : List Byte), s.pmc.writing = some bs →
    ∃ t, exec .pmcRecordWritten s = .next t ∧ t.pmc.writing = none ∧
      t.pmc.wrOff = (s.pmc.wrOff + bs.length) % 2 ^ s.pmc.sizeLog2 ∧ t.pmc.rdOff = s.pmc.rdOff ∧ t.cores = s.cores ∧
      (bs.length ≤ 2 ^ s.pmc.sizeLog2 → ∀ i, i < bs.length →
        SMap.get 0 t.pmc.ring ((s.pmc.wrOff + i) % 2 ^ s.pmc.sizeLog2) = bs.getD i 0)) ∧
  (∀ (s : State) (v : Word), s.hostReaches = true →
    ∃ t, exec (.pmcCtrlWrite v) s = .next t ∧
      (s.pmc.en = false ∨ max 16 (min 24 (v.toNat / 2 ^ 8 % 2 ^ 5)) = s.pmc.sizeLog2 →
        t = { s with pmc := { s.pmc with wait := some v } }) ∧
      (s.pmc.en = true → max 16 (min 24 (v.toNat / 2 ^ 8 % 2 ^ 5)) ≠ s.pmc.sizeLog2 → t = s)) ∧
  (∀ (s : State) (v : BitVec 32), s.hostReaches = true →
    ∃ t, exec (.rdOffWrite v) s = .next t ∧ t.basins = s.basins ∧ t.cores = s.cores ∧ t.pmc.counters = s.pmc.counters ∧
      (v.toNat < s.pmc.size → (v.toNat + s.pmc.size - s.pmc.rdOff % s.pmc.size) % s.pmc.size ≤ s.pmc.unread →
        t.pmc.rdOff = v.toNat) ∧
      (s.pmc.size ≤ v.toNat ∨ s.pmc.unread < (v.toNat + s.pmc.size - s.pmc.rdOff % s.pmc.size) % s.pmc.size → t = s))

/-- 00 R10, R11, R15; 02 R56, R57; 09 R285, R289; 14 R412: a write of BSN_EVENT clears the bits written 1; protected ranges change in
IDLE and PARKED only; a misaligned access to a bound basin's page leaves that basin undefined, and no other; a 32-bit write of one half changes the fields
within it and no field that spans both; QRY_CTRL takes its fields within
their limits; Weir thresholds are taken where they rise; and an enabled extent keeps its address and its limit.
That a wide write of a global 32-bit register has no effect, and what an undefined basin's values become, are the model's choices (log
39, 40, 89). -/
def Obligations.RegisterWrites : Prop :=
  (∀ (s : State) (b : Nat) (v : Word), s.hostReaches = true → b < 64 → (s.basin b).phase ≠ .free →
    (∃ t, exec (.registerWrite (.vf b) 0x118 false v) s = .next t ∧
      t.basin b = { s.basin b with event := (s.basin b).event &&& ~~~(v.setWidth 32) } ∧ t.cores = s.cores ∧
      ∀ b', b' ≠ b → t.basin b' = s.basin b') ∧
    (∀ i, i < 32 → ∃ t, exec (.registerWrite (.vf b) (0x200 + 8 * i) true v) s = .next t ∧ t.cores = s.cores ∧
      ((s.basin b).phase ≠ .idle → (s.basin b).phase ≠ .parked → (t.basin b).prot = (s.basin b).prot) ∧
      ((s.basin b).phase = .idle ∨ (s.basin b).phase = .parked →
        (SMap.get 0 (t.basin b).prot i).toNat / 2 ^ 21 = v.toNat / 2 ^ 21)) ∧
    (∀ off wide, off < 0x10000 → off % 4 ≠ 0 →
      exec (.registerWrite (.vf b) off wide v) s = .next (s.undefine b)) ∧
    (∀ off, off = 0x140 ∨ off = 0x144 → ∃ t, exec (.registerWrite (.vf b) off false v) s = .next t ∧ t.basin b = s.basin b ∧
      t.cores = s.cores) ∧
    (∀ j, j < 32 → (s.queue b j).notifyLevel < 2 ^ 21 → (s.queue b j).vector < 32 → (s.queue b j).wantDepth = none →
      10 ≤ (s.queue b j).depthLog2 → (s.queue b j).depthLog2 ≤ 20 →
      ∃ t, exec (.registerWrite (.vf b) (0x1004 + 32 * j) false v) s = .next t ∧ (t.queue b j).timeoutUs = v.toNat % 2 ^ 24 ∧
        (t.queue b j).notifyLevel = (s.queue b j).notifyLevel ∧ (t.queue b j).vector = (s.queue b j).vector ∧
        (t.queue b j).depthLog2 = (s.queue b j).depthLog2 ∧ (t.queue b j).items = (s.queue b j).items)) ∧
  (∀ (s : State) (v : Word), s.hostReaches = true →
    ∃ t, exec (.registerWrite .pf0 0x50000 false v) s = .next t ∧ t.basins = s.basins ∧ t.cores = s.cores ∧
      t.rel = { s.rel with
        rateLog2 := max 4 (min 16 (v.toNat / 2 ^ 16 % 2 ^ 5)), shadowEn := v.getLsbD 8, dueH := v.toNat % 2 ^ 5 }) ∧
  (∀ (s : State) (v : BitVec 32), s.hostReaches = true →
    let t1 := min 90 (v.toNat % 2 ^ 8)
    let t2 := min 95 (v.toNat / 2 ^ 8 % 2 ^ 8)
    let t3 := min 100 (v.toNat / 2 ^ 16 % 2 ^ 8)
    let t4 := min 105 (v.toNat / 2 ^ 24)
    ∃ t, exec (.mempWeirThWrite v) s = .next t ∧ t.basins = s.basins ∧ t.cores = s.cores ∧
      (60 ≤ t1 → t1 < t2 → t2 < t3 → t3 < t4 → t.tier.weirTh.toNat = t4 * 2 ^ 24 + t3 * 2 ^ 16 + t2 * 2 ^ 8 + t1) ∧
      (t1 < 60 ∨ t2 ≤ t1 ∨ t3 ≤ t2 ∨ t4 ≤ t3 → t = s)) ∧
  (∀ (s : State) (n : Nat) (v : Word), s.hostReaches = true → n < 8 →
    (SMap.get 0 s.tier.ext (2 * n)).getLsbD 0 = true → exec (.tierHostExtWrite n true v) s = .next s) ∧
  (∀ (s : State) (n : Nat) (v : Word), s.hostReaches = true → n < 8 → (SMap.get 0 s.tier.ext (2 * n)).getLsbD 0 = false →
    ∃ t, exec (.tierHostExtWrite n true v) s = .next t ∧ s.sameBytes t ∧
      (SMap.get 0 t.tier.ext (2 * n + 1)).toNat = v.toNat / 2 ^ 21 * 2 ^ 21 ∧
      ∀ k, k ≠ 2 * n + 1 → SMap.get 0 t.tier.ext k = SMap.get 0 s.tier.ext k) ∧
  (∀ (s : State) (n : Nat) (v : Word), s.hostReaches = true → n < 8 → (∀ m, m < 8 → s.extentUsed m = false) →
    ∃ t, exec (.tierHostExtWrite n false v) s = .next t ∧ s.sameBytes t ∧
      (∀ k, k ≠ 2 * n → SMap.get 0 t.tier.ext k = SMap.get 0 s.tier.ext k) ∧
      ((SMap.get 0 s.tier.ext (2 * n)).getLsbD 0 = false →
        (SMap.get 0 t.tier.ext (2 * n)).toNat = v.toNat / 2 ^ 21 * 2 ^ 21 + v.toNat % 2) ∧
      ((SMap.get 0 s.tier.ext (2 * n)).getLsbD 0 = true →
        (SMap.get 0 t.tier.ext (2 * n)).toNat = (SMap.get 0 s.tier.ext (2 * n)).toNat / 2 ^ 21 * 2 ^ 21 + v.toNat % 2))

/-! ### The machine -/

/-- A step runs the command at the front of the queue on the state with the queue's rest; an empty queue idles, which is the model's
choice (log 2). -/
def Obligations.StepTakesFront : Prop :=
  (∀ (s : State) (c : Instr) (rest : List Instr), s.pending = c :: rest → step s = exec c { s with pending := rest }) ∧
  ∀ s : State, s.pending = [] → step s = .next s

/-- What power-on reset leaves where the spec gives it: no basin bound, no core fenced, no key set, UNCLAIMED; the clocks at step 2,
the gate open, no latch; the limits and thresholds of 09 R289, 13 R388, 14 R412 and 16 R456; the queue empty; and the limits of the
power state hold.
That this state is the power-on reset is the model's choice (log 5). -/
def Obligations.ResetValues : Prop :=
  let r := State.reset
  r.pending = [] ∧ (∀ b, r.basin b = {} ∧ (r.basin b).phase = .free) ∧ (∀ c, (r.core c).fenced = false) ∧
    r.mgmt.phase = .inReset ∧ r.link.up = false ∧ r.link.attach = 0 ∧ r.sec.cmdKey = none ∧ r.sec.status = 0 ∧
    r.sec.scope = 0 ∧ r.power.step0 = 2 ∧ r.power.step1 = 2 ∧ r.power.gate = 0 ∧ r.latched = false ∧ r.power.causes = 0 ∧
    r.power.cap = 2600 ∧ r.power.ilim = 72 ∧ r.power.throttle = 95 ∧ r.power.emerg = 105 ∧ r.power.trip = 115 ∧
    r.power.clusterOn = 0 ∧ r.tier.weirTh = 0x69645F5A ∧ r.rel.rateLog2 = 10 ∧ r.rel.dueH = 20 ∧ r.rel.produced = 0 ∧
    r.pmc.en = false ∧ r.pmc.sizeLog2 = 24 ∧ r.pmc.windowTicks = 100 ∧ r.pmc.groups = 0xFF ∧ r.powerLegal

/-- Every command completes, in every state and on every operand: it answers a next state, neither a fault nor a refusal; and none
adds to the queue of commands or takes from it. -/
def Obligations.QueueUntouched : Prop :=
  ∀ (c : Instr) (s : State), ∃ t, exec c s = .next t ∧ t.pending = s.pending

/-- 13 R375, R380, R388: every step keeps the limits of the power state: the gate never exceeds 12, each die runs at one of the three
steps and is raised to one of them, the power cap stays within 600 to 2,600 W, and THROTTLE never exceeds 95 °C. -/
def Obligations.PowerStaysLegal : Prop :=
  ∀ s t : State, s.powerLegal → step s = .next t → t.powerLegal

/-- 15 R414: a fuse is never restored: no step lowers the number of blown SVN fuses. -/
def Obligations.SvnNeverFalls : Prop :=
  ∀ s t : State, step s = .next t → s.sec.svn ≤ t.sec.svn
end

