-- ==== Sys2Proof/Laws/Maps.lean ====
section
/-! SUPPORT. The laws of sparse maps: reading after writing, and that every map operation keeps the canonical form. -/

namespace Sys2Proof.Machine

@[simp] theorem SMap.get_nil {α : Type} (d : α) (k : Nat) : SMap.get d [] k = d := rfl

@[simp] theorem SMap.get_cons {α : Type} (d : α) (p : Nat × α) (m : SMap α) (k : Nat) :
    SMap.get d (p :: m) k = if p.1 = k then p.2 else SMap.get d m k := rfl

variable {α : Type} [DecidableEq α]

omit [DecidableEq α] in
theorem SMap.get_erase (d : α) (m : SMap α) (k j : Nat) :
    SMap.get d (SMap.erase m k) j = if k = j then d else SMap.get d m j := by
  induction m with
  | nil => simp [SMap.erase, SMap.get]
  | cons p m ih =>
    obtain ⟨a, v⟩ := p
    by_cases ha : a = k
    · simp only [SMap.erase, List.filter_cons, ha, decide_true, Bool.not_true, Bool.false_eq_true, ↓reduceIte, SMap.get]
      rw [show List.filter (fun e => !decide (e.1 = k)) m = SMap.erase m k from rfl, ih]
      by_cases hk : k = j <;> simp [hk]
    · simp only [SMap.erase, List.filter_cons, ha, decide_false, Bool.not_false, ↓reduceIte, SMap.get]
      rw [show List.filter (fun e => !decide (e.1 = k)) m = SMap.erase m k from rfl, ih]
      by_cases hj : a = j
      · subst hj; simp [Ne.symm ha]
      · simp [hj]

omit [DecidableEq α] in
theorem SMap.get_insert (d : α) (m : SMap α) (k : Nat) (v : α) (j : Nat) :
    SMap.get d (SMap.insert m k v) j = if k = j then v else SMap.get d m j := by
  induction m with
  | nil => simp [SMap.insert, SMap.get]
  | cons p m ih =>
    obtain ⟨a, w⟩ := p
    simp only [SMap.insert]
    split
    · simp [SMap.get]
    · split
      · rename_i h; subst h; simp only [SMap.get]; by_cases hj : k = j <;> simp [hj]
      · rename_i h; simp only [SMap.get, ih]
        by_cases hj : a = j
        · subst hj; simp [h]
        · simp [hj]

/-- Reading after writing: the value written at its key, and what was there at every other. -/
theorem SMap.get_set (d : α) (m : SMap α) (k : Nat) (v : α) (j : Nat) :
    SMap.get d (SMap.set d m k v) j = if k = j then v else SMap.get d m j := by
  simp only [SMap.set]
  split
  · rename_i h; rw [SMap.get_erase, h]
  · exact SMap.get_insert d m k v j

@[simp] theorem SMap.get_set_self (d : α) (m : SMap α) (k : Nat) (v : α) : SMap.get d (SMap.set d m k v) k = v := by
  simp [SMap.get_set]

theorem SMap.get_set_ne (d : α) (m : SMap α) {k j : Nat} (v : α) (h : k ≠ j) :
    SMap.get d (SMap.set d m k v) j = SMap.get d m j := by
  simp [SMap.get_set, h]

/-- Reading after a run of writes. -/
theorem SMap.get_setList (d : α) (m : SMap α) (k : Nat) (vs : List α) (j : Nat) :
    SMap.get d (SMap.setList d m k vs) j =
      if h : k ≤ j ∧ j < k + vs.length then vs[j - k]'(by omega) else SMap.get d m j := by
  induction vs generalizing m k with
  | nil =>
    have h : ¬ (k ≤ j ∧ j < k + ([] : List α).length) := by simp
    rw [dif_neg h]; rfl
  | cons v vs ih =>
    rw [SMap.setList, ih, SMap.get_set]
    simp only [List.length_cons]
    by_cases h1 : k + 1 ≤ j ∧ j < k + 1 + vs.length
    · have h2 : k ≤ j ∧ j < k + (vs.length + 1) := by omega
      rw [dif_pos h1, dif_pos h2]
      have e : j - k = (j - (k + 1)) + 1 := by omega
      simp only [e, List.getElem_cons_succ]
    · rw [dif_neg h1]
      by_cases h3 : k = j
      · subst h3
        rw [dif_pos (by omega), if_pos rfl]; simp
      · rw [if_neg h3, dif_neg (by omega)]

/-! ### The canonical form -/

theorem SMap.wfFrom_mono {d : α} {lo lo' : Nat} {m : SMap α} (h : lo' ≤ lo) (hw : SMap.wfFrom d lo m = true) :
    SMap.wfFrom d lo' m = true := by
  cases m with
  | nil => rfl
  | cons p m =>
    simp only [SMap.wfFrom, Bool.and_eq_true, decide_eq_true_eq] at hw ⊢
    exact ⟨⟨by omega, hw.1.2⟩, hw.2⟩

/-- A filtered map keeps the form. -/
theorem SMap.wfFrom_filter {d : α} {lo : Nat} {m : SMap α} (f : Nat × α → Bool) (hw : SMap.wfFrom d lo m = true) :
    SMap.wfFrom d lo (m.filter f) = true := by
  induction m generalizing lo with
  | nil => rfl
  | cons p m ih =>
    obtain ⟨k, v⟩ := p
    simp only [SMap.wfFrom, Bool.and_eq_true, decide_eq_true_eq] at hw
    simp only [List.filter_cons]
    split
    · simp only [SMap.wfFrom, Bool.and_eq_true, decide_eq_true_eq]
      exact ⟨hw.1, ih hw.2⟩
    · exact ih (SMap.wfFrom_mono (by omega) hw.2)

theorem SMap.wfFrom_insert {d : α} {lo : Nat} {m : SMap α} {k : Nat} {v : α} (hw : SMap.wfFrom d lo m = true)
    (hk : lo ≤ k) (hv : v ≠ d) : SMap.wfFrom d lo (SMap.insert m k v) = true := by
  induction m generalizing lo with
  | nil => simp [SMap.insert, SMap.wfFrom, hk, hv]
  | cons p m ih =>
    obtain ⟨a, w⟩ := p
    simp only [SMap.wfFrom, Bool.and_eq_true, decide_eq_true_eq] at hw
    simp only [SMap.insert]
    split
    · simp only [SMap.wfFrom, Bool.and_eq_true, decide_eq_true_eq]
      exact ⟨⟨hk, hv⟩, ⟨by omega, hw.1.2⟩, hw.2⟩
    · split
      · rename_i h; subst h
        simp only [SMap.wfFrom, Bool.and_eq_true, decide_eq_true_eq]
        exact ⟨⟨hk, hv⟩, hw.2⟩
      · simp only [SMap.wfFrom, Bool.and_eq_true, decide_eq_true_eq]
        exact ⟨hw.1, ih hw.2 (by omega)⟩

/-- A write keeps the canonical form. -/
theorem SMap.wf_set {d : α} {m : SMap α} (k : Nat) (v : α) (hw : SMap.wf d m = true) :
    SMap.wf d (SMap.set d m k v) = true := by
  simp only [SMap.wf, SMap.set] at *
  split
  · exact SMap.wfFrom_filter _ hw
  · rename_i h; exact SMap.wfFrom_insert hw (Nat.zero_le _) h

theorem SMap.wf_upd {d : α} {m : SMap α} (k : Nat) (f : α → α) (hw : SMap.wf d m = true) :
    SMap.wf d (SMap.upd d m k f) = true := SMap.wf_set k _ hw

theorem SMap.wf_setList {d : α} {m : SMap α} (k : Nat) (vs : List α) (hw : SMap.wf d m = true) :
    SMap.wf d (SMap.setList d m k vs) = true := by
  induction vs generalizing m k with
  | nil => exact hw
  | cons v vs ih => exact ih (k + 1) (SMap.wf_set k v hw)

theorem SMap.wf_clear {d : α} {m : SMap α} (lo hi : Nat) (hw : SMap.wf d m = true) :
    SMap.wf d (SMap.clear m lo hi) = true := SMap.wfFrom_filter _ hw

theorem SMap.wf_range {d : α} {m : SMap α} (lo hi : Nat) (hw : SMap.wf d m = true) :
    SMap.wf d (SMap.range m lo hi) = true := SMap.wfFrom_filter _ hw

theorem SMap.wfFrom_filterMap {d : α} {lo : Nat} {m : SMap α} (g : Nat → α) (hw : SMap.wfFrom d lo m = true) :
    SMap.wfFrom d lo (m.filterMap fun e => if g e.1 = d then none else some (e.1, g e.1)) = true := by
  induction m generalizing lo with
  | nil => rfl
  | cons p m ih =>
    obtain ⟨k, v⟩ := p
    simp only [SMap.wfFrom, Bool.and_eq_true, decide_eq_true_eq] at hw
    simp only [List.filterMap_cons]
    by_cases h : g k = d
    · simp only [h, if_true]
      exact SMap.wfFrom_mono (by omega) (ih hw.2)
    · simp only [h, if_false, SMap.wfFrom, Bool.and_eq_true, decide_eq_true_eq]
      exact ⟨⟨hw.1.1, h⟩, ih hw.2⟩

theorem SMap.wf_mapV {d : α} {m : SMap α} (f : Nat → α → α) (hw : SMap.wf d m = true) :
    SMap.wf d (SMap.mapV d m f) = true := SMap.wfFrom_filterMap (fun k => f k (SMap.get d m k)) hw

theorem SMap.get_filterMap (d : α) (m : SMap α) (g : Nat → α) (j : Nat) :
    ((∃ e ∈ m, e.1 = j) →
      SMap.get d (m.filterMap fun e => if g e.1 = d then none else some (e.1, g e.1)) j = g j) ∧
    ((∀ e ∈ m, e.1 ≠ j) →
      SMap.get d (m.filterMap fun e => if g e.1 = d then none else some (e.1, g e.1)) j = d) := by
  induction m with
  | nil => exact ⟨fun h => by simp at h, fun _ => rfl⟩
  | cons p m ih =>
    obtain ⟨k, v⟩ := p
    by_cases h : g k = d
    · simp only [List.filterMap_cons, h, if_true]
      refine ⟨fun ⟨e, he, hj⟩ => ?_, fun hn => ih.2 fun e he => hn e (List.mem_cons_of_mem _ he)⟩
      by_cases hm : ∃ e ∈ m, e.1 = j
      · exact ih.1 hm
      · rcases List.mem_cons.1 he with rfl | he
        · rw [ih.2 fun e he he' => hm ⟨e, he, he'⟩]; subst hj; exact h.symm
        · exact absurd ⟨e, he, hj⟩ hm
    · simp only [List.filterMap_cons, h, if_false, SMap.get]
      by_cases hk : k = j
      · subst hk
        exact ⟨fun _ => if_pos rfl, fun hn => absurd rfl (hn _ List.mem_cons_self)⟩
      · rw [if_neg hk]
        refine ⟨fun ⟨e, he, hj⟩ => ?_, fun hn => ih.2 fun e he => hn e (List.mem_cons_of_mem _ he)⟩
        rcases List.mem_cons.1 he with rfl | he
        · exact absurd hj hk
        · exact ih.1 ⟨e, he, hj⟩

omit [DecidableEq α] in
theorem SMap.get_unlisted (d : α) (m : SMap α) (j : Nat) (h : ∀ e ∈ m, e.1 ≠ j) : SMap.get d m j = d := by
  induction m with
  | nil => rfl
  | cons p m ih =>
    rw [SMap.get_cons, if_neg (h p List.mem_cons_self)]
    exact ih fun e he => h e (List.mem_cons_of_mem _ he)

/-- Reading after every value has been changed by a function that keeps the default. -/
theorem SMap.get_mapV (d : α) (m : SMap α) (f : Nat → α → α) (j : Nat) (hd : f j d = d) :
    SMap.get d (SMap.mapV d m f) j = f j (SMap.get d m j) := by
  have h := SMap.get_filterMap d m (fun k => f k (SMap.get d m k)) j
  by_cases hm : ∃ e ∈ m, e.1 = j
  · exact h.1 hm
  · have hn : ∀ e ∈ m, e.1 ≠ j := fun e he he' => hm ⟨e, he, he'⟩
    rw [SMap.get_unlisted d m j hn, hd]
    exact h.2 hn

end Sys2Proof.Machine
end

