-- ==== Sys2Proof/Laws/State.lean ====
section
/-! SUPPORT. What each named update of the state leaves: one lemma for each field and update, and reading a part of the state
after an update of it. -/

namespace Sys2Proof.Machine

variable (s : State)

/-! ### setBasin -/

@[simp] theorem State.setBasin_pending (b : Nat) (v : Basin) : (s.setBasin b v).pending = s.pending := rfl
@[simp] theorem State.setBasin_freeCtr (b : Nat) (v : Basin) : (s.setBasin b v).freeCtr = s.freeCtr := rfl
@[simp] theorem State.setBasin_usec (b : Nat) (v : Basin) : (s.setBasin b v).usec = s.usec := rfl
@[simp] theorem State.setBasin_outbox (b : Nat) (v : Basin) : (s.setBasin b v).outbox = s.outbox := rfl
@[simp] theorem State.setBasin_glbId (b : Nat) (v : Basin) : (s.setBasin b v).glbId = s.glbId := rfl
@[simp] theorem State.setBasin_mgmt (b : Nat) (v : Basin) : (s.setBasin b v).mgmt = s.mgmt := rfl
@[simp] theorem State.setBasin_power (b : Nat) (v : Basin) : (s.setBasin b v).power = s.power := rfl
@[simp] theorem State.setBasin_link (b : Nat) (v : Basin) : (s.setBasin b v).link = s.link := rfl
@[simp] theorem State.setBasin_pf0Msix (b : Nat) (v : Basin) : (s.setBasin b v).pf0Msix = s.pf0Msix := rfl
@[simp] theorem State.setBasin_time0 (b : Nat) (v : Basin) : (s.setBasin b v).time0 = s.time0 := rfl
@[simp] theorem State.setBasin_time1 (b : Nat) (v : Basin) : (s.setBasin b v).time1 = s.time1 := rfl
@[simp] theorem State.setBasin_cores (b : Nat) (v : Basin) : (s.setBasin b v).cores = s.cores := rfl
@[simp] theorem State.setBasin_links (b : Nat) (v : Basin) : (s.setBasin b v).links = s.links := rfl
@[simp] theorem State.setBasin_extQ (b : Nat) (v : Basin) : (s.setBasin b v).extQ = s.extQ := rfl
@[simp] theorem State.setBasin_portalQ (b : Nat) (v : Basin) : (s.setBasin b v).portalQ = s.portalQ := rfl
@[simp] theorem State.setBasin_transit (b : Nat) (v : Basin) : (s.setBasin b v).transit = s.transit := rfl
@[simp] theorem State.setBasin_transitTurn (b : Nat) (v : Basin) : (s.setBasin b v).transitTurn = s.transitTurn := rfl
@[simp] theorem State.setBasin_adders (b : Nat) (v : Basin) : (s.setBasin b v).adders = s.adders := rfl
@[simp] theorem State.setBasin_seamTaken (b : Nat) (v : Basin) : (s.setBasin b v).seamTaken = s.seamTaken := rfl
@[simp] theorem State.setBasin_seamResent (b : Nat) (v : Basin) : (s.setBasin b v).seamResent = s.seamResent := rfl
@[simp] theorem State.setBasin_seamPoisoned (b : Nat) (v : Basin) : (s.setBasin b v).seamPoisoned = s.seamPoisoned := rfl
@[simp] theorem State.setBasin_ports (b : Nat) (v : Basin) : (s.setBasin b v).ports = s.ports := rfl
@[simp] theorem State.setBasin_stageReqs (b : Nat) (v : Basin) : (s.setBasin b v).stageReqs = s.stageReqs := rfl
@[simp] theorem State.setBasin_hostQ (b : Nat) (v : Basin) : (s.setBasin b v).hostQ = s.hostQ := rfl
@[simp] theorem State.setBasin_tier (b : Nat) (v : Basin) : (s.setBasin b v).tier = s.tier := rfl
@[simp] theorem State.setBasin_whs (b : Nat) (v : Basin) : (s.setBasin b v).whs = s.whs := rfl
@[simp] theorem State.setBasin_norms (b : Nat) (v : Basin) : (s.setBasin b v).norms = s.norms := rfl
@[simp] theorem State.setBasin_trust (b : Nat) (v : Basin) : (s.setBasin b v).trust = s.trust := rfl
@[simp] theorem State.setBasin_passes (b : Nat) (v : Basin) : (s.setBasin b v).passes = s.passes := rfl
@[simp] theorem State.setBasin_eth (b : Nat) (v : Basin) : (s.setBasin b v).eth = s.eth := rfl
@[simp] theorem State.setBasin_qps (b : Nat) (v : Basin) : (s.setBasin b v).qps = s.qps := rfl
@[simp] theorem State.setBasin_qsets (b : Nat) (v : Basin) : (s.setBasin b v).qsets = s.qsets := rfl
@[simp] theorem State.setBasin_fwu (b : Nat) (v : Basin) : (s.setBasin b v).fwu = s.fwu := rfl
@[simp] theorem State.setBasin_sec (b : Nat) (v : Basin) : (s.setBasin b v).sec = s.sec := rfl
@[simp] theorem State.setBasin_rel (b : Nat) (v : Basin) : (s.setBasin b v).rel = s.rel := rfl
@[simp] theorem State.setBasin_pmc (b : Nat) (v : Basin) : (s.setBasin b v).pmc = s.pmc := rfl
@[simp] theorem State.setBasin_side (b : Nat) (v : Basin) : (s.setBasin b v).side = s.side := rfl

/-! ### updBasin -/

@[simp] theorem State.updBasin_pending (b : Nat) (f : Basin → Basin) : (s.updBasin b f).pending = s.pending := rfl
@[simp] theorem State.updBasin_freeCtr (b : Nat) (f : Basin → Basin) : (s.updBasin b f).freeCtr = s.freeCtr := rfl
@[simp] theorem State.updBasin_usec (b : Nat) (f : Basin → Basin) : (s.updBasin b f).usec = s.usec := rfl
@[simp] theorem State.updBasin_outbox (b : Nat) (f : Basin → Basin) : (s.updBasin b f).outbox = s.outbox := rfl
@[simp] theorem State.updBasin_glbId (b : Nat) (f : Basin → Basin) : (s.updBasin b f).glbId = s.glbId := rfl
@[simp] theorem State.updBasin_mgmt (b : Nat) (f : Basin → Basin) : (s.updBasin b f).mgmt = s.mgmt := rfl
@[simp] theorem State.updBasin_power (b : Nat) (f : Basin → Basin) : (s.updBasin b f).power = s.power := rfl
@[simp] theorem State.updBasin_link (b : Nat) (f : Basin → Basin) : (s.updBasin b f).link = s.link := rfl
@[simp] theorem State.updBasin_pf0Msix (b : Nat) (f : Basin → Basin) : (s.updBasin b f).pf0Msix = s.pf0Msix := rfl
@[simp] theorem State.updBasin_time0 (b : Nat) (f : Basin → Basin) : (s.updBasin b f).time0 = s.time0 := rfl
@[simp] theorem State.updBasin_time1 (b : Nat) (f : Basin → Basin) : (s.updBasin b f).time1 = s.time1 := rfl
@[simp] theorem State.updBasin_cores (b : Nat) (f : Basin → Basin) : (s.updBasin b f).cores = s.cores := rfl
@[simp] theorem State.updBasin_links (b : Nat) (f : Basin → Basin) : (s.updBasin b f).links = s.links := rfl
@[simp] theorem State.updBasin_extQ (b : Nat) (f : Basin → Basin) : (s.updBasin b f).extQ = s.extQ := rfl
@[simp] theorem State.updBasin_portalQ (b : Nat) (f : Basin → Basin) : (s.updBasin b f).portalQ = s.portalQ := rfl
@[simp] theorem State.updBasin_transit (b : Nat) (f : Basin → Basin) : (s.updBasin b f).transit = s.transit := rfl
@[simp] theorem State.updBasin_transitTurn (b : Nat) (f : Basin → Basin) : (s.updBasin b f).transitTurn = s.transitTurn := rfl
@[simp] theorem State.updBasin_adders (b : Nat) (f : Basin → Basin) : (s.updBasin b f).adders = s.adders := rfl
@[simp] theorem State.updBasin_seamTaken (b : Nat) (f : Basin → Basin) : (s.updBasin b f).seamTaken = s.seamTaken := rfl
@[simp] theorem State.updBasin_seamResent (b : Nat) (f : Basin → Basin) : (s.updBasin b f).seamResent = s.seamResent := rfl
@[simp] theorem State.updBasin_seamPoisoned (b : Nat) (f : Basin → Basin) : (s.updBasin b f).seamPoisoned = s.seamPoisoned := rfl
@[simp] theorem State.updBasin_ports (b : Nat) (f : Basin → Basin) : (s.updBasin b f).ports = s.ports := rfl
@[simp] theorem State.updBasin_stageReqs (b : Nat) (f : Basin → Basin) : (s.updBasin b f).stageReqs = s.stageReqs := rfl
@[simp] theorem State.updBasin_hostQ (b : Nat) (f : Basin → Basin) : (s.updBasin b f).hostQ = s.hostQ := rfl
@[simp] theorem State.updBasin_tier (b : Nat) (f : Basin → Basin) : (s.updBasin b f).tier = s.tier := rfl
@[simp] theorem State.updBasin_whs (b : Nat) (f : Basin → Basin) : (s.updBasin b f).whs = s.whs := rfl
@[simp] theorem State.updBasin_norms (b : Nat) (f : Basin → Basin) : (s.updBasin b f).norms = s.norms := rfl
@[simp] theorem State.updBasin_trust (b : Nat) (f : Basin → Basin) : (s.updBasin b f).trust = s.trust := rfl
@[simp] theorem State.updBasin_passes (b : Nat) (f : Basin → Basin) : (s.updBasin b f).passes = s.passes := rfl
@[simp] theorem State.updBasin_eth (b : Nat) (f : Basin → Basin) : (s.updBasin b f).eth = s.eth := rfl
@[simp] theorem State.updBasin_qps (b : Nat) (f : Basin → Basin) : (s.updBasin b f).qps = s.qps := rfl
@[simp] theorem State.updBasin_qsets (b : Nat) (f : Basin → Basin) : (s.updBasin b f).qsets = s.qsets := rfl
@[simp] theorem State.updBasin_fwu (b : Nat) (f : Basin → Basin) : (s.updBasin b f).fwu = s.fwu := rfl
@[simp] theorem State.updBasin_sec (b : Nat) (f : Basin → Basin) : (s.updBasin b f).sec = s.sec := rfl
@[simp] theorem State.updBasin_rel (b : Nat) (f : Basin → Basin) : (s.updBasin b f).rel = s.rel := rfl
@[simp] theorem State.updBasin_pmc (b : Nat) (f : Basin → Basin) : (s.updBasin b f).pmc = s.pmc := rfl
@[simp] theorem State.updBasin_side (b : Nat) (f : Basin → Basin) : (s.updBasin b f).side = s.side := rfl

/-! ### setCore -/

@[simp] theorem State.setCore_pending (c : Nat) (v : Core) : (s.setCore c v).pending = s.pending := rfl
@[simp] theorem State.setCore_freeCtr (c : Nat) (v : Core) : (s.setCore c v).freeCtr = s.freeCtr := rfl
@[simp] theorem State.setCore_usec (c : Nat) (v : Core) : (s.setCore c v).usec = s.usec := rfl
@[simp] theorem State.setCore_outbox (c : Nat) (v : Core) : (s.setCore c v).outbox = s.outbox := rfl
@[simp] theorem State.setCore_glbId (c : Nat) (v : Core) : (s.setCore c v).glbId = s.glbId := rfl
@[simp] theorem State.setCore_mgmt (c : Nat) (v : Core) : (s.setCore c v).mgmt = s.mgmt := rfl
@[simp] theorem State.setCore_power (c : Nat) (v : Core) : (s.setCore c v).power = s.power := rfl
@[simp] theorem State.setCore_link (c : Nat) (v : Core) : (s.setCore c v).link = s.link := rfl
@[simp] theorem State.setCore_pf0Msix (c : Nat) (v : Core) : (s.setCore c v).pf0Msix = s.pf0Msix := rfl
@[simp] theorem State.setCore_time0 (c : Nat) (v : Core) : (s.setCore c v).time0 = s.time0 := rfl
@[simp] theorem State.setCore_time1 (c : Nat) (v : Core) : (s.setCore c v).time1 = s.time1 := rfl
@[simp] theorem State.setCore_basins (c : Nat) (v : Core) : (s.setCore c v).basins = s.basins := rfl
@[simp] theorem State.setCore_links (c : Nat) (v : Core) : (s.setCore c v).links = s.links := rfl
@[simp] theorem State.setCore_extQ (c : Nat) (v : Core) : (s.setCore c v).extQ = s.extQ := rfl
@[simp] theorem State.setCore_portalQ (c : Nat) (v : Core) : (s.setCore c v).portalQ = s.portalQ := rfl
@[simp] theorem State.setCore_transit (c : Nat) (v : Core) : (s.setCore c v).transit = s.transit := rfl
@[simp] theorem State.setCore_transitTurn (c : Nat) (v : Core) : (s.setCore c v).transitTurn = s.transitTurn := rfl
@[simp] theorem State.setCore_adders (c : Nat) (v : Core) : (s.setCore c v).adders = s.adders := rfl
@[simp] theorem State.setCore_seamTaken (c : Nat) (v : Core) : (s.setCore c v).seamTaken = s.seamTaken := rfl
@[simp] theorem State.setCore_seamResent (c : Nat) (v : Core) : (s.setCore c v).seamResent = s.seamResent := rfl
@[simp] theorem State.setCore_seamPoisoned (c : Nat) (v : Core) : (s.setCore c v).seamPoisoned = s.seamPoisoned := rfl
@[simp] theorem State.setCore_ports (c : Nat) (v : Core) : (s.setCore c v).ports = s.ports := rfl
@[simp] theorem State.setCore_stageReqs (c : Nat) (v : Core) : (s.setCore c v).stageReqs = s.stageReqs := rfl
@[simp] theorem State.setCore_hostQ (c : Nat) (v : Core) : (s.setCore c v).hostQ = s.hostQ := rfl
@[simp] theorem State.setCore_tier (c : Nat) (v : Core) : (s.setCore c v).tier = s.tier := rfl
@[simp] theorem State.setCore_whs (c : Nat) (v : Core) : (s.setCore c v).whs = s.whs := rfl
@[simp] theorem State.setCore_norms (c : Nat) (v : Core) : (s.setCore c v).norms = s.norms := rfl
@[simp] theorem State.setCore_trust (c : Nat) (v : Core) : (s.setCore c v).trust = s.trust := rfl
@[simp] theorem State.setCore_passes (c : Nat) (v : Core) : (s.setCore c v).passes = s.passes := rfl
@[simp] theorem State.setCore_eth (c : Nat) (v : Core) : (s.setCore c v).eth = s.eth := rfl
@[simp] theorem State.setCore_qps (c : Nat) (v : Core) : (s.setCore c v).qps = s.qps := rfl
@[simp] theorem State.setCore_qsets (c : Nat) (v : Core) : (s.setCore c v).qsets = s.qsets := rfl
@[simp] theorem State.setCore_fwu (c : Nat) (v : Core) : (s.setCore c v).fwu = s.fwu := rfl
@[simp] theorem State.setCore_sec (c : Nat) (v : Core) : (s.setCore c v).sec = s.sec := rfl
@[simp] theorem State.setCore_rel (c : Nat) (v : Core) : (s.setCore c v).rel = s.rel := rfl
@[simp] theorem State.setCore_pmc (c : Nat) (v : Core) : (s.setCore c v).pmc = s.pmc := rfl
@[simp] theorem State.setCore_side (c : Nat) (v : Core) : (s.setCore c v).side = s.side := rfl

/-! ### updCore -/

@[simp] theorem State.updCore_pending (c : Nat) (f : Core → Core) : (s.updCore c f).pending = s.pending := rfl
@[simp] theorem State.updCore_freeCtr (c : Nat) (f : Core → Core) : (s.updCore c f).freeCtr = s.freeCtr := rfl
@[simp] theorem State.updCore_usec (c : Nat) (f : Core → Core) : (s.updCore c f).usec = s.usec := rfl
@[simp] theorem State.updCore_outbox (c : Nat) (f : Core → Core) : (s.updCore c f).outbox = s.outbox := rfl
@[simp] theorem State.updCore_glbId (c : Nat) (f : Core → Core) : (s.updCore c f).glbId = s.glbId := rfl
@[simp] theorem State.updCore_mgmt (c : Nat) (f : Core → Core) : (s.updCore c f).mgmt = s.mgmt := rfl
@[simp] theorem State.updCore_power (c : Nat) (f : Core → Core) : (s.updCore c f).power = s.power := rfl
@[simp] theorem State.updCore_link (c : Nat) (f : Core → Core) : (s.updCore c f).link = s.link := rfl
@[simp] theorem State.updCore_pf0Msix (c : Nat) (f : Core → Core) : (s.updCore c f).pf0Msix = s.pf0Msix := rfl
@[simp] theorem State.updCore_time0 (c : Nat) (f : Core → Core) : (s.updCore c f).time0 = s.time0 := rfl
@[simp] theorem State.updCore_time1 (c : Nat) (f : Core → Core) : (s.updCore c f).time1 = s.time1 := rfl
@[simp] theorem State.updCore_basins (c : Nat) (f : Core → Core) : (s.updCore c f).basins = s.basins := rfl
@[simp] theorem State.updCore_links (c : Nat) (f : Core → Core) : (s.updCore c f).links = s.links := rfl
@[simp] theorem State.updCore_extQ (c : Nat) (f : Core → Core) : (s.updCore c f).extQ = s.extQ := rfl
@[simp] theorem State.updCore_portalQ (c : Nat) (f : Core → Core) : (s.updCore c f).portalQ = s.portalQ := rfl
@[simp] theorem State.updCore_transit (c : Nat) (f : Core → Core) : (s.updCore c f).transit = s.transit := rfl
@[simp] theorem State.updCore_transitTurn (c : Nat) (f : Core → Core) : (s.updCore c f).transitTurn = s.transitTurn := rfl
@[simp] theorem State.updCore_adders (c : Nat) (f : Core → Core) : (s.updCore c f).adders = s.adders := rfl
@[simp] theorem State.updCore_seamTaken (c : Nat) (f : Core → Core) : (s.updCore c f).seamTaken = s.seamTaken := rfl
@[simp] theorem State.updCore_seamResent (c : Nat) (f : Core → Core) : (s.updCore c f).seamResent = s.seamResent := rfl
@[simp] theorem State.updCore_seamPoisoned (c : Nat) (f : Core → Core) : (s.updCore c f).seamPoisoned = s.seamPoisoned := rfl
@[simp] theorem State.updCore_ports (c : Nat) (f : Core → Core) : (s.updCore c f).ports = s.ports := rfl
@[simp] theorem State.updCore_stageReqs (c : Nat) (f : Core → Core) : (s.updCore c f).stageReqs = s.stageReqs := rfl
@[simp] theorem State.updCore_hostQ (c : Nat) (f : Core → Core) : (s.updCore c f).hostQ = s.hostQ := rfl
@[simp] theorem State.updCore_tier (c : Nat) (f : Core → Core) : (s.updCore c f).tier = s.tier := rfl
@[simp] theorem State.updCore_whs (c : Nat) (f : Core → Core) : (s.updCore c f).whs = s.whs := rfl
@[simp] theorem State.updCore_norms (c : Nat) (f : Core → Core) : (s.updCore c f).norms = s.norms := rfl
@[simp] theorem State.updCore_trust (c : Nat) (f : Core → Core) : (s.updCore c f).trust = s.trust := rfl
@[simp] theorem State.updCore_passes (c : Nat) (f : Core → Core) : (s.updCore c f).passes = s.passes := rfl
@[simp] theorem State.updCore_eth (c : Nat) (f : Core → Core) : (s.updCore c f).eth = s.eth := rfl
@[simp] theorem State.updCore_qps (c : Nat) (f : Core → Core) : (s.updCore c f).qps = s.qps := rfl
@[simp] theorem State.updCore_qsets (c : Nat) (f : Core → Core) : (s.updCore c f).qsets = s.qsets := rfl
@[simp] theorem State.updCore_fwu (c : Nat) (f : Core → Core) : (s.updCore c f).fwu = s.fwu := rfl
@[simp] theorem State.updCore_sec (c : Nat) (f : Core → Core) : (s.updCore c f).sec = s.sec := rfl
@[simp] theorem State.updCore_rel (c : Nat) (f : Core → Core) : (s.updCore c f).rel = s.rel := rfl
@[simp] theorem State.updCore_pmc (c : Nat) (f : Core → Core) : (s.updCore c f).pmc = s.pmc := rfl
@[simp] theorem State.updCore_side (c : Nat) (f : Core → Core) : (s.updCore c f).side = s.side := rfl

/-! ### updPort -/

@[simp] theorem State.updPort_pending (n : Nat) (f : Stack → Stack) : (s.updPort n f).pending = s.pending := rfl
@[simp] theorem State.updPort_freeCtr (n : Nat) (f : Stack → Stack) : (s.updPort n f).freeCtr = s.freeCtr := rfl
@[simp] theorem State.updPort_usec (n : Nat) (f : Stack → Stack) : (s.updPort n f).usec = s.usec := rfl
@[simp] theorem State.updPort_outbox (n : Nat) (f : Stack → Stack) : (s.updPort n f).outbox = s.outbox := rfl
@[simp] theorem State.updPort_glbId (n : Nat) (f : Stack → Stack) : (s.updPort n f).glbId = s.glbId := rfl
@[simp] theorem State.updPort_mgmt (n : Nat) (f : Stack → Stack) : (s.updPort n f).mgmt = s.mgmt := rfl
@[simp] theorem State.updPort_power (n : Nat) (f : Stack → Stack) : (s.updPort n f).power = s.power := rfl
@[simp] theorem State.updPort_link (n : Nat) (f : Stack → Stack) : (s.updPort n f).link = s.link := rfl
@[simp] theorem State.updPort_pf0Msix (n : Nat) (f : Stack → Stack) : (s.updPort n f).pf0Msix = s.pf0Msix := rfl
@[simp] theorem State.updPort_time0 (n : Nat) (f : Stack → Stack) : (s.updPort n f).time0 = s.time0 := rfl
@[simp] theorem State.updPort_time1 (n : Nat) (f : Stack → Stack) : (s.updPort n f).time1 = s.time1 := rfl
@[simp] theorem State.updPort_basins (n : Nat) (f : Stack → Stack) : (s.updPort n f).basins = s.basins := rfl
@[simp] theorem State.updPort_cores (n : Nat) (f : Stack → Stack) : (s.updPort n f).cores = s.cores := rfl
@[simp] theorem State.updPort_links (n : Nat) (f : Stack → Stack) : (s.updPort n f).links = s.links := rfl
@[simp] theorem State.updPort_extQ (n : Nat) (f : Stack → Stack) : (s.updPort n f).extQ = s.extQ := rfl
@[simp] theorem State.updPort_portalQ (n : Nat) (f : Stack → Stack) : (s.updPort n f).portalQ = s.portalQ := rfl
@[simp] theorem State.updPort_transit (n : Nat) (f : Stack → Stack) : (s.updPort n f).transit = s.transit := rfl
@[simp] theorem State.updPort_transitTurn (n : Nat) (f : Stack → Stack) : (s.updPort n f).transitTurn = s.transitTurn := rfl
@[simp] theorem State.updPort_adders (n : Nat) (f : Stack → Stack) : (s.updPort n f).adders = s.adders := rfl
@[simp] theorem State.updPort_seamTaken (n : Nat) (f : Stack → Stack) : (s.updPort n f).seamTaken = s.seamTaken := rfl
@[simp] theorem State.updPort_seamResent (n : Nat) (f : Stack → Stack) : (s.updPort n f).seamResent = s.seamResent := rfl
@[simp] theorem State.updPort_seamPoisoned (n : Nat) (f : Stack → Stack) : (s.updPort n f).seamPoisoned = s.seamPoisoned := rfl
@[simp] theorem State.updPort_stageReqs (n : Nat) (f : Stack → Stack) : (s.updPort n f).stageReqs = s.stageReqs := rfl
@[simp] theorem State.updPort_hostQ (n : Nat) (f : Stack → Stack) : (s.updPort n f).hostQ = s.hostQ := rfl
@[simp] theorem State.updPort_tier (n : Nat) (f : Stack → Stack) : (s.updPort n f).tier = s.tier := rfl
@[simp] theorem State.updPort_whs (n : Nat) (f : Stack → Stack) : (s.updPort n f).whs = s.whs := rfl
@[simp] theorem State.updPort_norms (n : Nat) (f : Stack → Stack) : (s.updPort n f).norms = s.norms := rfl
@[simp] theorem State.updPort_trust (n : Nat) (f : Stack → Stack) : (s.updPort n f).trust = s.trust := rfl
@[simp] theorem State.updPort_passes (n : Nat) (f : Stack → Stack) : (s.updPort n f).passes = s.passes := rfl
@[simp] theorem State.updPort_eth (n : Nat) (f : Stack → Stack) : (s.updPort n f).eth = s.eth := rfl
@[simp] theorem State.updPort_qps (n : Nat) (f : Stack → Stack) : (s.updPort n f).qps = s.qps := rfl
@[simp] theorem State.updPort_qsets (n : Nat) (f : Stack → Stack) : (s.updPort n f).qsets = s.qsets := rfl
@[simp] theorem State.updPort_fwu (n : Nat) (f : Stack → Stack) : (s.updPort n f).fwu = s.fwu := rfl
@[simp] theorem State.updPort_sec (n : Nat) (f : Stack → Stack) : (s.updPort n f).sec = s.sec := rfl
@[simp] theorem State.updPort_rel (n : Nat) (f : Stack → Stack) : (s.updPort n f).rel = s.rel := rfl
@[simp] theorem State.updPort_pmc (n : Nat) (f : Stack → Stack) : (s.updPort n f).pmc = s.pmc := rfl
@[simp] theorem State.updPort_side (n : Nat) (f : Stack → Stack) : (s.updPort n f).side = s.side := rfl

/-! ### updEngine -/

@[simp] theorem State.updEngine_pending (n : Nat) (f : Whs → Whs) : (s.updEngine n f).pending = s.pending := rfl
@[simp] theorem State.updEngine_freeCtr (n : Nat) (f : Whs → Whs) : (s.updEngine n f).freeCtr = s.freeCtr := rfl
@[simp] theorem State.updEngine_usec (n : Nat) (f : Whs → Whs) : (s.updEngine n f).usec = s.usec := rfl
@[simp] theorem State.updEngine_outbox (n : Nat) (f : Whs → Whs) : (s.updEngine n f).outbox = s.outbox := rfl
@[simp] theorem State.updEngine_glbId (n : Nat) (f : Whs → Whs) : (s.updEngine n f).glbId = s.glbId := rfl
@[simp] theorem State.updEngine_mgmt (n : Nat) (f : Whs → Whs) : (s.updEngine n f).mgmt = s.mgmt := rfl
@[simp] theorem State.updEngine_power (n : Nat) (f : Whs → Whs) : (s.updEngine n f).power = s.power := rfl
@[simp] theorem State.updEngine_link (n : Nat) (f : Whs → Whs) : (s.updEngine n f).link = s.link := rfl
@[simp] theorem State.updEngine_pf0Msix (n : Nat) (f : Whs → Whs) : (s.updEngine n f).pf0Msix = s.pf0Msix := rfl
@[simp] theorem State.updEngine_time0 (n : Nat) (f : Whs → Whs) : (s.updEngine n f).time0 = s.time0 := rfl
@[simp] theorem State.updEngine_time1 (n : Nat) (f : Whs → Whs) : (s.updEngine n f).time1 = s.time1 := rfl
@[simp] theorem State.updEngine_basins (n : Nat) (f : Whs → Whs) : (s.updEngine n f).basins = s.basins := rfl
@[simp] theorem State.updEngine_cores (n : Nat) (f : Whs → Whs) : (s.updEngine n f).cores = s.cores := rfl
@[simp] theorem State.updEngine_links (n : Nat) (f : Whs → Whs) : (s.updEngine n f).links = s.links := rfl
@[simp] theorem State.updEngine_extQ (n : Nat) (f : Whs → Whs) : (s.updEngine n f).extQ = s.extQ := rfl
@[simp] theorem State.updEngine_portalQ (n : Nat) (f : Whs → Whs) : (s.updEngine n f).portalQ = s.portalQ := rfl
@[simp] theorem State.updEngine_transit (n : Nat) (f : Whs → Whs) : (s.updEngine n f).transit = s.transit := rfl
@[simp] theorem State.updEngine_transitTurn (n : Nat) (f : Whs → Whs) : (s.updEngine n f).transitTurn = s.transitTurn := rfl
@[simp] theorem State.updEngine_adders (n : Nat) (f : Whs → Whs) : (s.updEngine n f).adders = s.adders := rfl
@[simp] theorem State.updEngine_seamTaken (n : Nat) (f : Whs → Whs) : (s.updEngine n f).seamTaken = s.seamTaken := rfl
@[simp] theorem State.updEngine_seamResent (n : Nat) (f : Whs → Whs) : (s.updEngine n f).seamResent = s.seamResent := rfl
@[simp] theorem State.updEngine_seamPoisoned (n : Nat) (f : Whs → Whs) : (s.updEngine n f).seamPoisoned = s.seamPoisoned := rfl
@[simp] theorem State.updEngine_ports (n : Nat) (f : Whs → Whs) : (s.updEngine n f).ports = s.ports := rfl
@[simp] theorem State.updEngine_stageReqs (n : Nat) (f : Whs → Whs) : (s.updEngine n f).stageReqs = s.stageReqs := rfl
@[simp] theorem State.updEngine_hostQ (n : Nat) (f : Whs → Whs) : (s.updEngine n f).hostQ = s.hostQ := rfl
@[simp] theorem State.updEngine_tier (n : Nat) (f : Whs → Whs) : (s.updEngine n f).tier = s.tier := rfl
@[simp] theorem State.updEngine_norms (n : Nat) (f : Whs → Whs) : (s.updEngine n f).norms = s.norms := rfl
@[simp] theorem State.updEngine_trust (n : Nat) (f : Whs → Whs) : (s.updEngine n f).trust = s.trust := rfl
@[simp] theorem State.updEngine_passes (n : Nat) (f : Whs → Whs) : (s.updEngine n f).passes = s.passes := rfl
@[simp] theorem State.updEngine_eth (n : Nat) (f : Whs → Whs) : (s.updEngine n f).eth = s.eth := rfl
@[simp] theorem State.updEngine_qps (n : Nat) (f : Whs → Whs) : (s.updEngine n f).qps = s.qps := rfl
@[simp] theorem State.updEngine_qsets (n : Nat) (f : Whs → Whs) : (s.updEngine n f).qsets = s.qsets := rfl
@[simp] theorem State.updEngine_fwu (n : Nat) (f : Whs → Whs) : (s.updEngine n f).fwu = s.fwu := rfl
@[simp] theorem State.updEngine_sec (n : Nat) (f : Whs → Whs) : (s.updEngine n f).sec = s.sec := rfl
@[simp] theorem State.updEngine_rel (n : Nat) (f : Whs → Whs) : (s.updEngine n f).rel = s.rel := rfl
@[simp] theorem State.updEngine_pmc (n : Nat) (f : Whs → Whs) : (s.updEngine n f).pmc = s.pmc := rfl
@[simp] theorem State.updEngine_side (n : Nat) (f : Whs → Whs) : (s.updEngine n f).side = s.side := rfl

/-! ### updGroup -/

@[simp] theorem State.updGroup_pending (n : Nat) (f : EthGroup → EthGroup) : (s.updGroup n f).pending = s.pending := rfl
@[simp] theorem State.updGroup_freeCtr (n : Nat) (f : EthGroup → EthGroup) : (s.updGroup n f).freeCtr = s.freeCtr := rfl
@[simp] theorem State.updGroup_usec (n : Nat) (f : EthGroup → EthGroup) : (s.updGroup n f).usec = s.usec := rfl
@[simp] theorem State.updGroup_outbox (n : Nat) (f : EthGroup → EthGroup) : (s.updGroup n f).outbox = s.outbox := rfl
@[simp] theorem State.updGroup_glbId (n : Nat) (f : EthGroup → EthGroup) : (s.updGroup n f).glbId = s.glbId := rfl
@[simp] theorem State.updGroup_mgmt (n : Nat) (f : EthGroup → EthGroup) : (s.updGroup n f).mgmt = s.mgmt := rfl
@[simp] theorem State.updGroup_power (n : Nat) (f : EthGroup → EthGroup) : (s.updGroup n f).power = s.power := rfl
@[simp] theorem State.updGroup_link (n : Nat) (f : EthGroup → EthGroup) : (s.updGroup n f).link = s.link := rfl
@[simp] theorem State.updGroup_pf0Msix (n : Nat) (f : EthGroup → EthGroup) : (s.updGroup n f).pf0Msix = s.pf0Msix := rfl
@[simp] theorem State.updGroup_time0 (n : Nat) (f : EthGroup → EthGroup) : (s.updGroup n f).time0 = s.time0 := rfl
@[simp] theorem State.updGroup_time1 (n : Nat) (f : EthGroup → EthGroup) : (s.updGroup n f).time1 = s.time1 := rfl
@[simp] theorem State.updGroup_basins (n : Nat) (f : EthGroup → EthGroup) : (s.updGroup n f).basins = s.basins := rfl
@[simp] theorem State.updGroup_cores (n : Nat) (f : EthGroup → EthGroup) : (s.updGroup n f).cores = s.cores := rfl
@[simp] theorem State.updGroup_links (n : Nat) (f : EthGroup → EthGroup) : (s.updGroup n f).links = s.links := rfl
@[simp] theorem State.updGroup_extQ (n : Nat) (f : EthGroup → EthGroup) : (s.updGroup n f).extQ = s.extQ := rfl
@[simp] theorem State.updGroup_portalQ (n : Nat) (f : EthGroup → EthGroup) : (s.updGroup n f).portalQ = s.portalQ := rfl
@[simp] theorem State.updGroup_transit (n : Nat) (f : EthGroup → EthGroup) : (s.updGroup n f).transit = s.transit := rfl
@[simp] theorem State.updGroup_transitTurn (n : Nat) (f : EthGroup → EthGroup) : (s.updGroup n f).transitTurn = s.transitTurn := rfl
@[simp] theorem State.updGroup_adders (n : Nat) (f : EthGroup → EthGroup) : (s.updGroup n f).adders = s.adders := rfl
@[simp] theorem State.updGroup_seamTaken (n : Nat) (f : EthGroup → EthGroup) : (s.updGroup n f).seamTaken = s.seamTaken := rfl
@[simp] theorem State.updGroup_seamResent (n : Nat) (f : EthGroup → EthGroup) : (s.updGroup n f).seamResent = s.seamResent := rfl
@[simp] theorem State.updGroup_seamPoisoned (n : Nat) (f : EthGroup → EthGroup) : (s.updGroup n f).seamPoisoned = s.seamPoisoned := rfl
@[simp] theorem State.updGroup_ports (n : Nat) (f : EthGroup → EthGroup) : (s.updGroup n f).ports = s.ports := rfl
@[simp] theorem State.updGroup_stageReqs (n : Nat) (f : EthGroup → EthGroup) : (s.updGroup n f).stageReqs = s.stageReqs := rfl
@[simp] theorem State.updGroup_hostQ (n : Nat) (f : EthGroup → EthGroup) : (s.updGroup n f).hostQ = s.hostQ := rfl
@[simp] theorem State.updGroup_tier (n : Nat) (f : EthGroup → EthGroup) : (s.updGroup n f).tier = s.tier := rfl
@[simp] theorem State.updGroup_whs (n : Nat) (f : EthGroup → EthGroup) : (s.updGroup n f).whs = s.whs := rfl
@[simp] theorem State.updGroup_norms (n : Nat) (f : EthGroup → EthGroup) : (s.updGroup n f).norms = s.norms := rfl
@[simp] theorem State.updGroup_trust (n : Nat) (f : EthGroup → EthGroup) : (s.updGroup n f).trust = s.trust := rfl
@[simp] theorem State.updGroup_passes (n : Nat) (f : EthGroup → EthGroup) : (s.updGroup n f).passes = s.passes := rfl
@[simp] theorem State.updGroup_qps (n : Nat) (f : EthGroup → EthGroup) : (s.updGroup n f).qps = s.qps := rfl
@[simp] theorem State.updGroup_qsets (n : Nat) (f : EthGroup → EthGroup) : (s.updGroup n f).qsets = s.qsets := rfl
@[simp] theorem State.updGroup_fwu (n : Nat) (f : EthGroup → EthGroup) : (s.updGroup n f).fwu = s.fwu := rfl
@[simp] theorem State.updGroup_sec (n : Nat) (f : EthGroup → EthGroup) : (s.updGroup n f).sec = s.sec := rfl
@[simp] theorem State.updGroup_rel (n : Nat) (f : EthGroup → EthGroup) : (s.updGroup n f).rel = s.rel := rfl
@[simp] theorem State.updGroup_pmc (n : Nat) (f : EthGroup → EthGroup) : (s.updGroup n f).pmc = s.pmc := rfl
@[simp] theorem State.updGroup_side (n : Nat) (f : EthGroup → EthGroup) : (s.updGroup n f).side = s.side := rfl

/-! ### updQp -/

@[simp] theorem State.updQp_pending (q : Nat) (f : Qp → Qp) : (s.updQp q f).pending = s.pending := rfl
@[simp] theorem State.updQp_freeCtr (q : Nat) (f : Qp → Qp) : (s.updQp q f).freeCtr = s.freeCtr := rfl
@[simp] theorem State.updQp_usec (q : Nat) (f : Qp → Qp) : (s.updQp q f).usec = s.usec := rfl
@[simp] theorem State.updQp_outbox (q : Nat) (f : Qp → Qp) : (s.updQp q f).outbox = s.outbox := rfl
@[simp] theorem State.updQp_glbId (q : Nat) (f : Qp → Qp) : (s.updQp q f).glbId = s.glbId := rfl
@[simp] theorem State.updQp_mgmt (q : Nat) (f : Qp → Qp) : (s.updQp q f).mgmt = s.mgmt := rfl
@[simp] theorem State.updQp_power (q : Nat) (f : Qp → Qp) : (s.updQp q f).power = s.power := rfl
@[simp] theorem State.updQp_link (q : Nat) (f : Qp → Qp) : (s.updQp q f).link = s.link := rfl
@[simp] theorem State.updQp_pf0Msix (q : Nat) (f : Qp → Qp) : (s.updQp q f).pf0Msix = s.pf0Msix := rfl
@[simp] theorem State.updQp_time0 (q : Nat) (f : Qp → Qp) : (s.updQp q f).time0 = s.time0 := rfl
@[simp] theorem State.updQp_time1 (q : Nat) (f : Qp → Qp) : (s.updQp q f).time1 = s.time1 := rfl
@[simp] theorem State.updQp_basins (q : Nat) (f : Qp → Qp) : (s.updQp q f).basins = s.basins := rfl
@[simp] theorem State.updQp_cores (q : Nat) (f : Qp → Qp) : (s.updQp q f).cores = s.cores := rfl
@[simp] theorem State.updQp_links (q : Nat) (f : Qp → Qp) : (s.updQp q f).links = s.links := rfl
@[simp] theorem State.updQp_extQ (q : Nat) (f : Qp → Qp) : (s.updQp q f).extQ = s.extQ := rfl
@[simp] theorem State.updQp_portalQ (q : Nat) (f : Qp → Qp) : (s.updQp q f).portalQ = s.portalQ := rfl
@[simp] theorem State.updQp_transit (q : Nat) (f : Qp → Qp) : (s.updQp q f).transit = s.transit := rfl
@[simp] theorem State.updQp_transitTurn (q : Nat) (f : Qp → Qp) : (s.updQp q f).transitTurn = s.transitTurn := rfl
@[simp] theorem State.updQp_adders (q : Nat) (f : Qp → Qp) : (s.updQp q f).adders = s.adders := rfl
@[simp] theorem State.updQp_seamTaken (q : Nat) (f : Qp → Qp) : (s.updQp q f).seamTaken = s.seamTaken := rfl
@[simp] theorem State.updQp_seamResent (q : Nat) (f : Qp → Qp) : (s.updQp q f).seamResent = s.seamResent := rfl
@[simp] theorem State.updQp_seamPoisoned (q : Nat) (f : Qp → Qp) : (s.updQp q f).seamPoisoned = s.seamPoisoned := rfl
@[simp] theorem State.updQp_ports (q : Nat) (f : Qp → Qp) : (s.updQp q f).ports = s.ports := rfl
@[simp] theorem State.updQp_stageReqs (q : Nat) (f : Qp → Qp) : (s.updQp q f).stageReqs = s.stageReqs := rfl
@[simp] theorem State.updQp_hostQ (q : Nat) (f : Qp → Qp) : (s.updQp q f).hostQ = s.hostQ := rfl
@[simp] theorem State.updQp_tier (q : Nat) (f : Qp → Qp) : (s.updQp q f).tier = s.tier := rfl
@[simp] theorem State.updQp_whs (q : Nat) (f : Qp → Qp) : (s.updQp q f).whs = s.whs := rfl
@[simp] theorem State.updQp_norms (q : Nat) (f : Qp → Qp) : (s.updQp q f).norms = s.norms := rfl
@[simp] theorem State.updQp_trust (q : Nat) (f : Qp → Qp) : (s.updQp q f).trust = s.trust := rfl
@[simp] theorem State.updQp_passes (q : Nat) (f : Qp → Qp) : (s.updQp q f).passes = s.passes := rfl
@[simp] theorem State.updQp_eth (q : Nat) (f : Qp → Qp) : (s.updQp q f).eth = s.eth := rfl
@[simp] theorem State.updQp_qsets (q : Nat) (f : Qp → Qp) : (s.updQp q f).qsets = s.qsets := rfl
@[simp] theorem State.updQp_fwu (q : Nat) (f : Qp → Qp) : (s.updQp q f).fwu = s.fwu := rfl
@[simp] theorem State.updQp_sec (q : Nat) (f : Qp → Qp) : (s.updQp q f).sec = s.sec := rfl
@[simp] theorem State.updQp_rel (q : Nat) (f : Qp → Qp) : (s.updQp q f).rel = s.rel := rfl
@[simp] theorem State.updQp_pmc (q : Nat) (f : Qp → Qp) : (s.updQp q f).pmc = s.pmc := rfl
@[simp] theorem State.updQp_side (q : Nat) (f : Qp → Qp) : (s.updQp q f).side = s.side := rfl

/-! ### updQset -/

@[simp] theorem State.updQset_pending (n : Nat) (f : Qset → Qset) : (s.updQset n f).pending = s.pending := rfl
@[simp] theorem State.updQset_freeCtr (n : Nat) (f : Qset → Qset) : (s.updQset n f).freeCtr = s.freeCtr := rfl
@[simp] theorem State.updQset_usec (n : Nat) (f : Qset → Qset) : (s.updQset n f).usec = s.usec := rfl
@[simp] theorem State.updQset_outbox (n : Nat) (f : Qset → Qset) : (s.updQset n f).outbox = s.outbox := rfl
@[simp] theorem State.updQset_glbId (n : Nat) (f : Qset → Qset) : (s.updQset n f).glbId = s.glbId := rfl
@[simp] theorem State.updQset_mgmt (n : Nat) (f : Qset → Qset) : (s.updQset n f).mgmt = s.mgmt := rfl
@[simp] theorem State.updQset_power (n : Nat) (f : Qset → Qset) : (s.updQset n f).power = s.power := rfl
@[simp] theorem State.updQset_link (n : Nat) (f : Qset → Qset) : (s.updQset n f).link = s.link := rfl
@[simp] theorem State.updQset_pf0Msix (n : Nat) (f : Qset → Qset) : (s.updQset n f).pf0Msix = s.pf0Msix := rfl
@[simp] theorem State.updQset_time0 (n : Nat) (f : Qset → Qset) : (s.updQset n f).time0 = s.time0 := rfl
@[simp] theorem State.updQset_time1 (n : Nat) (f : Qset → Qset) : (s.updQset n f).time1 = s.time1 := rfl
@[simp] theorem State.updQset_basins (n : Nat) (f : Qset → Qset) : (s.updQset n f).basins = s.basins := rfl
@[simp] theorem State.updQset_cores (n : Nat) (f : Qset → Qset) : (s.updQset n f).cores = s.cores := rfl
@[simp] theorem State.updQset_links (n : Nat) (f : Qset → Qset) : (s.updQset n f).links = s.links := rfl
@[simp] theorem State.updQset_extQ (n : Nat) (f : Qset → Qset) : (s.updQset n f).extQ = s.extQ := rfl
@[simp] theorem State.updQset_portalQ (n : Nat) (f : Qset → Qset) : (s.updQset n f).portalQ = s.portalQ := rfl
@[simp] theorem State.updQset_transit (n : Nat) (f : Qset → Qset) : (s.updQset n f).transit = s.transit := rfl
@[simp] theorem State.updQset_transitTurn (n : Nat) (f : Qset → Qset) : (s.updQset n f).transitTurn = s.transitTurn := rfl
@[simp] theorem State.updQset_adders (n : Nat) (f : Qset → Qset) : (s.updQset n f).adders = s.adders := rfl
@[simp] theorem State.updQset_seamTaken (n : Nat) (f : Qset → Qset) : (s.updQset n f).seamTaken = s.seamTaken := rfl
@[simp] theorem State.updQset_seamResent (n : Nat) (f : Qset → Qset) : (s.updQset n f).seamResent = s.seamResent := rfl
@[simp] theorem State.updQset_seamPoisoned (n : Nat) (f : Qset → Qset) : (s.updQset n f).seamPoisoned = s.seamPoisoned := rfl
@[simp] theorem State.updQset_ports (n : Nat) (f : Qset → Qset) : (s.updQset n f).ports = s.ports := rfl
@[simp] theorem State.updQset_stageReqs (n : Nat) (f : Qset → Qset) : (s.updQset n f).stageReqs = s.stageReqs := rfl
@[simp] theorem State.updQset_hostQ (n : Nat) (f : Qset → Qset) : (s.updQset n f).hostQ = s.hostQ := rfl
@[simp] theorem State.updQset_tier (n : Nat) (f : Qset → Qset) : (s.updQset n f).tier = s.tier := rfl
@[simp] theorem State.updQset_whs (n : Nat) (f : Qset → Qset) : (s.updQset n f).whs = s.whs := rfl
@[simp] theorem State.updQset_norms (n : Nat) (f : Qset → Qset) : (s.updQset n f).norms = s.norms := rfl
@[simp] theorem State.updQset_trust (n : Nat) (f : Qset → Qset) : (s.updQset n f).trust = s.trust := rfl
@[simp] theorem State.updQset_passes (n : Nat) (f : Qset → Qset) : (s.updQset n f).passes = s.passes := rfl
@[simp] theorem State.updQset_eth (n : Nat) (f : Qset → Qset) : (s.updQset n f).eth = s.eth := rfl
@[simp] theorem State.updQset_qps (n : Nat) (f : Qset → Qset) : (s.updQset n f).qps = s.qps := rfl
@[simp] theorem State.updQset_fwu (n : Nat) (f : Qset → Qset) : (s.updQset n f).fwu = s.fwu := rfl
@[simp] theorem State.updQset_sec (n : Nat) (f : Qset → Qset) : (s.updQset n f).sec = s.sec := rfl
@[simp] theorem State.updQset_rel (n : Nat) (f : Qset → Qset) : (s.updQset n f).rel = s.rel := rfl
@[simp] theorem State.updQset_pmc (n : Nat) (f : Qset → Qset) : (s.updQset n f).pmc = s.pmc := rfl
@[simp] theorem State.updQset_side (n : Nat) (f : Qset → Qset) : (s.updQset n f).side = s.side := rfl

/-! ### updPage -/

@[simp] theorem State.updPage_pending (b p : Nat) (f : Page → Page) : (s.updPage b p f).pending = s.pending := rfl
@[simp] theorem State.updPage_freeCtr (b p : Nat) (f : Page → Page) : (s.updPage b p f).freeCtr = s.freeCtr := rfl
@[simp] theorem State.updPage_usec (b p : Nat) (f : Page → Page) : (s.updPage b p f).usec = s.usec := rfl
@[simp] theorem State.updPage_outbox (b p : Nat) (f : Page → Page) : (s.updPage b p f).outbox = s.outbox := rfl
@[simp] theorem State.updPage_glbId (b p : Nat) (f : Page → Page) : (s.updPage b p f).glbId = s.glbId := rfl
@[simp] theorem State.updPage_mgmt (b p : Nat) (f : Page → Page) : (s.updPage b p f).mgmt = s.mgmt := rfl
@[simp] theorem State.updPage_power (b p : Nat) (f : Page → Page) : (s.updPage b p f).power = s.power := rfl
@[simp] theorem State.updPage_link (b p : Nat) (f : Page → Page) : (s.updPage b p f).link = s.link := rfl
@[simp] theorem State.updPage_pf0Msix (b p : Nat) (f : Page → Page) : (s.updPage b p f).pf0Msix = s.pf0Msix := rfl
@[simp] theorem State.updPage_time0 (b p : Nat) (f : Page → Page) : (s.updPage b p f).time0 = s.time0 := rfl
@[simp] theorem State.updPage_time1 (b p : Nat) (f : Page → Page) : (s.updPage b p f).time1 = s.time1 := rfl
@[simp] theorem State.updPage_cores (b p : Nat) (f : Page → Page) : (s.updPage b p f).cores = s.cores := rfl
@[simp] theorem State.updPage_links (b p : Nat) (f : Page → Page) : (s.updPage b p f).links = s.links := rfl
@[simp] theorem State.updPage_extQ (b p : Nat) (f : Page → Page) : (s.updPage b p f).extQ = s.extQ := rfl
@[simp] theorem State.updPage_portalQ (b p : Nat) (f : Page → Page) : (s.updPage b p f).portalQ = s.portalQ := rfl
@[simp] theorem State.updPage_transit (b p : Nat) (f : Page → Page) : (s.updPage b p f).transit = s.transit := rfl
@[simp] theorem State.updPage_transitTurn (b p : Nat) (f : Page → Page) : (s.updPage b p f).transitTurn = s.transitTurn := rfl
@[simp] theorem State.updPage_adders (b p : Nat) (f : Page → Page) : (s.updPage b p f).adders = s.adders := rfl
@[simp] theorem State.updPage_seamTaken (b p : Nat) (f : Page → Page) : (s.updPage b p f).seamTaken = s.seamTaken := rfl
@[simp] theorem State.updPage_seamResent (b p : Nat) (f : Page → Page) : (s.updPage b p f).seamResent = s.seamResent := rfl
@[simp] theorem State.updPage_seamPoisoned (b p : Nat) (f : Page → Page) : (s.updPage b p f).seamPoisoned = s.seamPoisoned := rfl
@[simp] theorem State.updPage_ports (b p : Nat) (f : Page → Page) : (s.updPage b p f).ports = s.ports := rfl
@[simp] theorem State.updPage_stageReqs (b p : Nat) (f : Page → Page) : (s.updPage b p f).stageReqs = s.stageReqs := rfl
@[simp] theorem State.updPage_hostQ (b p : Nat) (f : Page → Page) : (s.updPage b p f).hostQ = s.hostQ := rfl
@[simp] theorem State.updPage_tier (b p : Nat) (f : Page → Page) : (s.updPage b p f).tier = s.tier := rfl
@[simp] theorem State.updPage_whs (b p : Nat) (f : Page → Page) : (s.updPage b p f).whs = s.whs := rfl
@[simp] theorem State.updPage_norms (b p : Nat) (f : Page → Page) : (s.updPage b p f).norms = s.norms := rfl
@[simp] theorem State.updPage_trust (b p : Nat) (f : Page → Page) : (s.updPage b p f).trust = s.trust := rfl
@[simp] theorem State.updPage_passes (b p : Nat) (f : Page → Page) : (s.updPage b p f).passes = s.passes := rfl
@[simp] theorem State.updPage_eth (b p : Nat) (f : Page → Page) : (s.updPage b p f).eth = s.eth := rfl
@[simp] theorem State.updPage_qps (b p : Nat) (f : Page → Page) : (s.updPage b p f).qps = s.qps := rfl
@[simp] theorem State.updPage_qsets (b p : Nat) (f : Page → Page) : (s.updPage b p f).qsets = s.qsets := rfl
@[simp] theorem State.updPage_fwu (b p : Nat) (f : Page → Page) : (s.updPage b p f).fwu = s.fwu := rfl
@[simp] theorem State.updPage_sec (b p : Nat) (f : Page → Page) : (s.updPage b p f).sec = s.sec := rfl
@[simp] theorem State.updPage_rel (b p : Nat) (f : Page → Page) : (s.updPage b p f).rel = s.rel := rfl
@[simp] theorem State.updPage_pmc (b p : Nat) (f : Page → Page) : (s.updPage b p f).pmc = s.pmc := rfl
@[simp] theorem State.updPage_side (b p : Nat) (f : Page → Page) : (s.updPage b p f).side = s.side := rfl

/-! ### emit -/

@[simp] theorem State.emit_pending (m : Msg) : (s.emit m).pending = s.pending := rfl
@[simp] theorem State.emit_freeCtr (m : Msg) : (s.emit m).freeCtr = s.freeCtr := rfl
@[simp] theorem State.emit_usec (m : Msg) : (s.emit m).usec = s.usec := rfl
@[simp] theorem State.emit_glbId (m : Msg) : (s.emit m).glbId = s.glbId := rfl
@[simp] theorem State.emit_mgmt (m : Msg) : (s.emit m).mgmt = s.mgmt := rfl
@[simp] theorem State.emit_power (m : Msg) : (s.emit m).power = s.power := rfl
@[simp] theorem State.emit_link (m : Msg) : (s.emit m).link = s.link := rfl
@[simp] theorem State.emit_pf0Msix (m : Msg) : (s.emit m).pf0Msix = s.pf0Msix := rfl
@[simp] theorem State.emit_time0 (m : Msg) : (s.emit m).time0 = s.time0 := rfl
@[simp] theorem State.emit_time1 (m : Msg) : (s.emit m).time1 = s.time1 := rfl
@[simp] theorem State.emit_basins (m : Msg) : (s.emit m).basins = s.basins := rfl
@[simp] theorem State.emit_cores (m : Msg) : (s.emit m).cores = s.cores := rfl
@[simp] theorem State.emit_links (m : Msg) : (s.emit m).links = s.links := rfl
@[simp] theorem State.emit_extQ (m : Msg) : (s.emit m).extQ = s.extQ := rfl
@[simp] theorem State.emit_portalQ (m : Msg) : (s.emit m).portalQ = s.portalQ := rfl
@[simp] theorem State.emit_transit (m : Msg) : (s.emit m).transit = s.transit := rfl
@[simp] theorem State.emit_transitTurn (m : Msg) : (s.emit m).transitTurn = s.transitTurn := rfl
@[simp] theorem State.emit_adders (m : Msg) : (s.emit m).adders = s.adders := rfl
@[simp] theorem State.emit_seamTaken (m : Msg) : (s.emit m).seamTaken = s.seamTaken := rfl
@[simp] theorem State.emit_seamResent (m : Msg) : (s.emit m).seamResent = s.seamResent := rfl
@[simp] theorem State.emit_seamPoisoned (m : Msg) : (s.emit m).seamPoisoned = s.seamPoisoned := rfl
@[simp] theorem State.emit_ports (m : Msg) : (s.emit m).ports = s.ports := rfl
@[simp] theorem State.emit_stageReqs (m : Msg) : (s.emit m).stageReqs = s.stageReqs := rfl
@[simp] theorem State.emit_hostQ (m : Msg) : (s.emit m).hostQ = s.hostQ := rfl
@[simp] theorem State.emit_tier (m : Msg) : (s.emit m).tier = s.tier := rfl
@[simp] theorem State.emit_whs (m : Msg) : (s.emit m).whs = s.whs := rfl
@[simp] theorem State.emit_norms (m : Msg) : (s.emit m).norms = s.norms := rfl
@[simp] theorem State.emit_trust (m : Msg) : (s.emit m).trust = s.trust := rfl
@[simp] theorem State.emit_passes (m : Msg) : (s.emit m).passes = s.passes := rfl
@[simp] theorem State.emit_eth (m : Msg) : (s.emit m).eth = s.eth := rfl
@[simp] theorem State.emit_qps (m : Msg) : (s.emit m).qps = s.qps := rfl
@[simp] theorem State.emit_qsets (m : Msg) : (s.emit m).qsets = s.qsets := rfl
@[simp] theorem State.emit_fwu (m : Msg) : (s.emit m).fwu = s.fwu := rfl
@[simp] theorem State.emit_sec (m : Msg) : (s.emit m).sec = s.sec := rfl
@[simp] theorem State.emit_rel (m : Msg) : (s.emit m).rel = s.rel := rfl
@[simp] theorem State.emit_pmc (m : Msg) : (s.emit m).pmc = s.pmc := rfl
@[simp] theorem State.emit_side (m : Msg) : (s.emit m).side = s.side := rfl

/-! ### tick -/

@[simp] theorem State.tick_pending : (s.tick).pending = s.pending := rfl
@[simp] theorem State.tick_usec : (s.tick).usec = s.usec := rfl
@[simp] theorem State.tick_outbox : (s.tick).outbox = s.outbox := rfl
@[simp] theorem State.tick_glbId : (s.tick).glbId = s.glbId := rfl
@[simp] theorem State.tick_mgmt : (s.tick).mgmt = s.mgmt := rfl
@[simp] theorem State.tick_power : (s.tick).power = s.power := rfl
@[simp] theorem State.tick_link : (s.tick).link = s.link := rfl
@[simp] theorem State.tick_pf0Msix : (s.tick).pf0Msix = s.pf0Msix := rfl
@[simp] theorem State.tick_time0 : (s.tick).time0 = s.time0 := rfl
@[simp] theorem State.tick_time1 : (s.tick).time1 = s.time1 := rfl
@[simp] theorem State.tick_basins : (s.tick).basins = s.basins := rfl
@[simp] theorem State.tick_cores : (s.tick).cores = s.cores := rfl
@[simp] theorem State.tick_links : (s.tick).links = s.links := rfl
@[simp] theorem State.tick_extQ : (s.tick).extQ = s.extQ := rfl
@[simp] theorem State.tick_portalQ : (s.tick).portalQ = s.portalQ := rfl
@[simp] theorem State.tick_transit : (s.tick).transit = s.transit := rfl
@[simp] theorem State.tick_transitTurn : (s.tick).transitTurn = s.transitTurn := rfl
@[simp] theorem State.tick_adders : (s.tick).adders = s.adders := rfl
@[simp] theorem State.tick_seamTaken : (s.tick).seamTaken = s.seamTaken := rfl
@[simp] theorem State.tick_seamResent : (s.tick).seamResent = s.seamResent := rfl
@[simp] theorem State.tick_seamPoisoned : (s.tick).seamPoisoned = s.seamPoisoned := rfl
@[simp] theorem State.tick_ports : (s.tick).ports = s.ports := rfl
@[simp] theorem State.tick_stageReqs : (s.tick).stageReqs = s.stageReqs := rfl
@[simp] theorem State.tick_hostQ : (s.tick).hostQ = s.hostQ := rfl
@[simp] theorem State.tick_tier : (s.tick).tier = s.tier := rfl
@[simp] theorem State.tick_whs : (s.tick).whs = s.whs := rfl
@[simp] theorem State.tick_norms : (s.tick).norms = s.norms := rfl
@[simp] theorem State.tick_trust : (s.tick).trust = s.trust := rfl
@[simp] theorem State.tick_passes : (s.tick).passes = s.passes := rfl
@[simp] theorem State.tick_eth : (s.tick).eth = s.eth := rfl
@[simp] theorem State.tick_qps : (s.tick).qps = s.qps := rfl
@[simp] theorem State.tick_qsets : (s.tick).qsets = s.qsets := rfl
@[simp] theorem State.tick_fwu : (s.tick).fwu = s.fwu := rfl
@[simp] theorem State.tick_sec : (s.tick).sec = s.sec := rfl
@[simp] theorem State.tick_rel : (s.tick).rel = s.rel := rfl
@[simp] theorem State.tick_pmc : (s.tick).pmc = s.pmc := rfl
@[simp] theorem State.tick_side : (s.tick).side = s.side := rfl

/-! ### count -/

@[simp] theorem State.count_pending (g : CntGroup) (n i k : Nat) : (s.count g n i k).pending = s.pending := rfl
@[simp] theorem State.count_freeCtr (g : CntGroup) (n i k : Nat) : (s.count g n i k).freeCtr = s.freeCtr := rfl
@[simp] theorem State.count_usec (g : CntGroup) (n i k : Nat) : (s.count g n i k).usec = s.usec := rfl
@[simp] theorem State.count_outbox (g : CntGroup) (n i k : Nat) : (s.count g n i k).outbox = s.outbox := rfl
@[simp] theorem State.count_glbId (g : CntGroup) (n i k : Nat) : (s.count g n i k).glbId = s.glbId := rfl
@[simp] theorem State.count_mgmt (g : CntGroup) (n i k : Nat) : (s.count g n i k).mgmt = s.mgmt := rfl
@[simp] theorem State.count_power (g : CntGroup) (n i k : Nat) : (s.count g n i k).power = s.power := rfl
@[simp] theorem State.count_link (g : CntGroup) (n i k : Nat) : (s.count g n i k).link = s.link := rfl
@[simp] theorem State.count_pf0Msix (g : CntGroup) (n i k : Nat) : (s.count g n i k).pf0Msix = s.pf0Msix := rfl
@[simp] theorem State.count_time0 (g : CntGroup) (n i k : Nat) : (s.count g n i k).time0 = s.time0 := rfl
@[simp] theorem State.count_time1 (g : CntGroup) (n i k : Nat) : (s.count g n i k).time1 = s.time1 := rfl
@[simp] theorem State.count_basins (g : CntGroup) (n i k : Nat) : (s.count g n i k).basins = s.basins := rfl
@[simp] theorem State.count_cores (g : CntGroup) (n i k : Nat) : (s.count g n i k).cores = s.cores := rfl
@[simp] theorem State.count_links (g : CntGroup) (n i k : Nat) : (s.count g n i k).links = s.links := rfl
@[simp] theorem State.count_extQ (g : CntGroup) (n i k : Nat) : (s.count g n i k).extQ = s.extQ := rfl
@[simp] theorem State.count_portalQ (g : CntGroup) (n i k : Nat) : (s.count g n i k).portalQ = s.portalQ := rfl
@[simp] theorem State.count_transit (g : CntGroup) (n i k : Nat) : (s.count g n i k).transit = s.transit := rfl
@[simp] theorem State.count_transitTurn (g : CntGroup) (n i k : Nat) : (s.count g n i k).transitTurn = s.transitTurn := rfl
@[simp] theorem State.count_adders (g : CntGroup) (n i k : Nat) : (s.count g n i k).adders = s.adders := rfl
@[simp] theorem State.count_seamTaken (g : CntGroup) (n i k : Nat) : (s.count g n i k).seamTaken = s.seamTaken := rfl
@[simp] theorem State.count_seamResent (g : CntGroup) (n i k : Nat) : (s.count g n i k).seamResent = s.seamResent := rfl
@[simp] theorem State.count_seamPoisoned (g : CntGroup) (n i k : Nat) : (s.count g n i k).seamPoisoned = s.seamPoisoned := rfl
@[simp] theorem State.count_ports (g : CntGroup) (n i k : Nat) : (s.count g n i k).ports = s.ports := rfl
@[simp] theorem State.count_stageReqs (g : CntGroup) (n i k : Nat) : (s.count g n i k).stageReqs = s.stageReqs := rfl
@[simp] theorem State.count_hostQ (g : CntGroup) (n i k : Nat) : (s.count g n i k).hostQ = s.hostQ := rfl
@[simp] theorem State.count_tier (g : CntGroup) (n i k : Nat) : (s.count g n i k).tier = s.tier := rfl
@[simp] theorem State.count_whs (g : CntGroup) (n i k : Nat) : (s.count g n i k).whs = s.whs := rfl
@[simp] theorem State.count_norms (g : CntGroup) (n i k : Nat) : (s.count g n i k).norms = s.norms := rfl
@[simp] theorem State.count_trust (g : CntGroup) (n i k : Nat) : (s.count g n i k).trust = s.trust := rfl
@[simp] theorem State.count_passes (g : CntGroup) (n i k : Nat) : (s.count g n i k).passes = s.passes := rfl
@[simp] theorem State.count_eth (g : CntGroup) (n i k : Nat) : (s.count g n i k).eth = s.eth := rfl
@[simp] theorem State.count_qps (g : CntGroup) (n i k : Nat) : (s.count g n i k).qps = s.qps := rfl
@[simp] theorem State.count_qsets (g : CntGroup) (n i k : Nat) : (s.count g n i k).qsets = s.qsets := rfl
@[simp] theorem State.count_fwu (g : CntGroup) (n i k : Nat) : (s.count g n i k).fwu = s.fwu := rfl
@[simp] theorem State.count_sec (g : CntGroup) (n i k : Nat) : (s.count g n i k).sec = s.sec := rfl
@[simp] theorem State.count_rel (g : CntGroup) (n i k : Nat) : (s.count g n i k).rel = s.rel := rfl
@[simp] theorem State.count_side (g : CntGroup) (n i k : Nat) : (s.count g n i k).side = s.side := rfl

/-! ### Parts after an update -/

theorem State.basin_setBasin (b b' : Nat) (v : Basin) : (s.setBasin b v).basin b' = if b = b' then v else s.basin b' := by
  simp [State.basin, State.setBasin, SMap.get_set]

@[simp] theorem State.basin_setBasin_self (b : Nat) (v : Basin) : (s.setBasin b v).basin b = v := by
  simp [State.basin_setBasin]

theorem State.basin_updBasin (b b' : Nat) (f : Basin → Basin) :
    (s.updBasin b f).basin b' = if b = b' then f (s.basin b) else s.basin b' := by
  simp [State.updBasin, State.basin_setBasin]

@[simp] theorem State.basin_updBasin_self (b : Nat) (f : Basin → Basin) : (s.updBasin b f).basin b = f (s.basin b) := by
  simp [State.basin_updBasin]

theorem State.core_setCore (c c' : Nat) (v : Core) : (s.setCore c v).core c' = if c = c' then v else s.core c' := by
  simp [State.core, State.setCore, SMap.get_set]

@[simp] theorem State.core_setCore_self (c : Nat) (v : Core) : (s.setCore c v).core c = v := by
  simp [State.core_setCore]

theorem State.core_updCore (c c' : Nat) (f : Core → Core) :
    (s.updCore c f).core c' = if c = c' then f (s.core c) else s.core c' := by
  simp [State.updCore, State.core_setCore]

@[simp] theorem State.core_updCore_self (c : Nat) (f : Core → Core) : (s.updCore c f).core c = f (s.core c) := by
  simp [State.core_updCore]

theorem State.port_updPort (n n' : Nat) (f : Stack → Stack) :
    (s.updPort n f).port n' = if n = n' then f (s.port n) else s.port n' := by
  simp [State.port, State.updPort, SMap.get_set]

@[simp] theorem State.port_updPort_self (n : Nat) (f : Stack → Stack) : (s.updPort n f).port n = f (s.port n) := by
  simp [State.port_updPort]

theorem State.engine_updEngine (n n' : Nat) (f : Whs → Whs) :
    (s.updEngine n f).engine n' = if n = n' then f (s.engine n) else s.engine n' := by
  simp [State.engine, State.updEngine, SMap.get_set]

@[simp] theorem State.engine_updEngine_self (n : Nat) (f : Whs → Whs) :
    (s.updEngine n f).engine n = f (s.engine n) := by
  simp [State.engine_updEngine]

theorem State.group_updGroup (n n' : Nat) (f : EthGroup → EthGroup) :
    (s.updGroup n f).group n' = if n = n' then f (s.group n) else s.group n' := by
  simp [State.group, State.updGroup, SMap.get_set]

@[simp] theorem State.group_updGroup_self (n : Nat) (f : EthGroup → EthGroup) :
    (s.updGroup n f).group n = f (s.group n) := by
  simp [State.group_updGroup]

theorem State.qp_updQp (q q' : Nat) (f : Qp → Qp) : (s.updQp q f).qp q' = if q = q' then f (s.qp q) else s.qp q' := by
  simp [State.qp, State.updQp, SMap.get_set]

@[simp] theorem State.qp_updQp_self (q : Nat) (f : Qp → Qp) : (s.updQp q f).qp q = f (s.qp q) := by
  simp [State.qp_updQp]

theorem State.qset_updQset (n n' : Nat) (f : Qset → Qset) :
    (s.updQset n f).qset n' = if n = n' then f (s.qset n) else s.qset n' := by
  simp [State.qset, State.updQset, SMap.get_set]

@[simp] theorem State.qset_updQset_self (n : Nat) (f : Qset → Qset) : (s.updQset n f).qset n = f (s.qset n) := by
  simp [State.qset_updQset]

@[simp] theorem State.core_setBasin (b : Nat) (v : Basin) (c' : Nat) : (s.setBasin b v).core c' = s.core c' := rfl
@[simp] theorem State.port_setBasin (b : Nat) (v : Basin) (n' : Nat) : (s.setBasin b v).port n' = s.port n' := rfl
@[simp] theorem State.engine_setBasin (b : Nat) (v : Basin) (n' : Nat) : (s.setBasin b v).engine n' = s.engine n' := rfl
@[simp] theorem State.group_setBasin (b : Nat) (v : Basin) (n' : Nat) : (s.setBasin b v).group n' = s.group n' := rfl
@[simp] theorem State.qp_setBasin (b : Nat) (v : Basin) (q' : Nat) : (s.setBasin b v).qp q' = s.qp q' := rfl
@[simp] theorem State.qset_setBasin (b : Nat) (v : Basin) (n' : Nat) : (s.setBasin b v).qset n' = s.qset n' := rfl
@[simp] theorem State.core_updBasin (b : Nat) (f : Basin → Basin) (c' : Nat) : (s.updBasin b f).core c' = s.core c' := rfl
@[simp] theorem State.port_updBasin (b : Nat) (f : Basin → Basin) (n' : Nat) : (s.updBasin b f).port n' = s.port n' := rfl
@[simp] theorem State.engine_updBasin (b : Nat) (f : Basin → Basin) (n' : Nat) : (s.updBasin b f).engine n' = s.engine n' := rfl
@[simp] theorem State.group_updBasin (b : Nat) (f : Basin → Basin) (n' : Nat) : (s.updBasin b f).group n' = s.group n' := rfl
@[simp] theorem State.qp_updBasin (b : Nat) (f : Basin → Basin) (q' : Nat) : (s.updBasin b f).qp q' = s.qp q' := rfl
@[simp] theorem State.qset_updBasin (b : Nat) (f : Basin → Basin) (n' : Nat) : (s.updBasin b f).qset n' = s.qset n' := rfl
@[simp] theorem State.basin_setCore (c : Nat) (v : Core) (b' : Nat) : (s.setCore c v).basin b' = s.basin b' := rfl
@[simp] theorem State.port_setCore (c : Nat) (v : Core) (n' : Nat) : (s.setCore c v).port n' = s.port n' := rfl
@[simp] theorem State.engine_setCore (c : Nat) (v : Core) (n' : Nat) : (s.setCore c v).engine n' = s.engine n' := rfl
@[simp] theorem State.group_setCore (c : Nat) (v : Core) (n' : Nat) : (s.setCore c v).group n' = s.group n' := rfl
@[simp] theorem State.qp_setCore (c : Nat) (v : Core) (q' : Nat) : (s.setCore c v).qp q' = s.qp q' := rfl
@[simp] theorem State.qset_setCore (c : Nat) (v : Core) (n' : Nat) : (s.setCore c v).qset n' = s.qset n' := rfl
@[simp] theorem State.basin_updCore (c : Nat) (f : Core → Core) (b' : Nat) : (s.updCore c f).basin b' = s.basin b' := rfl
@[simp] theorem State.port_updCore (c : Nat) (f : Core → Core) (n' : Nat) : (s.updCore c f).port n' = s.port n' := rfl
@[simp] theorem State.engine_updCore (c : Nat) (f : Core → Core) (n' : Nat) : (s.updCore c f).engine n' = s.engine n' := rfl
@[simp] theorem State.group_updCore (c : Nat) (f : Core → Core) (n' : Nat) : (s.updCore c f).group n' = s.group n' := rfl
@[simp] theorem State.qp_updCore (c : Nat) (f : Core → Core) (q' : Nat) : (s.updCore c f).qp q' = s.qp q' := rfl
@[simp] theorem State.qset_updCore (c : Nat) (f : Core → Core) (n' : Nat) : (s.updCore c f).qset n' = s.qset n' := rfl
@[simp] theorem State.basin_updPort (n : Nat) (f : Stack → Stack) (b' : Nat) : (s.updPort n f).basin b' = s.basin b' := rfl
@[simp] theorem State.core_updPort (n : Nat) (f : Stack → Stack) (c' : Nat) : (s.updPort n f).core c' = s.core c' := rfl
@[simp] theorem State.engine_updPort (n : Nat) (f : Stack → Stack) (n' : Nat) : (s.updPort n f).engine n' = s.engine n' := rfl
@[simp] theorem State.group_updPort (n : Nat) (f : Stack → Stack) (n' : Nat) : (s.updPort n f).group n' = s.group n' := rfl
@[simp] theorem State.qp_updPort (n : Nat) (f : Stack → Stack) (q' : Nat) : (s.updPort n f).qp q' = s.qp q' := rfl
@[simp] theorem State.qset_updPort (n : Nat) (f : Stack → Stack) (n' : Nat) : (s.updPort n f).qset n' = s.qset n' := rfl
@[simp] theorem State.basin_updEngine (n : Nat) (f : Whs → Whs) (b' : Nat) : (s.updEngine n f).basin b' = s.basin b' := rfl
@[simp] theorem State.core_updEngine (n : Nat) (f : Whs → Whs) (c' : Nat) : (s.updEngine n f).core c' = s.core c' := rfl
@[simp] theorem State.port_updEngine (n : Nat) (f : Whs → Whs) (n' : Nat) : (s.updEngine n f).port n' = s.port n' := rfl
@[simp] theorem State.group_updEngine (n : Nat) (f : Whs → Whs) (n' : Nat) : (s.updEngine n f).group n' = s.group n' := rfl
@[simp] theorem State.qp_updEngine (n : Nat) (f : Whs → Whs) (q' : Nat) : (s.updEngine n f).qp q' = s.qp q' := rfl
@[simp] theorem State.qset_updEngine (n : Nat) (f : Whs → Whs) (n' : Nat) : (s.updEngine n f).qset n' = s.qset n' := rfl
@[simp] theorem State.basin_updGroup (n : Nat) (f : EthGroup → EthGroup) (b' : Nat) : (s.updGroup n f).basin b' = s.basin b' := rfl
@[simp] theorem State.core_updGroup (n : Nat) (f : EthGroup → EthGroup) (c' : Nat) : (s.updGroup n f).core c' = s.core c' := rfl
@[simp] theorem State.port_updGroup (n : Nat) (f : EthGroup → EthGroup) (n' : Nat) : (s.updGroup n f).port n' = s.port n' := rfl
@[simp] theorem State.engine_updGroup (n : Nat) (f : EthGroup → EthGroup) (n' : Nat) : (s.updGroup n f).engine n' = s.engine n' := rfl
@[simp] theorem State.qp_updGroup (n : Nat) (f : EthGroup → EthGroup) (q' : Nat) : (s.updGroup n f).qp q' = s.qp q' := rfl
@[simp] theorem State.qset_updGroup (n : Nat) (f : EthGroup → EthGroup) (n' : Nat) : (s.updGroup n f).qset n' = s.qset n' := rfl
@[simp] theorem State.basin_updQp (q : Nat) (f : Qp → Qp) (b' : Nat) : (s.updQp q f).basin b' = s.basin b' := rfl
@[simp] theorem State.core_updQp (q : Nat) (f : Qp → Qp) (c' : Nat) : (s.updQp q f).core c' = s.core c' := rfl
@[simp] theorem State.port_updQp (q : Nat) (f : Qp → Qp) (n' : Nat) : (s.updQp q f).port n' = s.port n' := rfl
@[simp] theorem State.engine_updQp (q : Nat) (f : Qp → Qp) (n' : Nat) : (s.updQp q f).engine n' = s.engine n' := rfl
@[simp] theorem State.group_updQp (q : Nat) (f : Qp → Qp) (n' : Nat) : (s.updQp q f).group n' = s.group n' := rfl
@[simp] theorem State.qset_updQp (q : Nat) (f : Qp → Qp) (n' : Nat) : (s.updQp q f).qset n' = s.qset n' := rfl
@[simp] theorem State.basin_updQset (n : Nat) (f : Qset → Qset) (b' : Nat) : (s.updQset n f).basin b' = s.basin b' := rfl
@[simp] theorem State.core_updQset (n : Nat) (f : Qset → Qset) (c' : Nat) : (s.updQset n f).core c' = s.core c' := rfl
@[simp] theorem State.port_updQset (n : Nat) (f : Qset → Qset) (n' : Nat) : (s.updQset n f).port n' = s.port n' := rfl
@[simp] theorem State.engine_updQset (n : Nat) (f : Qset → Qset) (n' : Nat) : (s.updQset n f).engine n' = s.engine n' := rfl
@[simp] theorem State.group_updQset (n : Nat) (f : Qset → Qset) (n' : Nat) : (s.updQset n f).group n' = s.group n' := rfl
@[simp] theorem State.qp_updQset (n : Nat) (f : Qset → Qset) (q' : Nat) : (s.updQset n f).qp q' = s.qp q' := rfl
@[simp] theorem State.core_updPage (b p : Nat) (f : Page → Page) (c' : Nat) : (s.updPage b p f).core c' = s.core c' := rfl
@[simp] theorem State.port_updPage (b p : Nat) (f : Page → Page) (n' : Nat) : (s.updPage b p f).port n' = s.port n' := rfl
@[simp] theorem State.engine_updPage (b p : Nat) (f : Page → Page) (n' : Nat) : (s.updPage b p f).engine n' = s.engine n' := rfl
@[simp] theorem State.group_updPage (b p : Nat) (f : Page → Page) (n' : Nat) : (s.updPage b p f).group n' = s.group n' := rfl
@[simp] theorem State.qp_updPage (b p : Nat) (f : Page → Page) (q' : Nat) : (s.updPage b p f).qp q' = s.qp q' := rfl
@[simp] theorem State.qset_updPage (b p : Nat) (f : Page → Page) (n' : Nat) : (s.updPage b p f).qset n' = s.qset n' := rfl
@[simp] theorem State.basin_emit (m : Msg) (b' : Nat) : (s.emit m).basin b' = s.basin b' := rfl
@[simp] theorem State.core_emit (m : Msg) (c' : Nat) : (s.emit m).core c' = s.core c' := rfl
@[simp] theorem State.port_emit (m : Msg) (n' : Nat) : (s.emit m).port n' = s.port n' := rfl
@[simp] theorem State.engine_emit (m : Msg) (n' : Nat) : (s.emit m).engine n' = s.engine n' := rfl
@[simp] theorem State.group_emit (m : Msg) (n' : Nat) : (s.emit m).group n' = s.group n' := rfl
@[simp] theorem State.qp_emit (m : Msg) (q' : Nat) : (s.emit m).qp q' = s.qp q' := rfl
@[simp] theorem State.qset_emit (m : Msg) (n' : Nat) : (s.emit m).qset n' = s.qset n' := rfl
@[simp] theorem State.basin_tick (b' : Nat) : (s.tick).basin b' = s.basin b' := rfl
@[simp] theorem State.core_tick (c' : Nat) : (s.tick).core c' = s.core c' := rfl
@[simp] theorem State.port_tick (n' : Nat) : (s.tick).port n' = s.port n' := rfl
@[simp] theorem State.engine_tick (n' : Nat) : (s.tick).engine n' = s.engine n' := rfl
@[simp] theorem State.group_tick (n' : Nat) : (s.tick).group n' = s.group n' := rfl
@[simp] theorem State.qp_tick (q' : Nat) : (s.tick).qp q' = s.qp q' := rfl
@[simp] theorem State.qset_tick (n' : Nat) : (s.tick).qset n' = s.qset n' := rfl
@[simp] theorem State.basin_count (g : CntGroup) (n i k : Nat) (b' : Nat) : (s.count g n i k).basin b' = s.basin b' := rfl
@[simp] theorem State.core_count (g : CntGroup) (n i k : Nat) (c' : Nat) : (s.count g n i k).core c' = s.core c' := rfl
@[simp] theorem State.port_count (g : CntGroup) (n i k : Nat) (n' : Nat) : (s.count g n i k).port n' = s.port n' := rfl
@[simp] theorem State.engine_count (g : CntGroup) (n i k : Nat) (n' : Nat) : (s.count g n i k).engine n' = s.engine n' := rfl
@[simp] theorem State.group_count (g : CntGroup) (n i k : Nat) (n' : Nat) : (s.count g n i k).group n' = s.group n' := rfl
@[simp] theorem State.qp_count (g : CntGroup) (n i k : Nat) (q' : Nat) : (s.count g n i k).qp q' = s.qp q' := rfl
@[simp] theorem State.qset_count (g : CntGroup) (n i k : Nat) (n' : Nat) : (s.count g n i k).qset n' = s.qset n' := rfl

/-! ### Streams and registers -/

@[simp] theorem Core.stream_setStream_self (k : Core) (st : Strm) (v : Stream) : (k.setStream st v).stream st = v := by
  cases st <;> rfl

@[simp] theorem Core.stream_setStream_other (k : Core) (st : Strm) (v : Stream) :
    (k.setStream st v).stream (otherStrm st) = k.stream (otherStrm st) := by
  cases st <;> rfl

@[simp] theorem Core.setStream_setStream (k : Core) (st : Strm) (v w : Stream) :
    (k.setStream st v).setStream st w = k.setStream st w := by
  cases st <;> rfl

@[simp] theorem Core.setStream_stream (k : Core) (st : Strm) : k.setStream st (k.stream st) = k := by
  cases st <;> rfl

@[simp] theorem Core.setStream_flags (k : Core) (st : Strm) (v : Stream) : (k.setStream st v).flags = k.flags := by cases st <;> rfl
@[simp] theorem Core.setStream_queues (k : Core) (st : Strm) (v : Stream) : (k.setStream st v).queues = k.queues := by cases st <;> rfl
@[simp] theorem Core.setStream_ring0 (k : Core) (st : Strm) (v : Stream) : (k.setStream st v).ring0 = k.ring0 := by cases st <;> rfl
@[simp] theorem Core.setStream_ring1 (k : Core) (st : Strm) (v : Stream) : (k.setStream st v).ring1 = k.ring1 := by cases st <;> rfl
@[simp] theorem Core.setStream_base (k : Core) (st : Strm) (v : Stream) : (k.setStream st v).base = k.base := by cases st <;> rfl
@[simp] theorem Core.setStream_size (k : Core) (st : Strm) (v : Stream) : (k.setStream st v).size = k.size := by cases st <;> rfl
@[simp] theorem Core.setStream_sp (k : Core) (st : Strm) (v : Stream) : (k.setStream st v).sp = k.sp := by cases st <;> rfl
@[simp] theorem Core.setStream_spPoison (k : Core) (st : Strm) (v : Stream) : (k.setStream st v).spPoison = k.spPoison := by cases st <;> rfl
@[simp] theorem Core.setStream_ckseq (k : Core) (st : Strm) (v : Stream) : (k.setStream st v).ckseq = k.ckseq := by cases st <;> rfl
@[simp] theorem Core.setStream_lscale (k : Core) (st : Strm) (v : Stream) : (k.setStream st v).lscale = k.lscale := by cases st <;> rfl
@[simp] theorem Core.setStream_verdict (k : Core) (st : Strm) (v : Stream) : (k.setStream st v).verdict = k.verdict := by cases st <;> rfl
@[simp] theorem Core.setStream_step (k : Core) (st : Strm) (v : Stream) : (k.setStream st v).step = k.step := by cases st <;> rfl
@[simp] theorem Core.setStream_seed (k : Core) (st : Strm) (v : Stream) : (k.setStream st v).seed = k.seed := by cases st <;> rfl
@[simp] theorem Core.setStream_xstat (k : Core) (st : Strm) (v : Stream) : (k.setStream st v).xstat = k.xstat := by cases st <;> rfl
@[simp] theorem Core.setStream_cycle (k : Core) (st : Strm) (v : Stream) : (k.setStream st v).cycle = k.cycle := by cases st <;> rfl
@[simp] theorem Core.setStream_genDrain (k : Core) (st : Strm) (v : Stream) : (k.setStream st v).genDrain = k.genDrain := by cases st <;> rfl
@[simp] theorem Core.setStream_genVec (k : Core) (st : Strm) (v : Stream) : (k.setStream st v).genVec = k.genVec := by cases st <;> rfl
@[simp] theorem Core.setStream_armed (k : Core) (st : Strm) (v : Stream) : (k.setStream st v).armed = k.armed := by cases st <;> rfl
@[simp] theorem Core.setStream_tiles (k : Core) (st : Strm) (v : Stream) : (k.setStream st v).tiles = k.tiles := by cases st <;> rfl
@[simp] theorem Core.setStream_fullSeq (k : Core) (st : Strm) (v : Stream) : (k.setStream st v).fullSeq = k.fullSeq := by cases st <;> rfl
@[simp] theorem Core.setStream_nextOp (k : Core) (st : Strm) (v : Stream) : (k.setStream st v).nextOp = k.nextOp := by cases st <;> rfl
@[simp] theorem Core.setStream_streamPipe (k : Core) (st : Strm) (v : Stream) : (k.setStream st v).streamPipe = k.streamPipe := by cases st <;> rfl
@[simp] theorem Core.setStream_drainPipe (k : Core) (st : Strm) (v : Stream) : (k.setStream st v).drainPipe = k.drainPipe := by cases st <;> rfl
@[simp] theorem Core.setStream_vecPipe (k : Core) (st : Strm) (v : Stream) : (k.setStream st v).vecPipe = k.vecPipe := by cases st <;> rfl
@[simp] theorem Core.setStream_barges (k : Core) (st : Strm) (v : Stream) : (k.setStream st v).barges = k.barges := by cases st <;> rfl
@[simp] theorem Core.setStream_hrec (k : Core) (st : Strm) (v : Stream) : (k.setStream st v).hrec = k.hrec := by cases st <;> rfl
@[simp] theorem Core.setStream_fenced (k : Core) (st : Strm) (v : Stream) : (k.setStream st v).fenced = k.fenced := by cases st <;> rfl
@[simp] theorem Core.setStream_passNo (k : Core) (st : Strm) (v : Stream) : (k.setStream st v).passNo = k.passNo := by cases st <;> rfl
@[simp] theorem Core.setStream_capsule (k : Core) (st : Strm) (v : Stream) : (k.setStream st v).capsule = k.capsule := by cases st <;> rfl
@[simp] theorem Core.setStream_capture (k : Core) (st : Strm) (v : Stream) : (k.setStream st v).capture = k.capture := by cases st <;> rfl

theorem Stream.reg_setReg (t : Stream) (n m : Nat) (v : Word) (p : Bool) :
    (t.setReg n v p).reg m = if n = m ∧ n ≠ 0 then v else t.reg m := by
  simp only [Stream.setReg, Stream.reg]
  by_cases hn : n = 0
  · simp [hn]
  · by_cases hm : m = 0
    · subst hm; simp [hn]
    · simp [hn, hm, SMap.get_set]

theorem setBit_getLsbD {w : Nat} (t : BitVec w) (n m : Nat) (v : Bool) :
    (setBit t n v).getLsbD m = if n = m ∧ m < w then v else t.getLsbD m := by
  have hb : (BitVec.ofNat w (2 ^ n)).getLsbD m = (decide (m < w) && decide (n = m)) := by
    rw [BitVec.getLsbD_ofNat, Nat.testBit_two_pow]
  have hz : ¬ m < w → t.getLsbD m = false := fun h => BitVec.getLsbD_of_ge t m (by omega)
  unfold setBit
  cases v
  · rw [if_neg (by simp), BitVec.getLsbD_and, BitVec.getLsbD_not, hb]
    by_cases hm : m < w
    · by_cases h : n = m <;> simp [hm, h]
    · simp [hm, hz hm]
  · rw [if_pos rfl, BitVec.getLsbD_or, hb]
    by_cases hm : m < w
    · by_cases h : n = m <;> simp [hm, h]
    · simp [hm, hz hm]

theorem Stream.tag_setReg (t : Stream) (n m : Nat) (v : Word) (p : Bool) (hm : m < 16) :
    (t.setReg n v p).tag m = if n = m ∧ n ≠ 0 then p else t.tag m := by
  simp only [Stream.setReg, Stream.tag]
  by_cases hn : n = 0
  · simp [hn]
  · by_cases h0 : m = 0
    · subst h0; simp [hn]
    · rw [if_neg hn, if_neg h0, if_neg h0]
      simp only [setBit_getLsbD, hm, hn, and_true, not_false_eq_true, ne_eq]

@[simp] theorem Stream.setReg_pc (t : Stream) (n : Nat) (v : Word) (p : Bool) : (t.setReg n v p).pc = t.pc := by
  simp only [Stream.setReg]; split <;> rfl
@[simp] theorem Stream.setReg_loops (t : Stream) (n : Nat) (v : Word) (p : Bool) : (t.setReg n v p).loops = t.loops := by
  simp only [Stream.setReg]; split <;> rfl
@[simp] theorem Stream.setReg_wait (t : Stream) (n : Nat) (v : Word) (p : Bool) : (t.setReg n v p).wait = t.wait := by
  simp only [Stream.setReg]; split <;> rfl
@[simp] theorem Stream.setReg_halted (t : Stream) (n : Nat) (v : Word) (p : Bool) : (t.setReg n v p).halted = t.halted := by
  simp only [Stream.setReg]; split <;> rfl
@[simp] theorem Stream.setReg_stopped (t : Stream) (n : Nat) (v : Word) (p : Bool) : (t.setReg n v p).stopped = t.stopped := by
  simp only [Stream.setReg]; split <;> rfl
@[simp] theorem Stream.setReg_issue (t : Stream) (n : Nat) (v : Word) (p : Bool) : (t.setReg n v p).issue = t.issue := by
  simp only [Stream.setReg]; split <;> rfl
@[simp] theorem Stream.setReg_doneCc (t : Stream) (n : Nat) (v : Word) (p : Bool) : (t.setReg n v p).doneCc = t.doneCc := by
  simp only [Stream.setReg]; split <;> rfl
@[simp] theorem Stream.setReg_ahead (t : Stream) (n : Nat) (v : Word) (p : Bool) : (t.setReg n v p).ahead = t.ahead := by
  simp only [Stream.setReg]; split <;> rfl
@[simp] theorem Stream.setReg_stalls (t : Stream) (n : Nat) (v : Word) (p : Bool) : (t.setReg n v p).stalls = t.stalls := by
  simp only [Stream.setReg]; split <;> rfl

end Sys2Proof.Machine
end

