-- ==== Sys2Proof/Laws/Issue.lean ====
section
/-! SUPPORT. What presenting an instruction does, once its checks pass; and what finishing one leaves. -/

namespace Sys2Proof.Machine

/-- An instruction that passes its checks takes its effect on the state that its reads leave. -/
theorem State.present_clears {s : State} {i : Issue} {f : State → Core → Fields}
    {conds : State → Core → Stream → List Cond} {act : State → State} {F : Fields} {cs : List Cond}
    (h : s.clears i F cs = true) (ho : (f s (s.core i.core)).op = F.op) (hf : f (s.applyEcc i.ecc) ((s.applyEcc i.ecc).core i.core) = F)
    (hc : conds (s.applyEcc i.ecc) ((s.applyEcc i.ecc).core i.core) ((s.applyEcc i.ecc).streamOf i) = cs) :
    s.present i f conds act = act (s.applyEcc i.ecc) := by
  simp only [State.clears, Bool.and_eq_true, decide_eq_true_eq] at h
  obtain ⟨⟨⟨h1, h0⟩, h2⟩, h3⟩ := h
  simp only [State.streamOf] at *
  have hp : i.insn.presents (f s (s.core i.core)).op = true := by simp [Insn.presents, ho, h0]
  subst hf hc
  simp only [State.present, h1, hp, Bool.and_self, if_true, h2, h3]

/-- A halted check: what the device does with an instruction whose checks fail (04 R96). -/
theorem State.present_fails {s : State} {i : Issue} {f : State → Core → Fields}
    {conds : State → Core → Stream → List Cond} {act : State → State} {c : Cond}
    (h1 : s.canIssue i.core i.strm = true) (h0 : i.insn.presents (f s (s.core i.core)).op = true)
    (h2 : fetchCond ((s.applyEcc i.ecc).core i.core) i.insn ((s.applyEcc i.ecc).streamOf i) = none)
    (h3 : firstFail ((f (s.applyEcc i.ecc) ((s.applyEcc i.ecc).core i.core)).conds i.insn i.strm
      ((s.applyEcc i.ecc).streamOf i) ++
      conds (s.applyEcc i.ecc) ((s.applyEcc i.ecc).core i.core) ((s.applyEcc i.ecc).streamOf i)) = some c) :
    s.present i f conds act = (s.applyEcc i.ecc).haltCore i.core i.strm c.1 c.2 := by
  simp only [State.streamOf] at *
  simp only [State.present, h1, h0, Bool.and_self, if_true, h2, h3]

/-- A stream that cannot issue takes nothing. -/
theorem State.present_idle {s : State} {i : Issue} {f : State → Core → Fields}
    {conds : State → Core → Stream → List Cond} {act : State → State} (h : s.canIssue i.core i.strm = false) :
    s.present i f conds act = s := by
  simp [State.present, h]

/-! ### The end of an instruction -/

theorem Stream.reg_pc_irrel (t : Stream) (p : Nat) (n : Nat) : ({ t with pc := p } : Stream).reg n = t.reg n := rfl

/-- A register that no level ending here counts in keeps its value. -/
theorem Stream.after_reg (t : Stream) (last next : Nat) (ls : List LoopLevel) (n : Nat)
    (h : (ls.any fun l => decide (l.last = last) && decide (l.rd = n)) = false) :
    (t.after last next ls).reg n = t.reg n ∧ (n < 16 → (t.after last next ls).tag n = t.tag n) := by
  induction ls with
  | nil => exact ⟨rfl, fun _ => rfl⟩
  | cons l ls ih =>
    simp only [List.any_cons, Bool.or_eq_false_iff] at h
    simp only [Stream.after]
    split
    · rename_i hl
      have hn : l.rd ≠ n := by simpa [hl] using h.1
      split
      · refine ⟨?_, fun hn16 => ?_⟩
        · rw [Stream.reg_setReg, if_neg (by simp [hn])]; rfl
        · rw [Stream.tag_setReg _ _ _ _ _ hn16, if_neg (by simp [hn])]; rfl
      · exact ih h.2
    · exact ⟨rfl, fun _ => rfl⟩

/-- Where no level ends, the stream goes on at the next instruction. -/
theorem Stream.after_straight (t : Stream) (last next : Nat) (ls : List LoopLevel)
    (h : (ls.any fun l => decide (l.last = last)) = false) : t.after last next ls = { t with loops := ls, pc := next } := by
  cases ls with
  | nil => rfl
  | cons l ls =>
    simp only [List.any_cons, Bool.or_eq_false_iff, decide_eq_false_iff_not] at h
    simp [Stream.after, h.1]

theorem Stream.after_keeps (t : Stream) (last next : Nat) (ls : List LoopLevel) :
    (t.after last next ls).wait = t.wait ∧ (t.after last next ls).halted = t.halted ∧
    (t.after last next ls).stopped = t.stopped ∧ (t.after last next ls).issue = t.issue ∧
    (t.after last next ls).doneCc = t.doneCc ∧ (t.after last next ls).ahead = t.ahead ∧
    (t.after last next ls).stalls = t.stalls := by
  induction ls with
  | nil => simp [Stream.after]
  | cons l ls ih =>
    simp only [Stream.after]
    split
    · split
      · simp
      · exact ih
    · simp

theorem Stream.retire_reg (t : Stream) (wc cc n : Nat) (h : t.counts (t.pc + 8 * wc) n = false) :
    (t.retire wc cc).reg n = t.reg n ∧ (n < 16 → (t.retire wc cc).tag n = t.tag n) :=
  Stream.after_reg _ _ _ _ n h

theorem Stream.retire_issue (t : Stream) (wc cc : Nat) : (t.retire wc cc).issue = t.issue + cc :=
  (Stream.after_keeps _ _ _ _).2.2.2.1

theorem Stream.retire_wait (t : Stream) (wc cc : Nat) : (t.retire wc cc).wait = .none :=
  (Stream.after_keeps _ _ _ _).1

theorem Stream.retire_pc (t : Stream) (wc cc : Nat) (h : t.ends (t.pc + 8 * wc) = false) :
    (t.retire wc cc).pc = t.pc + 8 * (wc + 1) ∧ (t.retire wc cc).loops = t.loops := by
  have := Stream.after_straight { t with wait := .none, issue := t.issue + cc, ahead := t.ahead + cc }
    (t.pc + 8 * wc) (t.pc + 8 * wc + 8) t.loops h
  simp only [Stream.retire]
  rw [this]
  exact ⟨by simp only []; omega, rfl⟩

theorem State.count_get (s : State) (g : CntGroup) (n i k key : Nat) :
    SMap.get 0 (s.count g n i k).pmc.counters key =
      if cntKey g n i = key then (SMap.get 0 s.pmc.counters key + k) % 2 ^ 64 else SMap.get 0 s.pmc.counters key := by
  have h : (s.count g n i k).pmc.counters =
      SMap.set 0 s.pmc.counters (cntKey g n i) ((SMap.get 0 s.pmc.counters (cntKey g n i) + k) % 2 ^ 64) := rfl
  rw [h, SMap.get_set]
  by_cases he : cntKey g n i = key
  · rw [if_pos he, if_pos he, he]
  · rw [if_neg he, if_neg he]

theorem State.retire_core (s : State) (c c' : Nat) (st : Strm) (wc cc : Nat) :
    (s.retire c st wc cc).core c' =
      if c = c' then (s.core c).setStream st (((s.core c).stream st).retire wc cc) else s.core c' := by
  simp only [State.retire, State.core_count, State.core_updCore]

/-- Finishing an instruction changes its stream and its issue counter, and nothing else. -/
theorem State.onlyStream_retire (s : State) (c : Nat) (st : Strm) (v : Stream) (wc cc : Nat) :
    s.onlyStream ((s.updCore c fun k => k.setStream st v).retire c st wc cc) c st := by
  refine ⟨?_, ?_, ?_, ?_, ?_, ?_⟩
  · simp only [State.retire, State.count, State.updCore, State.setCore]
  · intro c' h
    rw [State.retire_core, if_neg (Ne.symm h), State.core_updCore, if_neg (Ne.symm h)]
  · rw [State.retire_core, if_pos rfl, State.core_updCore_self]; simp
  · intro key h
    rw [State.retire, State.count_get, if_neg (Ne.symm (h _))]; rfl
  · intro c' a
    simp only [State.spByte, State.retire_core, State.core_updCore]
    split
    · rename_i h; subst h; simp
    · rfl
  · intro b a; rfl

theorem State.streamOf_retire (s : State) (i : Issue) (wc cc : Nat) :
    (s.retire i.core i.strm wc cc).streamOf i = (s.streamOf i).retire wc cc := by
  simp [State.streamOf, State.retire]

end Sys2Proof.Machine
end

