-- ==== Sys2Proof/Laws/Kept.lean ====
section
/-! SUPPORT. What the operations of the machine keep: the queue of commands, the blown fuses and the limits of the power state. One
lemma per operation that keeps all of it; an operation that changes a part of it has its own lemma, or none. -/

namespace Sys2Proof.Machine

/-- The part of the state that most operations keep. -/
structure Kept where
  pending : List Instr
  svn : Nat
  gate : Nat
  step0 : Nat
  step1 : Nat
  up0 : Option Nat
  up1 : Option Nat
  cap : Nat
  throttle : Nat
  heldStep : Option (Nat × Nat)

/-- What most operations keep of a state. -/
def State.kept (s : State) : Kept :=
  { pending := s.pending, svn := s.sec.svn, gate := s.power.gate, step0 := s.power.step0, step1 := s.power.step1
    up0 := s.power.up0, up1 := s.power.up1, cap := s.power.cap, throttle := s.power.throttle
    heldStep := s.power.heldStep }

/-- The part of a state given by its fields. -/
@[simp] theorem State.kept_mk (x0 x1 x2 x3 x4 x5 x6 x7 x8 x9 x10 x11 x12 x13 x14 x15 x16 x17 x18 x19
    x20 x21 x22 x23 x24 x25 x26 x27 x28 x29 x30 x31 x32 x33 x34 x35 x36 x37) :
    (State.mk x0 x1 x2 x3 x4 x5 x6 x7 x8 x9 x10 x11 x12 x13 x14 x15 x16 x17 x18 x19
      x20 x21 x22 x23 x24 x25 x26 x27 x28 x29 x30 x31 x32 x33 x34 x35 x36 x37).kept =
      { pending := x0, svn := x34.svn, gate := x6.gate, step0 := x6.step0, step1 := x6.step1
        up0 := x6.up0, up1 := x6.up1, cap := x6.cap, throttle := x6.throttle, heldStep := x6.heldStep } := by
  simp only [State.kept]

/-- The fields of one state make its part. -/
@[simp] theorem State.kept_fold (s : State) :
    ({ pending := s.pending, svn := s.sec.svn, gate := s.power.gate, step0 := s.power.step0, step1 := s.power.step1
       up0 := s.power.up0, up1 := s.power.up1, cap := s.power.cap, throttle := s.power.throttle
       heldStep := s.power.heldStep } : Kept) = s.kept := by
  simp only [State.kept]

/-- A fold of an operation that keeps the part keeps it. -/
@[simp] theorem foldl_kept {α : Type} (f : State → α → State) (h : ∀ s a, (f s a).kept = s.kept) (l : List α) (s : State) :
    (l.foldl f s).kept = s.kept := by
  induction l generalizing s with
  | nil => rfl
  | cons a l ih => exact (ih _).trans (h s a)

/-- The same for a fold that carries more than a state. -/
@[simp] theorem foldl_fst_kept {α β : Type} (f : State × β → α → State × β) (h : ∀ p a, (f p a).1.kept = p.1.kept) (l : List α)
    (p : State × β) : (l.foldl f p).1.kept = p.1.kept := by
  induction l generalizing p with
  | nil => rfl
  | cons a l ih => exact (ih _).trans (h p a)

/-- The part of a state chosen by a condition. -/
@[simp] theorem kept_ite (c : Prop) [Decidable c] (s t : State) : (if c then s else t).kept = if c then s.kept else t.kept := by
  split <;> rfl

/-- The state of a pair chosen by a condition. -/
@[simp] theorem kept_ite_fst {α : Type} (c : Prop) [Decidable c] (p q : State × α) :
    (if c then p else q).1.kept = if c then p.1.kept else q.1.kept := by
  split <;> rfl

/-- A state that an operation answers has the part that the operation's state has. -/
theorem kept_of_eq {α : Type} {s t : State} {p : State × α} {a : α} (h : p = (t, a)) (hp : p.1.kept = s.kept) : t.kept = s.kept := by
  subst h; exact hp

/-! ### Ops -/

@[simp] theorem State.setBasin_kept (s : State) (b : Nat) (v : Basin) : (s.setBasin b v).kept = s.kept := by
  simp [State.setBasin]

@[simp] theorem State.updBasin_kept (s : State) (b : Nat) (f : Basin → Basin) : (s.updBasin b f).kept = s.kept := by
  simp [State.updBasin]

@[simp] theorem State.setCore_kept (s : State) (c : Nat) (v : Core) : (s.setCore c v).kept = s.kept := by
  simp [State.setCore]

@[simp] theorem State.updCore_kept (s : State) (c : Nat) (f : Core → Core) : (s.updCore c f).kept = s.kept := by
  simp [State.updCore]

@[simp] theorem State.updPort_kept (s : State) (n : Nat) (f : Stack → Stack) : (s.updPort n f).kept = s.kept := by
  simp [State.updPort]

@[simp] theorem State.updEngine_kept (s : State) (n : Nat) (f : Whs → Whs) : (s.updEngine n f).kept = s.kept := by
  simp [State.updEngine]

@[simp] theorem State.updGroup_kept (s : State) (n : Nat) (f : EthGroup → EthGroup) : (s.updGroup n f).kept = s.kept := by
  simp [State.updGroup]

@[simp] theorem State.updQp_kept (s : State) (qpn : Nat) (f : Qp → Qp) : (s.updQp qpn f).kept = s.kept := by
  simp [State.updQp]

@[simp] theorem State.updQset_kept (s : State) (n : Nat) (f : Qset → Qset) : (s.updQset n f).kept = s.kept := by
  simp [State.updQset]

@[simp] theorem State.emit_kept (s : State) (m : Msg) : (s.emit m).kept = s.kept := by
  simp [State.emit]

@[simp] theorem State.tick_kept (s : State) : (s.tick).kept = s.kept := by
  simp [State.tick]

@[simp] theorem State.setMsix_kept (s : State) (fn : HostFn) (v : Nat) (e : MsixEntry) : (s.setMsix fn v e).kept = s.kept := by
  unfold State.setMsix
  repeat' first | with_reducible rfl | simp | split

@[simp] theorem State.notify_kept (s : State) (fn : HostFn) (v : Nat) : (s.notify fn v).kept = s.kept := by
  unfold State.notify
  repeat' first | with_reducible rfl | simp | split

@[simp] theorem State.markEvent_kept (s : State) (b i : Nat) : (s.markEvent b i).kept = s.kept := by
  simp [State.markEvent]

@[simp] theorem State.setEvent_kept (s : State) (b i : Nat) : (s.setEvent b i).kept = s.kept := by
  simp [State.setEvent]

@[simp] theorem State.count_kept (s : State) (g : CntGroup) (n i k : Nat) : (s.count g n i k).kept = s.kept := by
  simp [State.count]

@[simp] theorem State.updPage_kept (s : State) (b p : Nat) (f : Page → Page) : (s.updPage b p f).kept = s.kept := by
  simp [State.updPage]

@[simp] theorem State.updCores_kept (s : State) (cs : List Nat) (f : Nat → Core → Core) : (s.updCores cs f).kept = s.kept := by
  unfold State.updCores
  exact foldl_kept _ (fun _ _ => by simp) _ _

@[simp] theorem State.postReport_kept (s : State) (r : Report) : (s.postReport r).kept = s.kept := by
  unfold State.postReport
  repeat' first | with_reducible rfl | simp | split

@[simp] theorem State.report_kept (s : State) (r0 : Report) : (s.report r0).kept = s.kept := by
  unfold State.report
  dsimp only
  split
  · split <;> simp
  · simp

@[simp] theorem State.addCharge_kept (s : State) (kind index : Nat) : (s.addCharge kind index).kept = s.kept := by
  simp [State.addCharge]

@[simp] theorem State.stopCores_kept (s : State) (b : Nat) : (s.stopCores b).kept = s.kept := by
  simp [State.stopCores]

@[simp] theorem State.switchClusters_kept (s : State) (on : Bool) (cs : List Nat) : (s.switchClusters on cs).kept = s.kept := by
  unfold State.switchClusters
  exact foldl_kept _ (fun _ _ => by repeat' first | with_reducible rfl | simp | split) _ _

@[simp] theorem State.switchQuarry_kept (s : State) (on : Bool) : (s.switchQuarry on).kept = s.kept := by
  unfold State.switchQuarry
  repeat' first | with_reducible rfl | simp | split

@[simp] theorem State.ethDomain_kept (s : State) (n : Nat) : (s.ethDomain n).kept = s.kept := by
  simp [State.ethDomain]

@[simp] theorem State.ethDomains_kept (s : State) : (s.ethDomains).kept = s.kept := by
  simp [State.ethDomains]

@[simp] theorem State.startTest_kept (s : State) (b : Nat) : (s.startTest b).kept = s.kept := by
  unfold State.startTest
  repeat' first | with_reducible rfl | simp | split

@[simp] theorem State.testUnbound_kept (s : State) : (s.testUnbound).kept = s.kept := by
  unfold State.testUnbound
  repeat' first | with_reducible rfl | simp | split

@[simp] theorem State.takeRebind_kept (s : State) (b : Nat) : (s.takeRebind b).kept = s.kept := by
  unfold State.takeRebind
  repeat' first | with_reducible rfl | simp | split

@[simp] theorem State.restTest_kept (s : State) (b : Nat) : (s.restTest b).kept = s.kept := by
  unfold State.restTest
  repeat' first | with_reducible rfl | simp | split

@[simp] theorem State.enterParked_kept (s : State) (b : Nat) : (s.enterParked b).kept = s.kept := by
  simp [State.enterParked]

@[simp] theorem State.dropTest_kept (s : State) (b : Nat) : (s.dropTest b).kept = s.kept := by
  simp [State.dropTest]

@[simp] theorem State.beginUnbind_kept (s : State) (b : Nat) : (s.beginUnbind b).kept = s.kept := by
  simp [State.beginUnbind]

@[simp] theorem State.enterFence_kept (s : State) (b : Option Nat) (kind c : Nat) : (s.enterFence b kind c).kept = s.kept := by
  simp [State.enterFence]

@[simp] theorem State.applyFences_kept (s : State) (b : Nat) : (s.applyFences b).kept = s.kept := by
  unfold State.applyFences
  repeat' first
    | with_reducible rfl
    | simp
    | split
    | refine (foldl_kept _ (fun _ _ => by repeat' first | with_reducible rfl | simp | split) _ _).trans ?_

@[simp] theorem State.settle_kept (s : State) (b : Nat) : (s.settle b).kept = s.kept := by
  unfold State.settle
  repeat' first | with_reducible rfl | simp | split

@[simp] theorem State.haltBasin_kept (s : State) (b cause : Nat) : (s.haltBasin b cause).kept = s.kept := by
  simp [State.haltBasin]

@[simp] theorem State.enterIdle_kept (s : State) (b : Nat) : (s.enterIdle b).kept = s.kept := by
  simp [State.enterIdle]

@[simp] theorem State.beginRestart_kept (s : State) (b cause : Nat) : (s.beginRestart b cause).kept = s.kept := by
  unfold State.beginRestart
  repeat' first | with_reducible rfl | simp | split

@[simp] theorem State.tierEvent_kept (s : State) (b cause detail : Nat) : (s.tierEvent b cause detail).kept = s.kept := by
  unfold State.tierEvent
  repeat' first | with_reducible rfl | simp | split

@[simp] theorem State.respond_kept (s : State) (b cause detail : Nat) : (s.respond b cause detail).kept = s.kept := by
  unfold State.respond
  repeat' first | with_reducible rfl | simp | split

@[simp] theorem State.haltWith_kept (s : State) (c : Nat) (r : HaltRec) : (s.haltWith c r).kept = s.kept := by
  unfold State.haltWith
  repeat' first | with_reducible rfl | simp | split

@[simp] theorem State.haltCore_kept (s : State) (c : Nat) (st : Strm) (cause detail : Nat) : (s.haltCore c st cause detail).kept = s.kept := by
  simp [State.haltCore]

@[simp] theorem State.haltAt_kept (s : State) (c : Nat) (st : Strm) (pc cause detail : Nat) : (s.haltAt c st pc cause detail).kept = s.kept := by
  simp [State.haltAt]

@[simp] theorem State.haltBoth_kept (s : State) (c code cause detail : Nat) : (s.haltBoth c code cause detail).kept = s.kept := by
  simp [State.haltBoth]

@[simp] theorem State.stopForTier_kept (s : State) (b detail : Nat) : (s.stopForTier b detail).kept = s.kept := by
  simp [State.stopForTier]

@[simp] theorem State.fenceCore_kept (s : State) (kind c : Nat) : (s.fenceCore kind c).kept = s.kept := by
  unfold State.fenceCore
  repeat' first | with_reducible rfl | simp | split

@[simp] theorem State.fenceUnit_kept (s : State) (kind index : Nat) : (s.fenceUnit kind index).kept = s.kept := by
  unfold State.fenceUnit
  repeat' first | with_reducible rfl | simp | split

@[simp] theorem State.charge_kept (s : State) (kind index event addr detail act : Nat) (b : Option Nat) : (s.charge kind index event addr detail act b).kept = s.kept := by
  unfold State.charge
  repeat' first | with_reducible rfl | simp | split

@[simp] theorem State.applyEcc_kept (es : List EccHit) (s : State) : (s.applyEcc es).kept = s.kept := by
  induction es generalizing s with
  | nil => rfl
  | cons e es ih => unfold State.applyEcc; rw [ih]; split <;> simp

@[simp] theorem State.residueHalt_kept (s : State) (c : Nat) (st : Strm) (pc event detail : Nat) : (s.residueHalt c st pc event detail).kept = s.kept := by
  simp [State.residueHalt]

@[simp] theorem State.undefine_kept (s : State) (b : Nat) : (s.undefine b).kept = s.kept := by
  simp [State.undefine]

/-! ### Operands -/

theorem State.present_kept (s : State) (i : Issue) (f : State → Core → Fields) (conds : State → Core → Stream → List Cond)
    (act : State → State) (h : ∀ s, (act s).kept = s.kept) : (s.present i f conds act).kept = s.kept := by
  unfold State.present
  repeat' first | with_reducible rfl | simp [h] | split

@[simp] theorem State.retire_kept (s : State) (c : Nat) (st : Strm) (wc cc : Nat) : (s.retire c st wc cc).kept = s.kept := by
  simp [State.retire]

@[simp] theorem State.branch_kept (s : State) (c : Nat) (st : Strm) (target : Nat) : (s.branch c st target).kept = s.kept := by
  simp [State.branch]

@[simp] theorem State.unitWait_kept (s : State) (c : Nat) (st : Strm) (rank : Nat) : (s.unitWait c st rank).kept = s.kept := by
  simp [State.unitWait]

/-! ### Flags -/

@[simp] theorem State.setFlag_kept (s : State) (c f : Nat) : (s.setFlag c f).kept = s.kept := by
  simp [State.setFlag]

@[simp] theorem State.setInsnFlag_kept (s : State) (c : Nat) (i : Insn) : (s.setInsnFlag c i).kept = s.kept := by
  unfold State.setInsnFlag
  repeat' first | with_reducible rfl | simp | split

/-! ### Gradient -/

@[simp] theorem State.haltCores_kept (s : State) (b stream cause detail : Nat) : (s.haltCores b stream cause detail).kept = s.kept := by
  simp [State.haltCores]

@[simp] theorem State.checkClosing_kept (s : State) (b : Nat) : (s.checkClosing b).kept = s.kept := by
  unfold State.checkClosing
  repeat' first | with_reducible rfl | simp | split

/-! ### Scalar -/

@[simp] theorem State.alu_kept (s : State) (i : Issue) (op cc : Nat) (f : Word → Word → Word) : (s.alu i op cc f).kept = s.kept := by
  unfold State.alu
  exact State.present_kept _ _ _ _ _ fun _ => by simp

/-! ### Control -/

@[simp] theorem State.finishCore_kept (s : State) (c : Nat) : (s.finishCore c).kept = s.kept := by
  unfold State.finishCore
  repeat' first | with_reducible rfl | simp | split

@[simp] theorem State.sluiceArrival_kept (s : State) (c : Nat) : (s.sluiceArrival c).kept = s.kept := by
  unfold State.sluiceArrival
  repeat' first | with_reducible rfl | simp | split

/-! ### Arrays -/

@[simp] theorem State.setXstat_kept (s : State) (c : Nat) (ov : Bool) : (s.setXstat c ov).kept = s.kept := by
  unfold State.setXstat
  repeat' first | with_reducible rfl | simp | split

@[simp] theorem State.sample_kept (s : State) (c : Nat) (k : Core) : (s.sample c k).kept = s.kept := by
  unfold State.sample
  dsimp only
  repeat' split
  all_goals first | with_reducible rfl | (simp; done) | (next h => exact kept_of_eq h (by simp)) | (next h => simp [kept_of_eq h (by simp)]; done)

@[simp] theorem State.enterRow_kept (s : State) (c : Nat) (w : OpDesc) (row : Nat) (last : Bool) (u : Option Upset) : (s.enterRow c w row last u).kept = s.kept := by
  simp [State.enterRow]

@[simp] theorem opstrGo_kept (c : Nat) (w : OpDesc) (n row : Nat) (s : State) : (opstrGo c w n row s).1.kept = s.kept := by
  induction n generalizing row s with
  | zero => rfl
  | succ n ih => unfold opstrGo; split <;> simp [ih]

@[simp] theorem State.runStream_kept (s : State) (c : Nat) : (s.runStream c).kept = s.kept := by
  unfold State.runStream
  exact foldl_fst_kept _ (fun _ _ => by repeat' first | with_reducible rfl | simp | split) _ _

/-! ### Memory -/

@[simp] theorem State.countIo_kept (s : State) (b : Nat) (write : Bool) (port : Option Nat) (blks : List Nat) : (s.countIo b write port blks).kept = s.kept := by
  unfold State.countIo
  exact foldl_kept _ (fun _ _ => by repeat' first | with_reducible rfl | simp | split) _ _

@[simp] theorem State.countOpen_kept (s : State) (b ba n : Nat) : (s.countOpen b ba n).kept = s.kept := by
  unfold State.countOpen
  repeat' first | with_reducible rfl | simp | (rw [foldl_kept _ (fun _ _ => by repeat' first | with_reducible rfl | simp | split)]) | split

@[simp] theorem State.tierMsg_kept (s : State) (b p line lines : Nat) (write : Bool) : (s.tierMsg b p line lines write).kept = s.kept := by
  simp [State.tierMsg]

@[simp] theorem State.resolveBias_kept (s : State) (b p : Nat) (write : Bool) : (s.resolveBias b p write).kept = s.kept := by
  simp [State.resolveBias]

@[simp] theorem State.zeroFill_kept (s : State) (b p : Nat) : (s.zeroFill b p).kept = s.kept := by
  unfold State.zeroFill
  dsimp only
  repeat' split
  all_goals first | with_reducible rfl | (simp; done) | (next h => exact kept_of_eq h (by simp)) | (next h => simp [kept_of_eq h (by simp)]; done)

theorem State.takeMap_kept {s t : State} {b p : Nat} (h : s.takeMap b p = some t) : t.kept = s.kept := by
  unfold State.takeMap at h
  split at h
  · cases h; rfl
  · cases hm : s.mapVictim with
    | none => simp [hm] at h
    | some e => simp [hm] at h; simp [← h]

@[simp] theorem State.askMove_kept (s : State) (b p : Nat) : (s.askMove b p).kept = s.kept := by
  simp [State.askMove]

@[simp] theorem State.addMove_kept (s : State) (b p : Nat) (c : MoveCause) (f : Page → Page) : (s.addMove b p c f).kept = s.kept := by
  unfold State.addMove
  split
  · rfl
  · next h => simp [← State.takeMap_kept h]

@[simp] theorem State.evict_kept (s : State) (v : Nat × Nat) (h : Nat) : (s.evict v h).kept = s.kept := by
  simp [State.evict]

theorem State.supply_kept {s t : State} {b p : Nat} (h : s.supply b p = .waits t) : t.kept = s.kept := by
  unfold State.supply at h
  dsimp only at h
  repeat' split at h
  all_goals cases h
  all_goals first | rfl | (split <;> simp; done) | simp

@[simp] theorem State.returnTo_kept (s : State) (b p f : Nat) (c : MoveCause) : (s.returnTo b p f c).kept = s.kept := by
  simp [State.returnTo]

@[simp] theorem State.tryReturn_kept (s : State) (b p : Nat) : (s.tryReturn b p).1.kept = s.kept := by
  unfold State.tryReturn
  dsimp only
  split
  · split
    · simp
    · next h => simp [State.supply_kept h]
    · simp
  · rfl

@[simp] theorem State.touch_kept (s : State) (b p : Nat) : (s.touch b p).kept = s.kept := by
  simp [State.touch]

@[simp] theorem State.prepPage_kept (s : State) (b p : Nat) : (s.prepPage b p).1.kept = s.kept := by
  unfold State.prepPage
  dsimp only
  repeat' split
  all_goals first
    | rfl
    | (next h => simp [State.supply_kept h]; done)
    | (next h => simp [State.takeMap_kept h]; done)
    | (simp; done)

@[simp] theorem State.prepPages_kept (b : Nat) (ps : List Nat) (s : State) : (s.prepPages b ps).1.kept = s.kept := by
  induction ps generalizing s with
  | nil => rfl
  | cons p ps ih =>
    have hp := State.prepPage_kept s b p
    unfold State.prepPages
    split
    · next h => rw [ih]; simpa [h] using hp
    · exact hp

@[simp] theorem State.dropMerged_kept (s : State) (b ba n : Nat) : (s.dropMerged b ba n).kept = s.kept := by
  simp [State.dropMerged]

@[simp] theorem State.clearWriteFails_kept (s : State) (b : Nat) (blks : List Nat) : (s.clearWriteFails b blks).kept = s.kept := by
  unfold State.clearWriteFails
  exact foldl_kept _ (fun _ _ => by (repeat' split) <;> first | with_reducible rfl | simp) _ _

@[simp] theorem State.writeMem_kept (s : State) (b ba : Nat) (bs : List Byte) (bad : List Nat) : (s.writeMem b ba bs bad).kept = s.kept := by
  simp [State.writeMem]

@[simp] theorem State.addRaw_kept (s : State) (b f n : Nat) (c : MoveCause) : (s.addRaw b f n c).kept = s.kept := by
  simp [State.addRaw]

@[simp] theorem State.rawMove_kept (s : State) (f : Nat) (c : MoveCause) : (s.rawMove f c).kept = s.kept := by
  unfold State.rawMove
  repeat' first | with_reducible rfl | simp | split

@[simp] theorem State.fenceMoves_kept (s : State) (f : Nat) : (s.fenceMoves f).kept = s.kept := by
  unfold State.fenceMoves
  rw [foldl_kept _ (fun _ _ => foldl_kept _ (fun _ _ => by dsimp only; (repeat' split) <;> first | rfl | simp) _ _)]
  simp

@[simp] theorem State.fenceFrame_kept (s : State) (f : Nat) : (s.fenceFrame f).kept = s.kept := by
  unfold State.fenceFrame
  split <;> simp

@[simp] theorem State.requestRetrain_kept (s : State) (n : Nat) : (s.requestRetrain n).kept = s.kept := by
  unfold State.requestRetrain
  repeat' first | with_reducible rfl | simp | split

@[simp] theorem State.crcRetries_kept (s : State) (n k : Nat) : (s.crcRetries n k).kept = s.kept := by
  unfold State.crcRetries
  repeat' first | with_reducible rfl | simp | split

@[simp] theorem State.chargeFrame_kept (s : State) (b : Option Nat) (f i detail : Nat) : (s.chargeFrame b f i detail).kept = s.kept := by
  unfold State.chargeFrame
  dsimp only
  split <;> simp

@[simp] theorem State.uncorrectable_kept (s : State) (b blk : Nat) : (s.uncorrectable b blk).kept = s.kept := by
  unfold State.uncorrectable
  dsimp only
  split <;> simp

@[simp] theorem State.readErrors_kept (s : State) (b : Nat) (blks : List Nat) (e : ReadEnv) : (s.readErrors b blks e).kept = s.kept := by
  unfold State.readErrors
  dsimp only
  rw [foldl_kept _ (fun _ _ => by (repeat' split) <;> first | rfl | simp), foldl_kept _ (fun _ _ => by (repeat' split) <;> first | rfl | simp),
    foldl_kept _ (fun _ _ => by (repeat' split) <;> first | rfl | simp)]

@[simp] theorem State.poisonRead_kept (s : State) (b : Nat) (blks : List Nat) (e : ReadEnv) : (s.poisonRead b blks e).kept = s.kept := by
  unfold State.poisonRead
  exact foldl_kept _ (fun _ _ => by (repeat' split) <;> first | with_reducible rfl | simp) _ _

@[simp] theorem State.readMet_kept (s : State) (b : Nat) (blks : List Nat) (e : ReadEnv) : (s.readMet b blks e).1.kept = s.kept := by
  simp only [State.readMet, State.countIo_kept, State.readErrors_kept]
  exact foldl_kept _ (fun _ _ => by simp) _ _

@[simp] theorem State.readOut_kept (s : State) (b ba n : Nat) (e : ReadEnv) : (s.readOut b ba n e).1.kept = s.kept := by
  simp [State.readOut]

@[simp] theorem State.rawErrors_kept (s : State) (b f first : Nat) (e : ReadEnv) : (s.rawErrors b f first e).kept = s.kept := by
  unfold State.rawErrors
  dsimp only
  rw [foldl_kept _ (fun _ _ => by simp), foldl_kept _ (fun _ _ => by simp)]
  simp

@[simp] theorem State.askPages_kept (s : State) (b : Nat) (blks : List Nat) (write : Bool) : (s.askPages b blks write).1.kept = s.kept := by
  unfold State.askPages
  dsimp only
  exact foldl_fst_kept _ (fun _ _ => by (repeat' split) <;> first | rfl | simp) _ _

@[simp] theorem State.readReady_kept (s : State) (b : Nat) (parts : List (Nat × Nat)) : (s.readReady b parts).1.kept = s.kept := by
  simp only [State.readReady, State.askPages_kept]
  exact foldl_kept _ (fun _ _ => by simp) _ _

@[simp] theorem State.useAnswers_kept (s : State) (b : Nat) (blks : List Nat) : (s.useAnswers b blks).kept = s.kept := by
  simp [State.useAnswers]

@[simp] theorem State.startPushes_kept (s : State) (b : Nat) : (s.startPushes b).kept = s.kept := by
  unfold State.startPushes
  exact foldl_kept _ (fun _ _ => by dsimp only; (repeat' split) <;> first | rfl | simp) _ _

@[simp] theorem State.drain_kept (s : State) (n : Nat) : (s.drain n).kept = s.kept := by
  unfold State.drain
  dsimp only
  rw [foldl_kept _ (fun _ _ => foldl_kept _ (fun _ _ => by (repeat' split) <;> first | rfl | simp) _ _), foldl_kept _ (fun _ _ => by simp)]

@[simp] theorem State.retryMove_kept (s : State) (b p : Nat) : (s.retryMove b p).kept = s.kept := by
  unfold State.retryMove
  dsimp only
  repeat' split
  all_goals first | rfl | (next h => simp [State.supply_kept h]; done) | simp

@[simp] theorem State.updQueue_kept (s : State) (b j : Nat) (f : TpQueue → TpQueue) : (s.updQueue b j f).kept = s.kept := by
  simp [State.updQueue]

theorem takeFrames_kept {b n : Nat} {s t : State} {l : List Nat} (h : takeFrames b n s l = .waits t) : t.kept = s.kept := by
  induction n generalizing s l with
  | zero => cases h
  | succ n ih =>
    unfold takeFrames at h
    split at h
    · simpa using ih h
    · next hs => cases h; exact State.supply_kept hs
    · cases h

@[simp] theorem State.setDepth_kept (s : State) (b j d : Nat) : (s.setDepth b j d).kept = s.kept := by
  unfold State.setDepth
  dsimp only
  repeat' split
  all_goals first | rfl | (next h => simpa using takeFrames_kept h) | simp

@[simp] theorem State.retryDepths_kept (s : State) (b : Nat) : (s.retryDepths b).kept = s.kept := by
  unfold State.retryDepths
  exact foldl_kept _ (fun _ _ => by split <;> simp) _ _

@[simp] theorem growLog_kept (b n : Nat) (s : State) : (growLog b n s).kept = s.kept := by
  induction n generalizing s with
  | zero => rfl
  | succ n ih =>
    unfold growLog
    split
    · rfl
    · split
      · rw [ih]; simp
      · next h => exact State.supply_kept h
      · simp

@[simp] theorem State.fillLog_kept (s : State) (b : Nat) : (s.fillLog b).kept = s.kept := by
  simp [State.fillLog]

@[simp] theorem State.pausePrio_kept (s : State) (n prio : Nat) : (s.pausePrio n prio).kept = s.kept := by
  simp [State.pausePrio]

@[simp] theorem State.drainGroup_kept (s : State) (n : Nat) : (s.drainGroup n).kept = s.kept := by
  simp [State.drainGroup]

@[simp] theorem State.advanceTier_kept (s : State) : s.advanceTier.kept = s.kept := by
  unfold State.advanceTier
  dsimp only
  rw [foldl_kept _ (fun _ _ => foldl_kept _ (fun _ _ => by simp) _ _), foldl_kept _ (fun _ _ => by split <;> simp),
    foldl_kept _ (fun _ _ => by simp), foldl_kept _ (fun _ _ => by simp), foldl_kept _ (fun _ _ => by simp), foldl_kept _ (fun _ _ => by simp),
    foldl_kept _ (fun _ _ => foldl_kept _ (fun _ _ => by simp) _ _)]

@[simp] theorem State.commitAll_kept (s : State) (b : Nat) : (s.commitAll b).kept = s.kept := by
  unfold State.commitAll
  dsimp only
  rw [State.advanceTier_kept, foldl_kept _ (fun _ _ => by (repeat' split) <;> first | rfl | simp)]
  simp

@[simp] theorem State.endMove_kept (s : State) (i : Nat) (m : Move) : (s.endMove i m).kept = s.kept := by
  unfold State.endMove
  dsimp only
  rw [State.advanceTier_kept]
  repeat' split
  all_goals simp

@[simp] theorem State.rawCopied_kept (s : State) (i : Nat) (m : Move) (env : ReadEnv) : (s.rawCopied i m env).kept = s.kept := by
  unfold State.rawCopied
  dsimp only
  repeat' split
  all_goals simp

@[simp] theorem State.rescue_kept (s : State) (b p : Nat) : (s.rescue b p).kept = s.kept := by
  unfold State.rescue
  split
  · simp
  · next h => simp [State.supply_kept h]
  · simp

@[simp] theorem State.loseStack_kept (s : State) (n : Nat) : (s.loseStack n).kept = s.kept := by
  simp [State.loseStack]

/-! ### WhsTable -/

@[simp] theorem State.queueChunk_kept (s : State) (k : Chunk) : (s.queueChunk k).kept = s.kept := by
  simp [State.queueChunk]

@[simp] theorem State.startPasses_kept (s : State) (b : Nat) : (s.startPasses b).kept = s.kept := by
  unfold State.startPasses
  exact foldl_kept _ (fun _ _ => by simp) _ _

@[simp] theorem State.dropPasses_kept (s : State) (b : Nat) : (s.dropPasses b).kept = s.kept := by
  simp [State.dropPasses]

@[simp] theorem State.moveChunks_kept (s : State) (n : Nat) : (s.moveChunks n).kept = s.kept := by
  unfold State.moveChunks
  exact foldl_kept _ (fun _ _ => by simp) _ _

/-! ### Collective -/

@[simp] theorem State.emitPacket_kept (s : State) (qpn g psn : Nat) (bs : List Byte) (imm : Option Nat) : (s.emitPacket qpn g psn bs imm).kept = s.kept := by
  simp [State.emitPacket]

@[simp] theorem State.emitFrame_kept (s : State) (qpn g : Nat) (bs : List Byte) (poison : List Nat) : (s.emitFrame qpn g bs poison).kept = s.kept := by
  simp [State.emitFrame]

@[simp] theorem State.sendOne_kept (s : State) (g qpn : Nat) : (s.sendOne g qpn).kept = s.kept := by
  unfold State.sendOne
  dsimp only
  repeat' split
  all_goals first | with_reducible rfl | (simp; done) | (next h => exact kept_of_eq h (by simp)) | (next h => simp [kept_of_eq h (by simp)]; done)

@[simp] theorem serveGo_kept (n : Nat) (s : State) : (serveGo n s).kept = s.kept := by
  induction n generalizing s with
  | zero => rfl
  | succ n ih =>
    unfold serveGo
    split
    · rfl
    · simp [ih]

@[simp] theorem State.flushAll_kept (s : State) : s.flushAll.kept = s.kept := by
  simp [State.flushAll]

@[simp] theorem State.sendPayload_kept (s : State) (b qpn : Nat) (bs : List (Byte × Bool)) : (s.sendPayload b qpn bs).kept = s.kept := by
  unfold State.sendPayload
  dsimp only
  repeat' split
  all_goals simp

@[simp] theorem State.sendMessage_kept (s : State) (b qpn : Nat) (bs : List (Byte × Bool)) : (s.sendMessage b qpn bs).kept = s.kept := by
  simp [State.sendMessage]

@[simp] theorem State.logPayload_kept (s : State) (b qpn : Nat) (bs : List (Byte × Bool)) : (s.logPayload b qpn bs).kept = s.kept := by
  simp [State.logPayload]

@[simp] theorem State.collRead_kept (s : State) (b ba n : Nat) : (s.collRead b ba n).1.kept = s.kept := by
  unfold State.collRead
  split
  · next h => exact kept_of_eq h (by simp)
  · next h => simp [kept_of_eq h (State.readReady_kept s b _)]

@[simp] theorem State.collOwn_kept (s : State) (b ba n : Nat) (need : Bool) : (s.collOwn b ba n need).1.kept = s.kept := by
  simp [State.collOwn]

@[simp] theorem State.channelFails_kept (s : State) (b : Nat) (c : Coll) (n : Nat) : (s.channelFails b c n).kept = s.kept := by
  simp [State.channelFails]

@[simp] theorem collGo_kept (b e n : Nat) (s : State) : (collGo b e n s).kept = s.kept := by
  induction n generalizing s with
  | zero => rfl
  | succ n ih =>
    unfold collGo
    dsimp only
    repeat' split
    all_goals first
      | rfl
      | exact kept_of_eq ‹State.collOwn _ _ _ _ _ = _› (State.collOwn_kept _ _ _ _ _)
      | simp [ih, kept_of_eq ‹State.collOwn _ _ _ _ _ = _› (State.collOwn_kept _ _ _ _ _)]

@[simp] theorem State.runColls_kept (s : State) (b : Nat) : (s.runColls b).kept = s.kept := by
  unfold State.runColls
  exact foldl_kept _ (fun _ _ => by split <;> simp) _ _

@[simp] theorem State.startColl_kept (s : State) (b e : Nat) (layer : Option Nat) : (s.startColl b e layer).kept = s.kept := by
  unfold State.startColl
  dsimp only
  split
  · simp
  · rfl

@[simp] theorem State.trigger_kept (s : State) (b : Nat) (onSluice : Bool) (n : Nat) : (s.trigger b onSluice n).kept = s.kept := by
  unfold State.trigger
  exact foldl_kept _ (fun _ _ => by simp) _ _

@[simp] theorem State.writeBytes_kept (s : State) (b ba : Nat) (bs : List (Byte × Bool)) : (s.writeBytes b ba bs).kept = s.kept := by
  simp [State.writeBytes]

@[simp] theorem State.storeParts_kept (s : State) (b : Nat) (ws : List (Nat × List (Byte × Bool))) : (s.storeParts b ws).1.kept = s.kept := by
  unfold State.storeParts
  dsimp only
  split
  · next h => simp [kept_of_eq h (State.prepPages_kept b _ s)]
  · simp

@[simp] theorem State.failColls_kept (s : State) (qpn : Nat) : (s.failColls qpn).kept = s.kept := by
  unfold State.failColls
  repeat' first | with_reducible rfl | simp | split

@[simp] theorem State.qpError_kept (s : State) (qpn cause : Nat) : (s.qpError qpn cause).kept = s.kept := by
  simp [State.qpError]

@[simp] theorem State.resetQps_kept (s : State) (b : Nat) : (s.resetQps b).kept = s.kept := by
  unfold State.resetQps
  repeat' first
    | with_reducible rfl
    | simp
    | split
    | refine (foldl_kept _ (fun _ _ => by repeat' first | with_reducible rfl | simp | split) _ _).trans ?_

/-! ### Training -/

@[simp] theorem State.giveVerdict_kept (s : State) (b : Nat) : (s.giveVerdict b).kept = s.kept := by
  unfold State.giveVerdict
  repeat' first | with_reducible rfl | simp | split

@[simp] theorem State.tryVerdict_kept (s : State) (b : Nat) : (s.tryVerdict b).kept = s.kept := by
  unfold State.tryVerdict
  repeat' first | with_reducible rfl | simp | split

@[simp] theorem State.gradDone_kept (s : State) (b n : Nat) (out : Bool) : (s.gradDone b n out).kept = s.kept := by
  unfold State.gradDone
  repeat' first | with_reducible rfl | simp | split

@[simp] theorem State.closeStep_kept (s : State) (b : Nat) : (s.closeStep b).kept = s.kept := by
  unfold State.closeStep
  repeat' first | with_reducible rfl | simp | split

/-! ### BargeGroup -/

@[simp] theorem State.dispatchBarge_kept (s : State) (i : Issue) (g : Barge) : (s.dispatchBarge i g).kept = s.kept := by
  simp [State.dispatchBarge]

@[simp] theorem State.contribute_kept (s : State) (c : Nat) (layer : Option Nat) (out : Bool) : (s.contribute c layer out).kept = s.kept := by
  simp [State.contribute]

/-! ### Towpath -/

theorem State.fromHost_kept (s : State) (f : State → State) (h : ∀ s, (f s).kept = s.kept) : (s.fromHost f).kept = s.kept := by
  unfold State.fromHost State.overLink
  repeat' first | with_reducible rfl | simp [h] | split

@[simp] theorem State.tpNotify_kept (s : State) (b j : Nat) : (s.tpNotify b j).kept = s.kept := by
  unfold State.tpNotify
  repeat' first | with_reducible rfl | simp | split

@[simp] theorem State.levelCheck_kept (s : State) (b j : Nat) : (s.levelCheck b j).kept = s.kept := by
  unfold State.levelCheck
  repeat' first | with_reducible rfl | simp | split

@[simp] theorem State.tpPush_kept (s : State) (b n : Nat) (i : Item) : (s.tpPush b n i).kept = s.kept := by
  unfold State.tpPush
  repeat' first | with_reducible rfl | simp | split

@[simp] theorem State.tpTake_kept (s : State) (b n k : Nat) : (s.tpTake b n k).kept = s.kept := by
  simp [State.tpTake]

@[simp] theorem State.releaseHeld_kept (s : State) (b : Nat) : (s.releaseHeld b).kept = s.kept := by
  unfold State.releaseHeld
  exact foldl_kept _ (fun _ _ => by repeat' first | with_reducible rfl | simp | split) _ _

@[simp] theorem State.bulkRead_kept (s : State) (b j off len : Nat) : (s.bulkRead b j off len).kept = s.kept := by
  simp [State.bulkRead]

@[simp] theorem State.advanceIn_kept (s : State) (b j k : Nat) : (s.advanceIn b j k).kept = s.kept := by
  simp [State.advanceIn]

@[simp] theorem State.advanceOut_kept (s : State) (b j k : Nat) : (s.advanceOut b j k).kept = s.kept := by
  simp [State.advanceOut]

/-! ### Ports -/

@[simp] theorem State.setReqs_kept (s : State) (u : Nat) (l : List PortReq) : (s.setReqs u l).kept = s.kept := by
  unfold State.setReqs
  repeat' first | with_reducible rfl | simp | split

@[simp] theorem State.updReq_kept (s : State) (u : Nat) (r : PortReq) (f : PortReq → PortReq) : (s.updReq u r f).kept = s.kept := by
  simp [State.updReq]

@[simp] theorem State.updBarge_kept (s : State) (c id : Nat) (f : Barge → Barge) : (s.updBarge c id f).kept = s.kept := by
  simp [State.updBarge]

@[simp] theorem State.sendReturn_kept (s : State) (u : Nat) (f : Flit) : (s.sendReturn u f).kept = s.kept := by
  unfold State.sendReturn
  repeat' first | with_reducible rfl | simp | split

@[simp] theorem State.askBarge_kept (s : State) (b c : Nat) (g : Barge) (p : Nat) (lines : List Nat) (write : Bool) : (s.askBarge b c g p lines write).kept = s.kept := by
  simp [State.askBarge]

@[simp] theorem State.holdTile_kept (s : State) (u : Nat) (t : MergeTile) : (s.holdTile u t).kept = s.kept := by
  simp [State.holdTile]

@[simp] theorem State.readTiles_kept (s : State) (u b : Nat) (g : Barge) : (s.readTiles u b g).kept = s.kept := by
  simp [State.readTiles]

@[simp] theorem State.mergeFirst_kept (s : State) (u : Nat) (r : PortReq) (g : Barge) : (s.mergeFirst u r g).kept = s.kept := by
  unfold State.mergeFirst
  repeat' first
    | with_reducible rfl
    | simp
    | split
    | refine (foldl_kept _ (fun _ _ => by repeat' first | with_reducible rfl | simp | split) _ _).trans ?_

@[simp] theorem State.mergeLast_kept (s : State) (u : Nat) (r : PortReq) (g : Barge) : (s.mergeLast u r g).kept = s.kept := by
  simp [State.mergeLast]

@[simp] theorem State.dropReqs_kept (s : State) (u : Nat) (r : PortReq) : (s.dropReqs u r).kept = s.kept := by
  simp [State.dropReqs]

@[simp] theorem State.releaseTiles_kept (s : State) (u b l : Nat) : (s.releaseTiles u b l).kept = s.kept := by
  unfold State.releaseTiles
  dsimp only
  repeat' split
  all_goals first | with_reducible rfl | (simp; done) | (next h => exact kept_of_eq h (by simp)) | (next h => simp [kept_of_eq h (by simp)]; done)

@[simp] theorem State.poisonReturn_kept (s : State) (u : Nat) (r : PortReq) (g : Barge) : (s.poisonReturn u r g).kept = s.kept := by
  simp [State.poisonReturn]

@[simp] theorem State.mergeMismatch_kept (s : State) (u : Nat) (r : PortReq) (g : Barge) : (s.mergeMismatch u r g).kept = s.kept := by
  simp [State.mergeMismatch]

@[simp] theorem State.suspend_kept (s : State) (rs : List PortReq) : (s.suspend rs).kept = s.kept := by
  simp [State.suspend]

@[simp] theorem State.countResumes_kept (s : State) (rs : List PortReq) (n : Nat) : (s.countResumes rs n).kept = s.kept := by
  simp [State.countResumes]

@[simp] theorem State.portRead_kept (s : State) (u : Nat) (r : PortReq) (g : Barge) (e : ReadEnv) : (s.portRead u r g e).kept = s.kept := by
  unfold State.portRead
  repeat' first
    | with_reducible rfl
    | simp
    | split
    | refine (foldl_kept _ (fun _ _ => by repeat' first | with_reducible rfl | simp | split) _ _).trans ?_

@[simp] theorem State.stageRead_kept (s : State) (r : PortReq) (g : Barge) : (s.stageRead r g).kept = s.kept := by
  unfold State.stageRead
  repeat' first
    | with_reducible rfl
    | simp
    | split
    | refine (foldl_kept _ (fun _ _ => by repeat' first | with_reducible rfl | simp | split) _ _).trans ?_

@[simp] theorem State.putEffect_kept (s : State) (b c : Nat) (g : Barge) : (s.putEffect b c g).kept = s.kept := by
  unfold State.putEffect
  exact foldl_kept _ (fun _ _ => by simp) _ _

@[simp] theorem State.grantMem_kept (s : State) (u : Nat) (r : PortReq) (g : Barge) (env : ReadEnv) : (s.grantMem u r g env).kept = s.kept := by
  unfold State.grantMem
  dsimp only
  split
  · simp
  · split
    · rfl
    · split
      · next h => exact kept_of_eq h (by simp)
      · simp
      · next h => simp [kept_of_eq h (State.prepPages_kept _ _ _)]

@[simp] theorem State.grantTp_kept (s : State) (r : PortReq) (g : Barge) : (s.grantTp r g).kept = s.kept := by
  unfold State.grantTp
  repeat' first | with_reducible rfl | simp | split

@[simp] theorem State.putArrive_kept (s : State) (u : Nat) (f : Flit) : (s.putArrive u f).kept = s.kept := by
  unfold State.putArrive
  repeat' first
    | with_reducible rfl
    | simp
    | split
    | refine (foldl_kept _ (fun _ _ => by repeat' first | with_reducible rfl | simp | split) _ _).trans ?_

@[simp] theorem State.failRead_kept (s : State) (u : Nat) (r : PortReq) (g : Barge) (cause : Nat) : (s.failRead u r g cause).kept = s.kept := by
  simp [State.failRead]

@[simp] theorem State.failWrite_kept (s : State) (b c : Nat) (g : Barge) (cause at_ : Nat) : (s.failWrite b c g cause at_).kept = s.kept := by
  simp [State.failWrite]

@[simp] theorem State.failOne_kept (s : State) (b c : Nat) (g : Barge) (p cause : Nat) : (s.failOne b c g p cause).kept = s.kept := by
  unfold State.failOne
  repeat' first | with_reducible rfl | simp | split

@[simp] theorem State.failPage_kept (s : State) (b p cause : Nat) : (s.failPage b p cause).kept = s.kept := by
  unfold State.failPage
  exact foldl_kept _ (fun _ _ => foldl_kept _ (fun _ _ => by (repeat' split) <;> first | rfl | simp) _ _) _ _

@[simp] theorem State.rescuePage_kept (s : State) (b p : Nat) (lost : List Nat) : (s.rescuePage b p lost).kept = s.kept := by
  simp [State.rescuePage]

@[simp] theorem State.failHost_kept (s : State) (b p : Nat) (who : TierWho) (cause : Nat) (lost : List Nat) : (s.failHost b p who cause lost).kept = s.kept := by
  unfold State.failHost
  dsimp only
  repeat' split
  all_goals first | with_reducible rfl | (simp; done) | (next h => exact kept_of_eq h (by simp)) | (next h => simp [kept_of_eq h (by simp)]; done)

@[simp] theorem State.endFailed_kept (s : State) (b : Nat) (g : Barge) : (s.endFailed b g).kept = s.kept := by
  simp [State.endFailed]

@[simp] theorem State.endBarge_kept (s : State) (b c : Nat) (g : Barge) : (s.endBarge b c g).kept = s.kept := by
  unfold State.endBarge
  repeat' first | with_reducible rfl | simp | split

/-! ### HostMemory -/

@[simp] theorem State.memError_kept (s : State) (b : Nat) : (s.memError b).kept = s.kept := by
  simp [State.memError]

@[simp] theorem State.hostRead_kept (s : State) (a : HostAcc) : (s.hostRead a).1.kept = s.kept := by
  unfold State.hostRead
  dsimp only
  split
  · next h => exact kept_of_eq h (by simp)
  · next h => simp [kept_of_eq h (State.askPages_kept s _ _ _)]

@[simp] theorem State.hostPrep_kept (s : State) (b p : Nat) : (s.hostPrep b p).1.kept = s.kept := by
  simp [State.hostPrep]

@[simp] theorem State.hostPreps_kept (b : Nat) (ps : List Nat) (s : State) : (s.hostPreps b ps).1.kept = s.kept := by
  induction ps generalizing s with
  | nil => rfl
  | cons p ps ih =>
    unfold State.hostPreps
    split
    · next h => rw [ih]; exact kept_of_eq h (by simp)
    · next h => exact kept_of_eq h (by simp)
    · next h =>
      split
      · exact kept_of_eq h (by simp)
      · rw [ih, State.updPage_kept]; exact kept_of_eq h (by simp)

@[simp] theorem State.hostWrite_kept (s : State) (a : HostAcc) : (s.hostWrite a).1.kept = s.kept := by
  unfold State.hostWrite
  dsimp only
  split
  · simp
  · next h => exact kept_of_eq h (by simp)
  · next h => simp [kept_of_eq h (State.hostPreps_kept _ _ s)]

@[simp] theorem State.hostAccess_kept (s : State) (a : HostAcc) : (s.hostAccess a).1.kept = s.kept := by
  unfold State.hostAccess
  split <;> simp

@[simp] theorem State.serveHost_kept (s : State) : s.serveHost.kept = s.kept := by
  unfold State.serveHost
  refine Eq.trans (b := (s.hostQ.foldl _ (s, [])).1.kept) rfl (foldl_fst_kept _ (fun _ _ => ?_) _ _)
  split
  · rfl
  · split
    · next h => exact kept_of_eq h (by simp)
    · next h => exact kept_of_eq h (by simp)

@[simp] theorem State.hostArrives_kept (s : State) (a : HostAcc) : (s.hostArrives a).kept = s.kept := by
  unfold State.hostArrives
  split
  · rfl
  · split
    · next h => exact kept_of_eq h (State.hostAccess_kept _ _)
    · next t h => exact (kept_of_eq h (State.hostAccess_kept _ _) : t.kept = _)

@[simp] theorem State.wake_kept (s : State) : s.wake.kept = s.kept := by
  unfold State.wake
  rw [State.serveHost_kept]
  exact foldl_kept _ (fun _ _ => by split <;> simp) _ _

/-! ### Stacks -/

@[simp] theorem State.latch_kept (s : State) (thermal : Bool) (bit : Nat) : (s.latch thermal bit).kept = s.kept := by
  unfold State.latch
  repeat' first | with_reducible rfl | simp | split

@[simp] theorem State.nextRetrain_kept (s : State) (n : Nat) : (s.nextRetrain n).kept = s.kept := by
  unfold State.nextRetrain
  repeat' first | with_reducible rfl | simp | split

@[simp] theorem State.endCtrl_kept (s : State) (n result : Nat) : (s.endCtrl n result).kept = s.kept := by
  unfold State.endCtrl
  repeat' first | with_reducible rfl | simp | split

@[simp] theorem State.endRetrain_kept (s : State) (n result : Nat) : (s.endRetrain n result).kept = s.kept := by
  simp [State.endRetrain]

@[simp] theorem State.failStack_kept (s : State) (n : Nat) : (s.failStack n).kept = s.kept := by
  unfold State.failStack
  repeat' first
    | with_reducible rfl
    | simp
    | split
    | refine (foldl_kept _ (fun _ _ => by repeat' first | with_reducible rfl | simp | split) _ _).trans ?_

@[simp] theorem State.ctrlRetrain_kept (s : State) (n : Nat) : (s.ctrlRetrain n).kept = s.kept := by
  simp [State.ctrlRetrain]

@[simp] theorem State.ctrlRetire_kept (s : State) (n : Nat) : (s.ctrlRetire n).kept = s.kept := by
  simp [State.ctrlRetire]

@[simp] theorem State.countScrub_kept (s : State) (k n : Nat) : (s.countScrub k n).kept = s.kept := by
  simp [State.countScrub]

/-! ### Run -/

@[simp] theorem State.overrun_kept (s : State) (b l detail : Nat) : (s.overrun b l detail).kept = s.kept := by
  unfold State.overrun
  exact foldl_kept _ (fun _ _ => by simp) _ _

@[simp] theorem State.settleAdders_kept (s : State) (b : Nat) : (s.settleAdders b).kept = s.kept := by
  unfold State.settleAdders
  exact foldl_kept _ (fun _ _ => by simp) _ _

@[simp] theorem State.endInterval_kept (s : State) (b : Nat) : (s.endInterval b).kept = s.kept := by
  unfold State.endInterval
  repeat' first
    | with_reducible rfl
    | simp
    | split
    | refine (foldl_kept _ (fun _ _ => by repeat' first | with_reducible rfl | simp | split) _ _).trans ?_

@[simp] theorem State.checkpoint_kept (s : State) (b n next : Nat) : (s.checkpoint b n next).kept = s.kept := by
  simp [State.checkpoint]

@[simp] theorem State.startOffload_kept (s : State) (b n : Nat) : (s.startOffload b n).kept = s.kept := by
  simp [State.startOffload]

@[simp] theorem State.stopPush_kept (s : State) (b p : Nat) : (s.stopPush b p).kept = s.kept := by
  unfold State.stopPush
  repeat' first | with_reducible rfl | simp | split

@[simp] theorem State.startPrefetch_kept (s : State) (b n : Nat) : (s.startPrefetch b n).kept = s.kept := by
  unfold State.startPrefetch
  refine foldl_kept _ (fun s p => ?_) _ _
  dsimp only
  split
  · split
    · simp
    · next h => simp [State.supply_kept h]
    · simp
  · simp

@[simp] theorem State.atCheckpoint_kept (s : State) (b : Nat) : (s.atCheckpoint b).kept = s.kept := by
  unfold State.atCheckpoint
  repeat' first | with_reducible rfl | simp | split

@[simp] theorem State.completeSluice_kept (s : State) (b : Nat) (g : SegRec) (q : Sluice) : (s.completeSluice b g q).kept = s.kept := by
  unfold State.completeSluice
  repeat' first | with_reducible rfl | simp | split

@[simp] theorem State.requestPark_kept (s : State) (b : Nat) : (s.requestPark b).kept = s.kept := by
  simp [State.requestPark]

@[simp] theorem State.restoreCores_kept (s : State) (b : Nat) (p : Ckpt) : (s.restoreCores b p).kept = s.kept := by
  simp [State.restoreCores]

@[simp] theorem State.clearTransport_kept (s : State) (b : Nat) : (s.clearTransport b).kept = s.kept := by
  simp [State.clearTransport]

@[simp] theorem State.rewindQps_kept (s : State) (b : Nat) : (s.rewindQps b).kept = s.kept := by
  unfold State.rewindQps
  repeat' first
    | with_reducible rfl
    | simp
    | split
    | refine (foldl_kept _ (fun _ _ => by repeat' first | with_reducible rfl | simp | split) _ _).trans ?_

@[simp] theorem State.loseInterval_kept (s : State) (b : Nat) : (s.loseInterval b).kept = s.kept := by
  simp [State.loseInterval]

@[simp] theorem State.goBack_kept (s : State) (b : Nat) (p : Ckpt) : (s.goBack b p).kept = s.kept := by
  simp [State.goBack]

@[simp] theorem State.runFrom_kept (s : State) (b : Nat) (p : Ckpt) : (s.runFrom b p).kept = s.kept := by
  simp [State.runFrom]

/-! ### Banks -/

@[simp] theorem State.cycleCc_kept (s : State) (b c : Nat) (new : List (SpPort × Nat)) : (s.cycleCc b c new).kept = s.kept := by
  simp [State.cycleCc]

@[simp] theorem State.cycleCore_kept (s : State) (env : SlotEnv) (b c : Nat) : (s.cycleCore env b c).kept = s.kept := by
  simp [State.cycleCore]

/-! ### Whetstone -/

@[simp] theorem State.openPass_kept (s : State) (b n : Nat) : (s.openPass b n).kept = s.kept := by
  unfold State.openPass
  repeat' first | with_reducible rfl | simp | split

@[simp] theorem State.updPass_kept (s : State) (b n : Nat) (f : LayerPass → LayerPass) : (s.updPass b n f).kept = s.kept := by
  simp [State.updPass]

@[simp] theorem State.engineWrite_kept (s : State) (b : Nat) (ws : List (Nat × List (Byte × Bool))) : (s.engineWrite b ws).1.kept = s.kept := by
  unfold State.engineWrite
  dsimp only
  split
  · next h => exact kept_of_eq h (by simp)
  · next h => exact kept_of_eq h (by simp)
  · next h => simp [kept_of_eq h (State.storeParts_kept s b ws)]

@[simp] theorem State.abortPass_kept (s : State) (b cause : Nat) : (s.abortPass b cause).kept = s.kept := by
  unfold State.abortPass
  repeat' first | with_reducible rfl | simp | split

@[simp] theorem State.finishPass_kept (s : State) (b n : Nat) : (s.finishPass b n).kept = s.kept := by
  unfold State.finishPass
  dsimp only
  split
  · split
    · rfl
    · split
      · next h => exact kept_of_eq h (by simp)
      · next t h =>
        have ht : t.kept = s.kept := kept_of_eq h (by simp)
        simpa using ht
  · rfl

@[simp] theorem State.finishPasses_kept (s : State) (n : Nat) : (s.finishPasses n).kept = s.kept := by
  simp [State.finishPasses]

@[simp] theorem State.endChunk_kept (s : State) (b n c : Nat) : (s.endChunk b n c).kept = s.kept := by
  simp [State.endChunk]

@[simp] theorem State.takeChunk_kept (s : State) (n : Nat) (k : Chunk) : (s.takeChunk n k).kept = s.kept := by
  simp [State.takeChunk]

@[simp] theorem State.updateChunk_kept (s : State) (n : Nat) (k : Chunk) (v : Basin) : (s.updateChunk n k v).kept = s.kept := by
  unfold State.updateChunk
  dsimp only
  split
  · simp
  · split
    · simp
    · split
      · next h => exact kept_of_eq h (by simp)
      · next h => simp [kept_of_eq h (State.engineWrite_kept _ _ _)]

@[simp] theorem State.fenceEngine_kept (s : State) (n : Nat) (k : Chunk) (cause : Nat) : (s.fenceEngine n k cause).kept = s.kept := by
  unfold State.fenceEngine
  repeat' first
    | with_reducible rfl
    | simp
    | split
    | refine (foldl_kept _ (fun _ _ => by repeat' first | with_reducible rfl | simp | split) _ _).trans ?_

@[simp] theorem State.runChunk_kept (s : State) (n : Nat) (k : Chunk) (v : Basin) : (s.runChunk n k v).kept = s.kept := by
  unfold State.runChunk
  split
  · simp
  · split
    · exact State.takeChunk_kept s n k
    · simp

@[simp] theorem State.outputsReady_kept (s : State) (k : Chunk) : (s.outputsReady k).1.kept = s.kept := by
  unfold State.outputsReady
  dsimp only
  split
  · rfl
  · split
    · next h => exact kept_of_eq h (by simp)
    · next h => exact kept_of_eq h (by simp)
    · rfl

@[simp] theorem State.computeAt_kept (s : State) (n : Nat) (k : Chunk) (firstFails repeatFails : Bool) (fault : Option Upset)
    (env : ReadEnv) : (s.computeAt n k firstFails repeatFails fault env).kept = s.kept := by
  simp [State.computeAt]

/-! ### Ethernet -/

@[simp] theorem State.startRecal_kept (s : State) (n : Nat) : (s.startRecal n).kept = s.kept := by
  unfold State.startRecal
  repeat' first | with_reducible rfl | simp | split

@[simp] theorem State.setMode_kept (s : State) (n m : Nat) (pair : Bool) : (s.setMode n m pair).kept = s.kept := by
  simp [State.setMode]

theorem State.orWait_kept (s : State) (n : Nat) (c : Instr) (f : State → State) (h : ∀ s, (f s).kept = s.kept) :
    (s.orWait n c f).kept = s.kept := by
  simp [State.orWait, h]

@[simp] theorem State.dropFrame_kept (s : State) (n : Nat) : (s.dropFrame n).kept = s.kept := by
  unfold State.dropFrame
  repeat' first | with_reducible rfl | simp | split

@[simp] theorem State.acceptPayload_kept (s : State) (g qpn : Nat) (bs : List (Byte × Bool)) : (s.acceptPayload g qpn bs).kept = s.kept := by
  unfold State.acceptPayload
  dsimp only
  repeat' split
  all_goals first | with_reducible rfl | (simp; done) | (next h => exact kept_of_eq h (by simp)) | (next h => simp [kept_of_eq h (by simp)]; done)

@[simp] theorem State.answerCe_kept (s : State) (g qpn : Nat) (ce : Bool) : (s.answerCe g qpn ce).kept = s.kept := by
  unfold State.answerCe
  repeat' first | with_reducible rfl | simp | split

@[simp] theorem State.receivePacket_kept (s : State) (p : RdmaPkt) (imm : Option (BitVec 32)) : (s.receivePacket p imm).kept = s.kept := by
  unfold State.receivePacket
  repeat' first | with_reducible rfl | simp | split

@[simp] theorem State.packetAt_kept (s : State) (p : RdmaPkt) (imm : Option (BitVec 32)) : (s.packetAt p imm).kept = s.kept := by
  unfold State.packetAt
  dsimp only
  split
  · rfl
  · exact State.orWait_kept _ _ _ _ fun _ => by simp

@[simp] theorem State.goBackN_kept (s : State) (qpn : Nat) : (s.goBackN qpn).kept = s.kept := by
  unfold State.goBackN
  repeat' first | with_reducible rfl | simp | split

@[simp] theorem takeStriped_kept (qpn n : Nat) (s : State) : (takeStriped qpn n s).kept = s.kept := by
  induction n generalizing s with
  | zero => rfl
  | succ n ih =>
    unfold takeStriped
    repeat' first | with_reducible rfl | simp [ih] | split

@[simp] theorem State.receiveFrame_kept (s : State) (f : ZynFrame) : (s.receiveFrame f).kept = s.kept := by
  unfold State.receiveFrame
  repeat' first | with_reducible rfl | simp | split

@[simp] theorem State.collWrite_kept (s : State) (b : Nat) (ws : List (Nat × List (Byte × Bool))) : (s.collWrite b ws).1.kept = s.kept := by
  unfold State.collWrite
  split
  · next h => exact kept_of_eq h (by simp)
  · next h => exact kept_of_eq h (by simp)
  · next h => simp [kept_of_eq h (State.storeParts_kept s b ws)]

/-! ### Firmware -/

@[simp] theorem State.writeDirectory_kept (s : State) : (s.writeDirectory).kept = s.kept := by
  simp [State.writeDirectory]

@[simp] theorem State.readDirectory_kept (s : State) (bad0 bad1 : Bool) : (s.readDirectory bad0 bad1).kept = s.kept := by
  simp [State.readDirectory]

@[simp] theorem State.updSlot_kept (s : State) (b : Bool) (f : FwSlot → FwSlot) : (s.updSlot b f).kept = s.kept := by
  simp [State.updSlot]

@[simp] theorem State.activate_kept (s : State) (b : Bool) : (s.activate b).kept = s.kept := by
  simp [State.activate]

@[simp] theorem State.deriveLayers_kept (s : State) : (s.deriveLayers).kept = s.kept := by
  simp [State.deriveLayers]

@[simp] theorem State.runSlot_kept (s : State) (b : Bool) : (s.runSlot b).kept = s.kept := by
  simp [State.runSlot]

theorem State.romBoot_kept {s t : State} (h : s.romBoot = some t) : t.kept = s.kept := by
  unfold State.romBoot at h
  dsimp only at h
  repeat' split at h
  all_goals cases h
  all_goals simp

@[simp] theorem State.markActive_kept (s : State) : (s.markActive).kept = s.kept := by
  simp [State.markActive]

@[simp] theorem State.dropDomains_kept (s : State) : (s.dropDomains).kept = s.kept := by
  unfold State.dropDomains
  repeat' first | with_reducible rfl | simp | split

@[simp] theorem State.enterRecovery_kept (s : State) : (s.enterRecovery).kept = s.kept := by
  unfold State.enterRecovery
  repeat' first | with_reducible rfl | simp | split

@[simp] theorem State.fwResult_kept (s : State) (r : Nat) : (s.fwResult r).kept = s.kept := by
  simp [State.fwResult]

/-! ### Keyed -/

@[simp] theorem State.endKeyed_kept (s : State) (st : Nat) : (s.endKeyed st).kept = s.kept := by
  simp [State.endKeyed]

@[simp] theorem State.zeroCores_kept (s : State) (cs : List Nat) : (s.zeroCores cs).kept = s.kept := by
  simp [State.zeroCores]

@[simp] theorem State.clearBasinCounters_kept (s : State) (b : Nat) : (s.clearBasinCounters b).kept = s.kept := by
  simp [State.clearBasinCounters]

@[simp] theorem State.finishBind_kept (s : State) (b : Nat) (d : Desc) : (s.finishBind b d).kept = s.kept := by
  simp [State.finishBind]

@[simp] theorem State.clearProgram_kept (s : State) (b : Nat) : (s.clearProgram b).kept = s.kept := by
  simp [State.clearProgram]

@[simp] theorem trimPages_kept (b n : Nat) (s : State) : (trimPages b n s).kept = s.kept := by
  induction n generalizing s with
  | zero => rfl
  | succ n ih =>
    unfold trimPages
    repeat' first | with_reducible rfl | simp [ih] | split

@[simp] theorem State.finishRebind_kept (s : State) (b : Nat) (d : Desc) : (s.finishRebind b d).kept = s.kept := by
  unfold State.finishRebind
  repeat' first | with_reducible rfl | simp | split

@[simp] theorem State.finishUnbind_kept (s : State) (b : Nat) : (s.finishUnbind b).kept = s.kept := by
  unfold State.finishUnbind
  dsimp only
  simp only [State.testUnbound_kept, State.advanceTier_kept]
  rw [foldl_kept _ (fun _ _ => by simp)]
  simp

@[simp] theorem State.runBind_kept (s : State) (b : Nat) (k : KBlock) : (s.runBind b k).kept = s.kept := by
  unfold State.runBind
  repeat' first | with_reducible rfl | simp | split

@[simp] theorem State.runRebind_kept (s : State) (b : Nat) (k : KBlock) : (s.runRebind b k).kept = s.kept := by
  unfold State.runRebind
  repeat' first | with_reducible rfl | simp | split

@[simp] theorem State.runUnbind_kept (s : State) (b : Nat) (k : KBlock) : (s.runUnbind b k).kept = s.kept := by
  unfold State.runUnbind
  repeat' first | with_reducible rfl | simp | split

@[simp] theorem State.keyedFenceEngine_kept (s : State) (n : Nat) : (s.keyedFenceEngine n).kept = s.kept := by
  unfold State.keyedFenceEngine
  repeat' first | with_reducible rfl | simp | split

@[simp] theorem State.runFence_kept (s : State) (k : KBlock) : (s.runFence k).kept = s.kept := by
  unfold State.runFence
  repeat' first | with_reducible rfl | simp | split

@[simp] theorem State.beginGap_kept (s : State) (recovering : Bool) : (s.beginGap recovering).kept = s.kept := by
  simp [State.beginGap]

@[simp] theorem State.runRotate_kept (s : State) (k : KBlock) : (s.runRotate k).kept = s.kept := by
  unfold State.runRotate
  generalize s.unwrap _ k = u
  simp only []
  repeat' split
  all_goals rw [State.endKeyed_kept]
  all_goals simp only [State.kept_mk, State.kept_fold]

@[simp] theorem State.runUnlock_kept (s : State) (k : KBlock) : (s.runUnlock k).kept = s.kept := by
  unfold State.runUnlock
  generalize s.ownerOk = f
  generalize s.vendorOk = g
  simp only []
  repeat' split
  all_goals rw [State.endKeyed_kept]
  all_goals simp only [State.kept_mk, State.kept_fold]

@[simp] theorem State.runZeroize_kept (s : State) (k : KBlock) : (s.runZeroize k).kept = s.kept := by
  unfold State.runZeroize
  repeat' first | with_reducible rfl | simp | split

/-! ### Launch -/

@[simp] theorem State.endLaunch_kept (s : State) (b st : Nat) : (s.endLaunch b st).kept = s.kept := by
  simp [State.endLaunch]

@[simp] theorem State.loadImage_kept (s : State) (b : Nat) (m : Image) : (s.loadImage b m).kept = s.kept := by
  simp [State.loadImage]

@[simp] theorem State.runLaunch_kept (s : State) (b : Nat) (resume : Bool) (img : Option Image) : (s.runLaunch b resume img).kept = s.kept := by
  unfold State.runLaunch
  repeat' first | with_reducible rfl | simp | split

@[simp] theorem State.launchWrite_kept (s : State) (b : Nat) (resume : Bool) (img : Option Image) : (s.launchWrite b resume img).kept = s.kept := by
  unfold State.launchWrite
  dsimp only
  split
  · rfl
  · generalize (if resume = true then 2 else 1) = op
    generalize (if resume = true then Held.resume b img else Held.launch b img) = h
    split
    · simp only [State.kept_mk, State.kept_fold, State.updBasin_kept]
    · rw [State.runLaunch_kept, State.updBasin_kept]

@[simp] theorem State.launchCores_kept (s : State) (b : Nat) (m : Image) : (s.launchCores b m).kept = s.kept := by
  simp [State.launchCores]

@[simp] theorem State.clearRecords_kept (s : State) (b : Nat) : (s.clearRecords b).kept = s.kept := by
  simp [State.clearRecords]

@[simp] theorem State.startLaunch_kept (s : State) (b : Nat) (m : Image) : (s.startLaunch b m).kept = s.kept := by
  simp [State.startLaunch]

@[simp] theorem State.startResume_kept (s : State) (b : Nat) : (s.startResume b).kept = s.kept := by
  unfold State.startResume
  repeat' first | with_reducible rfl | simp | split

@[simp] theorem State.checkRings_kept (s : State) (b : Nat) : (s.checkRings b).kept = s.kept := by
  simp [State.checkRings]

/-! ### Host -/

@[simp] theorem State.flrPf0_kept (s : State) : (s.flrPf0).kept = s.kept := by
  unfold State.flrPf0
  exact foldl_kept _ (fun _ _ => by repeat' first | with_reducible rfl | simp | split) _ _

/-! ### Power -/

@[simp] theorem State.portUs_kept (s : State) (n : Nat) : (s.portUs n).kept = s.kept := by
  unfold State.portUs
  repeat' first | with_reducible rfl | split | simp

@[simp] theorem State.passUs_kept (s : State) : (s.passUs).kept = s.kept := by
  unfold State.passUs
  repeat' first
    | with_reducible rfl
    | simp
    | split
    | refine (foldl_kept _ (fun _ _ => by repeat' first | with_reducible rfl | simp | split) _ _).trans ?_

@[simp] theorem State.haltForClocks_kept (s : State) (b : Nat) : (s.haltForClocks b).kept = s.kept := by
  unfold State.haltForClocks
  repeat' first | with_reducible rfl | simp | split

@[simp] theorem State.thermalTrip_kept (s : State) : (s.thermalTrip).kept = s.kept := by
  unfold State.thermalTrip
  repeat' first
    | with_reducible rfl
    | simp
    | split
    | refine (foldl_kept _ (fun _ _ => by repeat' first | with_reducible rfl | simp | split) _ _).trans ?_

/-! ### Clocks -/

@[simp] theorem State.takeTime_kept (s : State) : (s.takeTime).kept = s.kept := by
  simp [State.takeTime]

@[simp] theorem State.restartClocks_kept (s : State) : (s.restartClocks).kept = s.kept := by
  unfold State.restartClocks
  repeat' first
    | with_reducible rfl
    | simp
    | split
    | refine (foldl_kept _ (fun _ _ => by repeat' first | with_reducible rfl | simp | split) _ _).trans ?_

@[simp] theorem State.setExtent_kept (s : State) (n : Nat) (limit : Bool) (v : Nat) : (s.setExtent n limit v).kept = s.kept := by
  simp [State.setExtent]

/-! ### Management -/

@[simp] theorem State.reportLost_kept (s : State) : (s.reportLost).kept = s.kept := by
  unfold State.reportLost
  repeat' first | with_reducible rfl | simp | split

@[simp] theorem State.startDue_kept (s : State) : (s.startDue).kept = s.kept := by
  unfold State.startDue
  repeat' first
    | with_reducible rfl
    | simp
    | split
    | refine (foldl_kept _ (fun _ _ => by repeat' first | with_reducible rfl | simp | split) _ _).trans ?_

@[simp] theorem State.leaveCluster_kept (s : State) (c : Nat) : (s.leaveCluster c).kept = s.kept := by
  unfold State.leaveCluster
  repeat' first | with_reducible rfl | simp | split

@[simp] theorem State.leaveClusters_kept (s : State) : (s.leaveClusters).kept = s.kept := by
  simp [State.leaveClusters]

@[simp] theorem State.endActivation_kept (s : State) (st : Nat) : (s.endActivation st).kept = s.kept := by
  simp [State.endActivation]

@[simp] theorem State.rebuildHistory_kept (s : State) : (s.rebuildHistory).kept = s.kept := by
  simp [State.rebuildHistory]

@[simp] theorem State.applyEntry_kept (s : State) (e : Nat × Nat) : (s.applyEntry e).kept = s.kept := by
  unfold State.applyEntry
  repeat' first | with_reducible rfl | simp | split

/-! ### Reliability -/

@[simp] theorem State.chargeTest_kept (s : State) (event c partner phase : Nat) : (s.chargeTest event c partner phase).kept = s.kept := by
  simp [State.chargeTest]

@[simp] theorem State.judge_kept (s : State) (r : QuarryResult) : (s.judge r).kept = s.kept := by
  unfold State.judge
  repeat' first | with_reducible rfl | simp | split

@[simp] theorem State.testResidue_kept (s : State) (all : List (Nat × Nat)) (f : Nat × Nat) : (s.testResidue all f).kept = s.kept := by
  unfold State.testResidue
  repeat' first | with_reducible rfl | simp | split

@[simp] theorem State.coreTested_kept (s : State) (c : Nat) : (s.coreTested c).kept = s.kept := by
  simp [State.coreTested]

@[simp] theorem State.endPause_kept (s : State) (b : Nat) : (s.endPause b).kept = s.kept := by
  unfold State.endPause
  repeat' first | with_reducible rfl | simp | split

@[simp] theorem State.afterTest_kept (s : State) (c : Nat) : (s.afterTest c).kept = s.kept := by
  unfold State.afterTest
  repeat' first | with_reducible rfl | simp | split

/-! ### Security -/

@[simp] theorem State.newNonce_kept (s : State) : (s.newNonce).kept = s.kept := by
  simp [State.newNonce]

@[simp] theorem State.debugLock_kept (s : State) : (s.debugLock).kept = s.kept := by
  simp [State.debugLock]

@[simp] theorem State.spdmAnswer_kept (s : State) (port : SpdmPort) (code : Nat) (known : List Byte) : (s.spdmAnswer port code known).kept = s.kept := by
  simp [State.spdmAnswer]

/-! ### Counters -/

@[simp] theorem State.levelNotice_kept (s : State) : s.levelNotice.kept = s.kept := by
  unfold State.levelNotice
  dsimp only
  split
  · rw [State.notify_kept]; rfl
  · rfl

@[simp] theorem State.refreshViews_kept (s : State) : (s.refreshViews).kept = s.kept := by
  simp [State.refreshViews]

@[simp] theorem State.recordWritten_kept (s : State) : s.recordWritten.kept = s.kept := by
  unfold State.recordWritten
  split
  · rfl
  · dsimp only
    rw [State.levelNotice_kept, State.refreshViews_kept]
    rfl

@[simp] theorem State.record_kept (s : State) : (s.record).kept = s.kept := by
  unfold State.record
  repeat' first | with_reducible rfl | simp | split

/-! ### Transit -/

@[simp] theorem State.seamPoison_kept (s : State) (y : Nat) (east : Bool) (b : Nat) : (s.seamPoison y east b).kept = s.kept := by
  simp [State.seamPoison]

@[simp] theorem State.seamSuspend_kept (s : State) (f : Flit) : (s.seamSuspend f).kept = s.kept := by
  simp [State.seamSuspend]

@[simp] theorem State.seamSend_kept (s : State) (env : SlotEnv) (y : Nat) (east : Bool) (t : Nat) (f : Flit) :
    (s.seamSend env y east t f).1.kept = s.kept := by
  unfold State.seamSend
  repeat' first | with_reducible rfl | simp | split

@[simp] theorem State.seamResend_kept (s : State) (env : SlotEnv) : (s.seamResend env).kept = s.kept := by
  unfold State.seamResend
  exact foldl_kept _ (fun _ _ => by repeat' first | with_reducible rfl | simp | split) _ _

@[simp] theorem State.linkCheck_kept (s : State) (env : SlotEnv) (r : Nat) (f : Flit) : (s.linkCheck env r f).1.kept = s.kept := by
  unfold State.linkCheck
  repeat' first | with_reducible rfl | simp | split

@[simp] theorem State.engineAdd_kept (s : State) (b l n : Nat) : (s.engineAdd b l n).kept = s.kept := by
  simp [State.engineAdd]

@[simp] theorem State.unitArrive_kept (s : State) (env : SlotEnv) (r u : Nat) (f : Flit) : (s.unitArrive env r u f).kept = s.kept := by
  unfold State.unitArrive
  repeat' first | with_reducible rfl | simp | split

@[simp] theorem State.engineLane_kept (s : State) (b l : Nat) (lr : LaneRec) (m : Image) (g : SegRec) : (s.engineLane b l lr m g).kept = s.kept := by
  unfold State.engineLane
  dsimp only
  repeat' split
  all_goals first | with_reducible rfl | (simp; done) | (next h => exact kept_of_eq h (by simp)) | (next h => simp [kept_of_eq h (by simp)]; done)

@[simp] theorem State.engineLanes_kept (s : State) (b : Nat) : (s.engineLanes b).kept = s.kept := by
  unfold State.engineLanes
  repeat' first | with_reducible rfl | simp | (rw [foldl_kept _ (fun _ _ => by repeat' first | with_reducible rfl | simp | split)]) | split

@[simp] theorem State.sendTransit_kept (s : State) (b r t : Nat) (f : Flit) : (s.sendTransit b r t f).kept = s.kept := by
  unfold State.sendTransit
  repeat' first | with_reducible rfl | simp | split

@[simp] theorem State.transitOne_kept (s : State) (env : SlotEnv) (r o : Nat) : (s.transitOne env r o).kept = s.kept := by
  unfold State.transitOne
  dsimp only
  repeat' split
  all_goals first | with_reducible rfl | (simp; done) | (next h => exact kept_of_eq h (by simp)) | (next h => simp [kept_of_eq h (by simp)]; done)

@[simp] theorem State.transitStep_kept (s : State) (env : SlotEnv) : (s.transitStep env).kept = s.kept := by
  simp [State.transitStep]

/-! ### Adders -/

@[simp] theorem State.updAdder_kept (s : State) (k : Nat) (f : Adder → Adder) : (s.updAdder k f).kept = s.kept := by
  simp [State.updAdder]

@[simp] theorem State.adderResidue_kept (s : State) (b r lane slot : Nat) : (s.adderResidue b r lane slot).kept = s.kept := by
  unfold State.adderResidue
  repeat' first | with_reducible rfl | simp | split

@[simp] theorem State.runAdder_kept (s : State) (env : SlotEnv) (r n t slot : Nat) : (s.runAdder env r n t slot).kept = s.kept := by
  unfold State.runAdder
  repeat' first | with_reducible rfl | simp | split

@[simp] theorem State.listAdder_kept (s : State) (b r t : Nat) (e : SlotRec) (lr : LaneRec) (op src : Nat) : (s.listAdder b r t e lr op src).kept = s.kept := by
  unfold State.listAdder
  repeat' first | with_reducible rfl | simp | split

@[simp] theorem State.feedAdder_kept (s : State) (b r l src : Nat) (f : Flit) : (s.feedAdder b r l src f).kept = s.kept := by
  unfold State.feedAdder
  repeat' first | with_reducible rfl | simp | split

@[simp] theorem State.emitAdder_kept (s : State) (b r t : Nat) (e : SlotRec) : (s.emitAdder b r t e).1.kept = s.kept := by
  unfold State.emitAdder
  repeat' first | with_reducible rfl | simp | split

@[simp] theorem State.entryLists_kept (s : State) (b r t : Nat) (e : SlotRec) (live : Bool) (fs : List (Nat × Flit)) : (s.entryLists b r t e live fs).kept = s.kept := by
  unfold State.entryLists
  dsimp only
  repeat' split
  all_goals first | with_reducible rfl | (simp; done) | (next h => exact kept_of_eq h (by simp)) | (next h => simp [kept_of_eq h (by simp)]; done)

@[simp] theorem State.entryAdder_kept (s : State) (env : SlotEnv) (b r t slot : Nat) (e : SlotRec) (live : Bool)
    (fs : List (Nat × Flit)) : (s.entryAdder env b r t slot e live fs).1.kept = s.kept := by
  unfold State.entryAdder
  dsimp only
  split
  · split
    · next h => exact (kept_of_eq h (State.emitAdder_kept _ _ _ _ _)).trans (by simp)
    · next h => exact (kept_of_eq h (State.emitAdder_kept _ _ _ _ _)).trans (by simp)
  · simp

/-! ### Lattice -/

@[simp] theorem State.launchTake_kept (s : State) (b c : Nat) (g : Barge) (f : Flit) : (s.launchTake b c g f).kept = s.kept := by
  unfold State.launchTake
  repeat' first | with_reducible rfl | simp | split

theorem State.sourceTake_kept {s t : State} {b r l code n : Nat} {lr : LaneRec} {f : Flit}
    (h : s.sourceTake b r l code n lr = some (t, f)) : t.kept = s.kept := by
  unfold State.sourceTake at h
  repeat' split at h
  all_goals try cases h
  all_goals
    simp only [Option.map_eq_some_iff] at h
    obtain ⟨e, -, he⟩ := h
    cases he
    simp

@[simp] theorem State.source_kept (s : State) (b r l code t : Nat) (cu : Bool) : (s.source b r l code t cu).1.kept = s.kept := by
  unfold State.source
  dsimp only
  repeat' split
  all_goals first | rfl | (next h => simp [State.sourceTake_kept h]) | simp

@[simp] theorem State.sendLink_kept (s : State) (env : SlotEnv) (d : Desc) (r side t : Nat) (f : Flit) : (s.sendLink env d r side t f).kept = s.kept := by
  unfold State.sendLink
  repeat' first | with_reducible rfl | simp | split

@[simp] theorem State.landCore_kept (s : State) (b r : Nat) (f : Flit) : (s.landCore b r f).kept = s.kept := by
  unfold State.landCore
  repeat' first | with_reducible rfl | simp | split

@[simp] theorem State.landBarge_kept (s : State) (r : Nat) (f : Flit) : (s.landBarge r f).kept = s.kept := by
  unfold State.landBarge
  repeat' first | with_reducible rfl | simp | split

@[simp] theorem State.land_kept (s : State) (env : SlotEnv) (b r : Nat) (f : Flit) : (s.land env b r f).kept = s.kept := by
  unfold State.land
  repeat' first | with_reducible rfl | simp | split

@[simp] theorem State.entrySources_kept (s : State) (b r t : Nat) (e : SlotRec) (live : Bool) :
    (s.entrySources b r t e live).1.kept = s.kept := by
  unfold State.entrySources
  refine foldl_fst_kept _ (fun p c => ?_) _ _
  split
  · have h := State.source_kept p.1 b r e.lane c t e.cu
    split <;> next hs => simpa [hs] using h
  · rfl

@[simp] theorem State.entryOutputs_kept (s : State) (env : SlotEnv) (b r t : Nat) (e : SlotRec) (fs : List (Nat × Flit)) : (s.entryOutputs env b r t e fs).kept = s.kept := by
  unfold State.entryOutputs
  repeat' first
    | with_reducible rfl
    | simp
    | split
    | refine (foldl_kept _ (fun _ _ => by repeat' first | with_reducible rfl | simp | split) _ _).trans ?_

@[simp] theorem State.runRouter_kept (s : State) (env : SlotEnv) (b : Nat) (m : Image) (g : SegRec) (r : Nat) :
    (s.runRouter env b m g r).kept = s.kept := by
  unfold State.runRouter
  dsimp only
  split
  · rfl
  · simp

@[simp] theorem State.runBasinSlots_kept (s : State) (env : SlotEnv) (b : Nat) : (s.runBasinSlots env b).kept = s.kept := by
  unfold State.runBasinSlots
  dsimp only
  split
  · split
    · rw [foldl_kept _ (fun _ _ => by simp)]
      split <;> simp
    · rfl
  · rfl

@[simp] theorem State.cycleBasin_kept (s : State) (env : SlotEnv) (b : Nat) : (s.cycleBasin env b).kept = s.kept := by
  unfold State.cycleBasin
  repeat' first
    | with_reducible rfl
    | simp
    | split
    | refine (foldl_kept _ (fun _ _ => by repeat' first | with_reducible rfl | simp | split) _ _).trans ?_

@[simp] theorem State.dropUsed_kept (s : State) : (s.dropUsed).kept = s.kept := by
  simp [State.dropUsed]

@[simp] theorem State.countLc_kept (s : State) (die step t : Nat) : (s.countLc die step t).kept = s.kept := by
  unfold State.countLc
  repeat' first | with_reducible rfl | simp | split

@[simp] theorem State.advanceTime_kept (s : State) : (s.advanceTime).kept = s.kept := by
  unfold State.advanceTime
  repeat' first | with_reducible rfl | simp | split

/-! ### Sideband -/

@[simp] theorem State.tapAct_kept (s : State) (tdi : Bool) : (s.tapAct tdi).kept = s.kept := by
  unfold State.tapAct
  repeat' first | with_reducible rfl | simp | split

/-! ### Registers -/

@[simp] theorem State.writeNotify_kept (s : State) (a : RegAcc) : (s.writeNotify a).kept = s.kept := by
  simp [State.writeNotify]

@[simp] theorem State.wideWrite_kept (s : State) (w : Nat) (a : RegAcc) : (s.wideWrite w a).kept = s.kept := by
  unfold State.wideWrite
  repeat' first | with_reducible rfl | simp | split

@[simp] theorem State.fwuWrite_kept (s : State) (off : Nat) (wide : Bool) (a : RegAcc) : (s.fwuWrite off wide a).kept = s.kept := by
  unfold State.fwuWrite
  repeat' first | with_reducible rfl | simp | split

/-! ### Vector -/

@[simp] theorem State.dispatchVec_kept (s : State) (i : Issue) (o : Op) : (s.dispatchVec i o).kept = s.kept := by
  unfold State.dispatchVec
  repeat' first | with_reducible rfl | simp | split

@[simp] theorem State.vec_kept (s : State) (i : Issue) (code : Nat) : (s.vec i code).kept = s.kept := by
  unfold State.vec
  exact State.present_kept _ _ _ _ _ fun _ => by simp

end Sys2Proof.Machine
end

