-- ==== Sys2Proof/Laws/Memory.lean ====
section
/-! SUPPORT. The memories of the machine, a core's scratchpad and a basin's memory: every operation on one keeps its canonical form,
and a byte read after a write. -/

namespace Sys2Proof.Machine

/-- The memory after reset is in its form. -/
theorem State.reset_memoryWf : State.reset.memoryWf := ⟨fun _ => rfl, fun _ => rfl⟩

/-- Writing a list of cells one after another keeps the form. -/
theorem Memory.wf_cells (l : List (Nat × Byte)) {m : SMap Byte} (h : Memory.wf m = true) :
    Memory.wf (l.foldl (fun m (e : Nat × Byte) => SMap.set 0 m e.1 e.2) m) = true := by
  induction l generalizing m with
  | nil => exact h
  | cons e l ih => exact ih (SMap.wf_set e.1 e.2 h)

/-- A memory made of a list of cells is in its form. -/
theorem Memory.wf_ofCells (ok : Nat → Bool) (f : Nat → Byte) (l : List (Nat × Nat)) : Memory.wf (SMap.ofCells 0 ok f l) = true := by
  unfold SMap.ofCells
  generalize l.filter (fun e => ok e.1) = l
  induction l with
  | nil => rfl
  | cons e l ih => exact SMap.wf_set e.1 _ ih

/-- What an undefined core's scratchpad and an undefined basin's memory hold is in its form (00 R15). -/
theorem Core.undefine_wf (k : Core) (n i : Nat) : Memory.wf (k.undefine n i).sp = true := by
  simp only [Core.undefine, Memory.wf_ofCells]

theorem Basin.undefine_wf (v : Basin) (n : Nat) : Memory.wf (v.undefine n).mem = true := by
  simp only [Basin.undefine, Memory.wf_ofCells]

/-! ### Scratchpads -/

theorem Core.spWrite_wf {k : Core} (a : Nat) (bs : List Byte) (p : Bool) (h : Memory.wf k.sp = true) :
    Memory.wf (k.spWrite a bs p).sp = true := SMap.wf_setList a bs h

theorem storeElems_wf {k : Core} (a w : Nat) (vs : List (Nat × Bool)) (h : Memory.wf k.sp = true) :
    Memory.wf (storeElems k a w vs).sp = true := SMap.wf_setList _ _ h

theorem Core.loadImage_wf (k : Core) (c : CoreImage) : Memory.wf (k.loadImage c).sp = true := by
  show SMap.wf 0 (c.data.foldr (fun e m => SMap.set 0 m e.1 e.2) []) = true
  induction c.data with
  | nil => rfl
  | cons e l ih => exact SMap.wf_set e.1 e.2 ih

theorem Core.tested_wf {k : Core} (h : Memory.wf k.sp = true) : Memory.wf k.tested.sp = true := SMap.wfFrom_filter _ h

/-- A scratchpad byte after a write: the byte written at its address, and what was there at every other (03 R68). -/
theorem Core.spWrite_get (k : Core) (a : Nat) (bs : List Byte) (p : Bool) (j : Nat) :
    SMap.get 0 (k.spWrite a bs p).sp j = if h : a ≤ j ∧ j < a + bs.length then bs[j - a]'(by omega) else SMap.get 0 k.sp j :=
  SMap.get_setList 0 k.sp a bs j

/-! ### Basin memory -/

@[simp] theorem Basin.openTile_mem (v : Basin) (t : Nat) : (v.openTile t).mem = v.mem := by
  unfold Basin.openTile
  dsimp only
  repeat' split
  all_goals rfl

theorem Basin.openTiles_mem (ts : List Nat) (v : Basin) : (ts.foldl Basin.openTile v).mem = v.mem := by
  induction ts generalizing v with
  | nil => rfl
  | cons t ts ih => exact (ih _).trans (v.openTile_mem t)

theorem Basin.writeMem_wf {v : Basin} (ba : Nat) (bs : List Byte) (bad : List Nat) (h : Memory.wf v.mem = true) :
    Memory.wf (v.writeMem ba bs bad).mem = true := by
  refine SMap.wf_setList ba bs ?_
  rw [Basin.openTiles_mem]; exact h

/-- A byte of a basin's memory after a write: the byte written at its address, and what was there at every other (09 R262). -/
theorem Basin.writeMem_get (v : Basin) (ba : Nat) (bs : List Byte) (bad : List Nat) (j : Nat) :
    SMap.get 0 (v.writeMem ba bs bad).mem j =
      if h : ba ≤ j ∧ j < ba + bs.length then bs[j - ba]'(by omega) else SMap.get 0 v.mem j := by
  unfold Basin.writeMem
  dsimp only
  rw [Basin.openTiles_mem, SMap.get_setList]

theorem Basin.restoreTile_wf {v : Basin} (u : TileSave) (h : Memory.wf v.mem = true) :
    Memory.wf (v.restoreTile u).mem = true := Memory.wf_cells _ (SMap.wfFrom_filter _ h)

/-- A restart's return of the memory to its checkpoint keeps the form (02 R47). -/
theorem Basin.discardFresh_wf {v : Basin} (h : Memory.wf v.mem = true) : Memory.wf v.discardFresh.mem = true := by
  show Memory.wf (v.undo.foldl Basin.restoreTile v).mem = true
  generalize v.undo = l
  induction l generalizing v with
  | nil => exact h
  | cons u l ih => exact ih (Basin.restoreTile_wf u h)

theorem Basin.losePage_wf {v : Basin} (p : Nat) (h : Memory.wf v.mem = true) : Memory.wf (v.losePage p).mem = true :=
  SMap.wfFrom_filter _ h

end Sys2Proof.Machine
end

