-- ==== Sys2Proof/WellFormed.lean ====
section
/-! DEFINITION. Which commands are well formed: their operands name cores, basins, units and lengths that the device
has. Nothing in the step depends on it; statements about commands use it. -/

namespace Sys2Proof

/-- The words beyond WC do not exist (04 R93, R94) and are zero here. -/
def Insn.wf (i : Insn) : Bool :=
  (decide (1 ≤ i.wc.toNat) || decide (i.w1 = 0)) && (decide (2 ≤ i.wc.toNat) || decide (i.w2 = 0)) &&
    (decide (3 ≤ i.wc.toNat) || decide (i.w3 = 0))

/-- A core's device position 64·y + x (02 R28: 2,048 cores). -/
def coreOk (c : Nat) : Bool := decide (c < 2048)

/-- A basin number (02 R30: 0 to 63). -/
def basinOk (b : Nat) : Bool := decide (b < 64)

/-- A 64-bit word of a core's scratchpad (03 R60, R67). -/
def EccHit.wf (e : EccHit) : Bool := coreOk e.core && decide (e.addr < 0x60000) && decide (e.addr % 8 = 0)

/-- An issue by a core that exists of words that a stream can present as the instruction of opcode `n`. -/
def Issue.wf (i : Issue) (n : Nat) : Bool := coreOk i.core && i.insn.wf && i.insn.presents n && i.ecc.all EccHit.wf

/-- A PF or VF of the device (11 R318). -/
def HostFn.wf : HostFn → Bool
  | .pf0 => true
  | .vf b => basinOk b

/-- A DOE mailbox of a function, or MCTP. -/
def SpdmPort.wf : SpdmPort → Bool
  | .doe f => f.wf
  | .mctp => true

/-- A lattice unit: memory ports 0 to 11, the towpath stage 12, the channels of the lane groups 13 to 16. -/
def unitOk (u : Nat) : Bool := decide (u < 17)

/-- A memory stack, with its port, Weir and Whetstone engine (09 R257: 12 stacks). -/
def stackOk (s : Nat) : Bool := decide (s < 12)

/-- A lane group (12 R345). -/
def groupOk (g : Nat) : Bool := decide (g < 4)

/-- A local queue pair number (12 R350). -/
def qpnOk (q : Nat) : Bool := decide (256 ≤ q) && decide (q < 2272)

/-- A packet sequence number (12 R351: 24 bits). -/
def psnOk (p : Nat) : Bool := decide (p < 2 ^ 24)

/-- A towpath slot (11 R332: 32 of a basin). -/
def slotOk (j : Nat) : Bool := decide (j < 32)

/-- An access of a core's scratchpad in one of the two cc of a lattice cycle (03 R60, R61). -/
def SpAccess.wf (a : SpAccess) : Bool := coreOk a.core && decide (a.cc < 2) && decide (a.addr < 0x60000)

/-- The operands of a cycle of the lattice name routers, seam rows, adder buffers and scratchpads that exist. -/
def SlotEnv.wf (e : SlotEnv) : Bool :=
  e.seamFail.all (fun p => decide (p.1 < 32)) && e.linkErr.all (fun p => coreOk p.1) &&
    e.adderFault.all (fun p => coreOk p.1 && decide (p.2.1 < 16)) && e.ecc.all EccHit.wf && e.accesses.all SpAccess.wf

/-- Whose request a host answer is for: the tier engine's side, or a barge of a core. -/
def TierWho.wf : TierWho → Bool
  | .barge c _ => coreOk c
  | .engine => true

/-- A page number of a basin: basin addresses have 48 bits (04 R98; 12 R355), pages 2 MiB. -/
def pageOk (p : Nat) : Bool := decide (p < 2 ^ 27)

/-- A queue pair and a sequence number of a received packet. -/
def RdmaPkt.wf (p : RdmaPkt) : Bool := groupOk p.group && qpnOk p.qpn && psnOk p.psn

/-- Which commands are well formed. -/
def Instr.wf : Instr → Bool
  | .nop i => i.wf 0x00
  | .halt i => i.wf 0x01
  | .br i => i.wf 0x02
  | .brc i => i.wf 0x03
  | .loop i => i.wf 0x04
  | .fence i => i.wf 0x05
  | .sluice i => i.wf 0x06
  | .qpush i => i.wf 0x07
  | .qpop i => i.wf 0x08
  | .waitf i => i.wf 0x09
  | .setf i => i.wf 0x0A
  | .movs i => i.wf 0x0B
  | .movsw i => i.wf 0x0C
  | .add i => i.wf 0x10
  | .sub i => i.wf 0x11
  | .mul i => i.wf 0x12
  | .and i => i.wf 0x13
  | .or i => i.wf 0x14
  | .xor i => i.wf 0x15
  | .shl i => i.wf 0x16
  | .shr i => i.wf 0x17
  | .sra i => i.wf 0x18
  | .min i => i.wf 0x19
  | .max i => i.wf 0x1A
  | .movi i => i.wf 0x1B
  | .movhi i => i.wf 0x1C
  | .brg i => i.wf 0x20
  | .brgt i => i.wf 0x21
  | .put i => i.wf 0x22
  | .reds i => i.wf 0x23
  | .bcan i => i.wf 0x24
  | .oparm i => i.wf 0x30
  | .opstr i _ => i.wf 0x31
  | .opdrn i => i.wf 0x32
  | .vadd i => i.wf 0x40
  | .vmul i => i.wf 0x41
  | .vfma i => i.wf 0x42
  | .vexp i => i.wf 0x43
  | .vrsq i => i.wf 0x44
  | .vmax i => i.wf 0x45
  | .vcvt i => i.wf 0x46
  | .vred i => i.wf 0x47
  | .vldx i => i.wf 0x48
  | .vstx i => i.wf 0x49
  | .fenceRelease c _ | .queueStallRelease c _ | .waitfSatisfied c _ => coreOk c
  | .queueStageRefill c r => coreOk c && decide (r.queue < 6) && r.ecc.all EccHit.wf
  | .opstrComplete c e => coreOk c && e.ecc.all EccHit.wf
  | .opdrnComplete c _ e | .vectorComplete c _ e => coreOk c && e.all EccHit.wf
  | .bargeComplete c _ | .bargeResume c _ => coreOk c
  | .mutualWait c | .sluiceReady c | .quarryDue c => coreOk c
  | .shadowCompare c _ _ => coreOk c
  | .restartResume b | .sluiceComplete b | .segmentStart b | .sluiceTimeout b | .overtimeStart b | .slotOverrun b
  | .binderCompletion b | .parkReq b | .launchStart b | .biasChangeDone b | .vfFlr b | .quarryOverdue b => basinOk b
  | .latticeSlot e => e.wf
  | .mempRequest u | .mempReadData u _ => unitOk u
  | .mempWriteGrant g => unitOk g.unit
  | .mergeWindowExpiry p l => stackOk p && decide (l < 64)
  | .hbmWriteCrcFail x => stackOk x.stack
  | .stackRetrain x => stackOk x.stack
  | .stackRetrainDone s | .stackRetrainTimeout s | .stackRetire s
  | .stackDrained s | .stackRetired s => stackOk s
  | .weirReading s _ => stackOk s
  | .patrolScrub f _ _ _ => decide (f < 589824)
  | .tileCopyDone m _ => decide (m < 8)
  | .reclaim => true
  | .homingMove b p | .frameWaitDone b p => basinOk b && pageOk p
  | .hostTierTimeout b r _ => basinOk b && pageOk r.page && r.who.wf
  | .hostTierResponse b r _ => basinOk b && pageOk r.page && r.who.wf
  | .whetstoneChunk n _ _ _ => stackOk n
  | .trustNormCombine b l => basinOk b && decide (l < 4096)
  | .bind _ | .rebind _ | .unbind _ | .keyedFence _ | .fwActivate _ | .keyRotate _ | .debugUnlock _ | .zeroize _ => true
  | .launch b _ | .resume b _ => basinOk b
  | .bsnLscaleWrite b _ => basinOk b
  | .hostMemRead _ _ r => decide (r.len ≤ 4096)
  | .hostMemWrite _ _ d _ => decide (d.length ≤ 4096)
  | .hostSnoop _ => true
  | .biasChange b _ => basinOk b
  | .ifDeclare _ => true
  | .pf0Flr | .perstN | .ideFail => true
  | .tpOutItemRead b q off n => basinOk b && decide (q < 16) &&
      (decide (off + n ≤ 64) || (decide (0x1000 ≤ off) && decide (off < 0x80000) && decide (off % 64 + n ≤ 64)))
  | .tpInItemWrite b q off d _ => basinOk b && decide (q < 16) && decide (off + d.length ≤ 64)
  | .tpInBulkWrite b q sl off d _ => basinOk b && decide (q < 16) && decide (sl < 8128) && decide (off + d.length ≤ 64)
  | .advance b j _ | .flush b j | .tpIdleTimeout b j | .tpPtrMismatch b j => basinOk b && slotOk j
  | .tpCtrlWrite b j _ => basinOk b && slotOk j
  | .msixUnmask f v => f.wf && decide (v < 64)
  | .ethGroupCtrlWrite g _ => groupOk g
  | .recal g | .recalDone g | .frameDropped g | .ethLinkLoss g => groupOk g
  | .ethLinkNegotiation g _ | .zynwinRetrainEnd g _ => groupOk g
  | .rdmaWrite p => p.wf
  | .rdmaWriteImm p _ => p.wf
  | .ack q n | .psnSequenceNak q n => qpnOk q && psnOk n
  | .remoteAccessNak q | .cnpRx q | .ackTimeout q | .rateIncrease q => qpnOk q
  | .pauseFrameRx g p _ => groupOk g && decide (p < 8)
  | .zynwinFrameRx f => groupOk f.group && qpnOk f.qpn
  | .zynwinReplayRequest g _ => groupOk g
  | .qpWrite s q _ => decide (s < 63) && decide (q < 32)
  | .collectiveComplete b e => basinOk b && decide (e < 4096)
  | .powerSample _ _ | .ilimRecheck | .powerLimitStep | .gateRelax => true
  | .junctionReading a b => (a.all fun t => decide (t < 256)) && b.all fun t => decide (t < 256)
  | .latchClear _ => true
  | .powerManagerEval w _ => decide (w.1 ≤ 2) && decide (w.2 ≤ 2)
  | .clockStepUpDone d => decide (d < 2)
  | .dieStepReunion | .refclkLost | .refclkHoldoverExpiry | .refclkReturn => true
  | .watchdogRecovery c r => decide (c < 6) && decide (1 ≤ r) && decide (r ≤ 4)
  | .mgmtRecoveryClassify => true
  | .pwrCapWrite _ | .mempWeirThWrite _ | .errConsumedWrite _ | .rdOffWrite _ => true
  | .pwrTjWrite _ | .fwuBlock _ | .pmcCtrlWrite _ => true
  | .tierHostExtWrite e _ _ => decide (e < 8)
  | .quarryDomainOff | .powerUpReady | .pwrgoodFall | .activationReady | .activationFallback | .poweredTimeSave => true
  | .powerOnResetExit _ _ => true
  | .quarryTestDone r => coreOk r.coreA && coreOk r.coreB && decide (r.coreA ≠ r.coreB)
  | .fwuStart | .fwuVerify | .fwuVerifyDone | .fwuAbort | .recoverBoot | .newNonce | .nonceExpiry | .debugLock
  | .fipsError => true
  | .fwuBlockDone _ => true
  | .setCmdKey f _ _ _ => f.wf
  | .getMeasurements f _ | .getCertificate f _ => f.wf
  | .challenge f _ => f.wf
  | .keyExchange f _ => f.wf
  | .pldmSensorRead (.stack s) => stackOk s
  | .pldmSensorRead _ => true
  | .sensorRefresh | .pmcSnapshot | .pmcRecordWritten => true
  | .registerWrite f off w _ => f.wf && decide (off % (if w then 8 else 4) = 0)
  | .vioMgtLoss => true
  | .perstNDeassert _ w r => decide (w ≤ 16) && decide (r ≤ 6)
  | .cxlLinkRetrain w r => decide (w ≤ 16) && decide (r ≤ 6)
  | .ideKmKeyProg f _ => f.wf
  | .spdmKeyUpdate f => f.wf
  | .i3cDynamicAddress _ | .mctpControlRequest _ | .recoveryGapEnd => true
  | .jtagTapOperation _ _ => true

end Sys2Proof
end

