-- ==== Sys2Proof/Laws/PerInstr.lean ====
section
/-! SUPPORT. The family of statements about every command: an instruction that a stream presents is well formed exactly where its
command is, so a well-formed instruction's command names a core that exists and words that hold its opcode. -/

namespace Sys2Proof.Laws.Presented

open Sys2Proof.Machine

/-- Where a command presents an instruction, the command is well formed exactly if the instruction is one of that opcode. -/
def Statement (c : Instr) : Prop := ∀ (i : Issue) (n : Nat), presentedOf c = some (i, n) → c.wf = i.wf n

theorem nop (i : Issue) : Statement (.nop i) := fun _ _ h => by cases h; rfl
theorem halt (i : Issue) : Statement (.halt i) := fun _ _ h => by cases h; rfl
theorem br (i : Issue) : Statement (.br i) := fun _ _ h => by cases h; rfl
theorem brc (i : Issue) : Statement (.brc i) := fun _ _ h => by cases h; rfl
theorem loop (i : Issue) : Statement (.loop i) := fun _ _ h => by cases h; rfl
theorem fence (i : Issue) : Statement (.fence i) := fun _ _ h => by cases h; rfl
theorem fenceRelease (core : Nat) (st : Strm) : Statement (.fenceRelease core st) := fun _ _ h => nomatch h
theorem sluice (i : Issue) : Statement (.sluice i) := fun _ _ h => by cases h; rfl
theorem qpush (i : Issue) : Statement (.qpush i) := fun _ _ h => by cases h; rfl
theorem qpop (i : Issue) : Statement (.qpop i) := fun _ _ h => by cases h; rfl
theorem queueStallRelease (core : Nat) (st : Strm) : Statement (.queueStallRelease core st) := fun _ _ h => nomatch h
theorem queueStageRefill (core : Nat) (read : StageRead) : Statement (.queueStageRefill core read) := fun _ _ h => nomatch h
theorem waitf (i : Issue) : Statement (.waitf i) := fun _ _ h => by cases h; rfl
theorem waitfSatisfied (core : Nat) (st : Strm) : Statement (.waitfSatisfied core st) := fun _ _ h => nomatch h
theorem setf (i : Issue) : Statement (.setf i) := fun _ _ h => by cases h; rfl
theorem movs (i : Issue) : Statement (.movs i) := fun _ _ h => by cases h; rfl
theorem movsw (i : Issue) : Statement (.movsw i) := fun _ _ h => by cases h; rfl
theorem add (i : Issue) : Statement (.add i) := fun _ _ h => by cases h; rfl
theorem sub (i : Issue) : Statement (.sub i) := fun _ _ h => by cases h; rfl
theorem mul (i : Issue) : Statement (.mul i) := fun _ _ h => by cases h; rfl
theorem and (i : Issue) : Statement (.and i) := fun _ _ h => by cases h; rfl
theorem or (i : Issue) : Statement (.or i) := fun _ _ h => by cases h; rfl
theorem xor (i : Issue) : Statement (.xor i) := fun _ _ h => by cases h; rfl
theorem shl (i : Issue) : Statement (.shl i) := fun _ _ h => by cases h; rfl
theorem shr (i : Issue) : Statement (.shr i) := fun _ _ h => by cases h; rfl
theorem sra (i : Issue) : Statement (.sra i) := fun _ _ h => by cases h; rfl
theorem min (i : Issue) : Statement (.min i) := fun _ _ h => by cases h; rfl
theorem max (i : Issue) : Statement (.max i) := fun _ _ h => by cases h; rfl
theorem movi (i : Issue) : Statement (.movi i) := fun _ _ h => by cases h; rfl
theorem movhi (i : Issue) : Statement (.movhi i) := fun _ _ h => by cases h; rfl
theorem brg (i : Issue) : Statement (.brg i) := fun _ _ h => by cases h; rfl
theorem brgt (i : Issue) : Statement (.brgt i) := fun _ _ h => by cases h; rfl
theorem put (i : Issue) : Statement (.put i) := fun _ _ h => by cases h; rfl
theorem reds (i : Issue) : Statement (.reds i) := fun _ _ h => by cases h; rfl
theorem bcan (i : Issue) : Statement (.bcan i) := fun _ _ h => by cases h; rfl
theorem oparm (i : Issue) : Statement (.oparm i) := fun _ _ h => by cases h; rfl
theorem opstr (i : Issue) (fault : Option Upset) : Statement (.opstr i fault) := fun _ _ h => by cases h; rfl
theorem opdrn (i : Issue) : Statement (.opdrn i) := fun _ _ h => by cases h; rfl
theorem vadd (i : Issue) : Statement (.vadd i) := fun _ _ h => by cases h; rfl
theorem vmul (i : Issue) : Statement (.vmul i) := fun _ _ h => by cases h; rfl
theorem vfma (i : Issue) : Statement (.vfma i) := fun _ _ h => by cases h; rfl
theorem vexp (i : Issue) : Statement (.vexp i) := fun _ _ h => by cases h; rfl
theorem vrsq (i : Issue) : Statement (.vrsq i) := fun _ _ h => by cases h; rfl
theorem vmax (i : Issue) : Statement (.vmax i) := fun _ _ h => by cases h; rfl
theorem vcvt (i : Issue) : Statement (.vcvt i) := fun _ _ h => by cases h; rfl
theorem vred (i : Issue) : Statement (.vred i) := fun _ _ h => by cases h; rfl
theorem vldx (i : Issue) : Statement (.vldx i) := fun _ _ h => by cases h; rfl
theorem vstx (i : Issue) : Statement (.vstx i) := fun _ _ h => by cases h; rfl
theorem opstrComplete (core : Nat) (events : UnitEvents) : Statement (.opstrComplete core events) := fun _ _ h => nomatch h
theorem opdrnComplete (core : Nat) (fault : Option Upset) (ecc : List EccHit) : Statement (.opdrnComplete core fault ecc) := fun _ _ h => nomatch h
theorem vectorComplete (core : Nat) (fault : Option Upset) (ecc : List EccHit) : Statement (.vectorComplete core fault ecc) := fun _ _ h => nomatch h
theorem bargeComplete (core id : Nat) : Statement (.bargeComplete core id) := fun _ _ h => nomatch h
theorem restartResume (basin : Nat) : Statement (.restartResume basin) := fun _ _ h => nomatch h
theorem mutualWait (core : Nat) : Statement (.mutualWait core) := fun _ _ h => nomatch h
theorem sluiceReady (core : Nat) : Statement (.sluiceReady core) := fun _ _ h => nomatch h
theorem sluiceComplete (basin : Nat) : Statement (.sluiceComplete basin) := fun _ _ h => nomatch h
theorem segmentStart (basin : Nat) : Statement (.segmentStart basin) := fun _ _ h => nomatch h
theorem sluiceTimeout (basin : Nat) : Statement (.sluiceTimeout basin) := fun _ _ h => nomatch h
theorem latticeSlot (env : SlotEnv) : Statement (.latticeSlot env) := fun _ _ h => nomatch h
theorem overtimeStart (basin : Nat) : Statement (.overtimeStart basin) := fun _ _ h => nomatch h
theorem slotOverrun (basin : Nat) : Statement (.slotOverrun basin) := fun _ _ h => nomatch h
theorem mempRequest (unit : Nat) : Statement (.mempRequest unit) := fun _ _ h => nomatch h
theorem mergeWindowExpiry (port held : Nat) : Statement (.mergeWindowExpiry port held) := fun _ _ h => nomatch h
theorem mempReadData (unit : Nat) (env : ReadEnv) : Statement (.mempReadData unit env) := fun _ _ h => nomatch h
theorem mempWriteGrant (grant : PortGrant) : Statement (.mempWriteGrant grant) := fun _ _ h => nomatch h
theorem hbmWriteCrcFail (place : StackBlock) : Statement (.hbmWriteCrcFail place) := fun _ _ h => nomatch h
theorem stackRetrain (call : RetrainCall) : Statement (.stackRetrain call) := fun _ _ h => nomatch h
theorem stackRetrainDone (stack : Nat) : Statement (.stackRetrainDone stack) := fun _ _ h => nomatch h
theorem stackRetrainTimeout (stack : Nat) : Statement (.stackRetrainTimeout stack) := fun _ _ h => nomatch h
theorem stackRetire (stack : Nat) : Statement (.stackRetire stack) := fun _ _ h => nomatch h
theorem stackDrained (stack : Nat) : Statement (.stackDrained stack) := fun _ _ h => nomatch h
theorem stackRetired (stack : Nat) : Statement (.stackRetired stack) := fun _ _ h => nomatch h
theorem weirReading (stack temp : Nat) : Statement (.weirReading stack temp) := fun _ _ h => nomatch h
theorem patrolScrub (frame : Nat) (crc : List (Nat × Nat)) (corrected uncorrectable : List Nat) :
    Statement (.patrolScrub frame crc corrected uncorrectable) := fun _ _ h => nomatch h
theorem tileCopyDone (move : Nat) (env : ReadEnv) : Statement (.tileCopyDone move env) := fun _ _ h => nomatch h
theorem reclaim : Statement .reclaim := fun _ _ h => nomatch h
theorem homingMove (basin page : Nat) : Statement (.homingMove basin page) := fun _ _ h => nomatch h
theorem frameWaitDone (basin page : Nat) : Statement (.frameWaitDone basin page) := fun _ _ h => nomatch h
theorem hostTierResponse (basin : Nat) (req : TierReq) (answer : HostAnswer) : Statement (.hostTierResponse basin req answer) := fun _ _ h => nomatch h
theorem hostTierTimeout (basin : Nat) (req : TierReq) (lost : List Nat) : Statement (.hostTierTimeout basin req lost) := fun _ _ h => nomatch h
theorem bargeResume (core id : Nat) : Statement (.bargeResume core id) := fun _ _ h => nomatch h
theorem whetstoneChunk (engine : Nat) (firstFails repeatFails : Bool) (events : ChunkEvents) :
    Statement (.whetstoneChunk engine firstFails repeatFails events) := fun _ _ h => nomatch h
theorem trustNormCombine (basin layer : Nat) : Statement (.trustNormCombine basin layer) := fun _ _ h => nomatch h
theorem bind (k : KBlock) : Statement (.bind k) := fun _ _ h => nomatch h
theorem rebind (k : KBlock) : Statement (.rebind k) := fun _ _ h => nomatch h
theorem unbind (k : KBlock) : Statement (.unbind k) := fun _ _ h => nomatch h
theorem keyedFence (k : KBlock) : Statement (.keyedFence k) := fun _ _ h => nomatch h
theorem fwActivate (k : KBlock) : Statement (.fwActivate k) := fun _ _ h => nomatch h
theorem keyRotate (k : KBlock) : Statement (.keyRotate k) := fun _ _ h => nomatch h
theorem debugUnlock (k : KBlock) : Statement (.debugUnlock k) := fun _ _ h => nomatch h
theorem zeroize (k : KBlock) : Statement (.zeroize k) := fun _ _ h => nomatch h
theorem binderCompletion (basin : Nat) : Statement (.binderCompletion basin) := fun _ _ h => nomatch h
theorem parkReq (basin : Nat) : Statement (.parkReq basin) := fun _ _ h => nomatch h
theorem launch (basin : Nat) (img : Option Image) : Statement (.launch basin img) := fun _ _ h => nomatch h
theorem resume (basin : Nat) (img : Option Image) : Statement (.resume basin img) := fun _ _ h => nomatch h
theorem launchStart (basin : Nat) : Statement (.launchStart basin) := fun _ _ h => nomatch h
theorem bsnLscaleWrite (basin : Nat) (v : BitVec 32) : Statement (.bsnLscaleWrite basin v) := fun _ _ h => nomatch h
theorem hostMemRead (path : MemPath) (addr : Nat) (read : HostRead) : Statement (.hostMemRead path addr read) := fun _ _ h => nomatch h
theorem hostMemWrite (path : MemPath) (addr : Nat) (data : List Byte) (events : HostWriteEvents) : Statement (.hostMemWrite path addr data events) := fun _ _ h => nomatch h
theorem hostSnoop (line : Nat) : Statement (.hostSnoop line) := fun _ _ h => nomatch h
theorem biasChange (basin : Nat) (v : Word) : Statement (.biasChange basin v) := fun _ _ h => nomatch h
theorem biasChangeDone (basin : Nat) : Statement (.biasChangeDone basin) := fun _ _ h => nomatch h
theorem ifDeclare (v : BitVec 32) : Statement (.ifDeclare v) := fun _ _ h => nomatch h
theorem vfFlr (basin : Nat) : Statement (.vfFlr basin) := fun _ _ h => nomatch h
theorem pf0Flr : Statement .pf0Flr := fun _ _ h => nomatch h
theorem perstN : Statement .perstN := fun _ _ h => nomatch h
theorem ideFail : Statement .ideFail := fun _ _ h => nomatch h
theorem tpOutItemRead (basin queue off len : Nat) : Statement (.tpOutItemRead basin queue off len) := fun _ _ h => nomatch h
theorem tpInItemWrite (basin queue off : Nat) (data : List Byte) (ep : Bool) : Statement (.tpInItemWrite basin queue off data ep) := fun _ _ h => nomatch h
theorem tpInBulkWrite (basin queue slot off : Nat) (data : List Byte) (ep : Bool) : Statement (.tpInBulkWrite basin queue slot off data ep) := fun _ _ h => nomatch h
theorem advance (basin slot count : Nat) : Statement (.advance basin slot count) := fun _ _ h => nomatch h
theorem flush (basin slot : Nat) : Statement (.flush basin slot) := fun _ _ h => nomatch h
theorem tpCtrlWrite (basin slot : Nat) (v : Word) : Statement (.tpCtrlWrite basin slot v) := fun _ _ h => nomatch h
theorem tpIdleTimeout (basin slot : Nat) : Statement (.tpIdleTimeout basin slot) := fun _ _ h => nomatch h
theorem tpPtrMismatch (basin slot : Nat) : Statement (.tpPtrMismatch basin slot) := fun _ _ h => nomatch h
theorem msixUnmask (fn : HostFn) (vector : Nat) : Statement (.msixUnmask fn vector) := fun _ _ h => nomatch h
theorem ethGroupCtrlWrite (group : Nat) (v : BitVec 32) : Statement (.ethGroupCtrlWrite group v) := fun _ _ h => nomatch h
theorem recal (group : Nat) : Statement (.recal group) := fun _ _ h => nomatch h
theorem recalDone (group : Nat) : Statement (.recalDone group) := fun _ _ h => nomatch h
theorem ethLinkNegotiation (group : Nat) (supported : Bool) : Statement (.ethLinkNegotiation group supported) := fun _ _ h => nomatch h
theorem rdmaWrite (p : RdmaPkt) : Statement (.rdmaWrite p) := fun _ _ h => nomatch h
theorem rdmaWriteImm (p : RdmaPkt) (imm : BitVec 32) : Statement (.rdmaWriteImm p imm) := fun _ _ h => nomatch h
theorem ack (qpn psn : Nat) : Statement (.ack qpn psn) := fun _ _ h => nomatch h
theorem psnSequenceNak (qpn psn : Nat) : Statement (.psnSequenceNak qpn psn) := fun _ _ h => nomatch h
theorem remoteAccessNak (qpn : Nat) : Statement (.remoteAccessNak qpn) := fun _ _ h => nomatch h
theorem cnpRx (qpn : Nat) : Statement (.cnpRx qpn) := fun _ _ h => nomatch h
theorem pauseFrameRx (group prio : Nat) (pause : Bool) : Statement (.pauseFrameRx group prio pause) := fun _ _ h => nomatch h
theorem frameDropped (group : Nat) : Statement (.frameDropped group) := fun _ _ h => nomatch h
theorem ackTimeout (qpn : Nat) : Statement (.ackTimeout qpn) := fun _ _ h => nomatch h
theorem rateIncrease (qpn : Nat) : Statement (.rateIncrease qpn) := fun _ _ h => nomatch h
theorem zynwinFrameRx (f : ZynFrame) : Statement (.zynwinFrameRx f) := fun _ _ h => nomatch h
theorem zynwinReplayRequest (group seq : Nat) : Statement (.zynwinReplayRequest group seq) := fun _ _ h => nomatch h
theorem zynwinRetrainEnd (group : Nat) (ok : Bool) : Statement (.zynwinRetrainEnd group ok) := fun _ _ h => nomatch h
theorem qpWrite (qset q : Nat) (v : Word) : Statement (.qpWrite qset q v) := fun _ _ h => nomatch h
theorem collectiveComplete (basin entry : Nat) : Statement (.collectiveComplete basin entry) := fun _ _ h => nomatch h
theorem powerSample (vin iin : Nat) : Statement (.powerSample vin iin) := fun _ _ h => nomatch h
theorem ilimRecheck : Statement .ilimRecheck := fun _ _ h => nomatch h
theorem powerLimitStep : Statement .powerLimitStep := fun _ _ h => nomatch h
theorem gateRelax : Statement .gateRelax := fun _ _ h => nomatch h
theorem junctionReading (d0 d1 : Option Nat) : Statement (.junctionReading d0 d1) := fun _ _ h => nomatch h
theorem latchClear (thermal : Bool) : Statement (.latchClear thermal) := fun _ _ h => nomatch h
theorem powerManagerEval (want : Nat × Nat) (limits : FwLimits) : Statement (.powerManagerEval want limits) := fun _ _ h => nomatch h
theorem clockStepUpDone (die : Nat) : Statement (.clockStepUpDone die) := fun _ _ h => nomatch h
theorem dieStepReunion : Statement .dieStepReunion := fun _ _ h => nomatch h
theorem refclkLost : Statement .refclkLost := fun _ _ h => nomatch h
theorem refclkHoldoverExpiry : Statement .refclkHoldoverExpiry := fun _ _ h => nomatch h
theorem refclkReturn : Statement .refclkReturn := fun _ _ h => nomatch h
theorem watchdogRecovery (component cause : Nat) : Statement (.watchdogRecovery component cause) := fun _ _ h => nomatch h
theorem mgmtRecoveryClassify : Statement .mgmtRecoveryClassify := fun _ _ h => nomatch h
theorem pwrCapWrite (v : BitVec 32) : Statement (.pwrCapWrite v) := fun _ _ h => nomatch h
theorem pwrTjWrite (v : Word) : Statement (.pwrTjWrite v) := fun _ _ h => nomatch h
theorem mempWeirThWrite (v : BitVec 32) : Statement (.mempWeirThWrite v) := fun _ _ h => nomatch h
theorem tierHostExtWrite (entry : Nat) (limit : Bool) (v : Word) : Statement (.tierHostExtWrite entry limit v) := fun _ _ h => nomatch h
theorem quarryDomainOff : Statement .quarryDomainOff := fun _ _ h => nomatch h
theorem powerOnResetExit (recoveryStrap : Bool) (rom : RomChecks) : Statement (.powerOnResetExit recoveryStrap rom) := fun _ _ h => nomatch h
theorem powerUpReady : Statement .powerUpReady := fun _ _ h => nomatch h
theorem pwrgoodFall : Statement .pwrgoodFall := fun _ _ h => nomatch h
theorem activationReady : Statement .activationReady := fun _ _ h => nomatch h
theorem activationFallback : Statement .activationFallback := fun _ _ h => nomatch h
theorem poweredTimeSave : Statement .poweredTimeSave := fun _ _ h => nomatch h
theorem quarryDue (core : Nat) : Statement (.quarryDue core) := fun _ _ h => nomatch h
theorem quarryTestDone (r : QuarryResult) : Statement (.quarryTestDone r) := fun _ _ h => nomatch h
theorem quarryOverdue (basin : Nat) : Statement (.quarryOverdue basin) := fun _ _ h => nomatch h
theorem shadowCompare (core : Nat) (first second : Option Upset) : Statement (.shadowCompare core first second) := fun _ _ h => nomatch h
theorem errConsumedWrite (v : BitVec 32) : Statement (.errConsumedWrite v) := fun _ _ h => nomatch h
theorem fwuStart : Statement .fwuStart := fun _ _ h => nomatch h
theorem fwuBlock (v : Word) : Statement (.fwuBlock v) := fun _ _ h => nomatch h
theorem fwuBlockDone (flashOk : Bool) : Statement (.fwuBlockDone flashOk) := fun _ _ h => nomatch h
theorem fwuVerify : Statement .fwuVerify := fun _ _ h => nomatch h
theorem fwuVerifyDone : Statement .fwuVerifyDone := fun _ _ h => nomatch h
theorem fwuAbort : Statement .fwuAbort := fun _ _ h => nomatch h
theorem recoverBoot : Statement .recoverBoot := fun _ _ h => nomatch h
theorem newNonce : Statement .newNonce := fun _ _ h => nomatch h
theorem nonceExpiry : Statement .nonceExpiry := fun _ _ h => nomatch h
theorem debugLock : Statement .debugLock := fun _ _ h => nomatch h
theorem fipsError : Statement .fipsError := fun _ _ h => nomatch h
theorem setCmdKey (port : SpdmPort) (secured : Bool) (vendor : BitVec 16) (payload : List Byte) : Statement (.setCmdKey port secured vendor payload) := fun _ _ h => nomatch h
theorem getMeasurements (port : SpdmPort) (index : Nat) : Statement (.getMeasurements port index) := fun _ _ h => nomatch h
theorem getCertificate (port : SpdmPort) (slot : Nat) : Statement (.getCertificate port slot) := fun _ _ h => nomatch h
theorem challenge (port : SpdmPort) (nonce : BitVec 256) : Statement (.challenge port nonce) := fun _ _ h => nomatch h
theorem keyExchange (port : SpdmPort) (exchange : BitVec 768) : Statement (.keyExchange port exchange) := fun _ _ h => nomatch h
theorem pldmSensorRead (sensor : Sensor) : Statement (.pldmSensorRead sensor) := fun _ _ h => nomatch h
theorem sensorRefresh : Statement .sensorRefresh := fun _ _ h => nomatch h
theorem pmcSnapshot : Statement .pmcSnapshot := fun _ _ h => nomatch h
theorem pmcRecordWritten : Statement .pmcRecordWritten := fun _ _ h => nomatch h
theorem pmcCtrlWrite (v : Word) : Statement (.pmcCtrlWrite v) := fun _ _ h => nomatch h
theorem rdOffWrite (v : BitVec 32) : Statement (.rdOffWrite v) := fun _ _ h => nomatch h
theorem registerWrite (fn : HostFn) (off : Nat) (wide : Bool) (v : Word) : Statement (.registerWrite fn off wide v) := fun _ _ h => nomatch h
theorem vioMgtLoss : Statement .vioMgtLoss := fun _ _ h => nomatch h
theorem perstNDeassert (cxl : Bool) (width rate : Nat) : Statement (.perstNDeassert cxl width rate) := fun _ _ h => nomatch h
theorem cxlLinkRetrain (width rate : Nat) : Statement (.cxlLinkRetrain width rate) := fun _ _ h => nomatch h
theorem ethLinkLoss (group : Nat) : Statement (.ethLinkLoss group) := fun _ _ h => nomatch h
theorem ideKmKeyProg (port : SpdmPort) (secured : Bool) : Statement (.ideKmKeyProg port secured) := fun _ _ h => nomatch h
theorem spdmKeyUpdate (port : SpdmPort) : Statement (.spdmKeyUpdate port) := fun _ _ h => nomatch h
theorem i3cDynamicAddress (addr : BitVec 7) : Statement (.i3cDynamicAddress addr) := fun _ _ h => nomatch h
theorem mctpControlRequest (m : MctpControl) : Statement (.mctpControlRequest m) := fun _ _ h => nomatch h
theorem jtagTapOperation (tms tdi : Bool) : Statement (.jtagTapOperation tms tdi) := fun _ _ h => nomatch h
theorem recoveryGapEnd : Statement .recoveryGapEnd := fun _ _ h => nomatch h

end Sys2Proof.Laws.Presented
end

