-- ==== Sys2Proof/Machine/ReadMap.lean ====
section
/-! DEFINITION. What a read of a register returns (00 R11): the register tables of 00 R4, 02 R56 and R57, 03 R90, 06 R198, 07 R236 and
R237, 08 R256, 09 R289 and R290, 10 R313 and R314, 11 R323, R325, R329, R342 and R344, 12 R361 to R363, 13 R388, 14 R411 and R412, 15
R444 and R445, 16 R454 to R456 and 17 R477. A WO field, a reserved one and an offset that holds no register read as zero. -/

namespace Sys2Proof.Machine

/-- A register's value from its fields: each value at its lowest bit. -/
def pack (l : List (Nat × Nat)) : Nat := (l.map fun f => f.2 * 2 ^ f.1).sum

/-- A register's value from single bits. -/
def packBits (l : List (Nat × Bool)) : Nat := pack (l.map fun f => (f.1, flagValue f.2))

/-- A map of pending bits. -/
def pendingBits (m : SMap MsixEntry) : Nat := (m.map fun e => if e.2.pending then 2 ^ e.1 else 0).sum

/-- An MSI-X entry's words: address; data and vector control (11 R344). -/
def MsixEntry.word (e : MsixEntry) (second : Bool) : Nat := if second then flagValue e.masked * 2 ^ 32 + e.data else e.addr

/-! ### Basin control pages -/

/-- The STATE values of BSN_STATE (02 R34). -/
def BasinPhase.code : BasinPhase → Nat
  | .free => 0 | .binding => 1 | .idle => 2 | .running => 3 | .parked => 4 | .restarting => 5 | .halted => 6 | .unbinding => 7

/-- BSN_STATE (02 R56). -/
def State.bsnState (s : State) (b : Nat) : Nat :=
  let v := s.basin b
  let d := v.desc
  pack [(56, v.lastCause), (48, min 255 v.restarts), (32, (s.liveCores b).length), (21, d.height), (16, d.width), (12, d.originRow),
    (8, d.originCol), (4, flagValue d.offloadClass), (0, v.phase.code)]

/-- TP_STATUS (11 R342). -/
def TpQueue.statusWord (q : TpQueue) : Nat :=
  pack [(32, q.count), (11, q.held.length)] +
    packBits [(8, q.depthRefused), (7, q.ptrErr), (6, q.poison), (5, q.flushedHeld), (4, q.timeout), (3, q.underrun), (2, q.overrun),
      (1, decide (q.count = q.depth)), (0, q.items.isEmpty)]

/-- A register of a towpath queue by its word (11 R342); TP_CMD is WO. -/
def TpQueue.readWord (q : TpQueue) (w : Nat) : Nat :=
  match w with
  | 0 => q.ctrlWord
  | 1 => q.statusWord
  | 2 => q.ptrWord
  | _ => 0

/-- Pages of a basin that lie on the host tier, and those SHADOWED or committing (09 R290). -/
def Basin.hostPages (v : Basin) : Nat := (v.pages.filter fun e => e.2.hostFrame.isSome).length
def Basin.shadowPages (v : Basin) : Nat := (v.pages.filter fun e => e.2.fresh.isSome || e.2.committing).length

/-- Pages of a basin held off their home stack (09 R277, R290). -/
def State.displacedPages (s : State) (b : Nat) : Nat := ((s.basin b).pages.filter fun e => s.displaced b e.1).length

/-- A core's halt record as the host reads it (03 R90). The entries of a fenced core read as zero (02 R29), but for the record that it
holds at the fence until a launch or resume clears it (02 R53; log 90). -/
def Core.haltWord (k : Core) (second : Bool) : Nat :=
  if k.fenced && !k.hrec.latched then 0 else if second then k.hrec.causeWord else k.hrec.pcWord

/-- BSN_SLUICE_BLOCKED register `n`: the bits of fenced cores read as zero (02 R29, R57). -/
def State.blockedWord (s : State) (b n : Nat) : Nat :=
  let v := s.basin b
  let w := (SMap.get 0 v.sluiceBlocked n).toNat
  ((List.range 64).map fun i => if bit w i && !(s.core (v.desc.coreAt (64 * n + i))).fenced then 2 ^ i else 0).sum

/-- A training register (06 R198). -/
def Basin.trainWord (v : Basin) (off : Nat) : Nat :=
  let t := v.train
  if off = 0x600 then pack [(16, v.growth), (0, flagValue v.lsFixed)]
  else if off = 0x608 then pack [(16, t.clean), (0, t.lsExp)]
  else if off = 0x610 then t.step
  else pack [(48, t.poisonSteps), (32, t.ovfSteps), (16, t.skewLayers), (0, t.last)]

/-- WHS_BSN_STAT (10 R314). -/
def State.whsStat (s : State) (b : Nat) : Nat :=
  let v := s.basin b
  pack [(48, v.whsFallbacks), (32, v.whsWcSat), (24, v.whsPoison), (16, v.whsAborts), (12, v.whsAbortCause),
    (0, flagValue (s.passActive b))]

/-- BSN_BIAS_STATUS (11 R323). -/
def Basin.biasStatus (v : Basin) : Nat :=
  pack [(8, (v.pages.filter fun e => e.2.hostBias).length), (4, v.biasResult), (0, flagValue v.biasRun.isSome)]

/-- 64-bit word `w` of a basin's control page, through PF0 or its VF (11 R319; 16 R455). -/
def State.pageWord (s : State) (pf : Bool) (b w : Nat) : Nat :=
  let off := 8 * w
  let v := s.basin b
  let word := fun (m : SMap Word) (i : Nat) => (SMap.get 0 m i).toNat
  if off < 0x100 then word v.launchBlock w
  else if off = 0x100 then s.bsnState b
  else if off = 0x108 then pack [(16, flagValue v.desc.counterAccess), (8, v.restartLimit)]
  else if off = 0x110 then v.sluiceTimeout
  else if off = 0x118 then v.event.toNat
  else if off = 0x120 then v.ckptSeq
  else if off = 0x138 then pack [(8, v.launchOp), (0, v.launchStatus)]
  else if off = 0x140 then v.winBase * 2 ^ 21
  else if off = 0x148 then v.biasWord
  else if off = 0x150 then v.biasStatus
  else if 0x200 ≤ off ∧ off < 0x300 then word v.prot (w - 0x40)
  else if 0x400 ≤ off ∧ off < 0x500 then s.blockedWord b (w - 0x80)
  else if 0x600 ≤ off ∧ off < 0x620 then v.trainWord off
  else if off = 0x700 then v.latLoad.toNat
  else if off = 0x800 then v.brgFault.toNat
  else if off = 0x808 then v.brgResume.toNat
  else if off = 0x810 then v.brgFaultBa.toNat
  else if off = 0x900 then pack [(32, v.hostPages), (0, v.held)]
  else if off = 0x908 then pack [(32, v.shadowPages), (0, s.displacedPages b)]
  else if 0xA00 ≤ off ∧ off < 0xA80 then (v.placeWord (w - 0x140)).toNat
  else if off = 0xB00 then s.whsStat b
  else if 0x1000 ≤ off ∧ off < 0x1400 then (v.queue ((off - 0x1000) / 32)).readWord (w % 4)
  else if 0x2000 ≤ off ∧ off < 0x21F0 then (SMap.get {} v.msix ((off - 0x2000) / 16)).word (decide (w % 2 = 1))
  else if off = 0x3000 then pendingBits v.msix
  else if 0x4000 ≤ off ∧ off < 0x8000 then if pf || v.desc.counterAccess then SMap.get 0 v.view (w - 0x800) else 0
  else if 0x8000 ≤ off ∧ off < 0x10000 then
    let n := (off - 0x8000) / 16
    if n < v.desc.cores.length then (s.core (v.desc.coreAt n)).haltWord (decide (w % 2 = 1)) else 0
  else 0

/-! ### Memory ports, tiers and engines -/

/-- The STATE values of a stack (09 R289). -/
def StackState.code : StackState → Nat
  | .inService => 0 | .retraining => 1 | .draining => 2 | .drained => 3 | .retired => 4 | .failed => 5

/-- MEMP_STACK_STATUS and MEMP_STACK_ERR (09 R289). -/
def State.stackWord (s : State) (n : Nat) (err : Bool) : Nat :=
  let p := s.port n
  if err then pack [(48, p.retrains), (32, p.uncorr), (16, p.corr), (0, p.crcRetry)]
  else pack [(56, p.temp), (48, p.level), (32, p.st.code), (0, s.freeOn n)]

/-- TIER_STACK_CTRL (09 R289). -/
def Tier.ctrlWord (t : Tier) : Nat := pack [(20, t.ctrlResult), (16, flagValue t.ctrlBusy), (0, t.ctrlStack)]

/-- TIER_POOL (09 R289). -/
def State.poolWord (s : State) : Nat := pack [(32, s.hostFrames - s.hostUsed.length), (0, s.freeFrames)]

/-- The STATE values of a Whetstone engine (10 R313). -/
def WhsState.code : WhsState → Nat
  | .active => 0 | .off => 1 | .fenced => 2

/-- WHS_ENGINE_STATUS and WHS_ENGINE_LAST (10 R313). -/
def Whs.word (e : Whs) (last : Bool) : Nat :=
  if last then pack [(63, flagValue e.lastValid), (48, e.lastBasin), (32, e.lastLayer), (0, e.lastChunk)]
  else pack [(32, e.retries), (16, ((e.queue.map fun k => k.basin).dedup).length), (4, e.cause), (0, e.st.code)]

/-! ### Ethernet -/

/-- A lane group's registers by word (12 R361); RECAL is WO. -/
def EthGroup.word (g : EthGroup) (w : Nat) : Nat :=
  match w with
  | 0 => pack [(16, g.xoff), (13, flagValue g.ecnEn), (4, g.pfcEn.toNat), (3, flagValue g.pair800), (0, g.mode)]
  | 1 => g.mac.toNat
  | 2 => bits g.ip.toNat 63 0
  | 3 => bits g.ip.toNat 127 64
  | 4 => pack [(48, g.fecUncorr), (32, g.dropped), (8, g.paused.toNat), (1, flagValue g.recalBusy), (0, flagValue g.link)]
  | _ => 0

/-- The STATE values of a queue pair (12 R362). -/
def QpState.code : QpState → Nat
  | .reset => 0 | .rts => 1 | .error => 2

/-- A queue pair's words (12 R362). VALID was last written 1 unless the pair is in RESET. -/
def Qp.word (q : Qp) (w : Nat) : Nat :=
  match w with
  | 0 => pack [(32, q.ackTimeout), (28, q.retryCnt), (24, q.errCause), (12, q.dscp), (9, q.prio), (8, flagValue q.ipv6),
      (4, q.groups.toNat), (2, q.st.code), (0, flagValue (decide (q.st ≠ .reset)))]
  | 1 => pack [(32, q.remoteRkey), (0, q.remoteQpn)]
  | 2 => pack [(32, q.localRkey), (0, q.udpSport)]
  | 3 => q.remoteMac.toNat
  | 4 => bits q.remoteIp.toNat 63 0
  | 5 => bits q.remoteIp.toNat 127 64
  | 6 => pack [(32, q.rxPsn), (0, q.txPsn)]
  | 7 => pack [(32, q.retrans), (16, q.cnpRx), (0, q.ratePct)]
  | _ => 0

/-- Receive log frames that the owner of a queue set holds (12 R363). -/
def State.logPages (s : State) (n : Nat) : Nat := match s.qsetOwner n with | some b => (s.basin b).logFrames.length | none => 0

/-- ETH_QSET_CTRL and ETH_QSET_STATUS (12 R363). -/
def State.qsetWord (s : State) (n : Nat) (status : Bool) : Nat :=
  let q := s.qset n
  if status then pack [(32, s.logPages n), (16, q.failedEntry), (8, q.failedQp), (0, flagValue q.collFailed)] else q.home

/-! ### Power, clocks and management -/

/-- The power registers with the writes that wait for the end of a management gap: a read gives the last value written (00 R11; 13
R386). -/
def State.powerWritten (s : State) : Power :=
  (s.mgmt.held.foldl (fun s h => match h with
    | .pwrCap v => s.setCap v
    | .pwrTj v => s.setTj v
    | .clkCtrl v => { s with power := { s.power with stepMin := bits v.toNat 1 0 } }
    | _ => s) s).power

/-- The PWR_ and CLK_ registers and GLB_MGMT (13 R388). -/
def State.powerWord (s : State) (off : Nat) : Nat :=
  let p := s.powerWritten
  if off = 0x40000 then pack [(48, p.pin1s), (32, p.pin10ms), (16, p.vin), (8, p.ilim), (0, p.iin)]
  else if off = 0x40008 then p.causes.toNat + packBits [(1, p.thermalLatch), (0, p.powerLatch)]
  else if off = 0x40010 then p.cap
  else if off = 0x40018 then p.clusterOn.toNat
  else if off = 0x40020 then pack [(18, flagValue p.quarryOn), (14, p.ethOn.toNat), (2, p.mempOn.toNat), (0, p.latOn.toNat)]
  else if off = 0x40028 then pack [(56, p.tj1), (48, p.tj0), (16, p.throttle), (8, p.emerg), (0, p.trip)]
  else if off = 0x41000 then
    packBits [(18, p.holdover), (17, p.pllLock), (16, decide (p.step0 ≠ p.step1))] + pack [(8, p.gate), (2, p.step1), (0, p.step0)]
  else if off = 0x41008 then p.stepMin
  else if off = 0x42000 then
    pack [(48, s.mgmt.activations), (32, s.mgmt.wdog), (16, s.mgmt.gapMs)] +
      packBits [(2, s.mgmt.gap), (1, s.mgmt.slot), (0, decide (s.mgmt.phase = .ready))]
  else 0

/-! ### Reliability -/

/-- A report's words (14 R408). -/
def Report.word (r : Report) (w : Nat) : Nat :=
  match w with
  | 0 => pack [(32, r.seq), (24, r.event), (20, r.kind), (18, r.cls), (16, r.action), (6, flagValue r.basin.isSome), (0, r.basin.getD 0)]
  | 1 => r.time
  | 2 => pack [(40, r.count30), (32, r.count72), (0, r.index)]
  | 3 => r.addr
  | 4 => r.detail
  | _ => 0

/-- Register `n` of a map of the 2,048 cores or routers. -/
def fenceMap (f : Nat → Bool) (n : Nat) : Nat := ((List.range 64).map fun i => if f (64 * n + i) then 2 ^ i else 0).sum

/-- The QRY_ and GLB_ERR_ registers (14 R411, R412). -/
def State.relWord (s : State) (off : Nat) : Nat :=
  let r := s.rel
  if off = 0x50000 then pack [(16, r.rateLog2), (8, flagValue r.shadowEn), (0, r.dueH)]
  else if off = 0x50008 then
    pack [(56, min 255 (s.oldestHours ((List.range 2048).filter fun c => !(s.core c).fenced))), (48, min 255 r.overdue.length),
      (32, min 65535 r.fails), (0, min (2 ^ 32 - 1) r.tests)]
  else if 0x50100 ≤ off ∧ off < 0x50200 then fenceMap (fun c => (s.core c).fenced) ((off - 0x50100) / 8)
  else if 0x50200 ≤ off ∧ off < 0x50300 then fenceMap s.routerFenced ((off - 0x50200) / 8)
  else if 0x50300 ≤ off ∧ off < 0x50360 then (s.port ((off - 0x50300) / 8)).fencedFrames.length
  else if 0x60000 ≤ off ∧ off < 0x64000 then (SMap.get {} r.ring ((off - 0x60000) / 64)).word (off % 64 / 8)
  else if off = 0x64000 then pack [(32, r.produced), (0, r.consumed)]
  else if off = 0x64008 then pack [(32, min 4096 r.log.length), (16, r.fenceTable.length), (0, r.lost)]
  else 0

/-! ### Firmware and security -/

/-- The STATE values of a slot (15 R444). -/
def SlotState.code : SlotState → Nat
  | .empty => 0 | .staging => 1 | .verified => 2 | .invalid => 3

/-- The FWU_ registers (15 R444); FWU_DATA reads as zero. -/
def State.fwuWord (s : State) (off : Nat) : Nat :=
  let f := s.fwu
  if off = 0x100008 then f.size
  else if off = 0x100018 then f.crc.toNat
  else if off = 0x100020 then
    pack [(32, f.units.length), (16, f.result), (8, f.state), (4, flagValue f.stageSlot),
      (1, flagValue (decide (s.mgmt.phase = .recovery))), (0, flagValue f.busy)]
  else if off = 0x100028 then
    pack [(56, s.sec.svn), (40, f.slotB.svn), (32, f.slotB.st.code), (24, flagValue f.active), (8, f.slotA.svn), (0, f.slotA.st.code)]
  else 0

/-- The FIPS_STATE values (15 R445). -/
def FipsState.code : FipsState → Nat
  | .selfTest => 0 | .operational => 1 | .error => 2

/-- The KCMD_ and SEC_ registers (15 R445); KCMD_BUF reads as zero. -/
def State.secWord (s : State) (off : Nat) : Nat :=
  let x := s.sec
  if off = 0x70000 then x.serial.toNat
  else if off = 0x70008 then pack [(12, flagValue x.lockout), (8, x.pwFails), (4, x.scope), (0, x.fips.code)]
  else if 0x70020 ≤ off ∧ off < 0x70050 then
    match x.nonce with
    | some n => leNat ((vecBytes n).drop (off - 0x70020) |>.take 8)
    | none => 0
  else if off = 0x200108 then
    pack [(48, x.badMac), (32, flagValue x.cmdKey.isSome), (17, flagValue x.droppedGo), (16, flagValue x.busy), (8, x.opcode), (0, x.status)]
  else if off = 0x200110 then x.lastCounter
  else 0

/-! ### The counter reader -/

/-- PMC_CTRL as it reads: the last value written, though it waits for a snapshot tick (00 R11; 16 R456). -/
def Pmc.ctrlWord (p : Pmc) : Nat :=
  match p.wait with
  | some v =>
    let x := v.toNat
    pack [(32, bits x 48 32), (16, bits x 23 16), (8, max 16 (min 24 (bits x 12 8))), (0, bits x 0 0)]
  | none => pack [(32, p.windowTicks), (16, p.groups.toNat), (8, p.sizeLog2), (0, flagValue p.en)]

/-- The PMC_ registers and the ring window (16 R456). -/
def State.pmcWord (s : State) (off : Nat) : Nat :=
  let p := s.pmc
  if off = 0x2000000 then p.ctrlWord
  else if off = 0x2000008 then pack [(32, p.wrOff), (0, p.rdOff)]
  else if off = 0x2000010 then pack [(32, p.effTicks), (0, p.dropped)]
  else if off = 0x2000018 then pack [(24, flagValue p.drop), (0, p.levelKib)]
  else if 0x3000000 ≤ off ∧ off < 0x4000000 then
    let o := off - 0x3000000
    if o < p.size then leNat (SMap.getList 0 p.ring o 8) else 0
  else 0

/-! ### PF0 -/

/-- GLB_LINK (11 R325). -/
def Link.word (l : Link) : Nat :=
  pack [(16, flagValue l.ideFail), (8, l.rate), (2, l.width), (0, if l.cxl then 1 else 2)]

/-- GLB_ATTACH (11 R325). -/
def Link.attachWord (l : Link) : Nat :=
  pack [(48, l.devMajor), (32, l.devMinor), (16, l.enabledMinor), (2, flagValue l.lastRefused), (0, l.attach)]

/-- GLB_BSN_EVENT_SUM (11 R344). -/
def State.eventSum (s : State) : Nat := (s.basins.map fun e => if e.2.event ≠ 0 ∧ e.1 < 64 then 2 ^ e.1 else 0).sum

/-- 64-bit word `w` of PF0's global registers (11 R318). -/
def State.pf0Word (s : State) (w : Nat) : Nat :=
  let off := 8 * w
  if off = 0 then s.glbId.toNat
  else if off = 0x18 then s.link.attachWord
  else if off = 0x20 then s.eventSum
  else if off = 0x28 then s.link.word
  else if off = 0x30 then packBits [(2, s.power.thermN), (1, s.power.faultN), (0, s.mgmt.recoveryStrap)]
  else if off = 0x38 then s.link.lanePol.toNat
  else if off = 0x3000 then pack [(32, s.seamPoisoned), (0, s.seamResent)]
  else if 0x4000 ≤ off ∧ off < 0x40C0 then s.stackWord ((off - 0x4000) / 16) (decide (w % 2 = 1))
  else if off = 0x4100 then s.tier.weirTh.toNat
  else if off = 0x5000 then s.tier.ctrlWord
  else if off = 0x5008 then s.tier.timeoutMs
  else if off = 0x5010 then s.poolWord
  else if 0x5100 ≤ off ∧ off < 0x5180 then s.extWord (w - 0xA20)
  else if 0x6000 ≤ off ∧ off < 0x60C0 then (s.engine ((off - 0x6000) / 16)).word (decide (w % 2 = 1))
  else if off = 0x7000 then pack [(48, s.link.memErrBasin), (0, s.link.memErr)]
  else if 0x8000 ≤ off ∧ off < 0x8100 then (s.group ((off - 0x8000) / 64)).word (w % 8)
  else if 0x8400 ≤ off ∧ off < 0x8400 + 16 * 63 then s.qsetWord ((off - 0x8400) / 16) (decide (w % 2 = 1))
  else if 0x10000 ≤ off ∧ off < 0x10000 + 0x800 * 63 then
    (s.qp (qpnOf ((off - 0x10000) / 0x800) ((off - 0x10000) % 0x800 / 64))).word (w % 8)
  else if 0x30000 ≤ off ∧ off < 0x30400 then (SMap.get {} s.pf0Msix ((off - 0x30000) / 16)).word (decide (w % 2 = 1))
  else if off = 0x31000 then pendingBits s.pf0Msix
  else if 0x40000 ≤ off ∧ off < 0x50000 then s.powerWord off
  else if 0x50000 ≤ off ∧ off < 0x70000 then s.relWord off
  else if isFwu off then s.fwuWord off
  else if (0x70000 ≤ off ∧ off < 0x70100) ∨ (0x200000 ≤ off ∧ off < 0x200200) then s.secWord off
  else s.pmcWord off

/-- The registers that ROM recovery mode serves (15 R426). -/
def servedInRom (off : Nat) : Bool :=
  isFwu off || decide (off = 0) || decide (off = 0x42000) || decide (off = 0x70000) || decide (off = 0x70008)

/-- What an aligned read of a function's BAR0 returns, 32 or 64 bits of it: none where the link is down or in the IDE insecure state, or
the function is disabled (00 R11; 02 R34; 11 R318, R319, R324; 15 R426). -/
def State.readReg (s : State) (fn : HostFn) (off : Nat) (wide : Bool) : Option Nat :=
  let half := fun (x : Nat) => if wide then x else if off % 8 = 0 then bits x 31 0 else bits x 63 32
  let rom := decide (s.mgmt.phase = .recovery)
  if !s.link.up || s.link.insecure then none
  else
    match fn with
    | .vf b =>
      if rom || decide (64 ≤ b) || decide ((s.basin b).phase = .free) then none
      else some (if off < 0x10000 then half (s.pageWord false b (off / 8)) else 0)
    | .pf0 =>
      if rom && !servedInRom (off / 8 * 8) then some 0
      else
        match pageOf .pf0 off with
        | some (b, o) => some (half (s.pageWord true b (o / 8)))
        | none => some (half (s.pf0Word (off / 8)))

end Sys2Proof.Machine
end

