-- ==== Sys2Proof/Tests/Slice0.lean ====
section
/-! SUPPORT. Small tests: the spec's worked examples, an ill-formed command for each check of WellFormed.lean, and for every
statement of Certificates/Slice0/Obligations.lean that has hypotheses, states and operands that meet them together. -/

namespace Sys2Proof.Tests

-- One theorem at a time: each kernel evaluation would otherwise hold a thread of its own.
set_option Elab.async false

open Sys2Proof Sys2Proof.Machine

/-! ### States for the witnesses -/

/-- A stream that runs at the start of its core's program. -/
def tStream : Stream := { pc := 0x1000, stopped := false }

/-- A core whose program region holds its two running streams. -/
def tCore : Core := { base := 0x1000, size := 0x1000, a := tStream, x := tStream }

/-- A rectangle of one cluster. -/
def tDesc : Desc := { width := 1, height := 1, baPages := 4, guarantee := 4, limit := 4, tpIn := 1, tpOut := 1, counterAccess := true }

/-- A device that is READY, with its link up. -/
def tReady : State :=
  { mgmt := { phase := .ready, pwrgood := true, vioOk := true, perst := false }, link := { up := true } }

/-- A capsule of one row, whose tile is none that its window forms. -/
def tCap : Capsule :=
  { core := 9, pass := 4, exact := true
    rows := [(List.replicate 16 (.fin false 3 0, false), List.replicate 16 (.fin true 5 (-1), true))] }

/-- A running basin. -/
def tBasin : Basin := { phase := .running, desc := tDesc }

/-- A device whose basin 0 runs a core. -/
def tRun (k : Core) : State := { tReady with basins := [(0, tBasin)], cores := [(0, k)] }

/-- An instruction that stream A of core 0 presents. -/
def tIssue (i : Insn) : Issue := { core := 0, strm := .a, insn := i }

/-! ### The spec's worked examples -/

/-- 02 R30, the example after it: the core at lattice column 33, row 5 has basin core index 89. -/
theorem test_core_index : ({ originCol := 6, width := 4, height := 2 } : Desc).coreIndex (64 * 5 + 33) = 89 := by decide

/-- The examples under sluice completion (07): 72 lc, 28 lc and the next segment's start in a full-device basin. -/
theorem test_sluice_bound :
    ({ originCol := 6, width := 4, height := 2 } : Desc).sluiceBound = 72 ∧
      ({ originCol := 5, originRow := 1, width := 1, height := 1 } : Desc).sluiceBound = 28 ∧
      ({ width := 16, height := 4 } : Desc).nextStart 1000003 = 1000208 := by decide

/-- 04, the examples under the operand descriptor: a plain extent's and an MXFP4 extent's last byte. -/
theorem test_extents :
    (opDesc 0x3010004002004000).addr + (opDesc 0x3010004002004000).span - 1 = 0x43FF ∧
      ({ fmt := fMx4, rows := 32, stride := 64, rowlen := 32, addr := 0x8000 } : OpDesc).cols = 64 ∧
      0x8000 + ({ fmt := fMx4, rows := 32, stride := 64, rowlen := 32, addr := 0x8000 } : OpDesc).span - 1 = 0x883F := by
  decide +kernel

/-- 04, the OPDRN example: word 1 spells BF16, 16 rows of 128 bytes with a stride of 512 at 0x1_0000. -/
theorem test_opdrn_descriptor :
    opDesc 0x1010020004010000 = { fmt := fBf16, rows := 16, stride := 512, rowlen := 128, addr := 0x10000 } := by decide +kernel

/-- 05, the example under stochastic rounding: 1.3 gives 1.375 at a draw of 39,322 and 1.25 below it. -/
theorem test_stochastic :
    e4m3.encodeStoch 39322 (fp32.decode 0x3FA66666) = 0x3B ∧ e4m3.encodeStoch 39321 (fp32.decode 0x3FA66666) = 0x3A := by
  decide +kernel

/-- 05, the example under MX conversion: a block whose largest magnitude is 3.0 has scale byte 0x78 and stores 3.0 as 0x7C. -/
theorem test_mx_block : mxBlock fMx8e4 [fp32.decode 0x40400000, fp32.decode 0] = (0x78, [0x7C, 0]) := by decide +kernel

/-- 05, the example under MXFP4: 1.5 is 0b0011 and −6 is 0b1111. -/
theorem test_mxfp4 : e2m1.encode (fp32.decode 0x3FC00000) = 3 ∧ e2m1.encode (fp32.decode 0xC0C00000) = 15 := by decide +kernel

/-- 05, the example under the window format: 0.75 quantises to 3 × 2^28 at WEXP 97. -/
theorem test_window : w64Quant 97 (fp32.decode 0x3F400000) = (0x30000000, false) := by decide +kernel

/-- 09, the example under placement: page 1,300 of a basin with stacks 0, 1, 6 and 7 has its home at stack 6. -/
theorem test_home : tReady.homes { desc := { affinity := 0x0C3 } } 1300 = ([0, 1, 6, 7], 6) := by decide +kernel

/-- 11, the example under the queue registers: TP_CTRL = 0x0000_0032_0000_806C. -/
theorem test_tp_ctrl :
    (match exec (.tpCtrlWrite 5 18 0x000000320000806C) { tReady with basins := [(5, { phase := .idle, desc := { tDesc with tpOut := 4, guarantee := 9, limit := 9 } })] } with
      | .next t => let q := t.queue 5 18; (q.timeoutUs, q.notifyLevel, q.vector, q.depthLog2)
      | _ => (0, 0, 0, 0)) = (50, 32, 3, 12) := by decide +kernel

/-- 04 R94: an instruction's first word, field by field: ADD R3 = R1 + 5 by its immediate form. -/
theorem test_word_0 :
    (Insn.of 0x10 (imm := 5) (opt := 1) (ra := 1) (rd := 3)).w0 = 0x0000000510130010 ∧
      (⟨0x0000000510130010, 0, 0, 0⟩ : Insn).opcode = 0x10 := by decide +kernel

/-- 03, the example under CORE_HALT_CAUSE: DETAIL 0x03, STREAM 0b01, CAUSE 0x08. -/
theorem test_cause_word : ({ latched := true, cause := 0x08, stream := 1, detail := 0x03 } : HaltRec).causeWord = 0x30108 := by
  decide +kernel

/-- 00, the example under GLB_ID: a KQ-7200-30 of stepping A0 reads 0x1030_7200, a KQ-7200-33 has 0x33 in its place (log 4). -/
theorem test_glb_id : State.reset.glbId = 0x10337200 := rfl

/-! ### Arithmetic and effects -/

/-- 04 R106: ADD wraps at 64 bits. -/
theorem test_add_wraps :
    (match exec (.add (tIssue (Insn.of 0x10 (rd := 3) (ra := 1) (rb := 2))))
        (tRun { tCore with a := (tStream.setReg 1 0xFFFFFFFFFFFFFFFF false).setReg 2 2 false }) with
      | .next t => ((t.core 0).a.reg 3, (t.core 0).a.pc)
      | _ => (0, 0)) = (1, 0x1008) := by decide +kernel

/-- 04 R106: a shift takes its count modulo 64, and SRA copies the sign. -/
theorem test_shift_counts :
    (match exec (.sra (tIssue (Insn.of 0x18 (rd := 1) (ra := 1) (rb := 2))))
        (tRun { tCore with a := (tStream.setReg 1 0x8000000000000000 false).setReg 2 65 false }) with
      | .next t => (t.core 0).a.reg 1
      | _ => 0) = 0xC000000000000000 := by decide +kernel

/-- 04 R107: MOVI extends its immediate's sign. -/
theorem test_movi_sign :
    (match exec (.movi (tIssue (Insn.of 0x1B (rd := 4) (imm := 0xFFFFFFFE)))) (tRun tCore) with
      | .next t => (t.core 0).a.reg 4
      | _ => 0) = 0xFFFFFFFFFFFFFFFE := by decide +kernel

/-- Register 0 reads as zero whatever is written (03). -/
theorem test_register_zero :
    (match exec (.movi (tIssue (Insn.of 0x1B (imm := 7)))) (tRun tCore) with
      | .next t => (t.core 0).a.reg 0
      | _ => 9) = 0 := by decide +kernel

/-- 13 R388: the power cap is held within 600 to 2,600 W. -/
theorem test_cap_floor :
    (match exec (.pwrCapWrite 5) tReady with | .next t => t.power.cap | _ => 0) = 600 := by decide +kernel

/-- An empty queue idles, and a queued command leaves it as it runs (log 2). -/
theorem test_step :
    step State.reset = .next State.reset ∧ (∃ t, step { tReady with pending := [.nonceExpiry] } = .next t ∧ t.pending = []) :=
  ⟨rfl, _, rfl, rfl⟩

/-! ### Ill-formed commands -/

theorem test_wf_core : (Instr.nop { core := 2048, strm := .a, insn := Insn.of 0 }).wf = false := by decide
theorem test_wf_words : (Instr.brg { core := 0, strm := .a, insn := Insn.of 0x20 (wc := 1) (w2 := 1) }).wf = false := by decide
theorem test_wf_ecc_address : (Instr.nop { core := 0, strm := .a, insn := Insn.of 0, ecc := [⟨0, 0x60000, false⟩] }).wf = false := by decide
theorem test_wf_ecc_aligned : (Instr.vectorComplete 0 none [⟨0, 4, false⟩]).wf = false := by decide
theorem test_wf_ecc_core : (Instr.opdrnComplete 0 none [⟨2048, 0, false⟩]).wf = false := by decide
theorem test_wf_queue : (Instr.queueStageRefill 0 ⟨6, []⟩).wf = false := by decide
theorem test_wf_basin : (Instr.sluiceComplete 64).wf = false := by decide
theorem test_wf_unit : (Instr.mempRequest 17).wf = false := by decide
theorem test_wf_stack : (Instr.stackDrained 12).wf = false := by decide
theorem test_wf_page : (Instr.homingMove 0 (2 ^ 27)).wf = false := by decide
theorem test_wf_host_length : (Instr.hostMemRead .cxlMem 0 { len := 4097 }).wf = false := by decide
theorem test_wf_item : (Instr.tpOutItemRead 0 0 60 5).wf = false := by decide
theorem test_wf_slot : (Instr.flush 0 32).wf = false := by decide
theorem test_wf_vector : (Instr.msixUnmask .pf0 64).wf = false := by decide
theorem test_wf_function : (Instr.msixUnmask (.vf 64) 0).wf = false := by decide
theorem test_wf_group : (Instr.recal 4).wf = false := by decide
theorem test_wf_queue_pair : (Instr.cnpRx 255).wf = false ∧ (Instr.cnpRx 2272).wf = false := by decide
theorem test_wf_sequence : (Instr.ack 256 (2 ^ 24)).wf = false := by decide
theorem test_wf_priority : (Instr.pauseFrameRx 0 8 true).wf = false := by decide
theorem test_wf_clock_step : (Instr.powerManagerEval (3, 0) {}).wf = false := by decide
theorem test_wf_component : (Instr.watchdogRecovery 6 1).wf = false ∧ (Instr.watchdogRecovery 0 0).wf = false := by decide
theorem test_wf_pair : (Instr.quarryTestDone { coreA := 1, coreB := 1 }).wf = false := by decide
theorem test_wf_register : (Instr.registerWrite .pf0 4 true 0).wf = false := by decide
theorem test_wf_extent : (Instr.tierHostExtWrite 8 false 0).wf = false := by decide
theorem test_wf_table : (Instr.trustNormCombine 0 4096).wf = false ∧ (Instr.collectiveComplete 0 4096).wf = false := by decide
theorem test_wf_link : (Instr.cxlLinkRetrain 17 0).wf = false := by decide
theorem test_wf_opcode :
    (Instr.nop { core := 0, strm := .a, insn := Insn.of 0x10 }).wf = false ∧
      (Instr.nop { core := 0, strm := .a, insn := Insn.of 0x0D }).wf = true := by decide
theorem test_wf_some : (Instr.nop (tIssue (Insn.of 0))).wf = true ∧ (Instr.cnpRx 256).wf = true := by decide

/-! ### Witnesses: for every statement with hypotheses, states and operands that meet them together -/

theorem witness_StepTakesFront :
    ({ tReady with pending := [.nonceExpiry] } : State).pending = .nonceExpiry :: [] ∧ State.reset.pending = [] := by decide

theorem witness_QueueUntouched : ∃ t, exec .nonceExpiry { tReady with pending := [.recal 0] } = .next t ∧ t.pending = [.recal 0] :=
  ⟨_, rfl, rfl⟩

theorem witness_PowerStaysLegal :
    ({ tReady with pending := [.ilimRecheck], power := { ilimNow := true, gate := 12 } } : State).powerLegal ∧
      ∃ t, step { tReady with pending := [.ilimRecheck], power := { ilimNow := true, gate := 12 } } = .next t :=
  ⟨⟨by decide, by decide, by decide, (by intro _ h; cases h), (by intro _ h; cases h), (by intro _ h; cases h), by decide, by decide,
    by decide⟩, _, rfl⟩

theorem witness_SvnNeverFalls : ∃ t, step { tReady with pending := [.poweredTimeSave], sec := { svn := 64 } } = .next t := ⟨_, rfl⟩

theorem witness_ScalarArithmetic_1 :
    let s : State := tRun tCore
    let c : Instr := .add (tIssue (Insn.of 0x10 (rd := 3) (ra := 1) (opt := 1) (imm := 5)))
    let i : Issue := tIssue (Insn.of 0x10 (rd := 3) (ra := 1) (opt := 1) (imm := 5))
    let cc : Nat := 1
    let n : Nat := 0x10
    let f : Word → Word → Word := fun a b => a + b
    (aluOf c = some (i, cc, f)) ∧
    (presentedOf c = some (i, n)) ∧
    (s.clears i (aluFields n i.insn) [] = true) := by exact ⟨rfl, rfl, by decide +kernel⟩

theorem witness_MoveImmediate_1 :
    let s : State := tRun tCore
    let i : Issue := tIssue (Insn.of 0x1B (rd := 15) (imm := 0xFFFFFFFF))
    let rd := i.insn.rd.toNat
    (rd ≠ 0) ∧
    (s.clears i (moviFields 0x1B) [] = true) := by decide +kernel

theorem witness_MoveImmediate_1_2 :
    let s : State := tRun tCore
    let i : Issue := tIssue (Insn.of 0x1C (imm := 7))
    let rd := i.insn.rd.toNat
    (rd = 0) ∧
    (s.clears i (moviFields 0x1C) [] = true) := by decide +kernel

theorem witness_SpecialRegisters_1 :
    let s : State := tRun tCore
    let i : Issue := tIssue (Insn.of 0x0B (rd := 1) (imm := 0x40))
    let n : Nat := 0x40
    (n = bits i.insn.imm.toNat 7 0) ∧
    (s.clears i { op := 0x0B, words := [1], imm := 0xFF, rd := true } (movsConds (s.applyEcc i.ecc) i) = true) := by decide +kernel

theorem witness_SpecialRegisters_2 :
    let s : State := tRun tCore
    let i : Issue := tIssue (Insn.of 0x0C (ra := 1) (imm := 8))
    let n : Nat := 8
    (n = bits i.insn.imm.toNat 7 0) ∧
    (s.clears i { op := 0x0C, words := [1], imm := 0xFF, ra := true } (movswConds i) = true) ∧
    let s1 := s.applyEcc i.ecc
    let k := s1.core i.core
    (k.stochastic = false) := by decide +kernel

theorem witness_SpecialRegisters_2_2 :
    let s : State := tRun { tCore with vecPipe := [{ code := 0x46, insn := Insn.of 0x46 (imm := 0x23) (opt := 2) }] }
    let i : Issue := tIssue (Insn.of 0x0C (ra := 1) (imm := 8))
    let n : Nat := 8
    (n = bits i.insn.imm.toNat 7 0) ∧
    (s.clears i { op := 0x0C, words := [1], imm := 0xFF, ra := true } (movswConds i) = true) ∧
    let s1 := s.applyEcc i.ecc
    let k := s1.core i.core
    (k.stochastic = true) := by decide +kernel

theorem witness_SpecialRegisters_2_3 :
    let s : State := tRun tCore
    let i : Issue := tIssue (Insn.of 0x0C (ra := 1) (imm := 9))
    let n : Nat := 9
    (n = bits i.insn.imm.toNat 7 0) ∧
    (s.clears i { op := 0x0C, words := [1], imm := 0xFF, ra := true } (movswConds i) = true) ∧
    (n ≠ 0x08) := by decide +kernel

theorem witness_Branches_1 :
    let s : State := tRun tCore
    let i : Issue := tIssue (Insn.of 0x02 (imm := 2))
    (s.clears i { op := 0x02, words := [1], imm := BitVec.allOnes 32, opt := 1, ra := i.insn.opt.getLsbD 0 } (Machine.cond (i.insn.opt.getLsbD 0 && ((s.applyEcc i.ecc).streamOf i).tag i.insn.ra.toNat) cPoison 0x04 ++ targetConds ((s.applyEcc i.ecc).core i.core) (brTarget ((s.applyEcc i.ecc).streamOf i) i.insn)) = true) := by decide +kernel

theorem witness_Branches_1_2 :
    let s : State := tRun { tCore with a := { tStream with regs := [(1, 0x1FF8)] } }
    let i : Issue := tIssue (Insn.of 0x02 (opt := 1) (ra := 1))
    (s.clears i { op := 0x02, words := [1], imm := BitVec.allOnes 32, opt := 1, ra := i.insn.opt.getLsbD 0 } (Machine.cond (i.insn.opt.getLsbD 0 && ((s.applyEcc i.ecc).streamOf i).tag i.insn.ra.toNat) cPoison 0x04 ++ targetConds ((s.applyEcc i.ecc).core i.core) (brTarget ((s.applyEcc i.ecc).streamOf i) i.insn)) = true) := by decide +kernel

theorem witness_Branches_2 :
    let s : State := tRun tCore
    let i : Issue := tIssue (Insn.of 0x03 (imm := 2))
    (s.clears i { op := 0x03, words := [1], imm := BitVec.allOnes 32, opt := 7, ra := true, rb := true, reserved := decide (6 ≤ bits i.insn.opt.toNat 2 0) } (Machine.cond (((s.applyEcc i.ecc).streamOf i).tag i.insn.ra.toNat || ((s.applyEcc i.ecc).streamOf i).tag i.insn.rb.toNat) cPoison 0x04 ++ if ((s.applyEcc i.ecc).streamOf i).brc i.insn then targetConds ((s.applyEcc i.ecc).core i.core) (brcTarget ((s.applyEcc i.ecc).streamOf i) i.insn) else []) = true) := by decide +kernel

theorem witness_Branches_2_2 :
    let s : State := tRun tCore
    let i : Issue := tIssue (Insn.of 0x03 (imm := 2) (opt := 1))
    (s.clears i { op := 0x03, words := [1], imm := BitVec.allOnes 32, opt := 7, ra := true, rb := true, reserved := decide (6 ≤ bits i.insn.opt.toNat 2 0) } (Machine.cond (((s.applyEcc i.ecc).streamOf i).tag i.insn.ra.toNat || ((s.applyEcc i.ecc).streamOf i).tag i.insn.rb.toNat) cPoison 0x04 ++ if ((s.applyEcc i.ecc).streamOf i).brc i.insn then targetConds ((s.applyEcc i.ecc).core i.core) (brcTarget ((s.applyEcc i.ecc).streamOf i) i.insn) else []) = true) := by decide +kernel

theorem witness_EventFlags_1 :
    let s : State := tRun tCore
    let i : Issue := tIssue (Insn.of 0x09 (imm := 0x80000000))
    let s1 := s.applyEcc i.ecc
    let u := s1.streamOf i
    let k := s1.core i.core
    let m : BitVec 32 := if i.insn.opt.getLsbD 1 then (u.reg i.insn.ra.toNat).setWidth 32 else i.insn.imm
    let takes := k.flags &&& m = m ∧ ¬ (i.strm = .x ∧ k.aFirst m (i.insn.opt.getLsbD 0) = true)
    (¬takes) ∧
    (s.clears i (maskFields 0x09 i.insn) (maskConds u i.insn) = true) := by decide +kernel

theorem witness_EventFlags_1_2 :
    let s : State := tRun { tCore with flags := 1 }
    let i : Issue := tIssue (Insn.of 0x09 (imm := 1))
    let s1 := s.applyEcc i.ecc
    let u := s1.streamOf i
    let k := s1.core i.core
    let m : BitVec 32 := if i.insn.opt.getLsbD 1 then (u.reg i.insn.ra.toNat).setWidth 32 else i.insn.imm
    let takes := k.flags &&& m = m ∧ ¬ (i.strm = .x ∧ k.aFirst m (i.insn.opt.getLsbD 0) = true)
    (takes) ∧
    (s.clears i (maskFields 0x09 i.insn) (maskConds u i.insn) = true) := by decide +kernel

theorem witness_EventFlags_1_3 :
    let s : State := tRun tCore
    let i : Issue := tIssue (Insn.of 0x0A (imm := 3) (opt := 1))
    let s1 := s.applyEcc i.ecc
    let u := s1.streamOf i
    (s.clears i (maskFields 0x0A i.insn) (maskConds u i.insn) = true) := by decide +kernel

theorem witness_EventFlags_2 :
    let s : State := tRun { tCore with flags := 1, x := { tStream with wait := .flags 1 false } }
    let c : Nat := 0
    let st : Strm := .x
    let m : BitVec 32 := 1
    let keep : Bool := false
    (s.active c st = true) ∧
    (((s.core c).stream st).wait = .flags m keep) ∧
    ((s.core c).flags &&& m = m) ∧
    ((st = .x → (s.core c).aFirst m keep = false)) := by decide +kernel

theorem witness_DataQueues_1 :
    let s : State := tRun tCore
    let i : Issue := tIssue (Insn.of 0x07 (ra := 1))
    let q : Nat := 0
    (q = i.insn.imm.toNat % 8) ∧
    (s.clears i { op := 0x07, words := [1], imm := 7, ra := true } (queueConds i true) = true) ∧
    let s1 := s.applyEcc i.ecc
    let k := s1.core i.core
    ((k.queue q).ring = [] ∧ (k.queue q).stage.length < 8) := by decide +kernel

theorem witness_DataQueues_1_2 :
    let s : State := tRun { tCore with ring0 := 0x2000, queues := [(0, { stage := List.replicate 8 (1, false) })] }
    let i : Issue := tIssue (Insn.of 0x07 (ra := 1))
    let q : Nat := 0
    (q = i.insn.imm.toNat % 8) ∧
    (s.clears i { op := 0x07, words := [1], imm := 7, ra := true } (queueConds i true) = true) ∧
    let s1 := s.applyEcc i.ecc
    let k := s1.core i.core
    (8 ≤ (k.queue q).stage.length ∧ (k.queue q).ring.length < (k.ring q).2) := by decide +kernel

theorem witness_DataQueues_1_3 :
    let s : State := tRun { tCore with queues := [(0, { stage := List.replicate 8 (1, false) })] }
    let i : Issue := tIssue (Insn.of 0x07 (ra := 1))
    let q : Nat := 0
    (q = i.insn.imm.toNat % 8) ∧
    (s.clears i { op := 0x07, words := [1], imm := 7, ra := true } (queueConds i true) = true) ∧
    let s1 := s.applyEcc i.ecc
    let k := s1.core i.core
    (8 ≤ (k.queue q).stage.length ∧ (k.ring q).2 ≤ (k.queue q).ring.length) := by decide +kernel

theorem witness_DataQueues_2 :
    let s : State := tRun { tCore with queues := [(5, { stage := [(7, true)] })] }
    let i : Issue := tIssue (Insn.of 0x08 (rd := 1) (imm := 5))
    let q : Nat := 5
    (q = i.insn.imm.toNat % 8) ∧
    (s.clears i { op := 0x08, words := [1], imm := 7, rd := true } (queueConds i false) = true) ∧
    let s1 := s.applyEcc i.ecc
    let k := s1.core i.core
    ((k.queue q).stage = [(7, true)]) := by decide +kernel

theorem witness_DataQueues_2_2 :
    let s : State := tRun tCore
    let i : Issue := tIssue (Insn.of 0x08 (rd := 1) (imm := 5))
    let q : Nat := 5
    (q = i.insn.imm.toNat % 8) ∧
    (s.clears i { op := 0x08, words := [1], imm := 7, rd := true } (queueConds i false) = true) ∧
    let s1 := s.applyEcc i.ecc
    let k := s1.core i.core
    ((k.queue q).stage = []) := by decide +kernel

theorem witness_DataQueues_3 :
    let s : State := tRun { tCore with queues := [(0, { stage := [(7, true)] })], a := { tStream with wait := .pop 0 15 } }
    let c : Nat := 0
    let st : Strm := .a
    let q : Nat := 0
    let rd : Nat := 15
    let w : Word := 7
    let p : Bool := true
    let es : List (Word × Bool) := []
    (s.active c st = true) ∧
    let u := (s.core c).stream st
    (u.wait = .pop q rd) ∧
    (rd < 16) ∧
    (((s.core c).queue q).stage = (w, p) :: es) := by decide +kernel

theorem witness_DataQueues_4 :
    let s : State := tRun { tCore with a := { tStream with wait := .push 0 9 true } }
    let c : Nat := 0
    let st : Strm := .a
    let q : Nat := 0
    let w : Word := 9
    let p : Bool := true
    (s.active c st = true) ∧
    let u := (s.core c).stream st
    (u.wait = .push q w p) ∧
    (((s.core c).queue q).ring = []) ∧
    (((s.core c).queue q).stage.length < 8) := by decide +kernel

theorem witness_DataQueues_5 :
    let s : State := tRun { tCore with ring0 := 0x2000, queues := [(0, { ring := [true], tail := 1 })] }
    let c : Nat := 0
    let q : Nat := 0
    let p : Bool := true
    let ps : List Bool := []
    (s.active c .a = true ∨ s.active c .x = true) ∧
    (((s.core c).queue q).ring = p :: ps) ∧
    (((s.core c).queue q).stage.length < 8) := by decide +kernel

theorem witness_Fences_1 :
    let s : State := tRun tCore
    let i : Issue := tIssue (Insn.of 0x05)
    (s.clears i { op := 0x05, words := [1], imm := 1, opt := 0xF } [] = true) ∧
    let s1 := s.applyEcc i.ecc
    ((s1.core i.core).covered i.insn.opt i.strm (i.insn.imm.getLsbD 0) = []) := by decide +kernel

theorem witness_Fences_1_2 :
    let s : State := tRun { tCore with vecPipe := [{ id := 5, code := 0x40, strm := .a }] }
    let i : Issue := tIssue (Insn.of 0x05 (opt := 0xF))
    (s.clears i { op := 0x05, words := [1], imm := 1, opt := 0xF } [] = true) ∧
    let s1 := s.applyEcc i.ecc
    ((s1.core i.core).covered i.insn.opt i.strm (i.insn.imm.getLsbD 0) ≠ []) := by decide +kernel

theorem witness_Fences_2 :
    let s : State := tRun { tCore with a := { tStream with wait := .fence [5] } }
    let c : Nat := 0
    let st : Strm := .a
    let ops : List Nat := [5]
    (s.active c st = true) ∧
    (((s.core c).stream st).wait = .fence ops) ∧
    (∀ o ∈ ops, o ∉ (s.core c).inFlight) := by decide +kernel

theorem witness_Fences_2_2 :
    let s : State := tRun { tCore with vecPipe := [{ id := 5, code := 0x40, strm := .a }], a := { tStream with wait := .fence [5] } }
    let c : Nat := 0
    let st : Strm := .a
    let ops : List Nat := [5]
    (s.active c st = true) ∧
    (((s.core c).stream st).wait = .fence ops) ∧
    (∃ o ∈ ops, o ∈ (s.core c).inFlight) := by decide +kernel

theorem witness_NopAndHalt_1 :
    let s : State := tRun tCore
    let i : Issue := tIssue (Insn.of 0x00)
    (s.clears i { op := 0x00, words := [1] } [] = true) := by decide +kernel

theorem witness_NopAndHalt_2 :
    let s : State := tRun tCore
    let i : Issue := tIssue (Insn.of 0x01)
    (s.clears i { op := 0x01, words := [1] } [] = true) ∧
    let s1 := s.applyEcc i.ecc
    let k := s1.core i.core
    ((k.stream (otherStrm i.strm)).halted = false) := by decide +kernel

theorem witness_NopAndHalt_2_2 :
    let s : State := tRun { tCore with x := { tStream with halted := true } }
    let i : Issue := tIssue (Insn.of 0x01)
    (s.clears i { op := 0x01, words := [1] } [] = true) ∧
    let s1 := s.applyEcc i.ecc
    let k := s1.core i.core
    ((k.stream (otherStrm i.strm)).halted = true ∧ k.hrec.latched = false ∧ s1.basinOf i.core = some 0) := by decide +kernel

theorem witness_HardwareLoops_1 :
    let s : State := tRun { tCore with a := { tStream with regs := [(1, 3)] } }
    let i : Issue := tIssue (Insn.of 0x04 (rd := 2) (ra := 1) (imm := 2))
    (s.clears i { op := 0x04, words := [1], imm := 0xFFFF, ra := true, rd := true } (loopConds ((s.applyEcc i.ecc).streamOf i) i.insn) = true) ∧
    let s1 := s.applyEcc i.ecc
    let u := s1.streamOf i
    let n := (u.reg i.insn.ra.toNat).toNat % 2 ^ 32
    (n ≠ 0) := by decide +kernel

theorem witness_HardwareLoops_1_2 :
    let s : State := tRun tCore
    let i : Issue := tIssue (Insn.of 0x04 (rd := 2) (ra := 1) (imm := 2))
    (s.clears i { op := 0x04, words := [1], imm := 0xFFFF, ra := true, rd := true } (loopConds ((s.applyEcc i.ecc).streamOf i) i.insn) = true) ∧
    let s1 := s.applyEcc i.ecc
    let u := s1.streamOf i
    let n := (u.reg i.insn.ra.toNat).toNat % 2 ^ 32
    (n = 0) := by decide +kernel

theorem witness_HardwareLoops_2 :
    let s : State := tRun { tCore with a := { tStream with loops := [{ start := 0x1000, last := 0x1000, count := 2, it := 0, rd := 2 }] } }
    let i : Issue := tIssue (Insn.of 0x00)
    let l : LoopLevel := { start := 0x1000, last := 0x1000, count := 2, it := 0, rd := 2 }
    let ls : List LoopLevel := []
    (s.clears i { op := 0x00, words := [1] } [] = true) ∧
    let s1 := s.applyEcc i.ecc
    let u := s1.streamOf i
    (u.loops = l :: ls) ∧
    (l.last = u.pc) ∧
    (l.it + 1 < l.count) := by decide +kernel

theorem witness_HardwareLoops_2_2 :
    let s : State := tRun { tCore with a := { tStream with loops := [{ start := 0x1000, last := 0x1000, count := 2, it := 1, rd := 2 }] } }
    let i : Issue := tIssue (Insn.of 0x00)
    let l : LoopLevel := { start := 0x1000, last := 0x1000, count := 2, it := 1, rd := 2 }
    let ls : List LoopLevel := []
    (s.clears i { op := 0x00, words := [1] } [] = true) ∧
    let s1 := s.applyEcc i.ecc
    let u := s1.streamOf i
    (u.loops = l :: ls) ∧
    (l.last = u.pc) ∧
    (l.count ≤ l.it + 1) := by decide +kernel

theorem witness_IssueChecks_1 :
    let s : State := tRun { tCore with spPoison := [(64, true)] }
    let c : Instr := .nop (tIssue (Insn.of 0x00))
    let i : Issue := tIssue (Insn.of 0x00)
    let n : Nat := 0
    let e : Cond := (cPoison, 0x01)
    (presentedOf c = some (i, n)) ∧
    (i.insn.presents n = true) ∧
    (s.canIssue i.core i.strm = true) ∧
    let s1 := s.applyEcc i.ecc
    let k := s1.core i.core
    let u := s1.streamOf i
    let n := 8 * (i.insn.wc.toNat + 1)
    ((k.spPoisoned u.pc n = true ∧ e = (cPoison, 0x01) ∨ k.spPoisoned u.pc n = false ∧ (u.pc < k.base ∨ k.base + k.size < u.pc + n) ∧ e = (cPrivilege, 0x01))) ∧
    (k.hrec.latched = false) := by decide +kernel

theorem witness_IssueChecks_1_2 :
    let s : State := tRun { tCore with a := { tStream with pc := 0x2000 } }
    let c : Instr := .nop (tIssue (Insn.of 0x00))
    let i : Issue := tIssue (Insn.of 0x00)
    let n : Nat := 0
    let e : Cond := (cPrivilege, 0x01)
    (presentedOf c = some (i, n)) ∧
    (i.insn.presents n = true) ∧
    (s.canIssue i.core i.strm = true) ∧
    let s1 := s.applyEcc i.ecc
    let k := s1.core i.core
    let u := s1.streamOf i
    let n := 8 * (i.insn.wc.toNat + 1)
    ((k.spPoisoned u.pc n = true ∧ e = (cPoison, 0x01) ∨ k.spPoisoned u.pc n = false ∧ (u.pc < k.base ∨ k.base + k.size < u.pc + n) ∧ e = (cPrivilege, 0x01))) ∧
    (k.hrec.latched = false) := by decide +kernel

theorem witness_IssueChecks_2 :
    let s : State := State.reset
    let c : Instr := .nop (tIssue (Insn.of 0x00))
    let i : Issue := tIssue (Insn.of 0x00)
    (issueOf c = some i) ∧
    (s.canIssue i.core i.strm = false) := by decide +kernel


/-- An image of one cluster: a segment of eight slots, in which core 0 launches on one lane of each kind, and lane 6 reduces. -/
def tImg : Image :=
  { col := 0, row := 0, width := 1, height := 1
    segs := [(0, (0x800000001, 0))]
    lanes := (List.range 6).map fun n => (n + 1, (BitVec.ofNat 64 (n * 2 ^ 56 + 1 * 2 ^ 32 + 64), 0))
    slots := (List.range 6).map fun n => (0, (n, BitVec.ofNat 64 ((n + 1) * 2 ^ 48 + 6 * 2 ^ 4)))
    grads := [(1, 0x0001000001000001)] }

/-- The device of `tRun` with the program `tImg`. -/
def tProg (k : Core) : State := { tRun k with basins := [(0, { tBasin with img := some tImg })] }

/-- Sixteen descriptors of the barge engine. -/
def tFull : List Barge := List.replicate 16 {}
theorem witness_BargesDispatch_1 :
    let s : State := tProg tCore
    let i : Issue := tIssue (Insn.of 0x20 (imm := 2) (wc := 2) (w1 := 0xd001004002004000))
    let s1 := s.applyEcc i.ecc
    let mem := decide (bits i.insn.opt.toNat 1 0 = 0)
    (s.clears i { op := 0x20, words := if 2 ≤ bits i.insn.opt.toNat 1 0 then [2, 3] else if mem then [3] else [2], only := some .a, imm := if mem then 0xFFFF else 0xFFFFF, opt := 3, ra := mem, fe := true, reserved := decide (2 ≤ bits i.insn.opt.toNat 1 0) } (brgConds (s1.basin (s1.basinAt i.core)) i.core (s1.core i.core) (s1.streamOf i) i.insn) = true) ∧
    ((s1.core i.core).barges.length < 16 ∧ i.insn.opt.toNat % 4 = 0) := by decide +kernel

theorem witness_BargesDispatch_1_2 :
    let s : State := tProg tCore
    let i : Issue := tIssue (Insn.of 0x20 (imm := 5) (opt := 1) (wc := 1) (w1 := 0xd001004002004000))
    let s1 := s.applyEcc i.ecc
    let mem := decide (bits i.insn.opt.toNat 1 0 = 0)
    (s.clears i { op := 0x20, words := if 2 ≤ bits i.insn.opt.toNat 1 0 then [2, 3] else if mem then [3] else [2], only := some .a, imm := if mem then 0xFFFF else 0xFFFFF, opt := 3, ra := mem, fe := true, reserved := decide (2 ≤ bits i.insn.opt.toNat 1 0) } (brgConds (s1.basin (s1.basinAt i.core)) i.core (s1.core i.core) (s1.streamOf i) i.insn) = true) ∧
    ((s1.core i.core).barges.length < 16 ∧ i.insn.opt.toNat % 4 = 1) := by decide +kernel

theorem witness_BargesDispatch_1_3 :
    let s : State := tProg { tCore with barges := tFull }
    let i : Issue := tIssue (Insn.of 0x20 (imm := 2) (wc := 2) (w1 := 0xd001004002004000))
    let s1 := s.applyEcc i.ecc
    let mem := decide (bits i.insn.opt.toNat 1 0 = 0)
    (s.clears i { op := 0x20, words := if 2 ≤ bits i.insn.opt.toNat 1 0 then [2, 3] else if mem then [3] else [2], only := some .a, imm := if mem then 0xFFFF else 0xFFFFF, opt := 3, ra := mem, fe := true, reserved := decide (2 ≤ bits i.insn.opt.toNat 1 0) } (brgConds (s1.basin (s1.basinAt i.core)) i.core (s1.core i.core) (s1.streamOf i) i.insn) = true) ∧
    (16 ≤ (s1.core i.core).barges.length) := by decide +kernel

theorem witness_BargesDispatch_2 :
    let s : State := tProg tCore
    let i : Issue := tIssue (Insn.of 0x21 (imm := 2) (wc := 2) (w1 := 0x5001004002004000))
    let s1 := s.applyEcc i.ecc
    (s.clears i { op := 0x21, words := [3], only := some .a, imm := 0xFFFF, ra := true, fe := true } (brgtConds (s1.basin (s1.basinAt i.core)) i.core (s1.streamOf i) i.insn) = true) ∧
    ((s1.core i.core).barges.length < 16) := by decide +kernel

theorem witness_BargesDispatch_2_2 :
    let s : State := tProg { tCore with barges := tFull }
    let i : Issue := tIssue (Insn.of 0x21 (imm := 2) (wc := 2) (w1 := 0x5001004002004000))
    let s1 := s.applyEcc i.ecc
    (s.clears i { op := 0x21, words := [3], only := some .a, imm := 0xFFFF, ra := true, fe := true } (brgtConds (s1.basin (s1.basinAt i.core)) i.core (s1.streamOf i) i.insn) = true) ∧
    (16 ≤ (s1.core i.core).barges.length) := by decide +kernel

theorem witness_BargesDispatch_3 :
    let s : State := tProg tCore
    let i : Issue := tIssue (Insn.of 0x22 (imm := 0x100003) (opt := 8) (wc := 2) (w1 := 0x2001004002004000))
    let s1 := s.applyEcc i.ecc
    let b := s1.basinAt i.core
    (s.clears i (putFields i.insn) (putConds (s1.basin b) i.core (s1.core i.core) (s1.streamOf i) i.insn) = true) ∧
    ((s1.core i.core).barges.length < 16 ∧ i.insn.opt.toNat % 4 = 0 ∧ i.insn.opt.getLsbD 3 = true) := by decide +kernel

theorem witness_BargesDispatch_3_2 :
    let s : State := tProg tCore
    let i : Issue := tIssue (Insn.of 0x22 (imm := 0x100001) (opt := 9) (wc := 2) (w1 := 0x2001004002004000) (w2 := 0x2001004002005000))
    let s1 := s.applyEcc i.ecc
    let b := s1.basinAt i.core
    (s.clears i (putFields i.insn) (putConds (s1.basin b) i.core (s1.core i.core) (s1.streamOf i) i.insn) = true) ∧
    ((s1.core i.core).barges.length < 16 ∧ i.insn.opt.toNat % 4 = 1 ∧ i.insn.opt.getLsbD 3 = true) := by decide +kernel

theorem witness_BargesDispatch_3_3 :
    let s : State := tProg tCore
    let i : Issue := tIssue (Insn.of 0x22 (imm := 6) (opt := 2) (wc := 1) (w1 := 0xd001004002004000))
    let s1 := s.applyEcc i.ecc
    let b := s1.basinAt i.core
    (s.clears i (putFields i.insn) (putConds (s1.basin b) i.core (s1.core i.core) (s1.streamOf i) i.insn) = true) ∧
    ((s1.core i.core).barges.length < 16 ∧ i.insn.opt.toNat % 4 = 2) := by decide +kernel

theorem witness_BargesDispatch_3_4 :
    let s : State := tProg { tCore with barges := tFull }
    let i : Issue := tIssue (Insn.of 0x22 (imm := 6) (opt := 2) (wc := 1) (w1 := 0xd001004002004000))
    let s1 := s.applyEcc i.ecc
    let b := s1.basinAt i.core
    (s.clears i (putFields i.insn) (putConds (s1.basin b) i.core (s1.core i.core) (s1.streamOf i) i.insn) = true) ∧
    (16 ≤ (s1.core i.core).barges.length) := by decide +kernel

theorem witness_BargesDispatch_4 :
    let s : State := tProg tCore
    let i : Issue := tIssue (Insn.of 0x23 (imm := 0x100004) (opt := 8) (wc := 2) (w1 := 0x2001004002004000) (w2 := 0x2001004002005000))
    let s1 := s.applyEcc i.ecc
    let b := s1.basinAt i.core
    (s.clears i { op := 0x23, words := [3], only := some .a, imm := 0xFFFF ||| gImm i.insn, opt := 8, fe := true } (redsConds (s1.basin b) i.core i.insn) = true) ∧
    ((s1.core i.core).barges.length < 16 ∧ i.insn.opt.getLsbD 3 = true) := by decide +kernel

theorem witness_BargesDispatch_4_2 :
    let s : State := tProg { tCore with barges := tFull }
    let i : Issue := tIssue (Insn.of 0x23 (imm := 4) (wc := 2) (w1 := 0x1004002004000) (w2 := 0x1004002005000))
    let s1 := s.applyEcc i.ecc
    let b := s1.basinAt i.core
    (s.clears i { op := 0x23, words := [3], only := some .a, imm := 0xFFFF ||| gImm i.insn, opt := 8, fe := true } (redsConds (s1.basin b) i.core i.insn) = true) ∧
    (16 ≤ (s1.core i.core).barges.length) := by decide +kernel

theorem witness_BcanCancels_1 :
    let s : State := tRun { tCore with barges := [{ desc := 0xd001004002004000, size := 64, flag := some 31 }] }
    let i : Issue := tIssue (Insn.of 0x24 (imm := 0x80000000))
    (s.clears i { op := 0x24, words := [1], only := some .a, imm := BitVec.allOnes 32 } [] = true) ∧
    let s1 := s.applyEcc i.ecc
    (∃ g ∈ (s1.core i.core).barges, g.flag = some 31 ∧ g.cancelled = false) := by decide +kernel

theorem witness_BargesEnd_1 :
    let s : State := tRun { tCore with barges := [{ id := 3, size := 128, landed := 1, flag := some 31 }] }
    let c : Nat := 0
    let id : Nat := 3
    let b : Nat := 0
    let g : Barge := { id := 3, size := 128, landed := 1, flag := some 31 }
    ((s.core c).barges.find? (fun h => decide (h.id = id)) = some g) ∧
    (s.basinOf c = some b) ∧
    (s.bargeEnded b g = true) ∧
    (g.grad = none) ∧
    ((g.failed = false ∨ g.dropped = true ∨ g.cancelled = true)) ∧
    (g.dropped = false ∧ g.cancelled = false ∧ g.failed = false) := by decide +kernel

theorem witness_BargesEnd_1_2 :
    let s : State := tRun { tCore with barges := [{ id := 3, dropped := true, flag := some 31 }] }
    let c : Nat := 0
    let id : Nat := 3
    let b : Nat := 0
    let g : Barge := { id := 3, dropped := true, flag := some 31 }
    ((s.core c).barges.find? (fun h => decide (h.id = id)) = some g) ∧
    (s.basinOf c = some b) ∧
    (s.bargeEnded b g = true) ∧
    (g.grad = none) ∧
    ((g.failed = false ∨ g.dropped = true ∨ g.cancelled = true)) := by decide +kernel

theorem witness_BargesEnd_2 :
    let s : State := { tRun { tCore with barges := [{ id := 3, failed := true, flag := some 31 }] } with basins := [(0, { tBasin with restartLimit := 1 })] }
    let c : Nat := 0
    let id : Nat := 3
    let b : Nat := 0
    let g : Barge := { id := 3, failed := true, flag := some 31 }
    ((s.core c).barges.find? (fun h => decide (h.id = id)) = some g) ∧
    (s.basinOf c = some b) ∧
    (s.bargeEnded b g = true) ∧
    (g.failed = true) ∧
    (g.dropped = false) ∧
    (g.cancelled = false) ∧
    (c ∈ s.liveCores b) ∧
    ((s.basin b).phase = .running) ∧
    ((s.basin b).restarts < (s.basin b).restartLimit) := by decide +kernel

theorem witness_BargesEnd_3 :
    let s : State := { tRun { tCore with barges := [{ id := 3, desc := 0xd001004002004000, size := 64, suspended := true }] } with ports := [(11, { reqs := [{ barge := 3, taken := true }] })] }
    let c : Nat := 0
    let id : Nat := 3
    let u : Nat := 11
    let r : PortReq := { barge := 3, taken := true }
    let g : Barge := { id := 3, desc := 0xd001004002004000, size := 64, suspended := true }
    (u < 12) ∧
    ((∀ v, v < u → (s.port v).reqs.find? (fun q => decide (q.core = c) && decide (q.barge = id)) = none)) ∧
    ((s.port u).reqs.find? (fun q => decide (q.core = c) && decide (q.barge = id)) = some r) ∧
    (s.barge c id = some g) ∧
    (g.suspended = true) ∧
    ((r.write = false → s.asked u r = [r] ∧ ∀ a ∈ sliceRows g.memRowsOf (128 * r.readied) (min 128 (g.size - 128 * r.readied)), ∀ q ∈ splitTiles a.1 a.2, s.readBlocked r.basin g q.1 = false)) ∧
    ((r.write = true → s.writeBlocked u r.basin g = false)) := by decide +kernel

theorem witness_BargesEnd_3_2 :
    let s : State := { tRun { tCore with barges := [{ id := 3, kind := .putMem, desc := 0xd001004002004000, size := 64, suspended := true }] } with ports := [(0, { reqs := [{ barge := 3, write := true, taken := true }] })] }
    let c : Nat := 0
    let id : Nat := 3
    let u : Nat := 0
    let r : PortReq := { barge := 3, write := true, taken := true }
    let g : Barge := { id := 3, kind := .putMem, desc := 0xd001004002004000, size := 64, suspended := true }
    (u < 12) ∧
    ((∀ v, v < u → (s.port v).reqs.find? (fun q => decide (q.core = c) && decide (q.barge = id)) = none)) ∧
    ((s.port u).reqs.find? (fun q => decide (q.core = c) && decide (q.barge = id)) = some r) ∧
    (s.barge c id = some g) ∧
    (g.suspended = true) ∧
    ((r.write = false → s.asked u r = [r] ∧ ∀ a ∈ sliceRows g.memRowsOf (128 * r.readied) (min 128 (g.size - 128 * r.readied)), ∀ q ∈ splitTiles a.1 a.2, s.readBlocked r.basin g q.1 = false)) ∧
    ((r.write = true → s.writeBlocked u r.basin g = false)) ∧
    (r.write = true) := by decide +kernel

theorem witness_ArrayIssue_1 :
    let s : State := tRun tCore
    let i : Issue := { core := 0, strm := .x, insn := (Insn.of 0x30 (imm := 0xF) (wc := 1) (w1 := 0x1004002004000)) }
    let s1 := s.applyEcc i.ecc
    let k := s1.core i.core
    (s.clears i { op := 0x30, words := [2], only := some .x, imm := 0xF, opt := 1 } (oparmConds k i.insn) = true) ∧
    ((s1.core i.core).streamPipe = []) := by decide +kernel

theorem witness_ArrayIssue_1_2 :
    let s : State := tRun { tCore with streamPipe := [{ total := 1 }] }
    let i : Issue := { core := 0, strm := .x, insn := (Insn.of 0x30 (imm := 0xF) (wc := 1) (w1 := 0x1004002004000)) }
    let s1 := s.applyEcc i.ecc
    let k := s1.core i.core
    (s.clears i { op := 0x30, words := [2], only := some .x, imm := 0xF, opt := 1 } (oparmConds k i.insn) = true) ∧
    ((s1.core i.core).streamPipe ≠ []) := by decide +kernel

theorem witness_ArrayIssue_2 :
    let s : State := tRun { tCore with armed := { arrays := [0], rDesc := 0x1004002004000, k := 1 } }
    let i : Issue := { core := 0, strm := .x, insn := (Insn.of 0x31 (ra := 1) (wc := 1) (w1 := 0x1004002005000) (fe := true) (flg := 31)) }
    let s1 := s.applyEcc i.ecc
    let u := s1.streamOf i
    let k := s1.core i.core
    (s.clears i { op := 0x31, words := [2], only := some .x, ra := true, fe := true } (opstrConds k u i.insn) = true) ∧
    ((u.reg i.insn.ra.toNat).toNat = 0) := by decide +kernel

theorem witness_ArrayIssue_2_2 :
    let s : State := tRun { tCore with armed := { arrays := [0], rDesc := 0x1004002004000, k := 1 }, x := { tStream with regs := [(1, 1)] } }
    let i : Issue := { core := 0, strm := .x, insn := (Insn.of 0x31 (ra := 1) (wc := 1) (w1 := 0x1004002005000)) }
    let s1 := s.applyEcc i.ecc
    let u := s1.streamOf i
    let k := s1.core i.core
    (s.clears i { op := 0x31, words := [2], only := some .x, ra := true, fe := true } (opstrConds k u i.insn) = true) ∧
    ((u.reg i.insn.ra.toNat).toNat ≠ 0 ∧ (s1.core i.core).streamPipe.length < 2) := by decide +kernel

theorem witness_ArrayIssue_2_3 :
    let s : State := tRun { tCore with armed := { arrays := [0], rDesc := 0x1004002004000, k := 1 }, x := { tStream with regs := [(1, 1)] }, streamPipe := [{ total := 1 }, { total := 1 }] }
    let i : Issue := { core := 0, strm := .x, insn := (Insn.of 0x31 (ra := 1) (wc := 1) (w1 := 0x1004002005000)) }
    let s1 := s.applyEcc i.ecc
    let u := s1.streamOf i
    let k := s1.core i.core
    (s.clears i { op := 0x31, words := [2], only := some .x, ra := true, fe := true } (opstrConds k u i.insn) = true) ∧
    ((u.reg i.insn.ra.toNat).toNat ≠ 0 ∧ 2 ≤ (s1.core i.core).streamPipe.length) := by decide +kernel

theorem witness_ArrayIssue_3 :
    let s : State := tRun { tCore with tiles := [(0, { st := .full })] }
    let i : Issue := { core := 0, strm := .x, insn := (Insn.of 0x32 (imm := 1) (wc := 1) (w1 := 0x10004002004000)) }
    let s1 := s.applyEcc i.ecc
    let k := s1.core i.core
    (s.clears i { op := 0x32, words := [2], only := some .x, imm := 0xFF0F, opt := 7, ra := i.insn.opt.getLsbD 1, fe := true } (opdrnConds k i.insn) = true) ∧
    ((s1.core i.core).drainPipe.length < 2) := by decide +kernel

theorem witness_ArrayIssue_3_2 :
    let s : State := tRun { tCore with tiles := [(0, { st := .full })], drainPipe := [{}, {}] }
    let i : Issue := { core := 0, strm := .x, insn := (Insn.of 0x32 (imm := 1) (wc := 1) (w1 := 0x10004002004000)) }
    let s1 := s.applyEcc i.ecc
    let k := s1.core i.core
    (s.clears i { op := 0x32, words := [2], only := some .x, imm := 0xFF0F, opt := 7, ra := i.insn.opt.getLsbD 1, fe := true } (opdrnConds k i.insn) = true) ∧
    (2 ≤ (s1.core i.core).drainPipe.length) := by decide +kernel

theorem witness_VectorIssue_1 :
    let s : State := tRun tCore
    let c : Instr := .vadd ({ core := 0, strm := .x, insn := (Insn.of 0x40 (wc := 3) (w1 := 0x1000400204000) (w2 := 0x1000400204000) (w3 := 0x1000400204000)) })
    let i : Issue := { core := 0, strm := .x, insn := (Insn.of 0x40 (wc := 3) (w1 := 0x1000400204000) (w2 := 0x1000400204000) (w3 := 0x1000400204000)) }
    let code : Nat := 0x40
    (vecOf c = some (i, code)) ∧
    (s.clears i (vecFields code i.insn) (vecConds code i.insn) = true) ∧
    let s1 := s.applyEcc i.ecc
    ((s1.core i.core).vecPipe.length < 2) := by decide +kernel

theorem witness_VectorIssue_1_2 :
    let s : State := tRun { tCore with vecPipe := [{}, {}] }
    let c : Instr := .vadd ({ core := 0, strm := .x, insn := (Insn.of 0x40 (wc := 3) (w1 := 0x1000400204000) (w2 := 0x1000400204000) (w3 := 0x1000400204000)) })
    let i : Issue := { core := 0, strm := .x, insn := (Insn.of 0x40 (wc := 3) (w1 := 0x1000400204000) (w2 := 0x1000400204000) (w3 := 0x1000400204000)) }
    let code : Nat := 0x40
    (vecOf c = some (i, code)) ∧
    (s.clears i (vecFields code i.insn) (vecConds code i.insn) = true) ∧
    let s1 := s.applyEcc i.ecc
    (2 ≤ (s1.core i.core).vecPipe.length) := by decide +kernel

theorem witness_VectorIssue_2 :
    let s : State := tRun tCore
    let i : Issue := { core := 0, strm := .x, insn := (Insn.of 0x49 (imm := 0x5FFF8) (ra := 1) (rb := 2)) }
    let s1 := s.applyEcc i.ecc
    let u := s1.streamOf i
    (s.clears i { op := 0x49, words := [1], only := some .x, imm := BitVec.allOnes 32, ra := true, rb := true } (vecAddrConds u i.insn) = true) ∧
    ((s1.core i.core).vecPipe.length < 2) := by decide +kernel

theorem witness_VectorIssue_2_2 :
    let s : State := tRun { tCore with vecPipe := [{}, {}] }
    let i : Issue := { core := 0, strm := .x, insn := (Insn.of 0x49 (imm := 0x5FFF8) (ra := 1) (rb := 2)) }
    let s1 := s.applyEcc i.ecc
    let u := s1.streamOf i
    (s.clears i { op := 0x49, words := [1], only := some .x, imm := BitVec.allOnes 32, ra := true, rb := true } (vecAddrConds u i.insn) = true) ∧
    (2 ≤ (s1.core i.core).vecPipe.length) := by decide +kernel

theorem witness_VectorIssue_3 :
    let s : State := tRun tCore
    let i : Issue := { core := 0, strm := .x, insn := (Insn.of 0x48 (imm := 0x5FFF8) (ra := 1) (rd := 2)) }
    let s1 := s.applyEcc i.ecc
    let u := s1.streamOf i
    let rd := i.insn.rd.toNat
    (s.clears i { op := 0x48, words := [1], only := some .x, imm := BitVec.allOnes 32, ra := true, rd := true } (vecAddrConds u i.insn) = true) ∧
    ((s1.core i.core).vecPipe = []) := by decide +kernel

theorem witness_VectorIssue_3_2 :
    let s : State := tRun { tCore with vecPipe := [{}] }
    let i : Issue := { core := 0, strm := .x, insn := (Insn.of 0x48 (imm := 0x5FFF8) (ra := 1) (rd := 2)) }
    let s1 := s.applyEcc i.ecc
    let u := s1.streamOf i
    let rd := i.insn.rd.toNat
    (s.clears i { op := 0x48, words := [1], only := some .x, imm := BitVec.allOnes 32, ra := true, rd := true } (vecAddrConds u i.insn) = true) ∧
    ((s1.core i.core).vecPipe ≠ []) := by decide +kernel

theorem witness_ArrayCompletion_1 :
    let s : State := tRun { tCore with streamPipe := [{ insn := (Insn.of 0x31 (w1 := 0x1004002005000) (fe := true) (flg := 31)), rows := 1, total := 1 }], armed := { arrays := [0], rDesc := 0x1004002004000, k := 1 }, tiles := [(0, { st := .filling, ended := true })] }
    let c : Nat := 0
    let fault : Option Upset := none
    let ecc : List EccHit := []
    let o : Op := { insn := (Insn.of 0x31 (w1 := 0x1004002005000) (fe := true) (flg := 31)), rows := 1, total := 1 }
    let os : List Op := []
    ((s.core c).streamPipe = o :: os) ∧
    (o.total ≤ o.rows) ∧
    let k := (s.applyEcc ecc).core c
    (k.cellCaught fault = false) ∧
    ((SMap.get {} (s.core c).tiles 0).ended = true) := by decide +kernel

theorem witness_ArrayCompletion_2 :
    let s : State := tRun { tCore with drainPipe := [{ code := 0x32, insn := (Insn.of 0x32 (imm := 1) (w1 := 0x10004002004000)) }], tiles := [(0, { st := .full })] }
    let c : Nat := 0
    let fault : Option Upset := none
    let ecc : List EccHit := []
    let o : Op := { code := 0x32, insn := (Insn.of 0x32 (imm := 1) (w1 := 0x10004002004000)) }
    let os : List Op := []
    ((s.core c).drainPipe = o :: os) ∧
    (((s.core c).stream o.strm).stopped = false) ∧
    let mask := (List.range 4).filter fun j => o.insn.imm.getLsbD j
    let s1 := s.applyEcc ecc
    let now := (mask.zipIdx.drop o.rows).takeWhile fun e => ((s.core c).fullTile e.1).isSome
    let rows := o.rows + now.length
    let acc := now.foldl (fun acc e => drainArray o fault acc e.1 e.2) { core := s1.core c }
    (now ≠ []) ∧
    (acc.refused = false) ∧
    (acc.failed = false) ∧
    (mask.length ≤ rows) := by decide +kernel

theorem witness_ArrayCompletion_2_2 :
    let s : State := tRun { tCore with drainPipe := [{ code := 0x32, insn := (Insn.of 0x32 (imm := 3) (w1 := 0x10008004004000)) }], tiles := [(0, { st := .full })] }
    let c : Nat := 0
    let fault : Option Upset := none
    let ecc : List EccHit := []
    let o : Op := { code := 0x32, insn := (Insn.of 0x32 (imm := 3) (w1 := 0x10008004004000)) }
    let os : List Op := []
    ((s.core c).drainPipe = o :: os) ∧
    (((s.core c).stream o.strm).stopped = false) ∧
    let mask := (List.range 4).filter fun j => o.insn.imm.getLsbD j
    let s1 := s.applyEcc ecc
    let now := (mask.zipIdx.drop o.rows).takeWhile fun e => ((s.core c).fullTile e.1).isSome
    let rows := o.rows + now.length
    let acc := now.foldl (fun acc e => drainArray o fault acc e.1 e.2) { core := s1.core c }
    (now ≠ []) ∧
    (acc.refused = false) ∧
    (acc.failed = false) ∧
    (rows < mask.length) := by decide +kernel

theorem witness_VectorCompletion_1 :
    let s : State := tRun { tCore with vecPipe := [{ code := 0x49, opA := 0x4000, opB := 7 }] }
    let c : Nat := 0
    let fault : Option Upset := none
    let ecc : List EccHit := []
    let o : Op := { code := 0x49, opA := 0x4000, opB := 7 }
    let os : List Op := []
    ((s.core c).vecPipe = o :: os) ∧
    let s1 := s.applyEcc ecc
    let acc := vecWork (s1.core c) o fault
    (acc.refused = false) ∧
    (acc.failed = false) ∧
    (o.code = 0x49) := by decide +kernel

theorem witness_VectorCompletion_1_2 :
    let s : State := tRun { tCore with vecPipe := [{ code := 0x40, insn := (Insn.of 0x40 (wc := 3) (w1 := 0x1000400204000) (w2 := 0x1000400204000) (w3 := 0x1000400204000)) }] }
    let c : Nat := 0
    let fault : Option Upset := none
    let ecc : List EccHit := []
    let o : Op := { code := 0x40, insn := (Insn.of 0x40 (wc := 3) (w1 := 0x1000400204000) (w2 := 0x1000400204000) (w3 := 0x1000400204000)) }
    let os : List Op := []
    ((s.core c).vecPipe = o :: os) ∧
    let s1 := s.applyEcc ecc
    let d := opDesc o.insn.w1
    let acc := vecWork (s1.core c) o fault
    (acc.refused = false) ∧
    (acc.failed = false) ∧
    (o.code ≠ 0x49 ∧ isMx d.fmt = false) := by decide +kernel


/-- Core 0 as given, and the other cores of its rectangle fenced. -/
def tOne (k : Core) : SMap Core :=
  (0, k) :: (List.range 31).map fun n => (64 * ((n + 1) / 4) + (n + 1) % 4, { tCore with fenced := true })
theorem witness_SluiceArrival_1 :
    let s : State := tProg tCore
    let i : Issue := tIssue (Insn.of 0x06 (opt := 0))
    let s1 := s.applyEcc i.ecc
    let u := s1.streamOf i
    let k := s1.core i.core
    let ck := i.insn.opt.getLsbD 0
    (s.clears i { op := 0x06, words := [1], imm := 0xFFFF, opt := 1, fe := true } (Machine.cond (ck && !u.loops.isEmpty) cLoopDepth 0x02 ++ Machine.cond (k.stream (otherStrm i.strm)).halted cSluice 0x02) = true) ∧
    ((k.stream (otherStrm i.strm)).atSluice = none) := by decide +kernel

theorem witness_SluiceArrival_1_2 :
    let s : State := { tRun { tCore with x := { tStream with wait := .sluice 0 false false 0 } } with basins := [(0, { tBasin with img := some { tImg with grads := [] } })] }
    let i : Issue := tIssue (Insn.of 0x06)
    let s1 := s.applyEcc i.ecc
    let u := s1.streamOf i
    let k := s1.core i.core
    let ck := i.insn.opt.getLsbD 0
    let n := i.insn.imm.toNat % 2 ^ 16
    let b := s1.basinAt i.core
    (s.clears i { op := 0x06, words := [1], imm := 0xFFFF, opt := 1, fe := true } (Machine.cond (ck && !u.loops.isEmpty) cLoopDepth 0x02 ++ Machine.cond (k.stream (otherStrm i.strm)).halted cSluice 0x02) = true) ∧
    ((k.stream (otherStrm i.strm)).atSluice = some (n, ck) ∧ n = (s1.basin b).seg.cur ∧ ((s1.basin b).segRec.map (·.ck)) = some ck ∧ (k.queue 0) = {} ∧ (s1.basin b).short = false) := by decide +kernel

theorem witness_SluiceArrival_2 :
    let s : State := { tReady with basins := [(0, { tBasin with sluice := some { n := 0, arrived := [0] } })], cores := [(0, tCore)] }
    let c : Nat := 0
    let q : Sluice := { n := 0, arrived := [0] }
    ((s.basin (s.basinAt c)).sluice = some q) ∧
    ((s.basin (s.basinAt c)).phase = .running) ∧
    ((s.core c).streamPipe = []) ∧
    ((s.core c).drainPipe = []) ∧
    ((s.core c).vecPipe = []) ∧
    ((s.core c).barges = []) ∧
    (q.arrived.contains c = true) ∧
    (q.tokens.contains c = false) := by decide +kernel

theorem witness_SluicesComplete_1 :
    let s : State := { tReady with basins := [(0, { tBasin with img := some { tImg with grads := [], slots := [], lanes := [] }, sluice := some { n := 0, tokens := [0], tLast := 100 } })], cores := tOne tCore, time0 := 200, time1 := 200 }
    let b : Nat := 0
    let q : Sluice := { n := 0, tokens := [0], tLast := 100 }
    let g : SegRec := segRec (0x800000001, 0)
    ((s.basin b).sluice = some q) ∧
    ((s.basin b).segRec = some g) ∧
    ((s.basin b).phase = .running) ∧
    (s.sluiceDone b q = true) ∧
    (((s.basin b).closes q.n = true → s.passActive b = false)) := by decide +kernel

theorem witness_SluicesComplete_1_2 :
    let s : State := { tReady with basins := [(0, { tBasin with img := some { tImg with grads := [], slots := [], lanes := [] }, sluice := some { n := 0, ck := true, tokens := [0], tLast := 100 } })], cores := tOne tCore, time0 := 200, time1 := 200 }
    let b : Nat := 0
    let q : Sluice := { n := 0, ck := true, tokens := [0], tLast := 100 }
    let g : SegRec := segRec (0x800000001, 0)
    ((s.basin b).sluice = some q) ∧
    ((s.basin b).segRec = some g) ∧
    ((s.basin b).phase = .running) ∧
    (s.sluiceDone b q = true) ∧
    (((s.basin b).closes q.n = true → s.passActive b = false)) ∧
    (q.ck = true) := by decide +kernel

theorem witness_SluicesComplete_2 :
    let s : State := { tReady with basins := [(0, { tBasin with img := some tImg })], cores := [(0, tCore)] }
    let b : Nat := 0
    ((s.basin b).phase = .running) ∧
    ((s.basin b).testPause = false) ∧
    ((s.basin b).seg.started = false) ∧
    ((s.basin b).segRec.isSome = true) ∧
    (s.time0 ≤ (s.basin b).seg.start) := by decide +kernel

theorem witness_SluicesComplete_2_2 :
    let s : State := { tReady with basins := [(0, { tBasin with img := some tImg })], cores := [(0, tCore)], time0 := 17 }
    let b : Nat := 0
    ((s.basin b).phase = .running) ∧
    ((s.basin b).testPause = false) ∧
    ((s.basin b).seg.started = false) ∧
    ((s.basin b).segRec.isSome = true) ∧
    ((s.basin b).seg.start < s.time0) := by decide +kernel

theorem witness_SluicesComplete_3 :
    let s : State := { tReady with basins := [(0, { tBasin with img := some tImg, seg := { started := true } })], cores := [(0, tCore)], time0 := 8, time1 := 8 }
    let b : Nat := 0
    let g : SegRec := segRec (0x800000001, 0)
    ((s.basin b).segRec = some g) ∧
    ((s.basin b).phase ≠ .free) ∧
    ((s.basin b).seg.started = true) ∧
    ((s.basin b).seg.overtime = false) ∧
    ((s.basin b).segStart + g.nframes * g.frame ≤ s.basinTime b) ∧
    (s.owing b ≠ []) := by decide +kernel

theorem witness_RunHalts_1 :
    let s : State := { tReady with basins := [(0, { tBasin with sluice := some { n := 0, arrived := [0] } })], cores := tOne tCore }
    let b : Nat := 0
    let q : Sluice := { n := 0, arrived := [0] }
    ((s.basin b).sluice = some q) ∧
    ((s.basin b).phase = .running) ∧
    (((s.basin b).closes q.n = true → s.sluiceDone b q = true → s.passActive b = false)) ∧
    (0 ∈ s.liveCores b ∧ (s.core 0).hrec.latched = false ∧ (s.basin b).fencePending = []) := by decide +kernel

theorem witness_RunHalts_2 :
    let s : State := tRun { tCore with a := { tStream with wait := .pop 5 1 }, x := { tStream with halted := true } }
    let c : Nat := 0
    let b : Nat := 0
    (s.basinOf c = some b) ∧
    ((s.core c).hrec.latched = false) ∧
    ((s.active c .a && s.blocked b c .a) = true ∧ (s.core c).x.halted = true) := by decide +kernel

theorem witness_RunHalts_2_2 :
    let s : State := tRun { tCore with a := { tStream with wait := .pop 5 1 }, x := { tStream with wait := .pop 0 1 } }
    let c : Nat := 0
    let b : Nat := 0
    (s.basinOf c = some b) ∧
    ((s.core c).hrec.latched = false) ∧
    ((s.active c .a && s.blocked b c .a) = true ∧ (s.active c .x && s.blocked b c .x) = true) := by decide +kernel

theorem witness_RunHalts_2_3 :
    let s : State := tRun tCore
    let c : Nat := 0
    let b : Nat := 0
    (s.basinOf c = some b) ∧
    ((s.core c).hrec.latched = false) ∧
    ((s.active c .a && s.blocked b c .a) = false ∧ (s.active c .x && s.blocked b c .x) = false) := by decide +kernel

theorem witness_RunHalts_3 :
    let s : State := { tReady with basins := [(0, { tBasin with img := some { tImg with lanes := [(1, (0x100000040, 0))] }, seg := { started := true, overtime := true } })], cores := [(0, tCore)], time0 := 8, time1 := 8 }
    let b : Nat := 0
    let l : Nat := 1
    let c : Nat := 0
    let cs : List Nat := []
    let m : Image := { tImg with lanes := [(1, (0x100000040, 0))] }
    let g : SegRec := segRec (0x800000001, 0)
    ((s.basin b).segRec = some g) ∧
    ((s.basin b).img = some m) ∧
    ((s.basin b).phase = .running) ∧
    ((s.basin b).seg.overtime = true) ∧
    ((s.basin b).segStart + (g.nframes + g.overtime) * g.frame ≤ s.basinTime b) ∧
    (s.owing b = [l]) ∧
    ((sourceCores m g l).filter (fun d => !(s.core d).fenced) = c :: cs) ∧
    (s.basinOf c = some b) ∧
    ((s.basin b).restarts < (s.basin b).restartLimit) ∧
    ((s.core c).hrec.latched = false) := by decide +kernel

theorem witness_RestartRestores_1 :
    let s : State := { tReady with basins := [(0, { tBasin with phase := .restarting, back := { valid := true, recs := [(0, { index := 0, aPc := 0x1008, xPc := 0x1010, aRegs := [(1, 7)], xRegs := [], aTags := 2, xTags := 0, flags := 5, seed := 9, xstat := true })] } })], cores := tOne tCore }
    let b : Nat := 0
    ((s.basin b).phase = .restarting) ∧
    (s.inFlight b = false) ∧
    ((s.basin b).heldLost = false) ∧
    ((s.basin b).fencePending = []) ∧
    ((s.basin b).pendingRebind = none) ∧
    (s.anyDue b = false) ∧
    (0 ∈ s.liveCores b) := by decide +kernel

theorem witness_LatticeTime_1 :
    let s : State := tReady
    (s.power.clocksStopped = false ∧ s.power.step0 = s.power.step1 ∧ s.time0 % 16 = s.time1 % 16) := by decide +kernel

theorem witness_LatticeTime_1_2 :
    let s : State := { tReady with time0 := 1 }
    (s.power.clocksStopped = false ∧ s.power.step0 = s.power.step1 ∧ s.time0 % 16 ≠ s.time1 % 16) := by decide +kernel

theorem witness_LatticeTime_1_3 :
    let s : State := { tReady with power := { step0 := 0, step1 := 1 } }
    (s.power.clocksStopped = false ∧ s.power.step0 < s.power.step1) := by decide +kernel

theorem witness_LatticeTime_1_4 :
    let s : State := { tReady with power := { step0 := 2, step1 := 0 } }
    (s.power.clocksStopped = false ∧ s.power.step1 < s.power.step0) := by decide +kernel

theorem witness_LatticeTime_1_5 :
    let s : State := { tReady with power := { clocksStopped := true } }
    (s.power.clocksStopped = true) := by decide +kernel


/-! ### Chunks that an engine takes -/

/-- The state once the inputs of a chunk have been asked for, and with it once its outputs are ready. -/
def tTaken (s : State) (n : Nat) (k : Chunk) : State :=
  ((((s.finishPasses n).readReady k.basin ((s.finishPasses n).chunkInputs k)).1).outputsReady k).1

theorem tTakes {s : State} {n : Nat} {k : Chunk}
    (h : (s.engine n).st = .active ∧ s.power.clocksStopped = false ∧ (s.finishPasses n).nextChunk n = some k ∧
      ((s.finishPasses n).basin k.basin).phase = .running ∧
      ((s.finishPasses n).readReady k.basin ((s.finishPasses n).chunkInputs k)).2 = true ∧
      ((((s.finishPasses n).readReady k.basin ((s.finishPasses n).chunkInputs k)).1).outputsReady k).2 = true) :
    s.takes n k (tTaken s n k) :=
  ⟨h.1, h.2.1, h.2.2.1, h.2.2.2.1, _, Prod.ext rfl h.2.2.2.2.1, Prod.ext rfl h.2.2.2.2.2⟩
theorem witness_MemoryPorts_1 :
    let s : State := { tRun { tCore with barges := [{ desc := 0xd001004002004000, size := 64 }] } with basins := [(0, { tBasin with pages := [] })], ports := [(11, { reqs := [{ barge := 0, write := true }] })] }
    let u : Nat := 11
    let r : PortReq := { barge := 0, write := true }
    let g : Barge := { desc := 0xd001004002004000, size := 64 }
    (s.power.clocksStopped = false) ∧
    ((s.unitReqs u).find? (fun q => !q.taken && !s.power.clocksStopped) = some r) ∧
    (s.barge r.core r.barge = some g) ∧
    ((r.write = true ∨ u = 12 ∨ (s.basin r.basin).membersOf r.lane = 1 ∨ (s.unitReqs u).Nodup ∧ u < 12 ∧ (s.asked u r).length + 1 < (s.basin r.basin).membersOf r.lane ∧ (s.asked u r = [] → (s.port u).mergeFull = false))) := by decide +kernel

theorem witness_MemoryPorts_1_2 :
    let s : State := { tRun { tCore with barges := [{ desc := 0xd001004002004000, size := 64 }] } with basins := [(0, { tBasin with pages := [] })], ports := [(11, { reqs := [{ barge := 0 }] })] }
    let u : Nat := 11
    let r : PortReq := { barge := 0 }
    let g : Barge := { desc := 0xd001004002004000, size := 64 }
    (s.power.clocksStopped = false) ∧
    ((s.unitReqs u).find? (fun q => !q.taken && !s.power.clocksStopped) = some r) ∧
    (s.barge r.core r.barge = some g) ∧
    ((r.write = true ∨ u = 12 ∨ (s.basin r.basin).membersOf r.lane = 1 ∨ (s.unitReqs u).Nodup ∧ u < 12 ∧ (s.asked u r).length + 1 < (s.basin r.basin).membersOf r.lane ∧ (s.asked u r = [] → (s.port u).mergeFull = false))) ∧
    ((s.basin r.basin).membersOf r.lane = 1 ∧ r.write = false) := by decide +kernel

theorem witness_MemoryPorts_2 :
    let s : State := { tReady with ports := [(11, { merge := [{ tile := 5 }] })] }
    let n : Nat := 11
    let i : Nat := 0
    let m : MergeTile := { tile := 5 }
    ((s.port n).merge[i]? = some m) ∧
    (m.sending = false) ∧
    (m.ends ≤ (if n < 6 then s.time0 else s.time1)) := by decide +kernel

theorem witness_MemoryPorts_3 :
    let s : State := { tRun { tCore with barges := [{ desc := 0xd001004002004000, size := 64 }] } with basins := [(0, { tBasin with pages := [], img := some { tImg with slots := [(0, (0, 0x0002000000000050))] } })], ports := [(0, { reqs := [{ lane := 2, barge := 0, taken := true }] })] }
    let u : Nat := 0
    let r : PortReq := { lane := 2, barge := 0, taken := true }
    let g : Barge := { desc := 0xd001004002004000, size := 64 }
    (u < 12) ∧
    (s.power.clocksStopped = false) ∧
    (s.nextReturn u = some (r, g)) ∧
    ((s.basin r.basin).hasExt u r.lane = true) ∧
    (r.readied = 0) ∧
    (s.readable r.basin g (sliceRows g.memRowsOf 0 g.size) = g.size) ∧
    ((s.port u).accepts g.size = g.size) := by decide +kernel

theorem witness_MemoryPorts_4 :
    let s : State := { tRun { tCore with barges := [{ kind := .brgTp, desc := 0xd001004002004000, size := 64 }] } with basins := [(0, { tBasin with tp := [(0, { items := [{}] })] })], stageReqs := [{ barge := 0, taken := true }] }
    let r : PortReq := { barge := 0, taken := true }
    let g : Barge := { kind := .brgTp, desc := 0xd001004002004000, size := 64 }
    (s.power.clocksStopped = false) ∧
    (s.nextReturn 12 = some (r, g)) ∧
    (g.size / 64 ≤ (s.queue r.basin g.queue).items.length) := by decide +kernel

theorem witness_MemoryPorts_5 :
    let s : State := { tRun { tCore with barges := [{ kind := .putMem, ba := 64, desc := 0xd001004002004000, size := 64 }] } with basins := [(0, { tBasin with pages := [] })], ports := [(11, { reqs := [{ barge := 0, write := true, taken := true }] })] }
    let s2 : State := (s.prepPages 0 [0]).1
    let u : Nat := 11
    let r : PortReq := { barge := 0, write := true, taken := true }
    let g : Barge := { kind := .putMem, ba := 64, desc := 0xd001004002004000, size := 64 }
    (u < 12) ∧
    (s.power.clocksStopped = false) ∧
    ((s.unitReqs u).find? (fun q => q.taken && q.write && !q.granted && !s.power.clocksStopped) = some r) ∧
    (s.barge r.core r.barge = some g) ∧
    ((s.port u).stalled = false) ∧
    ((s.port u).wbuf + g.size ≤ 0x40000) ∧
    (g.size ≤ (s.port u).accepts g.size) ∧
    (s.prepPages r.basin g.pages = (s2, .ready)) ∧
    (s2.writeBlocked u r.basin g = false) ∧
    (g.memRowsOf = [(64, 64)] ∧ (g.sourceBytes (s.core r.core)).length = 64) := by decide +kernel

theorem witness_MemoryPorts_6 :
    let s : State := { tRun { tCore with barges := [{ kind := .putTp, desc := 0xd001004002004000, size := 64 }] } with basins := [(0, { tBasin with tp := [] })], stageReqs := [{ barge := 0, write := true, taken := true }] }
    let r : PortReq := { barge := 0, write := true, taken := true }
    let g : Barge := { kind := .putTp, desc := 0xd001004002004000, size := 64 }
    (s.power.clocksStopped = false) ∧
    (s.stageReqs.find? (fun q => q.taken && q.write && !q.granted && !s.power.clocksStopped) = some r) ∧
    (s.barge r.core r.barge = some g) ∧
    (s.reserved r.basin g.queue + g.size / 64 ≤ (s.queue r.basin (16 + g.queue)).room) := by decide +kernel

theorem witness_StackStates_1 :
    let s : State := { tReady with ports := [(11, { crcTimes := [0] })] }
    let n : Nat := 11
    let block : Nat := (32768 * 11 * 49152)
    (n < 12) ∧
    (stackOf (block / 32768) = n) ∧
    ((s.port n).gone = false) ∧
    ((s.port n).st ≠ .retraining) ∧
    (SMap.get 0 (s.port n).wfail block < 2) := by decide +kernel

theorem witness_StackStates_1_2 :
    let s : State := { tReady with ports := [(11, { wfail := [(32768 * 11 * 49152, 2)] })] }
    let n : Nat := 11
    let block : Nat := (32768 * 11 * 49152)
    (n < 12) ∧
    (stackOf (block / 32768) = n) ∧
    ((s.port n).gone = false) ∧
    ((s.port n).st ≠ .retraining) ∧
    (SMap.get 0 (s.port n).wfail block = 2 ∧ s.tier.retrainWait = [] ∧ (∀ i, i < 6 → (s.port (n / 6 * 6 + i)).st ≠ .retraining)) := by decide +kernel

theorem witness_StackStates_2 :
    let s : State := tReady
    let n : Nat := 11
    (n < 12) ∧
    ((s.port n).gone = false) ∧
    ((s.port n).st ≠ .retraining) ∧
    (s.tier.retrainWait = []) ∧
    ((∀ i, i < 6 → (s.port (n / 6 * 6 + i)).st ≠ .retraining)) ∧
    (s.hostReaches = true ∧ s.tier.ctrlBusy = false) := by decide +kernel

theorem witness_StackStates_3 :
    let s : State := { tReady with tier := { ctrlBusy := true } }
    (s.hostReaches = true) ∧
    (s.tier.ctrlBusy = true) := by decide +kernel

theorem witness_StackStates_4 :
    let s : State := { tReady with ports := [(11, { st := .retraining, busyHere := true })] }
    let n : Nat := 11
    ((s.port n).st = .retraining) ∧
    (((s.port n).crcTimes.filter fun t => decide (s.usec < t + 1000)).length + ((s.port n).wfail.filter fun e => decide (e.2 = 3) || decide (e.2 = 4)).length ≤ 64) ∧
    ((s.port n).before ≠ .draining ∧ (s.port n).busyHere = true) := by decide +kernel

theorem witness_StackStates_5 :
    let s : State := { tReady with ports := [(11, { st := .retraining, busyHere := true })] }
    let n : Nat := 11
    ((s.port n).st = .retraining) ∧
    ((s.port n).busyHere = true) := by decide +kernel

theorem witness_StackStates_6 :
    let s : State := tReady
    let n : Nat := 11
    (n < 12) ∧
    (s.hostReaches = true) ∧
    ((s.port n).st = .inService) ∧
    (s.tier.ctrlBusy = false) ∧
    (s.guarantees ≤ s.capacityWithout n) := by decide +kernel

theorem witness_StackStates_6_2 :
    let s : State := { tReady with basins := [(0, { phase := .idle, desc := { guarantee := 1000000 } })] }
    let n : Nat := 11
    (n < 12) ∧
    (s.hostReaches = true) ∧
    ((s.port n).st = .inService) ∧
    (s.tier.ctrlBusy = false) ∧
    (s.capacityWithout n < s.guarantees) := by decide +kernel

theorem witness_StackStates_7 :
    let s : State := { tReady with ports := [(11, { st := .draining, busyHere := true })] }
    let n : Nat := 11
    ((s.port n).st = .draining) ∧
    ((∀ f ∈ s.usedFrames, stackOf f ≠ n)) ∧
    ((s.port n).busyHere = true) := by decide +kernel

theorem witness_StackStates_8 :
    let s : State := { tReady with ports := [(11, { st := .drained })] }
    let n : Nat := 11
    ((s.port n).st = .drained) ∧
    (s.portNamed n = false) ∧
    (n < 12) ∧
    ((s.engine n).st = .active) := by decide +kernel

theorem witness_WeirAndScrub_1 :
    let s : State := tReady
    let n : Nat := 11
    let temp : Nat := 0xFF
    (n < 12) ∧
    ((s.port n).st ≠ .retired) ∧
    ((s.port n).level ≤ 4) ∧
    (temp = 0xFF) := by decide +kernel

theorem witness_WeirAndScrub_1_2 :
    let s : State := tReady
    let n : Nat := 11
    let temp : Nat := 0x69
    (n < 12) ∧
    ((s.port n).st ≠ .retired) ∧
    ((s.port n).level ≤ 4) ∧
    let th := fun i => bits s.tier.weirTh.toNat (8 * i - 1) (8 * i - 8)
    (th 1 ≤ temp ∧ th 2 ≤ temp ∧ th 3 ≤ temp ∧ th 4 = temp) := by decide +kernel

theorem witness_WeirAndScrub_1_3 :
    let s : State := tReady
    let n : Nat := 11
    let temp : Nat := 0x59
    (n < 12) ∧
    ((s.port n).st ≠ .retired) ∧
    ((s.port n).level ≤ 4) ∧
    let th := fun i => bits s.tier.weirTh.toNat (8 * i - 1) (8 * i - 8)
    (temp ≠ 0xFF ∧ (s.port n).level = 0 ∧ temp + 1 = th 1 ∧ temp < th 2 ∧ temp < th 3 ∧ temp < th 4) := by decide +kernel

theorem witness_WeirAndScrub_1_4 :
    let s : State := { tReady with ports := [(11, { level := 1 })] }
    let n : Nat := 11
    let temp : Nat := 0x57
    (n < 12) ∧
    ((s.port n).st ≠ .retired) ∧
    ((s.port n).level ≤ 4) ∧
    let th := fun i => bits s.tier.weirTh.toNat (8 * i - 1) (8 * i - 8)
    ((s.port n).level = 1 ∧ th 1 = temp + 3 ∧ temp < th 2 ∧ temp < th 3 ∧ temp < th 4) := by decide +kernel

theorem witness_WeirAndScrub_1_5 :
    let s : State := { tReady with ports := [(11, { level := 1 })] }
    let n : Nat := 11
    let temp : Nat := 0x56
    (n < 12) ∧
    ((s.port n).st ≠ .retired) ∧
    ((s.port n).level ≤ 4) ∧
    let th := fun i => bits s.tier.weirTh.toNat (8 * i - 1) (8 * i - 8)
    ((s.port n).level = 1 ∧ temp + 3 < th 1 ∧ temp < th 2 ∧ temp < th 3 ∧ temp < th 4) := by decide +kernel

theorem witness_WeirAndScrub_2 :
    let s : State := { tRun tCore with basins := [(0, { tBasin with pages := [(0, { frame := some 5, tiles := [(0, true)] })] })] }
    let f : Nat := 5
    let cs : List Nat := [0, 0]
    (stackOf f < 12) ∧
    ((s.port (stackOf f)).stalled = false) ∧
    (s.power.clocksStopped = false) ∧
    ((s.port (stackOf f)).corr < 2 ^ 16) ∧
    (((∃ e, s.frameOwner f = some e ∧ (s.basin e.1).frameBlocks e.2 f ≠ [] ∧ ∀ i ∈ cs, i < ((s.basin e.1).frameBlocks e.2 f).length) ∨ s.frameOwner f = none ∧ (s.rawOwner f).isSome = true)) ∧
    (s.frameOwner f = some (0, 0)) := by refine ⟨?_, ?_, ?_, ?_, Or.inl ⟨(0, 0), ?_⟩, ?_⟩ <;> decide +kernel

theorem witness_WeirAndScrub_2_2 :
    let s : State := { tRun tCore with basins := [(0, { tBasin with pages := [(0, {  })], logFrames := [7] })] }
    let f : Nat := 7
    let cs : List Nat := []
    (stackOf f < 12) ∧
    ((s.port (stackOf f)).stalled = false) ∧
    (s.power.clocksStopped = false) ∧
    ((s.port (stackOf f)).corr < 2 ^ 16) ∧
    (((∃ e, s.frameOwner f = some e ∧ (s.basin e.1).frameBlocks e.2 f ≠ [] ∧ ∀ i ∈ cs, i < ((s.basin e.1).frameBlocks e.2 f).length) ∨ s.frameOwner f = none ∧ (s.rawOwner f).isSome = true)) ∧
    (s.frameOwner f = none) := by refine ⟨?_, ?_, ?_, ?_, Or.inr ?_, ?_⟩ <;> decide +kernel

theorem witness_PageMoves_1 :
    let s : State := { tRun tCore with basins := [(0, { tBasin with pages := [(0, { frame := some 5, toHost := some 0 })] })], tier := { moves := [{}] } }
    let i : Nat := 0
    let m : Move := {}
    (s.tier.moves[i]? = some m) ∧
    (i < 8) ∧
    (m.raw = false) ∧
    (s.power.clocksStopped = false) ∧
    let g := (s.basin m.basin).page m.page
    (g.asked = false) ∧
    (g.moveStacks.any (fun n => (s.port n).paused) = false) ∧
    let next := nextTile g (decide (m.cause = .commit)) pageTiles (g.moved + 1)
    (next < pageTiles) := by decide +kernel

theorem witness_PageMoves_1_2 :
    let s : State := { tRun tCore with basins := [(0, { tBasin with pages := [(0, { frame := some 5, toHost := some 0, moved := 255 })] })], tier := { moves := [{}] } }
    let i : Nat := 0
    let m : Move := {}
    (s.tier.moves[i]? = some m) ∧
    (i < 8) ∧
    (m.raw = false) ∧
    (s.power.clocksStopped = false) ∧
    let g := (s.basin m.basin).page m.page
    (g.asked = false) ∧
    (g.moveStacks.any (fun n => (s.port n).paused) = false) ∧
    let next := nextTile g (decide (m.cause = .commit)) pageTiles (g.moved + 1)
    (pageTiles ≤ next) := by decide +kernel

theorem witness_PageMoves_2 :
    let s : State := { tReady with link := { up := true, cxl := true }, basins := [(0, { phase := .idle, desc := { guarantee := 1000000 } }), (1, { phase := .idle, pages := [(0, { frame := some 5, tiles := [(0, true)] })] })], tier := { ext := [(0, 1), (1, 0x4000000)] } }
    let v : Nat × Nat := (1, 0)
    let h : Nat := 0
    (s.freeFrames < s.owed) ∧
    (s.mgmt.gap = false) ∧
    (s.tier.moves.any (fun m => decide (m.cause = .eviction)) = false) ∧
    (s.victim (fun _ w => decide (w.desc.guarantee < w.held)) = some v) ∧
    (s.hostFree = some h) ∧
    ((((s.basin v.1).page v.2).hasMap = true ∨ s.mapsUsed < 32768)) := by decide +kernel

theorem witness_PageMoves_3 :
    let s : State := { tRun tCore with basins := [(0, { tBasin with pages := [(0, { frame := some 147456, tiles := [(0, true)] })] })] }
    let b : Nat := 0
    let p : Nat := 0
    let f : Nat := (match s.supply 0 0 with | .frame f => f | _ => 0)
    (((s.basin b).page p).st = .hbm) ∧
    (s.displaced b p = true) ∧
    (s.freeOn (s.homes (s.basin b) p).2 ≠ 0) ∧
    (s.laterDisplaced b p = false) ∧
    (s.supply b p = .frame f) ∧
    ((((s.basin b).page p).hasMap = true ∨ s.mapsUsed < 32768)) := by refine ⟨?_, ?_, ?_, ?_, rfl, ?_⟩ <;> decide +kernel

theorem witness_PageMoves_4 :
    let s : State := { tRun tCore with basins := [(0, { tBasin with pages := [(0, { hostFrame := some 0, tiles := [(0, true)], want := .ret })] })] }
    let b : Nat := 0
    let p : Nat := 0
    let f : Nat := (match s.supply 0 0 with | .frame f => f | _ => 0)
    (s.supply b p = .frame f) ∧
    ((((s.basin b).page p).hasMap = true ∨ s.mapsUsed < 32768)) ∧
    (((s.basin b).page p).want = .ret) := by refine ⟨rfl, ?_, ?_⟩ <;> decide +kernel

theorem witness_PageMoves_4_2 :
    let s : State := { tRun tCore with basins := [(0, { tBasin with pages := [(0, { want := .frame })] })] }
    let b : Nat := 0
    let p : Nat := 0
    let f : Nat := (match s.supply 0 0 with | .frame f => f | _ => 0)
    (s.supply b p = .frame f) ∧
    ((((s.basin b).page p).hasMap = true ∨ s.mapsUsed < 32768)) ∧
    (((s.basin b).page p).want = .frame ∧ (s.basin b).storeFull p = false ∧ ((s.basin b).protected p && (s.basin b).inInterval) = false ∧ ((s.basin b).page p).frame = none ∧ ((s.basin b).page p).hostFrame = none ∧ ((s.basin b).page p).toFrame = none) := by refine ⟨rfl, ?_, ?_⟩ <;> decide +kernel

theorem witness_HostTierRequests_1 :
    let s : State := { tReady with basins := [(0, { tBasin with pages := [(0, { hostFrame := some 0, tiles := [(0, true)], asked := true })] })] }
    let b : Nat := 0
    let p : Nat := 0
    let who : TierWho := .engine
    (s.hostAsked b p who = true) ∧
    (s.hostReaches = true) ∧
    (who = .engine) := by decide +kernel

theorem witness_HostTierRequests_1_2 :
    let s : State := { tRun { tCore with barges := [{ hostAsks := [0], desc := 0xd001004002004000, size := 64 }] } with basins := [(0, { tBasin with pages := [(0, { hostFrame := some 0, tiles := [(0, true)] })] })], ports := [(11, { reqs := [{ barge := 0, taken := true }] })] }
    let b : Nat := 0
    let p : Nat := 0
    let who : TierWho := .barge 0 0
    (s.hostAsked b p who = true) ∧
    (s.hostReaches = true) ∧
    (who = .barge 0 0 ∧ (s.barge 0 0).isSome = true) := by decide +kernel

theorem witness_HostTierRequests_2 :
    let s : State := { tReady with basins := [(0, { tBasin with pages := [(0, { hostFrame := some 0, tiles := [(0, true)], asked := true })] })] }
    let b : Nat := 0
    let p : Nat := 0
    let lost : List Nat := [32767]
    (s.hostAsked b p .engine = true) ∧
    (((s.basin b).page p).fresh = none) ∧
    (((s.basin b).page p).toFrame = none) ∧
    (((s.basin b).page p).toHost = none) ∧
    (((s.basin b).page p).hostFrame.isSome = true) ∧
    let s1 := ((s.count .tier 0 7 1).updBasin b fun v =>
      v.poison (pageLines p (lost.filter fun i => (s.basin b).blockOnHost (p * 32768 + i % 32768)))).updPage b p
        fun g => { g with asked := false }
    let f : Nat := (match s1.supply 0 0 with | .frame f => f | _ => 0)
    (s1.supply b p = .frame f) := by refine ⟨?_, ?_, ?_, ?_, ?_, rfl⟩ <;> decide +kernel

theorem witness_HostTierRequests_3 :
    let s : State := { tRun { tCore with barges := [{ hostAsks := [0], desc := 0xd001004002004000, size := 64 }] } with basins := [(0, { tBasin with pages := [(0, { hostFrame := some 0, tiles := [(0, true)] })] })], ports := [(11, { reqs := [{ barge := 0, taken := true }] })] }
    let b : Nat := 0
    let p : Nat := 0
    let c : Nat := 0
    let id : Nat := 0
    let u : Nat := 11
    let g : Barge := { hostAsks := [0], desc := 0xd001004002004000, size := 64 }
    let r : PortReq := { barge := 0, taken := true }
    (s.hostAsked b p (.barge c id) = true) ∧
    (s.barge c id = some g) ∧
    (g.kind = .brg) ∧
    (s.readOf c id = some (u, r)) := by decide +kernel

theorem witness_WhetstoneChunks_1 :
    let s : State := { tRun tCore with basins := [(0, { tBasin with img := some { tImg with whsLayers := [(1, [0x231, 0x100000001, 0, 0, 0, 0x1000, 0, 0, 0, 0, 0, 0])] } })], whs := [(0, { queue := [{ layer := 1, norm := true }] })] }
    let s2 : State := (tTaken s 0 { layer := 1, norm := true })
    let n : Nat := 0
    let k : Chunk := { layer := 1, norm := true }
    (s.takes n k s2) ∧
    let s3 := s2.chunkRead k
    let v := s3.basin k.basin
    (v.gradBad (v.whsLayer k.layer) k = false ∧ k.norm = true) := by refine And.intro (tTakes ?_) ?_ <;> decide +kernel

theorem witness_WhetstoneChunks_1_2 :
    let s : State := { tRun tCore with basins := [(0, { tBasin with img := some { tImg with whsLayers := [(1, [0x211, 0x100000001, 0, 0, 0, 0x1000, 0, 0, 0, 0, 0, 0])] }, memPoison := [(64, true)], restartLimit := 3 })], whs := [(0, { queue := [{ layer := 1 }] })] }
    let s2 : State := (tTaken s 0 { layer := 1 })
    let n : Nat := 0
    let k : Chunk := { layer := 1 }
    (s.takes n k s2) ∧
    let s3 := s2.chunkRead k
    let v := s3.basin k.basin
    (v.gradBad (v.whsLayer k.layer) k = true ∧ v.restarts < v.restartLimit ∧ v.phase = .running) := by refine And.intro (tTakes ?_) ?_ <;> decide +kernel

theorem witness_WhetstoneChunks_1_3 :
    let s : State := { tRun tCore with basins := [(0, { tBasin with img := some { tImg with whsLayers := [(1, [0x211, 0x100000001, 0, 0, 0, 0x1000, 0, 0, 0, 0, 0, 0])] } })], whs := [(0, { queue := [{ layer := 1 }] })] }
    let s2 : State := (tTaken s 0 { layer := 1 })
    let n : Nat := 0
    let k : Chunk := { layer := 1 }
    (s.takes n k s2) ∧
    let s3 := s2.chunkRead k
    let v := s3.basin k.basin
    (v.gradBad (v.whsLayer k.layer) k = false ∧ k.norm = false ∧ (let s4 := s3.openPass k.basin k.layer; let c := s4.chunkCtx v k; let p : LayerPass := { layer := 1 }; let o := v.computeChunk c k p; let s5 := (s4.engineWrite k.basin o.writes).1; v.untouched c.r k.chunk = false ∧ s4.pass k.basin k.layer = some p ∧ s4.engineWrite k.basin o.writes = (s5, true))) := by refine And.intro (tTakes ?_) ?_ <;> decide +kernel

theorem witness_WhetstoneChunks_2 :
    let s : State := { tRun tCore with basins := [(0, { tBasin with img := some { tImg with whsLayers := [(1, [0x211, 0x100000001, 0, 0, 0, 0x1000, 0, 0, 0, 0, 0, 0])] } })], whs := [(0, { queue := [{ layer := 1 }] })] }
    let s2 : State := (tTaken s 0 { layer := 1 })
    let n : Nat := 0
    let k : Chunk := { layer := 1 }
    (s.takes n k s2) := by refine tTakes ?_; decide +kernel

theorem witness_WhetstoneChunks_3 :
    let s : State := { tRun tCore with basins := [(0, { tBasin with img := some { tImg with whsLayers := [(1, [0x231, 0x100000001, 0, 0, 0, 0x1000, 0, 0, 0, 0, 0, 0])] } })], whs := [(0, { queue := [{ layer := 1, norm := true }] })], norms := [{ layer := 1 }] }
    let b : Nat := 0
    let n : Nat := 1
    let r := (s.basin b).whsLayer n
    let ns := s.layerNorms b n r.chunks
    (r.rule = ruleTrust) ∧
    (r.chunks ≠ 0) ∧
    (ns.length = r.chunks) ∧
    (s.trust.any (fun t => decide (t.1 = b) && decide (t.2.1 = n)) = false) := by decide +kernel


/-! ### Keyed commands -/

theorem leBytes_leNat (bs : List Byte) : leBytes bs.length (leNat bs) = bs := by
  induction bs with
  | nil => rfl
  | cons b bs ih =>
    have h : (b.toNat + 256 * leNat bs) / 256 = leNat bs := by have := b.isLt; omega
    simp only [List.length_cons, leBytes, leNat, h, ih, List.cons.injEq, and_true]
    apply BitVec.eq_of_toNat_eq
    simp only [BitVec.toNat_ofNat]
    have := b.isLt
    omega

theorem leNat_lt (bs : List Byte) : leNat bs < 256 ^ bs.length := by
  induction bs with
  | nil => decide
  | cons b bs ih => have := b.isLt; simp only [leNat, List.length_cons, Nat.pow_succ]; omega

theorem vecBytes_digestVec {bs : List Byte} (h : bs.length = 48) : vecBytes (digestVec bs) = bs := by
  have h1 := leNat_lt bs
  have h2 := leBytes_leNat bs
  rw [h] at h1 h2
  simp only [vecBytes, digestVec, BitVec.toNat_ofNat]
  rw [Nat.mod_eq_of_lt (by exact h1)]
  exact h2

theorem shaRound_length {h : List Word} (kw : Word × Word) (e : h.length = 8) : (shaRound h kw).length = 8 := by
  unfold shaRound
  split
  · rfl
  · exact e

theorem shaRounds_length (l : List (Word × Word)) {h : List Word} (e : h.length = 8) : (l.foldl shaRound h).length = 8 := by
  induction l generalizing h with
  | nil => exact e
  | cons a l ih => exact ih (shaRound_length a e)

theorem shaBlocks_length (l : List (List Byte)) {h : List Word} (e : h.length = 8) : (l.foldl shaBlock h).length = 8 := by
  induction l generalizing h with
  | nil => exact e
  | cons a l ih => exact ih (by simp [shaBlock, e, shaRounds_length])

theorem sha384_length (m : List Byte) : (sha384 m).length = 48 := by
  have h : ∀ l : List Word, l.length = 6 → (l.flatMap fun w => beBytes 8 w.toNat).length = 48 := by
    intro l e
    match l, e with
    | [a, b, c, d, f, g], _ => rfl
  refine h _ ?_
  simp [shaBlocks_length _ (show shaInit.length = 8 by decide +kernel)]

/-- A device with a command key that nothing else keeps busy. -/
def tKeyed : State := { tReady with sec := { fips := .operational, cmdKey := some 7 } }

/-- The tag of a block under the key of `tKeyed`. -/
def tMac (op : Nat) (k : KBlock) : List Byte :=
  hmac384 (vecBytes (7 : BitVec 384)) (vecBytes (0 : BitVec 64) ++ kHead k op)

/-- A block with another tag. -/
def tWith (k : KBlock) (t : BitVec 384) : KBlock := { k with tag := t }

theorem tWith_head (k : KBlock) (t : BitVec 384) (op : Nat) : kHead (tWith k t) op = kHead k op := rfl

/-- A block with its counter and its tag under the key of `tKeyed`. -/
def tTag (op : Nat) (k : KBlock) : KBlock := tWith { k with counter := 1 } (digestVec (tMac op { k with counter := 1 }))

theorem tTag_runs {s : State} {op : Nat} {k : KBlock}
    (h : (s.link.up && !s.link.insecure && !s.sec.busy && decide (s.mgmt.phase = .ready) && !s.mgmt.gap &&
      decide (s.sec.fips = .operational) && decide (s.sec.cmdKey = some 7) && decide (s.sec.serial = 0) &&
      decide (s.sec.lastCounter = 0) && decide (k.basin.toNat < 64) && decide (k.rsv = 0) && decide (k.tail = 0)) = true) :
    s.runsKeyed op (tTag op k) = true := by
  simp only [Bool.and_eq_true, Bool.not_eq_true', decide_eq_true_eq] at h
  obtain ⟨⟨⟨⟨⟨⟨⟨⟨⟨⟨⟨h1, h2⟩, h3⟩, h4⟩, h5⟩, h6⟩, h7⟩, h8⟩, h9⟩, ha⟩, hb⟩, hc⟩ := h
  unfold tTag
  have hm : (tMac op { k with counter := 1 }).length = 48 := sha384_length _
  have hh := fun t => tWith_head { k with counter := 1 } t op
  have hd : tMac op { k with counter := 1 } = hmac384 (vecBytes (7 : BitVec 384)) (vecBytes (0 : BitVec 64) ++
    kHead { k with counter := 1 } op) := rfl
  generalize tMac op { k with counter := 1 } = m at hm hd ⊢
  have hr : s.keyedRefusal op (tWith { k with counter := 1 } (digestVec m)) = none := by
    have ht : (tWith { k with counter := 1 } (digestVec m)).tag = digestVec m := rfl
    have hk : (tWith { k with counter := 1 } (digestVec m)).counter = 1 := rfl
    simp only [State.keyedRefusal, h6, h4, h7, h8, h9, hh, ht, hk, vecBytes_digestVec hm, ← hd]
    rw [if_neg (by decide), if_neg (by decide), if_neg (by simp), if_neg (by decide)]
  simp only [State.runsKeyed, h1, h2, h3, h4, h5, hr]
  simp only [tWith, hb, hc, decide_eq_true ha]
  rfl

/-- A block whose tag is not the one under the key of `tKeyed`. -/
def tBad (op : Nat) (k : KBlock) : KBlock := tWith k (if tMac op k = vecBytes (0 : BitVec 384) then 1 else 0)

theorem tBad_refused (op : Nat) (k : KBlock) : tKeyed.keyedRefusal op (tBad op k) = some 0x10 := by
  have h : ∀ m : List Byte, m ≠ vecBytes (if m = vecBytes (0 : BitVec 384) then (1 : BitVec 384) else 0) := by
    intro m
    split
    · next e => rw [e]; decide
    · assumption
  have hm := h (tMac op k)
  unfold tBad
  have hh := fun t => tWith_head k t op
  have hd : tMac op k = hmac384 (vecBytes (7 : BitVec 384)) (vecBytes (0 : BitVec 64) ++ kHead k op) := rfl
  generalize tMac op k = m at hm hd ⊢
  generalize (if m = vecBytes (0 : BitVec 384) then (1 : BitVec 384) else 0) = t at hm ⊢
  have ht : (tWith k t).tag = t := rfl
  have h6 : tKeyed.sec.fips = .operational := rfl
  have h4 : tKeyed.mgmt.phase = .ready := rfl
  have h7 : tKeyed.sec.cmdKey = some 7 := rfl
  have h8 : tKeyed.sec.serial = 0 := rfl
  simp only [State.keyedRefusal, h6, h4, h7, h8, hh, ht, ← hd]
  rw [if_neg (by decide), if_neg (by decide), if_pos hm]
  rfl
theorem witness_BinderAccepts_1 :
    let s : State := { tKeyed with link := { tKeyed.link with attach := 1 } }
    let k : KBlock := tTag 1 { basin := 63, payload := 0x3f0101000000000000000000040000000400000004000000010100003f }
    (s.runsKeyed 1 k = true) ∧
    (kZeroFrom k 64 = true) ∧
    ((kWord k 0) % 64 = k.basin.toNat) ∧
    (s.bindRefusal k.basin.toNat k false = none) := by refine ⟨tTag_runs (by decide +kernel), ?_, ?_, ?_⟩ <;> decide +kernel

theorem witness_BinderAccepts_2 :
    let s : State := { tKeyed with basins := [(0, { tBasin with desc := { tDesc with width := 1 } })], cores := [(0, tCore)] }
    let k : KBlock := tTag 2 { basin := 0, payload := 0x3f01010000000000000000000400000004000000040000000101000000 }
    (s.runsKeyed 2 k = true) ∧
    (kZeroFrom k 64 = true) ∧
    ((kWord k 0) % 64 = k.basin.toNat) ∧
    (s.bindRefusal k.basin.toNat k true = none) ∧
    ((s.basin k.basin.toNat).phase = .running) := by refine ⟨tTag_runs (by decide +kernel), ?_, ?_, ?_, ?_⟩ <;> decide +kernel

theorem witness_BinderAccepts_2_2 :
    let s : State := { tKeyed with basins := [(0, { phase := .idle, desc := tDesc })] }
    let k : KBlock := tTag 2 { basin := 0, payload := 0x3f01010000000000000000000400000004000000040000000101000000 }
    (s.runsKeyed 2 k = true) ∧
    (kZeroFrom k 64 = true) ∧
    ((kWord k 0) % 64 = k.basin.toNat) ∧
    (s.bindRefusal k.basin.toNat k true = none) ∧
    ((s.basin k.basin.toNat).phase = .idle) := by refine ⟨tTag_runs (by decide +kernel), ?_, ?_, ?_, ?_⟩ <;> decide +kernel

theorem witness_BinderAccepts_3 :
    let s : State := { tKeyed with basins := [(0, { tBasin with desc := { tDesc with width := 1 } })], cores := [(0, tCore)] }
    let k : KBlock := tTag 3 { basin := 0, payload := 0 }
    (s.runsKeyed 3 k = true) ∧
    (kZeroFrom k 0 = true) ∧
    ((s.basin k.basin.toNat).phase ≠ .free) := by refine ⟨tTag_runs (by decide +kernel), ?_, ?_⟩ <;> decide +kernel

theorem witness_BinderAccepts_4 :
    let s : State := tRun tCore
    let b : Nat := 0
    (s.link.up = true) ∧
    (s.link.insecure = false) ∧
    (s.mgmt.phase ≠ .recovery) ∧
    ((s.basin b).phase = .running) := by decide +kernel

theorem witness_BinderCompletes_1 :
    let s : State := { tKeyed with basins := [(0, { phase := .binding, newDesc := some tDesc, kcmd := true })] }
    let b : Nat := 0
    let d : Desc := tDesc
    ((s.basin b).phase = .binding) ∧
    ((s.basin b).newDesc = some d) ∧
    ((s.basin b).desc.width = 0) ∧
    ((s.basin b).kcmd = true) := by decide +kernel

theorem witness_BinderCompletes_2 :
    let s : State := { tKeyed with basins := [(0, { phase := .binding, desc := tDesc, newDesc := some tDesc, kcmd := true })] }
    let b : Nat := 0
    let d : Desc := tDesc
    ((s.basin b).phase = .binding) ∧
    ((s.basin b).newDesc = some d) ∧
    ((s.basin b).desc.width ≠ 0) ∧
    ((s.basin b).fencePending = []) ∧
    ((s.basin b).pendingRebind = none) ∧
    ((s.basin b).kcmd = true) := by decide +kernel

theorem witness_BinderCompletes_2_2 :
    let s : State := { tKeyed with basins := [(0, { phase := .binding, desc := tDesc, newDesc := some { tDesc with baPages := 5 } })] }
    let b : Nat := 0
    let d : Desc := { tDesc with baPages := 5 }
    ((s.basin b).phase = .binding) ∧
    ((s.basin b).newDesc = some d) ∧
    ((s.basin b).desc.width ≠ 0) ∧
    ((s.basin b).fencePending = []) ∧
    ((s.basin b).pendingRebind = none) ∧
    ((s.basin b).kcmd = false) := by decide +kernel

theorem witness_BinderCompletes_3 :
    let s : State := { tKeyed with basins := [(0, { phase := .unbinding, desc := tDesc, kcmd := true })] }
    let b : Nat := 0
    ((s.basin b).phase = .unbinding) ∧
    (SMap.wf {} s.basins = true) ∧
    ((s.basin b).kcmd = true) := by decide +kernel

theorem witness_FenceAndActivate_1 :
    let s : State := tKeyed
    let k : KBlock := tTag 4 { basin := 0, payload := 0x8ffff0000000000400000 }
    let kind : Nat := 4
    let i : Nat := 589823
    (s.runsKeyed 4 k = true) ∧
    (kWord k 0 = kind * 2 ^ 20) ∧
    (kWord k 1 = i) ∧
    (kZeroFrom k 16 = true) ∧
    (i < fenceUnits kind) := by refine ⟨tTag_runs (by decide +kernel), ?_, ?_, ?_, ?_⟩ <;> decide +kernel

theorem witness_FenceAndActivate_1_2 :
    let s : State := tKeyed
    let k : KBlock := tTag 4 { basin := 0, payload := 0xb0000000000300000 }
    let kind : Nat := 3
    let i : Nat := 11
    (s.runsKeyed 4 k = true) ∧
    (kWord k 0 = kind * 2 ^ 20) ∧
    (kWord k 1 = i) ∧
    (kZeroFrom k 16 = true) ∧
    (i < fenceUnits kind) := by refine ⟨tTag_runs (by decide +kernel), ?_, ?_, ?_, ?_⟩ <;> decide +kernel

theorem witness_FenceAndActivate_1_3 :
    let s : State := tKeyed
    let k : KBlock := tTag 4 { basin := 0, payload := 0x7ff0000000000100000 }
    let kind : Nat := 1
    let i : Nat := 2047
    (s.runsKeyed 4 k = true) ∧
    (kWord k 0 = kind * 2 ^ 20) ∧
    (kWord k 1 = i) ∧
    (kZeroFrom k 16 = true) ∧
    (i < fenceUnits kind) ∧
    (s.basinOf i = none) := by refine ⟨tTag_runs (by decide +kernel), ?_, ?_, ?_, ?_, ?_⟩ <;> decide +kernel

theorem witness_FenceAndActivate_1_4 :
    let s : State := tKeyed
    let k : KBlock := tTag 4 { basin := 0, payload := 0x7ff0000000000200000 }
    let kind : Nat := 2
    let i : Nat := 2047
    (s.runsKeyed 4 k = true) ∧
    (kWord k 0 = kind * 2 ^ 20) ∧
    (kWord k 1 = i) ∧
    (kZeroFrom k 16 = true) ∧
    (i < fenceUnits kind) ∧
    (s.basinOf i = none) := by refine ⟨tTag_runs (by decide +kernel), ?_, ?_, ?_, ?_, ?_⟩ <;> decide +kernel

theorem witness_FenceAndActivate_2 :
    let s : State := { tKeyed with fwu := { state := 3, stageSlot := true, slotB := { st := .verified } } }
    let k : KBlock := tTag 5 { basin := 0, payload := 256 }
    let slot : Bool := true
    let commit : Bool := false
    (s.runsKeyed 5 k = true) ∧
    (kWord k 0 = (if slot then 2 ^ 8 else 0) + (if commit then 1 else 0)) ∧
    (kZeroFrom k 8 = true) ∧
    (s.latched = false) ∧
    (s.fwu.state = 3 ∧ slot = s.fwu.stageSlot ∧ (s.slot slot).st = .verified ∧ s.incompatible slot = false) := by refine ⟨tTag_runs (by decide +kernel), ?_, ?_, ?_, ?_⟩ <;> decide +kernel

theorem witness_FenceAndActivate_2_2 :
    let s : State := { tKeyed with fwu := { slotA := { st := .verified, svn := 65 } } }
    let k : KBlock := tTag 5 { basin := 0, payload := 1 }
    let slot : Bool := false
    let commit : Bool := true
    (s.runsKeyed 5 k = true) ∧
    (kWord k 0 = (if slot then 2 ^ 8 else 0) + (if commit then 1 else 0)) ∧
    (kZeroFrom k 8 = true) ∧
    (s.latched = false) ∧
    (slot = s.fwu.active) := by refine ⟨tTag_runs (by decide +kernel), ?_, ?_, ?_, ?_⟩ <;> decide +kernel

theorem witness_KeyCommands_1 :
    let s : State := tKeyed
    let k : KBlock := tTag 6 { basin := 0, payload := 0x50000000000000009 }
    (s.runsKeyed 6 k = true) ∧
    (2 ≤ kWord k 0 ∧ kWord k 0 ≤ 9 ∧ kZeroFrom k 56 = true) := by refine ⟨tTag_runs (by decide +kernel), ?_⟩ <;> decide +kernel

theorem witness_KeyCommands_1_2 :
    let s : State := tKeyed
    let k : KBlock := tTag 6 { basin := 0, payload := 10 }
    (s.runsKeyed 6 k = true) ∧
    (9 < kWord k 0) := by refine ⟨tTag_runs (by decide +kernel), ?_⟩ <;> decide +kernel

theorem witness_KeyCommands_2 :
    let s : State := { tKeyed with sec := { tKeyed.sec with nonce := some 3, verifier := some 5 } }
    let k : KBlock := tTag 7 { basin := 0, payload := 257 }
    let n : BitVec 384 := 3
    let owner : Bool := true
    let scope : Nat := 1
    (s.runsKeyed 7 k = true) ∧
    (kWord k 0 = scope * 2 ^ 8 + (if owner then 1 else 0)) ∧
    ((scope = 1 ∨ scope = 2 ∧ owner = false)) ∧
    (kZeroFrom k (if owner then 56 else 104) = true) ∧
    (s.sec.lockout = false) ∧
    ((scope = 2 → s.anyBound = false)) ∧
    (s.sec.nonce = some n) := by refine ⟨tTag_runs (by decide +kernel), ?_, ?_, ?_, ?_, ?_, ?_⟩ <;> decide +kernel

theorem witness_KeyCommands_2_2 :
    let s : State := { tKeyed with sec := { tKeyed.sec with nonce := some 3 } }
    let k : KBlock := tTag 7 { basin := 0, payload := 512 }
    let n : BitVec 384 := 3
    let owner : Bool := false
    let scope : Nat := 2
    (s.runsKeyed 7 k = true) ∧
    (kWord k 0 = scope * 2 ^ 8 + (if owner then 1 else 0)) ∧
    ((scope = 1 ∨ scope = 2 ∧ owner = false)) ∧
    (kZeroFrom k (if owner then 56 else 104) = true) ∧
    (s.sec.lockout = false) ∧
    ((scope = 2 → s.anyBound = false)) ∧
    (s.sec.nonce = some n) := by refine ⟨tTag_runs (by decide +kernel), ?_, ?_, ?_, ?_, ?_, ?_⟩ <;> decide +kernel

theorem witness_KeyedRefusals_1 :
    let s : State := { tKeyed with sec := { tKeyed.sec with busy := true } }
    let c : Instr := .zeroize {}
    let k : KBlock := {}
    let op : Nat := 8
    (keyedOf c = some (k, op)) ∧
    (s.link.up = true) ∧
    (s.link.insecure = false) ∧
    (s.sec.busy = true) := by decide +kernel

theorem witness_KeyedRefusals_1_2 :
    let s : State := tKeyed
    let c : Instr := .zeroize (tBad 8 {})
    let k : KBlock := tBad 8 {}
    let op : Nat := 8
    (keyedOf c = some (k, op)) ∧
    (s.link.up = true) ∧
    (s.link.insecure = false) ∧
    (s.sec.busy = false ∧ s.mgmt.phase = .ready ∧ s.mgmt.gap = false) ∧
    (s.keyedRefusal op k = some 0x10) := by exact ⟨rfl, rfl, rfl, by decide, tBad_refused 8 {}⟩

theorem witness_Zeroize_1 :
    let s : State := tKeyed
    let k : KBlock := tTag 8 { basin := 0, payload := 0 }
    (s.runsKeyed 8 k = true) ∧
    (kZeroFrom k 0 = true) ∧
    (s.anyBound = false) := by refine ⟨tTag_runs (by decide +kernel), ?_, ?_⟩ <;> decide +kernel

theorem witness_Zeroize_1_2 :
    let s : State := { tKeyed with basins := [(0, { tBasin with desc := { tDesc with width := 1 } })], cores := [(0, tCore)] }
    let k : KBlock := tTag 8 { basin := 0, payload := 0 }
    (s.runsKeyed 8 k = true) ∧
    (kZeroFrom k 0 = true) ∧
    (s.anyBound = true) := by refine ⟨tTag_runs (by decide +kernel), ?_, ?_⟩ <;> decide +kernel

theorem leBytes_length (n v : Nat) : (leBytes n v).length = n := by
  induction n generalizing v with
  | zero => rfl
  | succ n ih => simp [leBytes, ih]

theorem leBytes_drop (n o v : Nat) : (leBytes (o + n) v).drop o = leBytes n (v / 256 ^ o) := by
  induction o generalizing v with
  | zero => simp
  | succ o ih =>
    rw [show o + 1 + n = o + n + 1 by omega]
    simp only [leBytes, List.drop_succ_cons, ih, Nat.div_div_eq_div_mul, Nat.pow_succ, Nat.mul_comm]

theorem leBytes_zero (n a : Nat) : leBytes n (256 ^ n * a) = leBytes n 0 := by
  induction n with
  | zero => rfl
  | succ n ih =>
    rw [Nat.pow_succ, Nat.mul_comm (256 ^ n), Nat.mul_assoc]
    simp only [leBytes, Nat.mul_div_cancel_left _ (by decide : 0 < 256), Nat.zero_div, ih, List.cons.injEq, and_true]
    apply BitVec.eq_of_toNat_eq
    simp only [BitVec.toNat_ofNat]
    omega

theorem leBytes_take (m n v : Nat) : (leBytes (m + n) v).take m = leBytes m v := by
  induction m generalizing v with
  | zero => simp [leBytes]
  | succ m ih =>
    rw [show m + 1 + n = m + n + 1 by omega]
    simp only [leBytes, List.take_succ_cons, ih]

theorem aesExpand_words (n i : Nat) (rc : Byte) (l : List (List Byte)) (h8 : 8 ≤ l.length) (h4 : ∀ w ∈ l, w.length = 4) :
    (aesExpand n i rc l).length = l.length + n ∧ ∀ w ∈ aesExpand n i rc l, w.length = 4 := by
  induction n generalizing i rc l with
  | zero => exact ⟨rfl, h4⟩
  | succ n ih =>
    have hp : (l.headD []).length = 4 := by
      cases l with
      | nil => simp at h8
      | cons a l => exact h4 a (by simp)
    have h7 : (l.getD 7 []).length = 4 := by
      have h : 7 < l.length := h8
      rw [List.getD_eq_getElem _ _ h]
      exact h4 _ (List.getElem_mem h)
    unfold aesExpand
    refine (fun h => ⟨by rw [h.1]; simp; omega, h.2⟩) (ih _ _ _ ?_ ?_)
    · simp; omega
    · intro w hw
      rcases List.mem_cons.mp hw with rfl | hw
      · split
        · simp only [List.length_zipWith, h7, List.length_map, List.length_append, List.length_drop, List.length_take, hp]
          rfl
        · split
          · simp only [List.length_zipWith, h7, List.length_map, hp]; rfl
          · simp only [List.length_zipWith, h7, hp]; rfl
      · exact h4 w hw

theorem aesKeys_last {key : List Byte} (h : key.length = 32) : ((aesKeys key).getD 14 []).length = 16 := by
  have h0 : ((List.range 8).map fun i => (key.drop (4 * i)).take 4).reverse.length = 8 := by simp
  have hw := aesExpand_words 52 8 1 ((List.range 8).map fun i => (key.drop (4 * i)).take 4).reverse (by simp) (by
    intro w hw
    simp only [List.mem_reverse, List.mem_map, List.mem_range] at hw
    obtain ⟨i, hi, rfl⟩ := hw
    simp only [List.length_take, List.length_drop, h]
    omega)
  rw [h0] at hw
  unfold aesKeys
  dsimp only
  generalize aesExpand 52 8 1 ((List.range 8).map fun i => (key.drop (4 * i)).take 4).reverse = all at hw
  have hk : ((List.range 15).map fun r => ((all.reverse.drop (4 * r)).take 4).flatten).getD 14 [] =
      ((all.reverse.drop 56).take 4).flatten := by
    simp [List.getD_eq_getElem?_getD]
  rw [hk]
  have h4 : ((all.reverse.drop 56).take 4).length = 4 := by simp [hw.1]
  have hm : ∀ w ∈ (all.reverse.drop 56).take 4, w.length = 4 := fun w hx =>
    hw.2 w (List.mem_reverse.mp (List.mem_of_mem_drop (List.mem_of_mem_take hx)))
  generalize (all.reverse.drop 56).take 4 = q at h4 hm
  match q, h4 with
  | [a, b, c, d], _ =>
    have ha := hm a (by simp)
    have hb := hm b (by simp)
    have hc := hm c (by simp)
    have hd := hm d (by simp)
    simp [ha, hb, hc, hd]

/-- The tag of a message under AES-256-GCM. -/
def tGcmTag (key iv aad ct : List Byte) : List Byte :=
  let keys := aesKeys key
  let h := BitVec.ofNat 128 (beNat (aesBlock keys (List.replicate 16 0)))
  let len := BitVec.ofNat 128 (8 * aad.length * 2 ^ 64 + 8 * ct.length)
  let s := gHash h (gBlocks aad.length aad ++ gBlocks ct.length ct ++ [len])
  List.zipWith (· ^^^ ·) (beBytes 16 s.toNat) (aesBlock keys (iv ++ beBytes 4 1))

theorem gcmOpen_tag (key iv aad ct : List Byte) : ∃ p, gcmOpen key iv aad ct (tGcmTag key iv aad ct) = some p := by
  simp only [gcmOpen, tGcmTag, if_true]
  exact ⟨_, rfl⟩

theorem tGcmTag_length {key : List Byte} (h : key.length = 32) (iv aad ct : List Byte) : (tGcmTag key iv aad ct).length = 16 := by
  simp only [tGcmTag, beBytes, List.length_zipWith, List.length_reverse, leBytes_length, aesBlock, aesShift, List.length_map,
    List.length_range, aesKeys_last h, Nat.min_self]

/-- The first 16 bytes of a KEY_ROTATE of counter 1. -/
def tAad : List Byte := [6, 0] ++ vecBytes (0 : BitVec 48) ++ vecBytes (1 : BitVec 64)

/-- The tag that wraps 48 zero bytes under the key of `tKeyed`. -/
def tWrapTag : List Byte :=
  tGcmTag (kdf (vecBytes (7 : BitVec 384)) "kq-wrap" (vecBytes (0 : BitVec 64) ++ vecBytes (1 : BitVec 64)) 256)
    (leBytes 12 0) tAad (leBytes 48 0)

theorem tWrapTag_length : tWrapTag.length = 16 := by
  refine tGcmTag_length ?_ _ _ _
  unfold kdf hmac384
  rw [List.length_take, sha384_length]
  rfl

/-- A KEY_ROTATE of key `n` (0 or 1) to the secret that `tWrapTag` wraps. -/
def tRotate (n : Nat) : KBlock := { payload := BitVec.ofNat 1024 (n + 2 ^ 544 * leNat tWrapTag) }

theorem tRotate_nat {n : Nat} (h : n < 2) : (tTag 6 (tRotate n)).payload.toNat = n + 2 ^ 544 * leNat tWrapTag := by
  have hp : (tTag 6 (tRotate n)).payload = BitVec.ofNat 1024 (n + 2 ^ 544 * leNat tWrapTag) := rfl
  have hl := leNat_lt tWrapTag
  rw [tWrapTag_length] at hl
  rw [hp, BitVec.toNat_ofNat]
  generalize leNat tWrapTag = a at hl
  omega

theorem tRotate_bytes (n o m : Nat) (h : n < 2) (ho : o + m ≤ 128) :
    kBytesAt (tTag 6 (tRotate n)) o m = leBytes m ((n + 2 ^ 544 * leNat tWrapTag) / 256 ^ o) := by
  unfold kBytesAt vecBytes
  rw [tRotate_nat h, show 1024 / 8 = o + (m + (128 - o - m)) by omega, leBytes_drop, leBytes_take]

theorem tRotate_unwraps (n : Nat) (h : n < 2) : ∃ v, tKeyed.unwrap 7 (tTag 6 (tRotate n)) = some v := by
  have h1 := tRotate_bytes n 8 12 h (by decide)
  have h2 := tRotate_bytes n 20 48 h (by decide)
  have h3 := tRotate_bytes n 68 16 h (by decide)
  have hw : tKeyed.wrapKey 7 (tTag 6 (tRotate n)) =
      kdf (vecBytes (7 : BitVec 384)) "kq-wrap" (vecBytes (0 : BitVec 64) ++ vecBytes (1 : BitVec 64)) 256 := rfl
  have ha : (kHead (tTag 6 (tRotate n)) 6).take 16 = tAad := by
    unfold kHead
    rw [List.take_append_of_le_length (by simp [vecBytes, leBytes_length])]
    rfl
  have e (a : Nat) : (n + 2 ^ 544 * a) / 256 ^ 8 = 256 ^ 12 * (256 ^ 48 * a) ∧ (n + 2 ^ 544 * a) / 256 ^ 20 = 256 ^ 48 * a ∧
      (n + 2 ^ 544 * a) / 256 ^ 68 = a := by omega
  rw [(e _).1, leBytes_zero] at h1
  rw [(e _).2.1, leBytes_zero] at h2
  have e3 := leBytes_leNat tWrapTag
  rw [tWrapTag_length] at e3
  rw [(e _).2.2, e3] at h3
  unfold State.unwrap
  rw [h1, h2, h3, hw, ha]
  obtain ⟨p, hp⟩ := gcmOpen_tag (kdf (vecBytes (7 : BitVec 384)) "kq-wrap" (vecBytes (0 : BitVec 64) ++ vecBytes (1 : BitVec 64)) 256)
    (leBytes 12 0) tAad (leBytes 48 0)
  exact ⟨digestVec p, congrArg (Option.map digestVec) hp⟩

theorem tRotate_zero {n : Nat} (h : n < 2) : kZeroFrom (tTag 6 (tRotate n)) 84 = true := by
  have hl := leNat_lt tWrapTag
  rw [tWrapTag_length] at hl
  rw [kZeroFrom, tRotate_nat h]
  generalize leNat tWrapTag = a at hl
  exact decide_eq_true (by omega)

theorem tRotate_which {n : Nat} (h : n < 2) : kWord (tTag 6 (tRotate n)) 0 = n := by
  rw [kWord, tRotate_nat h]
  generalize leNat tWrapTag = a
  unfold bits
  omega

theorem witness_KeyCommands_rotates (n : Nat) (h : n < 2) :
    tKeyed.runsKeyed 6 (tTag 6 (tRotate n)) = true ∧ kWord (tTag 6 (tRotate n)) 0 = n ∧
      kZeroFrom (tTag 6 (tRotate n)) 84 = true ∧ ∃ v, tKeyed.unwrap (tKeyed.sec.cmdKey.getD 0) (tTag 6 (tRotate n)) = some v :=
  ⟨tTag_runs rfl, tRotate_which h, tRotate_zero h, tRotate_unwraps n h⟩


/-! ### An image that a launch takes -/

theorem getList_eq {α : Type} (d : α) (m : SMap α) (bs : List α) (k : Nat)
    (h : ∀ i, (hi : i < bs.length) → SMap.get d m (k + i) = bs[i]) : SMap.getList d m k bs.length = bs := by
  induction bs generalizing k with
  | nil => rfl
  | cons b bs ih =>
    simp only [List.length_cons, SMap.getList, List.cons.injEq]
    refine ⟨h 0 (by simp), ih (k + 1) fun i hi => ?_⟩
    have := h (i + 1) (by simpa using hi)
    rw [show k + 1 + i = k + (i + 1) by omega]
    simpa using this

theorem getList_setList {α : Type} [DecidableEq α] (d : α) (m : SMap α) (k : Nat) (bs : List α) :
    SMap.getList d (SMap.setList d m k bs) k bs.length = bs :=
  getList_eq d _ bs k fun i hi => by
    rw [SMap.get_setList, dif_pos (by omega)]
    congr 1; omega

/-- The payload of a test image. -/
def tPayload : List Byte := List.replicate 3584 0

/-- An image's first 64 bytes: MAGIC, HDR_VERSION 1, TYPE 2, SIZE 4096, KEY_INDEX 0xFF. -/
def tHdr : List Byte :=
  [0x45, 0x46, 0x42, 0x52, 1, 0, 2, 0, 0, 0x10, 0, 0] ++ List.replicate 12 0 ++ [0xFF] ++ List.replicate 39 0

/-- An image without a signature around a digest: a zero payload. -/
def tBytes (d : List Byte) : List Byte := (tHdr ++ d) ++ List.replicate 3984 0

theorem tBytes_late {d : List Byte} (h : d.length = 48) {off n : Nat} (h1 : 112 ≤ off) (h2 : off + n ≤ 512) :
    (((tBytes d).take 512).drop off).take n = List.replicate n 0 := by
  have hl : (tHdr ++ d).length = 112 := by rw [List.length_append, h]; rfl
  rw [List.drop_take, List.take_take, Nat.min_eq_left (by omega), tBytes, List.drop_append, hl,
    List.drop_eq_nil_of_le (by omega), List.nil_append, List.drop_replicate, List.take_replicate, Nat.min_eq_left (by omega)]

theorem tBytes_early {d : List Byte} {off n : Nat} (h2 : off + n ≤ 64) :
    (((tBytes d).take 512).drop off).take n = (tHdr.drop off).take n := by
  have hl : tHdr.length = 64 := rfl
  rw [List.drop_take, List.take_take, Nat.min_eq_left (by omega), tBytes, List.append_assoc, List.drop_append, hl,
    Nat.sub_eq_zero_of_le (by omega), List.drop_zero, List.take_append, List.length_drop, hl,
    Nat.sub_eq_zero_of_le (by omega), List.take_zero, List.append_nil]

theorem tBytes_ok {d : List Byte} (h : d.length = 48) (hd : sha384 tPayload = d) (x : Sec) (hx : x.ownerKeys = []) :
    x.imageOk (tBytes d) 4096 = true := by
  have hl : (tHdr ++ d).length = 112 := by rw [List.length_append, h]; rfl
  have hp : (tBytes d).drop 512 = tPayload := by
    rw [tBytes, List.drop_append, hl, List.drop_eq_nil_of_le (by omega), List.nil_append, List.drop_replicate]; rfl
  have hk : (((tBytes d).take 512).drop 0x40).take 48 = d := by
    rw [List.drop_take, List.take_take, Nat.min_eq_left (by omega), tBytes, List.append_assoc, List.drop_append,
      List.drop_eq_nil_of_le (by decide), List.nil_append, show (0x40 - tHdr.length) = 0 from rfl, List.drop_zero,
      List.take_append, ← h, List.take_length, Nat.sub_self, List.take_zero, List.append_nil]
  have e := fun (off n : Nat) (q : off + n ≤ 64) => @tBytes_early d off n q
  have l := fun (off n : Nat) (q1 : 112 ≤ off) (q2 : off + n ≤ 512) => @tBytes_late d h off n q1 q2
  have f := fun (off n : Nat) (q : off + n ≤ 64) => congrArg leNat (@tBytes_early d off n q)
  have g := fun (off n : Nat) (q1 : 112 ≤ off) (q2 : off + n ≤ 512) => congrArg leNat (@tBytes_late d h off n q1 q2)
  simp only [Sec.imageOk, hp, hd, hdrBytes, hk, hdrValid, hdrField, Sec.ownerAccepts, hx, List.isEmpty_nil, Bool.true_or,
    f 0 4 (by decide), f 4 2 (by decide), f 0x0D 3 (by decide), f 0x19 39 (by decide), g 0xD0 48 (by decide) (by decide),
    g 0x160 160 (by decide) (by decide), f 6 2 (by decide), f 8 4 (by decide), f 0x0C 1 (by decide), f 0x10 8 (by decide),
    f 0x18 1 (by decide), tBytes_late h (show 112 ≤ 0x70 by decide) (show 0x70 + 96 ≤ 512 by decide),
    tBytes_late h (show 112 ≤ 0x100 by decide) (show 0x100 + 96 ≤ 512 by decide)]
  generalize hdrSigned _ = y
  cases y <;> decide +kernel
/-- The memory of a basin with the test image at its start. -/
@[irreducible] def tMem : SMap Byte := SMap.setList 0 [] 0 (tBytes (sha384 tPayload))

theorem tAuth {s : State} {b : Nat} (h1 : s.sec.fips = .operational) (h2 : s.sec.ownerKeys = []) (h3 : (s.basin b).imageBa = 0)
    (h4 : (s.basin b).imageBytes = 4096) (h5 : (s.basin b).memPoisoned 0 4096 = false) (h6 : (s.basin b).mem = tMem) :
    s.imageAuth b = true := by
  have h := tBytes_ok (sha384_length tPayload) rfl s.sec h2
  generalize sha384_length tPayload = q at h
  have hl : (tBytes (sha384 tPayload)).length = 4096 := by
    rw [tBytes, List.length_append, List.length_append, q, List.length_replicate, show tHdr.length = 64 from rfl]
  have hm : (s.basin b).readMem 0 4096 = tBytes (sha384 tPayload) := by
    unfold Basin.readMem
    rw [h6]
    unfold tMem
    have hg := getList_setList (0 : Byte) [] 0 (tBytes (sha384 tPayload))
    generalize tBytes (sha384 tPayload) = bs at hg hl ⊢
    rw [← hl]
    exact hg
  rw [State.imageAuth, h3, h4, h5, hm, h, h1]; rfl

/-- An image for core 0 alone, with one closing checkpoint segment. -/
def tImg2 : Image :=
  { col := 0, row := 0, width := 1, height := 1
    cores := [{ index := 0, base := 0x1000, size := 0x1000, entryA := 0x1000, entryX := 0x1008 }]
    segs := [(0, (0x1000000001, 0x100000000))] }

/-- An IDLE basin whose launch block names the test image. -/
def tLaunch : State :=
  { tKeyed with
    link := { up := true, attach := 1 }
    basins := [(0, { phase := .idle, desc := tDesc, launchBlock := [(1, 4096)], mem := tMem })], cores := tOne {} }

theorem tOneBasin {s : State} {x : Basin} (h : s.basins = [(0, x)]) (f : Basin → Prop) (h0 : f x) (h1 : f {}) (b : Nat) :
    f (s.basin b) := by
  simp only [State.basin, h, SMap.get]
  split <;> assumption
theorem witness_LaunchWrites_1 :
    let s : State := { tReady with basins := [(0, { phase := .idle, launchStatus := 2 })], cores := tOne tCore }
    let b : Nat := 0
    (s.hostReaches = true) ∧
    ((s.basin b).phase ≠ .free) ∧
    ((s.basin b).launchStatus = 0x02) := by decide +kernel

theorem witness_LaunchWrites_1_2 :
    let s : State := { tReady with basins := [(0, { phase := .idle })], cores := tOne tCore, mgmt := { phase := .ready, gap := true } }
    let b : Nat := 0
    (s.hostReaches = true) ∧
    ((s.basin b).phase ≠ .free) ∧
    ((s.basin b).launchStatus ≠ 0x02 ∧ s.mgmt.gap = true) := by decide +kernel

theorem witness_LaunchWrites_1_3 :
    let s : State := { tReady with basins := [(0, { phase := .running })], cores := tOne tCore }
    let b : Nat := 0
    let resume : Bool := false
    let img : Option Image := none
    (s.hostReaches = true) ∧
    ((s.basin b).phase ≠ .free) ∧
    let s1 := s.updBasin b fun v => { v with launchOp := if resume then 2 else 1, launchStatus := 0x02 }
    ((s.basin b).launchStatus ≠ 0x02 ∧ s.mgmt.gap = false ∧ s1.launchRefusal b resume img = some (0x03, none)) := by decide +kernel

theorem witness_LaunchWrites_1_4 :
    let s : State := tLaunch
    let b : Nat := 0
    let resume : Bool := false
    let img : Option Image := some tImg2
    (s.hostReaches = true) ∧
    ((s.basin b).phase ≠ .free) ∧
    let s1 := s.updBasin b fun v => { v with launchOp := if resume then 2 else 1, launchStatus := 0x02 }
    ((s.basin b).launchStatus ≠ 0x02 ∧ s.mgmt.gap = false ∧ (s.basin b).loads resume = true ∧ 0 ∈ s.liveCores b) ∧
    (s1.launchRefusal b resume img = none) := by
  refine ⟨by decide +kernel, by decide +kernel, by decide +kernel, ?_⟩
  have ha : (tLaunch.updBasin 0 fun v => { v with launchOp := 1, launchStatus := 0x02 }).imageAuth 0 = true :=
    tAuth rfl rfl rfl rfl rfl rfl
  simp only [State.launchRefusal, State.imageRefusal, Bool.false_eq_true, if_false, ha]
  decide +kernel

theorem witness_LaunchStarts_1 :
    let s : State := { tReady with basins := [(0, { phase := .idle, desc := tDesc, img := some tImg2, launchStatus := 2, launchBlock := [(4, 7), (11, 9)], launchOp := 1 })], cores := tOne tCore }
    let b : Nat := 0
    let m : Image := tImg2
    ((s.basin b).launchStatus = 0x02) ∧
    (s.startWaits b = false) ∧
    ((s.basin b).img = some m) ∧
    ((∀ b', (s.basin b').logShort = false)) ∧
    ((s.basin b).launchOp = 1 ∧ (s.basin b).phase = .idle ∧ (∀ c ∈ s.liveCores b, (s.core c).ringsBad = false) ∧ 0 ∈ s.liveCores b) := by refine ⟨?_, ?_, ?_, tOneBasin rfl (fun v => v.logShort = false) rfl rfl, ?_⟩ <;> decide +kernel

theorem witness_LaunchStarts_1_3 :
    let s : State := { tReady with basins := [(0, { phase := .idle, desc := tDesc, img := some tImg2, launchStatus := 2, launchBlock := [(4, 7), (11, 9)], launchOp := 1 })], cores := tOne { tCore with ring0 := 0x40000000006 } }
    let b : Nat := 0
    let m : Image := tImg2
    ((s.basin b).launchStatus = 0x02) ∧
    (s.startWaits b = false) ∧
    ((s.basin b).img = some m) ∧
    ((∀ b', (s.basin b').logShort = false)) ∧
    ((s.basin b).launchOp = 1 ∧ (s.basin b).phase = .idle ∧ ((s.liveCores b).filter fun c => (s.core c).ringsBad) = [0] ∧ (imgCore m ((s.basin b).desc.coreIndex 0)).isSome = true ∧ s.basinOf 0 = some b) := by refine ⟨?_, ?_, ?_, tOneBasin rfl (fun v => v.logShort = false) rfl rfl, ?_⟩ <;> decide +kernel

theorem witness_LaunchStarts_1_2 :
    let s : State := { tReady with basins := [(0, { phase := .idle, desc := tDesc, img := some tImg2, launchStatus := 2, launchBlock := [(4, 7), (11, 9)], launchOp := 2, ckpt := { valid := true, recs := [(0, { index := 0, aPc := 0x1008, xPc := 0x1010, aRegs := [(1, 7)], xRegs := [], aTags := 2, xTags := 0, flags := 5, seed := 9, xstat := true })] } })], cores := tOne tCore }
    let b : Nat := 0
    let m : Image := tImg2
    ((s.basin b).launchStatus = 0x02) ∧
    (s.startWaits b = false) ∧
    ((s.basin b).img = some m) ∧
    ((∀ b', (s.basin b').logShort = false)) ∧
    ((s.basin b).launchOp = 2 ∧ (s.basin b).heldLost = false ∧ (s.basin b).phase.accepts true = true ∧ (∀ c ∈ s.liveCores b, (s.core c).ringsBad = false)) := by refine ⟨?_, ?_, ?_, tOneBasin rfl (fun v => v.logShort = false) rfl rfl, ?_⟩ <;> decide +kernel

theorem witness_HostMemory_1 :
    let s : State := { tReady with basins := [(63, tBasin)] }
    let path : MemPath := .bar4
    let b : Nat := 63
    let off : Nat := 0x7FFFC0
    let n : Nat := 64
    (s.hostReaches = true) ∧
    (s.pathOpen path = true) ∧
    (b < 64) ∧
    (off < windowBytes) ∧
    let ba := (s.basin b).winBase * 0x200000 + off
    (s.accessBad b ba n = false ∧ (∀ q ∈ s.hostQ, q.basin ≠ b) ∧ (s.askPages b (span 64 ba n) false).2 = true ∧ s.readHeld b ba n = false) := by decide +kernel

theorem witness_HostMemory_1_3 :
    let s : State := { tReady with basins := [(63, tBasin)], hostQ := [{ basin := 63, ba := 0 }] }
    let path : MemPath := .bar4
    let b : Nat := 63
    let off : Nat := 0x7FFFC0
    let n : Nat := 64
    (s.hostReaches = true) ∧
    (s.pathOpen path = true) ∧
    (b < 64) ∧
    (off < windowBytes) ∧
    let ba := (s.basin b).winBase * 0x200000 + off
    (s.accessBad b ba n = false ∧ (s.hostQ.any fun q => decide (q.basin = b)) = true) := by decide +kernel

theorem witness_HostMemory_1_2 :
    let s : State := { tReady with basins := [(63, tBasin)] }
    let path : MemPath := .bar4
    let b : Nat := 63
    let off : Nat := 0x7FFFC1
    let n : Nat := 64
    (s.hostReaches = true) ∧
    (s.pathOpen path = true) ∧
    (b < 64) ∧
    (off < windowBytes) ∧
    let ba := (s.basin b).winBase * 0x200000 + off
    (s.accessBad b ba n = true) := by decide +kernel

theorem witness_HostMemory_2 :
    let s : State := { tReady with basins := [(63, tBasin)] }
    let path : MemPath := .bar4
    let b : Nat := 63
    let off : Nat := 0x7FFFFF
    let bs : List Byte := [7]
    (s.hostReaches = true) ∧
    (s.pathOpen path = true) ∧
    (b < 64) ∧
    (off < windowBytes) ∧
    let ba := (s.basin b).winBase * 0x200000 + off
    (s.accessBad b ba bs.length = false ∧ (∀ q ∈ s.hostQ, q.basin ≠ b) ∧ (let s1 := (s.hostPreps b (span 0x200000 ba bs.length)).1; s.hostPreps b (span 0x200000 ba bs.length) = (s1, .ready) ∧ s1.writeHeld b ba bs.length = false)) := by decide +kernel

theorem witness_HostMemory_2_3 :
    let s : State := { tReady with tier := { moves := [{ basin := 63, page := 0, cause := .eviction }] }, basins := [(63, { tBasin with desc := { tDesc with guarantee := 0, limit := 0 }, pages := [(0, { frame := some 5, toHost := some 0 })] })] }
    let path : MemPath := .bar4
    let b : Nat := 63
    let off : Nat := 0x7FFFFF
    let bs : List Byte := [7]
    (s.hostReaches = true) ∧
    (s.pathOpen path = true) ∧
    (b < 64) ∧
    (off < windowBytes) ∧
    let ba := (s.basin b).winBase * 0x200000 + off
    (s.accessBad b ba bs.length = false ∧ (∀ q ∈ s.hostQ, q.basin ≠ b) ∧ (let s1 := (s.hostPreps b (span 0x200000 ba bs.length)).1; s.hostPreps b (span 0x200000 ba bs.length) = (s1, .waits))) := by decide +kernel

theorem witness_HostMemory_2_2 :
    let s : State := { tReady with basins := [(63, tBasin)] }
    let path : MemPath := .bar4
    let b : Nat := 63
    let off : Nat := 0x800000
    let bs : List Byte := [7]
    (s.hostReaches = true) ∧
    (s.pathOpen path = true) ∧
    (b < 64) ∧
    (off < windowBytes) ∧
    let ba := (s.basin b).winBase * 0x200000 + off
    (s.accessBad b ba bs.length = true) := by decide +kernel

theorem witness_HostMemory_3 :
    let s : State := tReady
    (s.hostReaches = true) := by decide +kernel

theorem witness_HostControl_1 :
    let s : State := tRun tCore
    let b : Nat := 0
    let w : Word := 0x300000103
    (s.hostReaches = true) ∧
    ((s.basin b).phase ≠ .free) ∧
    (w.getLsbD 0 = true ∧ (s.basin b).biasRun = none ∧ w.toNat / 2 ^ 8 % 2 ^ 24 ≠ 0 ∧ w.toNat / 2 ^ 32 + w.toNat / 2 ^ 8 % 2 ^ 24 ≤ (s.basin b).desc.baPages) := by decide +kernel

theorem witness_HostControl_1_2 :
    let s : State := { tReady with basins := [(0, { tBasin with biasRun := some (0, 1, true) })] }
    let b : Nat := 0
    let w : Word := 0x101
    (s.hostReaches = true) ∧
    ((s.basin b).phase ≠ .free) ∧
    (w.getLsbD 0 = true ∧ (s.basin b).biasRun.isSome = true) := by decide +kernel

theorem witness_HostControl_2 :
    let s : State := { tReady with basins := [(0, { tBasin with biasRun := some (0, 2, true) })] }
    let b : Nat := 0
    let first : Nat := 0
    let n : Nat := 2
    let toHost : Bool := true
    ((s.basin b).biasRun = some (first, n, toHost)) := by decide +kernel

theorem witness_HostControl_3 :
    let s : State := tReady
    let w : BitVec 32 := 7
    (s.hostReaches = true) ∧
    (w.toNat / 2 ^ 16 = s.link.devMajor) := by decide +kernel

theorem witness_HostControl_3_2 :
    let s : State := tRun tCore
    let w : BitVec 32 := 0x10000
    (s.hostReaches = true) ∧
    (w.toNat / 2 ^ 16 ≠ s.link.devMajor ∧ s.anyBound = true) := by decide +kernel

theorem witness_HostControl_3_3 :
    let s : State := tReady
    let w : BitVec 32 := 0x10000
    (s.hostReaches = true) ∧
    (w.toNat / 2 ^ 16 ≠ s.link.devMajor ∧ s.anyBound = false) := by decide +kernel

theorem witness_HostControl_4 :
    let s : State := { tReady with basins := [(0, { phase := .idle })], cores := tOne tCore }
    let b : Nat := 0
    (s.hostReaches = true) ∧
    ((s.basin b).phase = .idle) := by decide +kernel

theorem witness_HostControl_4_2 :
    let s : State := tRun tCore
    let b : Nat := 0
    (s.hostReaches = true) ∧
    ((s.basin b).phase ≠ .idle ∧ (s.basin b).phase ≠ .parked) := by decide +kernel

theorem witness_HostControl_5 :
    let s : State := { tReady with pf0Msix := [(63, { pending := true, addr := 8, data := 9 })] }
    let v : Nat := 63
    (s.hostReaches = true) ∧
    (v < 64) ∧
    ((s.msixOf .pf0 v).pending = true) := by decide +kernel

theorem witness_ResetsAndLink_1 :
    let s : State := tRun tCore
    let b : Nat := 0
    (s.hostReaches = true) ∧
    ((s.basin b).phase ≠ .free) ∧
    ((s.basin b).phase ≠ .unbinding) ∧
    ((s.basin b).phase ≠ .binding) ∧
    ((s.basin b).fencePending = []) ∧
    ((s.anyDue b && s.canTest) = false) ∧
    ((s.basin b).pendingRebind = none) := by decide +kernel

theorem witness_ResetsAndLink_2 :
    let s : State := tRun tCore
    (s.hostReaches = true) := by decide +kernel

theorem witness_ResetsAndLink_3 :
    let s : State := tReady
    (s.mgmt.phase ≠ .inReset) := by decide +kernel

theorem witness_ResetsAndLink_4 :
    let s : State := { tReady with mgmt := { tReady.mgmt with perst := true } }
    let cxl : Bool := true
    let width : Nat := 4
    let rate : Nat := 5
    (s.mgmt.phase ≠ .inReset) ∧
    (s.mgmt.perst = true) ∧
    (linkTrains cxl width rate = true) := by decide +kernel

theorem witness_ResetsAndLink_5 :
    let s : State := { tReady with link := { up := true, ideKeys := true } }
    (s.link.up = true) ∧
    (s.link.ideKeys = true) := by decide +kernel

theorem witness_ResetsAndLink_6 :
    let s : State := tReady
    let width : Nat := 1
    let rate : Nat := 1
    (s.link.up = true) ∧
    (linkTrains s.link.cxl width rate = true) := by decide +kernel

theorem witness_CollectiveCompletes_1 :
    let s : State := { tReady with basins := [(0, { tBasin with desc := { tDesc with qset := 0 }, img := some { tImg with grads := [], colls := [[0x20000000000d9, 0, 0, 0x4000000000]] }, colls := [{ step := 1 }] })], cores := [(0, tCore)], qps := [(256, { st := .rts })] }
    let s1 : State := ((s.storeParts 0 ((s.basin 0).collWrites (collRec [0x20000000000d9, 0, 0, 0x4000000000]) { step := 1 })).1)
    let b : Nat := 0
    let e : Nat := 0
    let r : CollRec := (collRec [0x20000000000d9, 0, 0, 0x4000000000])
    let c : Coll := { step := 1 }
    ((s.basin b).phase = .running) ∧
    ((s.basin b).coll e = some c) ∧
    ((s.basin b).collTable[e]? = some r) ∧
    (s.collDone b e = true) ∧
    let ws := (s.basin b).collWrites r c
    (s.storeParts b ws = (s1, .ready)) ∧
    (r.op ≠ opSend) := by decide +kernel

theorem witness_CollectiveCompletes_1_2 :
    let s : State := { tReady with basins := [(0, { tBasin with desc := { tDesc with qset := 0 }, img := some { tImg with grads := [], colls := [[0x20000000000d7, 0, 0, 0x4000000000]] }, colls := [{ sends := 1 }] })], cores := [(0, tCore)], qps := [(256, { st := .rts })] }
    let s1 : State := ((s.storeParts 0 ((s.basin 0).collWrites (collRec [0x20000000000d7, 0, 0, 0x4000000000]) { sends := 1 })).1)
    let b : Nat := 0
    let e : Nat := 0
    let r : CollRec := (collRec [0x20000000000d7, 0, 0, 0x4000000000])
    let c : Coll := { sends := 1 }
    ((s.basin b).phase = .running) ∧
    ((s.basin b).coll e = some c) ∧
    ((s.basin b).collTable[e]? = some r) ∧
    (s.collDone b e = true) ∧
    let ws := (s.basin b).collWrites r c
    (s.storeParts b ws = (s1, .ready)) ∧
    (r.op = opSend) := by decide +kernel


theorem tGroup3 (g : Nat) (h : (8 : BitVec 4).getLsbD g = true) :
    (SMap.get ({} : EthGroup) [(3, { mode := 1, link := true, ecnEn := true })] g).ecnEn = true := by
  by_cases h4 : g < 4
  · exact (by decide +kernel : ∀ g < 4, (8 : BitVec 4).getLsbD g = true →
      (SMap.get ({} : EthGroup) [(3, { mode := 1, link := true, ecnEn := true })] g).ecnEn = true) g h4 h
  · rw [BitVec.getLsbD_of_ge _ _ (by omega)] at h; exact absurd h (by decide)
theorem witness_TowpathHost_1 :
    let s : State := { tReady with basins := [(0, tBasin)] }
    let b : Nat := 0
    let n : Nat := 1
    (s.hostReaches = true) ∧
    ((s.basin b).boundQueue (16 + n) = false) := by decide +kernel

theorem witness_TowpathHost_2 :
    let s : State := { tReady with basins := [(0, { tBasin with tp := [(16, { items := [{ data := [7] }] })] })] }
    let b : Nat := 0
    let n : Nat := 0
    (s.hostReaches = true) ∧
    ((s.basin b).boundQueue (16 + n) = true) := by decide +kernel

theorem witness_TowpathHost_3 :
    let s : State := { tReady with basins := [(0, { tBasin with tp := [(16, { items := [{ data := [7] }] })] })] }
    let b : Nat := 0
    let n : Nat := 0
    let off : Nat := 56
    let len : Nat := 8
    (s.hostReaches = true) ∧
    ((s.basin b).boundQueue (16 + n) = true) ∧
    (off < 0x1000) ∧
    let q := s.queue b (16 + n)
    (q.items = [{ data := [7] }] ∧ off + len = 64 ∧ len ≠ 0) := by decide +kernel

theorem witness_TowpathHost_3_2 :
    let s : State := { tReady with basins := [(0, { tBasin with tp := [(16, { items := [{ data := [7] }] })] })] }
    let b : Nat := 0
    let n : Nat := 0
    let off : Nat := 0
    let len : Nat := 8
    (s.hostReaches = true) ∧
    ((s.basin b).boundQueue (16 + n) = true) ∧
    (off < 0x1000) ∧
    let q := s.queue b (16 + n)
    (q.items = [{ data := [7] }] ∧ off + len ≠ 64) := by decide +kernel

theorem witness_TowpathHost_3_3 :
    let s : State := { tReady with basins := [(0, tBasin)] }
    let b : Nat := 0
    let n : Nat := 0
    let off : Nat := 56
    (s.hostReaches = true) ∧
    ((s.basin b).boundQueue (16 + n) = true) ∧
    (off < 0x1000) ∧
    let q := s.queue b (16 + n)
    (q.items = []) := by decide +kernel

theorem witness_TowpathHost_4 :
    let s : State := { tReady with basins := [(0, tBasin)] }
    let b : Nat := 0
    let n : Nat := 0
    let off : Nat := 63
    let bs : List Byte := [7]
    (s.hostReaches = true) ∧
    (n < 16) ∧
    ((s.basin b).boundQueue n = true) ∧
    let q := s.queue b n
    (off + bs.length = 64 ∧ bs ≠ [] ∧ q.room ≠ 0) := by decide +kernel

theorem witness_TowpathHost_4_2 :
    let s : State := { tReady with basins := [(0, { tBasin with tp := [(0, { items := List.replicate 1024 {} })] })] }
    let b : Nat := 0
    let n : Nat := 0
    let off : Nat := 63
    let bs : List Byte := [7]
    (s.hostReaches = true) ∧
    (n < 16) ∧
    ((s.basin b).boundQueue n = true) ∧
    let q := s.queue b n
    (off + bs.length = 64 ∧ bs ≠ [] ∧ q.room = 0) := by decide +kernel

theorem witness_TowpathHost_4_3 :
    let s : State := { tReady with basins := [(0, { tBasin with tp := [(0, { items := List.replicate 1024 {} })] })] }
    let b : Nat := 0
    let n : Nat := 0
    let off : Nat := 0
    let bs : List Byte := [7]
    (s.hostReaches = true) ∧
    (n < 16) ∧
    ((s.basin b).boundQueue n = true) ∧
    (off + bs.length ≠ 64) := by decide +kernel

theorem witness_TowpathHost_5 :
    let s : State := { tReady with basins := [(0, tBasin)] }
    let b : Nat := 0
    let n : Nat := 0
    let i : Nat := 1023
    (s.hostReaches = true) ∧
    (n < 16) ∧
    ((s.basin b).boundQueue n = true) ∧
    (i < (s.queue b n).room) := by decide +kernel

theorem witness_TowpathHost_5_2 :
    let s : State := { tReady with basins := [(0, tBasin)] }
    let b : Nat := 0
    let n : Nat := 0
    let i : Nat := 1024
    (s.hostReaches = true) ∧
    (n < 16) ∧
    ((s.basin b).boundQueue n = true) ∧
    ((s.queue b n).room ≤ i) := by decide +kernel

theorem witness_TowpathHost_6 :
    let s : State := { tReady with basins := [(0, tBasin)] }
    let b : Nat := 0
    let j : Nat := 0
    (s.hostReaches = true) ∧
    ((s.basin b).boundQueue j = true) ∧
    (j < 16) := by decide +kernel

theorem witness_TowpathHost_6_2 :
    let s : State := { tReady with basins := [(0, { tBasin with tp := [(16, { items := [{ data := [7] }] })] })] }
    let b : Nat := 0
    let j : Nat := 16
    (s.hostReaches = true) ∧
    ((s.basin b).boundQueue j = true) ∧
    (16 ≤ j) := by decide +kernel

theorem witness_TowpathHost_7 :
    let s : State := { tReady with basins := [(0, { tBasin with tp := [(16, { items := [{ data := [7] }] })] })] }
    let b : Nat := 0
    let j : Nat := 16
    (s.hostReaches = true) ∧
    ((s.basin b).boundQueue j = true) := by decide +kernel

theorem witness_TowpathHost_8 :
    let s : State := { tReady with basins := [(0, { tBasin with tp := [(31, { items := [{ data := [7] }] })] })] }
    let b : Nat := 0
    (s.hostReaches = true) ∧
    ((s.basin b).phase ≠ .free) ∧
    ((∀ b', (s.basin b').logShort = false)) ∧
    ((s.basin b).phase = .running) := by refine ⟨?_, ?_, tOneBasin rfl (fun v => v.logShort = false) (by decide +kernel) rfl, ?_⟩ <;> decide +kernel

theorem witness_TowpathHost_9 :
    let s : State := { tReady with basins := [(0, { tBasin with tp := [(16, { items := [{ data := [7] }], timeoutUs := 1 })] })] }
    let b : Nat := 0
    let j : Nat := 16
    ((s.basin b).boundQueue j = true) ∧
    ((s.queue b j).timeoutUs ≠ 0) ∧
    ((s.queue b j).items ≠ []) ∧
    ((s.queue b j).idleFired = false) := by decide +kernel

theorem witness_TowpathHost_10 :
    let s : State := { tReady with basins := [(0, { tBasin with tp := [(16, { items := [{ data := [7] }] })] })] }
    let b : Nat := 0
    let j : Nat := 16
    ((s.basin b).boundQueue j = true) := by decide +kernel

theorem witness_EthernetGroups_1 :
    let s : State := tReady
    let n : Nat := 3
    let w : BitVec 32 := 1
    (s.hostReaches = true) ∧
    (n < 4) ∧
    (s.groupBusy n = false ∧ w.toNat % 4 ≠ (s.group n).mode) := by decide +kernel

theorem witness_EthernetGroups_1_2 :
    let s : State := { tReady with qps := [(2271, { st := .rts, groups := 8 })], eth := [(3, { mode := 1, link := true })] }
    let n : Nat := 3
    (s.hostReaches = true) ∧
    (n < 4) ∧
    (s.groupBusy n = true) := by decide +kernel

theorem witness_EthernetGroups_2 :
    let s : State := tReady
    let n : Nat := 3
    (s.hostReaches = true) ∧
    (n < 4) ∧
    (∀ e ∈ s.eth, e.2.recalBusy = true → e.1 = n) := by decide +kernel

theorem witness_EthernetGroups_3 :
    let s : State := { tReady with eth := [(3, { recalBusy := true })] }
    let n : Nat := 3
    ((s.group n).recalBusy = true) ∧
    ((s.group n).rxWait = []) := by decide +kernel

theorem witness_EthernetGroups_4 :
    let s : State := { tReady with eth := [(3, { mode := 2 })] }
    let n : Nat := 3
    (n < 4) ∧
    ((s.group n).mode = 1 ∨ (s.group n).mode = 2) := by decide +kernel

theorem witness_EthernetGroups_5 :
    let n : Nat := 3
    (n < 4) := by decide +kernel

theorem witness_EthernetGroups_6 :
    let s : State := { tReady with eth := [(3, { mode := 1, link := true, pfcEn := 0x80 })] }
    let n : Nat := 3
    let prio : Nat := 7
    (n < 4) ∧
    (prio < 8) ∧
    ((s.group n).mode = 1) ∧
    ((s.group n).link = true) ∧
    ((s.group n).pfcEn.getLsbD prio = true) ∧
    ((s.group n).recalBusy = false) := by decide +kernel

theorem witness_EthernetGroups_6_2 :
    let s : State := { tReady with eth := [(3, { mode := 1, link := true, pfcEn := 0x80, recalBusy := true })] }
    let n : Nat := 3
    let prio : Nat := 7
    (n < 4) ∧
    (prio < 8) ∧
    ((s.group n).mode = 1) ∧
    ((s.group n).link = true) ∧
    ((s.group n).pfcEn.getLsbD prio = true) ∧
    ((s.group n).recalBusy = true) := by decide +kernel

theorem witness_EthernetGroups_7 :
    let s : State := { tReady with eth := [(3, { mode := 1, link := true })] }
    let n : Nat := 3
    (n < 4) ∧
    ((s.group n).link = true) ∧
    ((s.group n).mode = 1) := by decide +kernel

theorem witness_QueuePairs_1 :
    let s : State := { tReady with qps := [(2271, { st := .rts, groups := 8, unacked := [(0xFFFFFF, [7], none), (0, [8], none)] })], eth := [(3, { mode := 1, link := true })] }
    let n : Nat := 2271
    let psn : Nat := 0xFFFFFF
    (isQpn n = true) ∧
    ((s.qp n).st = .rts) ∧
    (s.zynwin (s.qp n) = false) ∧
    ((∀ g gs, (s.qp n).groupList = g :: gs → (s.group g).recalBusy = false)) ∧
    ((s.qp n).groupList ≠ []) ∧
    ((s.qp n).unacked = [(psn, [7], none), (0, [8], none)] ∧ psn < 2 ^ 24 ∧ (psn + 1) % 2 ^ 24 = 0) ∧
    ((s.qp n).retries < (s.qp n).retryCnt) := by refine ⟨?_, ?_, ?_, by intro g gs h; cases h; decide +kernel, ?_, ?_, ?_⟩ <;> decide +kernel

theorem witness_QueuePairs_1_2 :
    let s : State := { tReady with qps := [(2271, { st := .rts, groups := 8, unacked := [(5, [7], none)], retries := 7 })], eth := [(3, { mode := 1, link := true })] }
    let n : Nat := 2271
    let psn : Nat := 6
    (isQpn n = true) ∧
    ((s.qp n).st = .rts) ∧
    (s.zynwin (s.qp n) = false) ∧
    ((∀ g gs, (s.qp n).groupList = g :: gs → (s.group g).recalBusy = false)) ∧
    ((s.qp n).groupList ≠ []) ∧
    (∀ e ∈ (s.qp n).unacked, e.1 ≠ psn) ∧
    (psn ≠ (s.qp n).txNext) := by refine ⟨?_, ?_, ?_, by intro g gs h; cases h; decide +kernel, ?_, ?_, ?_⟩ <;> decide +kernel

theorem witness_QueuePairs_1_3 :
    let s : State := { tReady with qps := [(2271, { st := .rts, groups := 8 })], eth := [(3, { mode := 1, link := true, ecnEn := true })] }
    let n : Nat := 2271
    (isQpn n = true) ∧
    ((s.qp n).st = .rts) ∧
    (s.zynwin (s.qp n) = false) ∧
    ((∀ g gs, (s.qp n).groupList = g :: gs → (s.group g).recalBusy = false)) ∧
    ((s.qp n).groupList ≠ []) ∧
    ((s.qp n).unacked = []) ∧
    (∀ g, (s.qp n).groups.getLsbD g = true → (s.group g).ecnEn = true) ∧
    ((s.qp n).cutAt = none) := by refine ⟨?_, ?_, ?_, by intro g gs h; cases h; decide +kernel, ?_, ?_, tGroup3, ?_⟩ <;> decide +kernel

theorem witness_QueuePairs_2 :
    let s : State := { tReady with qps := [(2271, { st := .rts, groups := 8, unacked := [(5, [7], none)], retries := 7 })], eth := [(3, { mode := 1, link := true })] }
    let n : Nat := 2271
    (isQpn n = true) ∧
    ((s.qp n).st = .rts) ∧
    (s.zynwin (s.qp n) = false) ∧
    ((s.qp n).unacked ≠ [] ∧ (s.qp n).retryCnt ≤ (s.qp n).retries) := by decide +kernel

theorem witness_QueuePairs_2_2 :
    let s : State := { tReady with qps := [(2271, { st := .rts, groups := 8, unacked := [(5, [7], none)], retries := 6 })], eth := [(3, { mode := 1, link := true })] }
    let n : Nat := 2271
    (isQpn n = true) ∧
    ((s.qp n).st = .rts) ∧
    (s.zynwin (s.qp n) = false) ∧
    ((s.qp n).unacked ≠ [] ∧ (s.qp n).retries < (s.qp n).retryCnt) := by decide +kernel

theorem witness_QueuePairs_2_3 :
    let s : State := { tReady with qps := [(2271, { st := .rts, groups := 8 })], eth := [(3, { mode := 1, link := true })] }
    let n : Nat := 2271
    (isQpn n = true) ∧
    ((s.qp n).st = .rts) ∧
    (s.zynwin (s.qp n) = false) ∧
    ((s.qp n).unacked = []) := by decide +kernel

theorem witness_QueuePairs_3 :
    let s : State := { tReady with qps := [(2271, { st := .rts, groups := 8 })], eth := [(3, { mode := 1, link := true, recalBusy := true })] }
    let n : Nat := 2271
    let g : Nat := 3
    let psn : Nat := 5
    let gs : List Nat := []
    let c : Instr := .remoteAccessNak 2271
    ((s.qp n).groupList = g :: gs) ∧
    ((s.group g).recalBusy = true) ∧
    (c = .ack n psn ∨ c = .psnSequenceNak n psn ∨ c = .remoteAccessNak n ∨ c = .cnpRx n) := by decide +kernel

theorem witness_QueuePairs_4 :
    let n : Nat := 2271
    (isQpn n = true) := by decide +kernel

theorem witness_QueuePairs_5 :
    let s : State := { tReady with basins := [(0, { tBasin with desc := { tDesc with qset := 62 } })] }
    let set : Nat := 62
    let i : Nat := 31
    (s.link.up = true) ∧
    (s.link.insecure = false) ∧
    (set < 63) ∧
    (i < 32) ∧
    (s.qsetOwner set = some 0 ∧ (s.basin 0).phase = .running) := by decide +kernel

theorem witness_QueuePairs_5_2 :
    let s : State := tReady
    let set : Nat := 62
    let i : Nat := 31
    let w : Word := 1
    (s.link.up = true) ∧
    (s.link.insecure = false) ∧
    (set < 63) ∧
    (i < 32) ∧
    (s.qsetOwner set = none) ∧
    (w.getLsbD 0 = true ∧ (s.qp (qpnOf set i)).st ≠ .rts) := by decide +kernel

theorem witness_QueuePairs_5_3 :
    let s : State := { tReady with qps := [(2271, { st := .rts, groups := 8 })], eth := [(3, { mode := 1, link := true })] }
    let set : Nat := 62
    let i : Nat := 31
    let w : Word := 0
    (s.link.up = true) ∧
    (s.link.insecure = false) ∧
    (set < 63) ∧
    (i < 32) ∧
    (s.qsetOwner set = none) ∧
    (w.getLsbD 0 = false) := by decide +kernel

theorem witness_PacketsAndFrames_1 :
    let s : State := { tReady with qps := [(2271, { st := .rts, groups := 8, localRkey := 9 })], eth := [(3, { mode := 1, link := true })], basins := [(0, { tBasin with desc := { tDesc with qset := 62 } })] }
    let p : RdmaPkt := { group := 3, qpn := 2271, psn := 0, rkey := 9, offset := 0, payload := [] }
    let b : Nat := 0
    (p.group < 4) ∧
    ((s.group p.group).mode = 1) ∧
    ((s.group p.group).link = true) ∧
    ((s.group p.group).recalBusy = false) ∧
    (isQpn p.qpn = true) ∧
    ((s.qp p.qpn).st = .rts) ∧
    ((s.qp p.qpn).groups.getLsbD p.group = true) ∧
    ((s.group p.group).hasRoom p.payload.length = true) ∧
    (s.qsetOwner (qsetOf p.qpn) = some b) ∧
    let q := s.qp p.qpn
    (p.psn = q.rxNext ∧ p.rkey = q.localRkey) ∧
    (p.offset + p.payload.length ≤ Config.recvRegion p.qpn) := by refine ⟨?_, ?_, ?_, ?_, ?_, ?_, ?_, ?_, ?_, ?_, Nat.zero_le _⟩ <;> decide +kernel

theorem witness_PacketsAndFrames_1_2 :
    let s : State := { tReady with qps := [(2271, { st := .rts, groups := 8, localRkey := 9 })], eth := [(3, { mode := 1, link := true })], basins := [(0, { tBasin with desc := { tDesc with qset := 62 } })] }
    let p : RdmaPkt := { group := 3, qpn := 2271, psn := 0, rkey := 8, offset := 0, payload := [] }
    let b : Nat := 0
    (p.group < 4) ∧
    ((s.group p.group).mode = 1) ∧
    ((s.group p.group).link = true) ∧
    ((s.group p.group).recalBusy = false) ∧
    (isQpn p.qpn = true) ∧
    ((s.qp p.qpn).st = .rts) ∧
    ((s.qp p.qpn).groups.getLsbD p.group = true) ∧
    ((s.group p.group).hasRoom p.payload.length = true) ∧
    (s.qsetOwner (qsetOf p.qpn) = some b) ∧
    let q := s.qp p.qpn
    (p.ce = false ∧ p.psn = q.rxNext ∧ p.rkey ≠ q.localRkey) := by decide +kernel

theorem witness_PacketsAndFrames_1_3 :
    let s : State := { tReady with qps := [(2271, { st := .rts, groups := 8, localRkey := 9 })], eth := [(3, { mode := 1, link := true })], basins := [(0, { tBasin with desc := { tDesc with qset := 62 } })] }
    let p : RdmaPkt := { group := 3, qpn := 2271, psn := 1, rkey := 9, offset := 0, payload := [] }
    let b : Nat := 0
    (p.group < 4) ∧
    ((s.group p.group).mode = 1) ∧
    ((s.group p.group).link = true) ∧
    ((s.group p.group).recalBusy = false) ∧
    (isQpn p.qpn = true) ∧
    ((s.qp p.qpn).st = .rts) ∧
    ((s.qp p.qpn).groups.getLsbD p.group = true) ∧
    ((s.group p.group).hasRoom p.payload.length = true) ∧
    (s.qsetOwner (qsetOf p.qpn) = some b) ∧
    let q := s.qp p.qpn
    (p.ce = false ∧ p.psn ≠ q.rxNext ∧ psnAhead p.psn q.rxNext = true) := by decide +kernel

theorem witness_PacketsAndFrames_1_4 :
    let s : State := { tReady with qps := [(2271, { st := .rts, groups := 8, localRkey := 9, rxNext := 1 })], eth := [(3, { mode := 1, link := true })], basins := [(0, { tBasin with desc := { tDesc with qset := 62 } })] }
    let p : RdmaPkt := { group := 3, qpn := 2271, psn := 0, rkey := 9, offset := 0, payload := [] }
    let b : Nat := 0
    (p.group < 4) ∧
    ((s.group p.group).mode = 1) ∧
    ((s.group p.group).link = true) ∧
    ((s.group p.group).recalBusy = false) ∧
    (isQpn p.qpn = true) ∧
    ((s.qp p.qpn).st = .rts) ∧
    ((s.qp p.qpn).groups.getLsbD p.group = true) ∧
    ((s.group p.group).hasRoom p.payload.length = true) ∧
    (s.qsetOwner (qsetOf p.qpn) = some b) ∧
    let q := s.qp p.qpn
    (p.ce = false ∧ p.psn ≠ q.rxNext ∧ psnAhead p.psn q.rxNext = false) := by decide +kernel

theorem witness_PacketsAndFrames_2 :
    let s : State := { tReady with qps := [(2271, { st := .rts, groups := 8 })], eth := [(3, { mode := 1, link := true, recalBusy := true })] }
    let p : RdmaPkt := { group := 3, qpn := 2271, psn := 0, rkey := 9, offset := 0, payload := [] }
    (p.group < 4) ∧
    ((s.group p.group).mode = 1) ∧
    ((s.group p.group).link = true) ∧
    ((s.group p.group).recalBusy = true) := by decide +kernel

theorem witness_PacketsAndFrames_2_2 :
    let s : State := { tReady with qps := [(2271, { st := .rts, groups := 8 })], eth := [(3, { mode := 1, link := true, rxBuf := [(0, 2271, 4194304)] })] }
    let p : RdmaPkt := { group := 3, qpn := 2271, psn := 0, rkey := 9, offset := 0, payload := [7] }
    (p.group < 4) ∧
    ((s.group p.group).mode = 1) ∧
    ((s.group p.group).link = true) ∧
    ((s.group p.group).recalBusy = false ∧ isQpn p.qpn = true ∧ (s.qp p.qpn).st = .rts ∧ (s.qp p.qpn).groups.getLsbD p.group = true ∧ (s.group p.group).hasRoom p.payload.length = false) := by decide +kernel

theorem witness_PacketsAndFrames_3 :
    let s : State := { tReady with eth := [(3, { mode := 2, link := true, zynRx := 5 })] }
    let f : ZynFrame := { group := 3, seq := 6, crcOk := true, qpn := 256, payload := [] }
    (f.group < 4) ∧
    ((s.group f.group).mode = 2) ∧
    ((s.group f.group).link = true) ∧
    ((s.group f.group).zynRetraining = false) ∧
    ((s.group f.group).recalBusy = false) ∧
    ((s.group f.group).zynRx < f.seq) := by decide +kernel

theorem witness_PacketsAndFrames_3_2 :
    let s : State := { tReady with eth := [(3, { mode := 2, link := true, zynRx := 5 })] }
    let f : ZynFrame := { group := 3, seq := 5, crcOk := true, qpn := 256, payload := [] }
    (f.group < 4) ∧
    ((s.group f.group).mode = 2) ∧
    ((s.group f.group).link = true) ∧
    ((s.group f.group).zynRetraining = false) ∧
    ((s.group f.group).recalBusy = false) ∧
    (s.qsetOwner (qsetOf f.qpn) = none ∧ f.crcOk = true ∧ f.seq = (s.group f.group).zynRx) := by decide +kernel

theorem witness_PacketsAndFrames_3_3 :
    let s : State := { tReady with eth := [(3, { mode := 2, link := true, zynRx := 5 })] }
    let f : ZynFrame := { group := 3, seq := 4, crcOk := true, qpn := 256, payload := [] }
    (f.group < 4) ∧
    ((s.group f.group).mode = 2) ∧
    ((s.group f.group).link = true) ∧
    ((s.group f.group).zynRetraining = false) ∧
    ((s.group f.group).recalBusy = false) ∧
    (f.crcOk = true ∧ f.seq < (s.group f.group).zynRx) := by decide +kernel

theorem witness_PacketsAndFrames_3_4 :
    let s : State := { tReady with eth := [(3, { mode := 2, link := true, zynRx := 5 })] }
    let f : ZynFrame := { group := 3, seq := 5, crcOk := false, qpn := 256, payload := [] }
    (f.group < 4) ∧
    ((s.group f.group).mode = 2) ∧
    ((s.group f.group).link = true) ∧
    ((s.group f.group).zynRetraining = false) ∧
    ((s.group f.group).recalBusy = false) ∧
    (f.crcOk = false) := by decide +kernel

theorem witness_PacketsAndFrames_4 :
    let s : State := { tReady with eth := [(3, { mode := 2, link := true, zynAsked := 5, zynReplays := 7, zynTx := [(5, 256, [7], [])] })] }
    let n : Nat := 3
    let seq : Nat := 5
    (n < 4) ∧
    ((s.group n).mode = 2) ∧
    ((s.group n).link = true) ∧
    ((s.group n).zynRetraining = false) ∧
    ((s.group n).recalBusy = false) ∧
    let k := if seq = (s.group n).zynAsked then (s.group n).zynReplays + 1 else 1
    (8 ≤ k) := by decide +kernel

theorem witness_PacketsAndFrames_4_2 :
    let s : State := { tReady with eth := [(3, { mode := 2, link := true, zynAsked := 5, zynReplays := 6 })] }
    let n : Nat := 3
    let seq : Nat := 5
    (n < 4) ∧
    ((s.group n).mode = 2) ∧
    ((s.group n).link = true) ∧
    ((s.group n).zynRetraining = false) ∧
    ((s.group n).recalBusy = false) ∧
    let k := if seq = (s.group n).zynAsked then (s.group n).zynReplays + 1 else 1
    (k < 8) := by decide +kernel

theorem witness_PacketsAndFrames_5 :
    let s : State := { tReady with eth := [(3, { zynRetraining := true })] }
    let n : Nat := 3
    let ok : Bool := true
    ((s.group n).zynRetraining = true) ∧
    (ok = true) := by decide +kernel

theorem witness_PacketsAndFrames_5_2 :
    let s : State := { tReady with eth := [(3, { zynRetraining := true, zynRetrains := 1 })] }
    let n : Nat := 3
    let ok : Bool := false
    ((s.group n).zynRetraining = true) ∧
    (ok = false ∧ (s.group n).zynRetrains + 1 < 3) := by decide +kernel

theorem witness_PacketsAndFrames_5_3 :
    let s : State := { tReady with qps := [(2271, { st := .rts, groups := 8 })], eth := [(3, { zynRetraining := true, zynRetrains := 2 })] }
    let n : Nat := 3
    let ok : Bool := false
    ((s.group n).zynRetraining = true) ∧
    (ok = false ∧ 3 ≤ (s.group n).zynRetrains + 1 ∧ ∃ e ∈ s.qps, e.2 = s.qp e.1 ∧ e.2.groups.getLsbD n = true ∧ e.2.st = .rts) := by decide +kernel

theorem witness_PowerLimits_1 :
    let s : State := tReady
    let vin : Nat := 640
    let iin : Nat := 71
    (s.mgmt.phase ≠ .inReset) ∧
    (vin ≤ 640 ∧ (vin < 360 → s.power.low36 + 1 < 50)) ∧
    (iin < s.power.ilim) := by decide +kernel

theorem witness_PowerLimits_1_2 :
    let s : State := tReady
    let vin : Nat := 480
    let iin : Nat := 72
    (s.mgmt.phase ≠ .inReset) ∧
    (vin ≤ 640 ∧ (vin < 360 → s.power.low36 + 1 < 50)) ∧
    (s.power.ilim ≤ iin ∧ s.power.ilimNow = false) := by decide +kernel

theorem witness_PowerLimits_1_3 :
    let s : State := tReady
    let vin : Nat := 641
    (s.mgmt.phase ≠ .inReset) ∧
    (640 < vin) := by decide +kernel

theorem witness_PowerLimits_1_4 :
    let s : State := tReady
    let vin : Nat := 359
    (s.mgmt.phase ≠ .inReset) ∧
    (vin ≤ 640 ∧ (vin < 360 → s.power.low36 + 1 < 50)) := by decide +kernel

theorem witness_PowerLimits_2 :
    let s : State := { tReady with power := { tReady.power with ilimNow := true, gate := 11 } }
    (s.power.ilimNow = true) ∧
    (s.power.step0 = 2 ∧ s.power.step1 = 2) := by decide +kernel

theorem witness_PowerLimits_2_2 :
    let s : State := { tReady with power := { tReady.power with ilimNow := true, step0 := 2, step1 := 0 } }
    (s.power.ilimNow = true) ∧
    (s.power.step0 < 2 ∨ s.power.step1 < 2) := by decide +kernel

theorem witness_PowerLimits_3 :
    let s : State := { tReady with power := { tReady.power with limitNow := true, gate := 12 } }
    (s.power.limitNow = true) ∧
    (s.power.gate ≤ 12) ∧
    (s.power.step0 = 2 ∧ s.power.step1 = 2) := by decide +kernel

theorem witness_PowerLimits_3_2 :
    let s : State := { tReady with power := { tReady.power with limitNow := true, step0 := 1 } }
    (s.power.limitNow = true) ∧
    (s.power.gate ≤ 12) ∧
    (s.power.step0 < 2 ∨ s.power.step1 < 2) := by decide +kernel

theorem witness_PowerLimits_4 :
    let s : State := { tReady with power := { tReady.power with gate := 3, iin := 64 } }
    (s.latched = false) ∧
    (10 * s.power.iin < 9 * s.power.ilim) ∧
    (s.power.sum 10000 < 2700 * 100000) ∧
    (s.power.sum 1000000 < 2340 * 10000000) ∧
    (s.power.gate ≠ 0) := by decide +kernel

theorem witness_PowerLimits_5 :
    let s : State := tReady
    (s.hostReaches = true) ∧
    (s.mgmt.gap = false) := by decide +kernel

theorem witness_PowerLimits_5_2 :
    let s : State := { tReady with mgmt := { tReady.mgmt with gap := true } }
    (s.hostReaches = true) ∧
    (s.mgmt.gap = true) := by decide +kernel

theorem witness_Thermal_1 :
    let s : State := { tReady with power := { tReady.power with hot0 := 1 } }
    let d0 : Option Nat := some 104
    let d1 : Option Nat := some 104
    (s.mgmt.phase ≠ .inReset) ∧
    let t0 := d0.getD s.power.trip
    let t1 := d1.getD s.power.trip
    (t0 < s.power.emerg ∧ t1 < s.power.emerg ∧ s.power.emerg ≤ s.power.trip ∧ s.power.tripped = false) := by decide +kernel

theorem witness_Thermal_1_2 :
    let s : State := { tReady with power := { tReady.power with hot0 := 2, step0 := 0, step1 := 0 } }
    let d0 : Option Nat := some 105
    let d1 : Option Nat := some 104
    (s.mgmt.phase ≠ .inReset) ∧
    let t0 := d0.getD s.power.trip
    let t1 := d1.getD s.power.trip
    (s.power.emerg ≤ t0 ∧ s.power.hot0 = 2 ∧ s.power.hot1 = 0 ∧ t0 < s.power.trip ∧ t1 < s.power.emerg) ∧
    (s.power.emerg ≤ s.power.trip ∧ s.power.tripped = false) := by decide +kernel

theorem witness_Thermal_1_3 :
    let s : State := { tReady with power := { tReady.power with over0 := 2 }, basins := [(0, { tBasin with img := some { col := 0, row := 0, width := 1, height := 1 } })] }
    let d0 : Option Nat := none
    (s.mgmt.phase ≠ .inReset) ∧
    let t0 := d0.getD s.power.trip
    (s.power.trip ≤ t0 ∧ s.power.over0 = 2 ∧ s.power.tripped = false) := by decide +kernel

theorem witness_Thermal_1_4 :
    let s : State := { tReady with power := { tReady.power with tripped := true, thermN := true, clocksStopped := true } }
    let d0 : Option Nat := some 94
    let d1 : Option Nat := some 94
    (s.mgmt.phase ≠ .inReset) ∧
    let t0 := d0.getD s.power.trip
    let t1 := d1.getD s.power.trip
    (t0 + 20 < s.power.trip ∧ t1 + 20 < s.power.trip ∧ s.power.tripped = true ∧ s.power.refStop = false) := by decide +kernel

theorem witness_Thermal_2 :
    let s : State := { tReady with power := { tReady.power with thermalLatch := true, hot0 := 3 } }
    let thermal : Bool := true
    ((if thermal then s.power.thermalLatch else s.power.powerLatch) = true) ∧
    (s.causePresent thermal = true) := by decide +kernel

theorem witness_Thermal_2_2 :
    let s : State := { tReady with power := { tReady.power with powerLatch := true } }
    let thermal : Bool := false
    ((if thermal then s.power.thermalLatch else s.power.powerLatch) = true) ∧
    (s.causePresent thermal = false) := by decide +kernel

theorem witness_Thermal_3 :
    let s : State := tReady
    let v : Word := 0x5F0000
    (s.hostReaches = true) ∧
    (s.mgmt.gap = false) ∧
    (v.toNat / 2 ^ 16 % 2 ^ 8 ≤ 95 ∧ v.toNat / 2 ^ 16 % 2 ^ 8 < s.power.emerg) := by decide +kernel

theorem witness_Thermal_3_2 :
    let s : State := tReady
    let v : Word := 0x600000
    (s.hostReaches = true) ∧
    (s.mgmt.gap = false) ∧
    (95 < v.toNat / 2 ^ 16 % 2 ^ 8) := by decide +kernel

theorem witness_Thermal_4 :
    let s : State := tReady
    (s.rel.testing = []) := by decide +kernel

theorem witness_Clocks_1 :
    let s : State := { tReady with power := { tReady.power with step0 := 0, step1 := 2 } }
    let w0 : Nat := 1
    let lim : FwLimits := { ilim := some 41, emerg := some 80, trip := some 116 }
    (s.mgmt.phase = .ready) ∧
    (s.mgmt.gap = false) ∧
    (s.power.clocksStopped = false) ∧
    let p := s.power.tighten lim
    let t0 := p.target w0 p.step0 p.tj0
    (s.oneStep = false ∧ t0 ≠ s.power.step0 ∧ s.latched = false) := by decide +kernel

theorem witness_Clocks_1_3 :
    let s : State := { tReady with power := { tReady.power with tj0 := 100 }, basins := [(0, { tBasin with desc := { tDesc with originCol := 7, width := 2, baPages := 4 }, img := some { col := 7, row := 0, width := 2, height := 1, slots := [(31, (0, 0x60))] } })] }
    let w0 : Nat := 2
    let w1 : Nat := 1
    let lim : FwLimits := {}
    (s.mgmt.phase = .ready) ∧
    (s.mgmt.gap = false) ∧
    (s.power.clocksStopped = false) ∧
    let p := s.power.tighten lim
    let t0 := p.target w0 p.step0 p.tj0
    let t1 := p.target w1 p.step1 p.tj1
    let hot := p.throttle ≤ p.tj0 ∨ p.throttle ≤ p.tj1 ∨ s.launchHeld = true
    (s.oneStep = true ∧ t0 ≠ t1 ∧ hot) := by decide +kernel

theorem witness_Clocks_1_4 :
    let s : State := { tReady with power := { tReady.power with step0 := 0, step1 := 0 }, basins := [(0, { tBasin with desc := { tDesc with originCol := 7, width := 2, baPages := 4 }, img := some { col := 7, row := 0, width := 2, height := 1, slots := [(31, (0, 0x60))] } })] }
    let w0 : Nat := 2
    let w1 : Nat := 1
    let lim : FwLimits := {}
    (s.mgmt.phase = .ready) ∧
    (s.mgmt.gap = false) ∧
    (s.power.clocksStopped = false) ∧
    let p := s.power.tighten lim
    let t0 := p.target w0 p.step0 p.tj0
    let t1 := p.target w1 p.step1 p.tj1
    let hot := p.throttle ≤ p.tj0 ∨ p.throttle ≤ p.tj1 ∨ s.launchHeld = true
    (s.oneStep = true ∧ t0 ≠ t1 ∧ ¬hot) := by decide +kernel

theorem witness_Clocks_1_2 :
    let s : State := { tReady with power := { tReady.power with powerLatch := true } }
    (s.mgmt.phase = .ready) ∧
    (s.mgmt.gap = false) ∧
    (s.power.clocksStopped = false) ∧
    (s.oneStep = false ∧ s.latched = true) := by decide +kernel

theorem witness_Clocks_2 :
    let s : State := { tReady with power := { tReady.power with up0 := some 1, up1 := some 0 } }
    (s.power.clocksStopped = false) ∧
    (s.oneStep = false) := by decide +kernel

theorem witness_Clocks_3 :
    let s : State := { tReady with power := { tReady.power with step0 := 2, step1 := 2, up0 := some 1, up1 := some 1 }, basins := [(0, { tBasin with desc := { tDesc with originCol := 7, width := 2, baPages := 4 }, img := some { col := 7, row := 0, width := 2, height := 1, slots := [(31, (0, 0x60))] } })] }
    let die : Nat := 1
    (s.power.clocksStopped = false) ∧
    (s.oneStep = true) ∧
    let a := s.power.up0.getD s.power.step0
    let b := s.power.up1.getD s.power.step1
    ((if die = 0 then s.power.up0 else s.power.up1).isSome = true ∧ a = b) := by decide +kernel

theorem witness_Clocks_3_2 :
    let s : State := { tReady with power := { tReady.power with step0 := 2, step1 := 2, up0 := some 1, up1 := some 0 }, basins := [(0, { tBasin with desc := { tDesc with originCol := 7, width := 2, baPages := 4 }, img := some { col := 7, row := 0, width := 2, height := 1, slots := [(31, (0, 0x60))] } })] }
    (s.power.clocksStopped = false) ∧
    (s.oneStep = true) ∧
    let a := s.power.up0.getD s.power.step0
    let b := s.power.up1.getD s.power.step1
    (a ≠ b) := by decide +kernel

theorem witness_Clocks_4 :
    let s : State := { tReady with time0 := 32, time1 := 1008 }
    (s.power.step0 = s.power.step1) ∧
    (s.time0 % 16 = s.time1 % 16) ∧
    ((∀ e ∈ s.basins, s.keepsTime e.2 = false)) := by decide +kernel

theorem witness_Clocks_5 :
    let s : State := tReady
    (s.mgmt.phase ≠ .inReset) ∧
    (s.power.refLost = false) := by decide +kernel

theorem witness_Clocks_6 :
    let s : State := { tReady with power := { tReady.power with refLost := true, holdover := true }, basins := [(0, tBasin)] }
    (s.power.refLost = true) ∧
    (s.power.refStop = false) := by decide +kernel

theorem witness_Clocks_7 :
    let s : State := { tReady with power := { tReady.power with refLost := true, refStop := true, clocksStopped := true } }
    (s.power.refLost = true) ∧
    (s.power.refStop = true ∧ s.power.tripped = false) := by decide +kernel

theorem witness_Clocks_7_2 :
    let s : State := { tReady with power := { tReady.power with refLost := true, holdover := true } }
    (s.power.refLost = true) ∧
    (s.power.refStop = false) := by decide +kernel

theorem witness_Management_1 :
    let s : State := tReady
    let component : Nat := 5
    let cause : Nat := 4
    (s.mgmt.phase = .ready) ∧
    (s.mgmt.gap = false) ∧
    (component ≤ 5) ∧
    (1 ≤ cause) ∧
    (cause ≤ 4) := by decide +kernel

theorem witness_Management_1_2 :
    let s : State := { tReady with fwu := { tReady.fwu with state := 2, busy := true } }
    let component : Nat := 0
    let cause : Nat := 1
    (s.mgmt.phase = .ready) ∧
    (s.mgmt.gap = false) ∧
    (component ≤ 5) ∧
    (1 ≤ cause) ∧
    (cause ≤ 4) ∧
    (s.fwu.state = 1 ∨ s.fwu.state = 2) := by decide +kernel

theorem witness_Management_1_3 :
    let s : State := { tReady with mgmt := { tReady.mgmt with recoveries := [0, 600000000] }, usec := 600000000 }
    let component : Nat := 1
    let cause : Nat := 2
    (s.mgmt.phase = .ready) ∧
    (s.mgmt.gap = false) ∧
    (component ≤ 5) ∧
    (1 ≤ cause) ∧
    (cause ≤ 4) ∧
    ((s.mgmt.recoveries.filter fun u => decide (s.usec ≤ u + 600000000)).length = 2) := by decide +kernel

theorem witness_Management_2 :
    let s : State := { tReady with mgmt := { tReady.mgmt with unsettled := [(5, 3)] } }
    let e : Nat × Nat := (5, 3)
    let es : List (Nat × Nat) := []
    (s.mgmt.unsettled = e :: es) ∧
    (s.mgmt.gap = false) := by decide +kernel

theorem witness_Management_3 :
    let s : State := { tReady with mgmt := { tReady.mgmt with gap := true, recovering := true, gapUs := 70000000 } }
    (s.mgmt.gap = true) ∧
    (s.mgmt.activating = none ∨ s.mgmt.fallback = true) := by decide +kernel

theorem witness_Management_4 :
    let s : State := tReady
    (s.mgmt.phase = .ready) := by decide +kernel

theorem witness_Management_5 :
    let s : State := { tReady with mgmt := { tReady.mgmt with gap := true, activating := some (true, true) } }
    let slot : Bool := true
    let commit : Bool := true
    (s.mgmt.activating = some (slot, commit)) ∧
    (s.mgmt.gap = true) ∧
    (s.mgmt.fallback = false) ∧
    (s.mgmt.held = [] ∧ s.rel.gapQueue = []) := by decide +kernel

theorem witness_Management_6 :
    let s : State := { tReady with mgmt := { tReady.mgmt with gap := true, activating := some (true, false) } }
    (s.mgmt.gap = true) ∧
    (s.mgmt.activating.isSome = true) := by decide +kernel

theorem witness_PowerUp_1 :
    let s : State := State.reset
    let strap : Bool := true
    (s.mgmt.phase = .inReset) ∧
    (s.power.vin ≤ 640) ∧
    (s.power.undervoltage = false ∨ 400 < s.power.vin) ∧
    (strap = true) := by decide +kernel

theorem witness_PowerUp_1_2 :
    let s : State := State.reset
    let strap : Bool := false
    (s.mgmt.phase = .inReset) ∧
    (s.power.vin ≤ 640) ∧
    (s.power.undervoltage = false ∨ 400 < s.power.vin) ∧
    (strap = false) := by decide +kernel

theorem witness_PowerUp_1_3 :
    let s : State := State.reset
    let bad0 : Bool := true
    let bad1 : Bool := true
    (s.mgmt.phase = .inReset) ∧
    (s.power.vin ≤ 640) ∧
    (s.power.undervoltage = false ∨ 400 < s.power.vin) ∧
    (bad0 = true ∧ bad1 = true) := by decide +kernel

theorem witness_PowerUp_2 :
    let s : State := { tReady with mgmt := { tReady.mgmt with phase := .poweringUp }, rel := { tReady.rel with fenceTable := [(1, 2047)] } }
    (s.mgmt.phase = .poweringUp) ∧
    (s.mgmt.held = [] ∧ (1, 2047) ∈ s.rel.fenceTable) := by decide +kernel

theorem witness_PowerUp_3 :
    let s : State := tRun tCore
    (s.mgmt.pwrgood = true) := by decide +kernel

theorem witness_PowerUp_4 :
    let s : State := tRun tCore
    (s.mgmt.vioOk = true) := by decide +kernel


/-- A device that checks a block of one unit of zeros. -/
def tBlock : State :=
  let fwu : Fwu := { state := 1, busy := true, block := some (4096, 1), stageSlot := true, slotB := { st := .staging, size := 8192 } }
  { tReady with fwu := { fwu with crc := crc32c (SMap.getList 0 fwu.data 0 (4096 * 1)) } }

theorem tBlock_check : tBlock.blockCheck 4096 1 = none := by
  have h : crc32c (SMap.getList 0 tBlock.fwu.data 0 (4096 * 1)) = tBlock.fwu.crc := by
    rfl
  simp only [State.blockCheck, h, not_true_eq_false, ne_eq, if_false]
  decide +kernel

theorem witness_Quarry_1 :
    let s : State := { tReady with basins := [(0, { tBasin with phase := .idle })] }
    let c : Nat := 0
    (s.mgmt.phase = .ready) ∧
    (c < 2048) ∧
    ((s.core c).fenced = false) ∧
    (s.basinOf c = some 0 ∧ (s.basin 0).phase = .idle ∧ s.inTest 0 = false ∧ s.canTest = true ∧ 0 ∈ s.liveCores 0) := by decide +kernel

theorem witness_Quarry_2 :
    let s : State := { tReady with rel := { tReady.rel with testing := [0, 1], due := [1] }, cores := [(1, { sp := [(0, 5), (64, 6)], base := 64, size := 8 })] }
    let r : QuarryResult := { coreA := 0, coreB := 1 }
    (r.coreA ∈ s.rel.testing) ∧
    (r.failPhase ≤ 6) ∧
    (s.pairs r.coreA r.coreB = true) ∧
    (r.failPhase = 0 ∧ r.residue = []) := by decide +kernel

theorem witness_Quarry_3 :
    let s : State := tRun tCore
    let b : Nat := 0
    (s.mgmt.phase = .ready) ∧
    ((s.basin b).phase ≠ .free) := by decide +kernel

theorem witness_Quarry_4 :
    let s : State := { tReady with cores := [(3, { capsule := some { tCap with tile := tCap.recompute none } }), (9, tCore)] }
    let d : Nat := 3
    let k : Capsule := { tCap with tile := tCap.recompute none }
    let u : Option Upset := none
    ((s.core d).capsule = some k) ∧
    ((k.recompute u).agrees k.tile = true) := by decide +kernel

theorem witness_Quarry_4_2 :
    let s : State := { tReady with cores := [(3, { capsule := some tCap }), (9, tCore)] }
    let d : Nat := 3
    let k : Capsule := tCap
    let u : Option Upset := none
    let v : Option Upset := none
    ((s.core d).capsule = some k) ∧
    ((k.recompute u).agrees k.tile = false ∧ (k.recompute v).agrees (k.recompute u) = true ∧ (s.core k.core).hrec.latched = false) := by decide +kernel

theorem witness_Quarry_4_3 :
    let s : State := { tReady with cores := [(3, { capsule := some tCap }), (9, tCore)] }
    let d : Nat := 3
    let k : Capsule := tCap
    let u : Option Upset := none
    let v : Option Upset := some { index := 5, stage := .add, delta := 1 }
    ((s.core d).capsule = some k) ∧
    ((k.recompute u).agrees k.tile = false ∧ (k.recompute v).agrees (k.recompute u) = false) := by decide +kernel

theorem witness_Quarry_5 :
    let s : State := tReady
    (s.hostReaches = true) := by decide +kernel

theorem witness_FirmwareStaging_1 :
    let s : State := { tReady with fwu := { tReady.fwu with size := 8388608 } }
    (s.mgmt.phase = .ready) ∧
    (s.link.up = true) ∧
    (s.link.insecure = false) ∧
    (s.fwu.busy = false ∧ s.fwu.state ≠ 2 ∧ s.fwu.state ≠ 4 ∧ s.fwu.size % 4096 = 0) ∧
    (4096 ≤ s.fwu.size ∧ s.fwu.size ≤ 8388608) := by decide +kernel

theorem witness_FirmwareStaging_1_2 :
    let s : State := { tReady with fwu := { tReady.fwu with size := 4096, state := 2 } }
    (s.mgmt.phase = .ready) ∧
    (s.link.up = true) ∧
    (s.link.insecure = false) ∧
    (s.fwu.busy = true ∨ s.fwu.state = 2 ∨ s.fwu.state = 4) := by decide +kernel

theorem witness_FirmwareStaging_2 :
    let s : State := tReady
    (s.mgmt.phase = .ready) ∧
    (s.link.up = true) ∧
    (s.link.insecure = false) ∧
    (s.fwu.busy = false) := by decide +kernel

theorem witness_FirmwareStaging_2_2 :
    let s : State := { tReady with fwu := { tReady.fwu with busy := true } }
    (s.mgmt.phase = .ready) ∧
    (s.link.up = true) ∧
    (s.link.insecure = false) ∧
    (s.fwu.busy = true) := by decide +kernel

theorem witness_FirmwareStaging_3 :
    let s : State := { tReady with fwu := { tReady.fwu with state := 1, busy := true, block := some (4096, 0) } }
    let off : Nat := 4096
    let len : Nat := 0
    (s.fwu.block = some (off, len)) ∧
    ((s.blockCheck off len).isSome = true) := by decide +kernel

theorem witness_FirmwareStaging_3_2 :
    let s : State := tBlock
    let off : Nat := 4096
    let len : Nat := 1
    let ok : Bool := true
    (s.fwu.block = some (off, len)) ∧
    (s.blockCheck off len = none ∧ ok = true) := by
  exact ⟨by decide +kernel, tBlock_check, rfl⟩

theorem witness_FirmwareStaging_3_3 :
    let s : State := tBlock
    let off : Nat := 4096
    let len : Nat := 1
    let ok : Bool := false
    (s.fwu.block = some (off, len)) ∧
    (s.blockCheck off len = none ∧ ok = false) := by
  exact ⟨by decide +kernel, tBlock_check, rfl⟩

theorem witness_FirmwareStaging_4 :
    let s : State := { tReady with fwu := { tReady.fwu with state := 1, slotB := { st := .staging, size := 4096 }, stageSlot := true, units := [(0, true)] } }
    (s.mgmt.phase = .ready) ∧
    (s.link.up = true) ∧
    (s.link.insecure = false) ∧
    (s.fwu.busy = false) ∧
    (s.fwu.state = 1 ∨ s.fwu.state = 3) ∧
    ((s.slot s.fwu.stageSlot).size / 4096 ≤ s.fwu.units.length) := by decide +kernel

theorem witness_FirmwareStaging_4_2 :
    let s : State := { tReady with fwu := { tReady.fwu with state := 1, slotB := { st := .staging, size := 8192 }, stageSlot := true, units := [(0, true)] } }
    (s.mgmt.phase = .ready) ∧
    (s.link.up = true) ∧
    (s.link.insecure = false) ∧
    (s.fwu.busy = false) ∧
    (s.fwu.state = 1 ∨ s.fwu.state = 3) ∧
    (s.fwu.units.length < (s.slot s.fwu.stageSlot).size / 4096) := by decide +kernel

theorem witness_FirmwareStaging_5 :
    let s : State := { tReady with fwu := { tReady.fwu with state := 2, slotB := { st := .staging, size := 4 }, stageSlot := true }, sec := { tReady.sec with fips := .operational } }
    (s.fwu.state = 2) ∧
    (s.sec.fips = .operational) := by decide +kernel

theorem witness_FirmwareStaging_6 :
    let s : State := { tReady with fwu := { tReady.fwu with state := 3, slotB := { st := .verified, size := 4096 }, stageSlot := true } }
    (s.mgmt.phase = .ready) ∧
    (s.link.up = true) ∧
    (s.link.insecure = false) ∧
    (s.fwu.state = 1 ∨ s.fwu.state = 2 ∨ s.fwu.state = 3) := by decide +kernel

theorem witness_FirmwareStaging_7 :
    let s : State := { tReady with mgmt := { tReady.mgmt with phase := .recovery }, fwu := { tReady.fwu with state := 3, active := true }, sec := { tReady.sec with fips := .operational } }
    (s.mgmt.phase = .recovery) ∧
    (s.link.up = true) ∧
    (s.link.insecure = false) ∧
    (s.fwu.state = 3) ∧
    (s.sec.fips = .operational) ∧
    ((s.slot s.fwu.stageSlot).boots s.sec.svn = true) := by decide +kernel

theorem witness_SecurityServices_1 :
    let s : State := { tReady with sec := { tReady.sec with fips := .operational } }
    (s.hostReaches = true) ∧
    (s.sec.fips = .operational) := by decide +kernel

theorem witness_SecurityServices_3 :
    let s : State := { tReady with sec := { tReady.sec with fips := .operational, scope := 3 } }
    (s.hostReaches = true) := by decide +kernel

theorem witness_SecurityServices_4 :
    let s : State := { tReady with link := { up := true, ideKeys := true }, sec := { tReady.sec with fips := .operational } }
    (s.mgmt.phase ≠ .inReset) ∧
    (s.sec.fips ≠ .error) ∧
    (s.link.up = true ∧ s.link.ideKeys = true) := by decide +kernel

theorem witness_SecurityServices_4_2 :
    let s : State := { tReady with sec := { tReady.sec with fips := .operational } }
    (s.mgmt.phase ≠ .inReset) ∧
    (s.sec.fips ≠ .error) ∧
    (s.link.ideKeys = false) := by decide +kernel

theorem witness_SecurityServices_5 :
    let s : State := { tReady with sec := { tReady.sec with fips := .operational, sessionFn := some .pf0 } }
    let payload : List Byte := ([1, 0, 0, 0] ++ List.replicate 48 5)
    (s.hostReaches = true) ∧
    (s.sec.fips = .operational) ∧
    (s.setKeyStatus (.doe .pf0) true payload = 0) := by decide +kernel

theorem witness_SecurityServices_5_2 :
    let s : State := { tReady with sec := { tReady.sec with fips := .operational, sessionFn := some .pf0, cmdKey := some 1 } }
    (s.hostReaches = true) ∧
    (s.sec.fips = .operational) ∧
    (s.sec.cmdKey.isSome = true) := by decide +kernel

theorem witness_SecurityServices_6 :
    let s : State := { tReady with sec := { tReady.sec with fips := .operational }, side := { tReady.side with i3cAddr := some 9 } }
    let port : SpdmPort := .mctp
    let vendor : BitVec 16 := 5
    ((∀ f, s.toSpdm port f = f s)) ∧
    (port = .mctp ∨ vendor ≠ Config.vendorId) := by exact ⟨fun _ => rfl, Or.inl rfl⟩

theorem witness_SecurityServices_6_2 :
    let s : State := { tReady with sec := { tReady.sec with fips := .operational, sessionFn := some .pf0 } }
    let port : SpdmPort := .doe .pf0
    let vendor : BitVec 16 := Config.vendorId + 1
    ((∀ f, s.toSpdm port f = f s)) ∧
    (port = .mctp ∨ vendor ≠ Config.vendorId) := by exact ⟨fun _ => rfl, Or.inr (by bv_omega)⟩

theorem witness_SecurityServices_7 :
    let s : State := { tReady with sec := { tReady.sec with fips := .operational, sessionFn := some .pf0 } }
    let port : SpdmPort := .doe .pf0
    ((∀ f, s.toSpdm port f = f s)) ∧
    ((s.measurement port 3).isSome = true) := by exact ⟨fun _ => rfl, by decide +kernel⟩

theorem witness_SecurityServices_7_2 :
    let s : State := { tReady with sec := { tReady.sec with fips := .operational }, side := { tReady.side with i3cAddr := some 9 } }
    let port : SpdmPort := .mctp
    ((∀ f, s.toSpdm port f = f s)) ∧
    ((s.measurement port 200).isNone = true) := by exact ⟨fun _ => rfl, by decide +kernel⟩

theorem witness_SecurityServices_8 :
    let s : State := { tReady with sec := { tReady.sec with fips := .operational, sessionFn := some .pf0 } }
    (s.hostReaches = true) ∧
    (s.sec.fips = .operational) ∧
    (s.sec.sessionFn = some .pf0) := by decide +kernel

theorem witness_Sideband_1 :
    let s : State := tReady
    (s.mgmt.vioOk = true) ∧
    (s.mgmt.phase ≠ .inReset) := by decide +kernel

theorem witness_Sideband_2 :
    let s : State := tReady
    (s.mgmt.phase = .ready) ∧
    (s.mgmt.gap = false) := by decide +kernel

theorem witness_Sideband_4 :
    let s : State := { tReady with side := { tReady.side with i3cAddr := some 9 } }
    (s.i3cAnswers = true) := by decide +kernel

theorem witness_Sideband_5 :
    let s : State := { tReady with mgmt := { phase := .inReset, pwrgood := true, vioOk := false } }
    (s.i3cAnswers = false) := by decide +kernel

theorem witness_Sideband_6 :
    let s : State := tReady
    (s.mgmt.vioOk = true) := by decide +kernel

theorem witness_Counters_1 :
    let s : State := { tReady with pmc := { en := true, sizeLog2 := 24 } }
    (s.mgmt.phase ≠ .inReset) ∧
    (s.pmc.writing = none ∧ s.pmc.wait = none ∧ s.pmc.en = true ∧ recordBytes s.pmc.groups.toNat + s.pmc.unread ≤ s.pmc.size) := by decide +kernel

theorem witness_Counters_1_2 :
    let s : State := { tReady with pmc := { en := true, sizeLog2 := 16, wrOff := 65535 } }
    (s.mgmt.phase ≠ .inReset) ∧
    (s.pmc.writing = none ∧ s.pmc.wait = none ∧ s.pmc.en = true ∧ s.pmc.size < recordBytes s.pmc.groups.toNat + s.pmc.unread) := by decide +kernel

theorem witness_Counters_1_3 :
    let s : State := tReady
    (s.mgmt.phase ≠ .inReset) ∧
    (s.pmc.writing = none ∧ s.pmc.wait = none ∧ s.pmc.en = false) := by decide +kernel

theorem witness_Counters_2 :
    let s : State := { tReady with pmc := { en := true, sizeLog2 := 16, wrOff := 65535, writing := some [1, 2] } }
    let bs : List Byte := [1, 2]
    (s.pmc.writing = some bs) ∧
    (bs.length ≤ 2 ^ s.pmc.sizeLog2) := by decide +kernel

theorem witness_Counters_3 :
    let s : State := tReady
    let v : Word := 0x100001810FF
    (s.hostReaches = true) ∧
    (s.pmc.en = false ∨ max 16 (min 24 (v.toNat / 2 ^ 8 % 2 ^ 5)) = s.pmc.sizeLog2) := by decide +kernel

theorem witness_Counters_3_2 :
    let s : State := { tReady with pmc := { en := true } }
    let v : Word := 0x10000100FF
    (s.hostReaches = true) ∧
    (s.pmc.en = true ∧ max 16 (min 24 (v.toNat / 2 ^ 8 % 2 ^ 5)) ≠ s.pmc.sizeLog2) := by decide +kernel

theorem witness_Counters_4 :
    let s : State := { tReady with pmc := { sizeLog2 := 16, wrOff := 0, rdOff := 0xFFF8 } }
    let v : BitVec 32 := 0
    (s.hostReaches = true) ∧
    (v.toNat < s.pmc.size ∧ (v.toNat + s.pmc.size - s.pmc.rdOff % s.pmc.size) % s.pmc.size ≤ s.pmc.unread) := by decide +kernel

theorem witness_Counters_4_2 :
    let s : State := { tReady with pmc := { sizeLog2 := 16 } }
    let v : BitVec 32 := 0x10000
    (s.hostReaches = true) ∧
    (s.pmc.size ≤ v.toNat) := by decide +kernel

theorem witness_RegisterWrites_1 :
    let s : State := { tReady with basins := [(0, { tBasin with event := 0xFF })] }
    let b : Nat := 0
    (s.hostReaches = true) ∧
    (b < 64) ∧
    ((s.basin b).phase ≠ .free) ∧
    ((s.basin b).phase ≠ .idle ∧ (s.basin b).phase ≠ .parked) := by decide +kernel

theorem witness_RegisterWrites_1_2 :
    let s : State := { tReady with basins := [(63, { tBasin with phase := .parked })] }
    let b : Nat := 63
    (s.hostReaches = true) ∧
    (b < 64) ∧
    ((s.basin b).phase ≠ .free) ∧
    ((s.basin b).phase = .idle ∨ (s.basin b).phase = .parked) := by decide +kernel

theorem witness_RegisterWrites_1_3 :
    let s : State := { tReady with basins := [(0, { tBasin with tp := [(31, { timeoutUs := 5, notifyLevel := 7, depthLog2 := 10 })] })] }
    let b : Nat := 0
    (s.hostReaches = true) ∧
    (b < 64) ∧
    ((s.basin b).phase ≠ .free) ∧
    ((s.queue b 31).notifyLevel < 2 ^ 21 ∧ (s.queue b 31).vector < 32 ∧ (s.queue b 31).wantDepth = none ∧ 10 ≤ (s.queue b 31).depthLog2 ∧ (s.queue b 31).depthLog2 ≤ 20) := by decide +kernel

theorem witness_RegisterWrites_2 :
    let s : State := tReady
    (s.hostReaches = true) := by decide +kernel

theorem witness_RegisterWrites_3 :
    let s : State := tReady
    let v : BitVec 32 := 0xFF64503C
    (s.hostReaches = true) ∧
    (60 ≤ min 90 (v.toNat % 2 ^ 8) ∧ min 90 (v.toNat % 2 ^ 8) < min 95 (v.toNat / 2 ^ 8 % 2 ^ 8)) ∧
    (min 95 (v.toNat / 2 ^ 8 % 2 ^ 8) < min 100 (v.toNat / 2 ^ 16 % 2 ^ 8)) ∧
    (min 100 (v.toNat / 2 ^ 16 % 2 ^ 8) < min 105 (v.toNat / 2 ^ 24)) := by decide +kernel

theorem witness_RegisterWrites_3_2 :
    let s : State := tReady
    let v : BitVec 32 := 0x6964505A
    (s.hostReaches = true) ∧
    (min 95 (v.toNat / 2 ^ 8 % 2 ^ 8) ≤ min 90 (v.toNat % 2 ^ 8)) := by decide +kernel

theorem witness_RegisterWrites_5 :
    let s : State := tReady
    let n : Nat := 7
    (s.hostReaches = true) ∧
    (n < 8) ∧
    ((SMap.get 0 s.tier.ext (2 * n)).getLsbD 0 = false) := by decide +kernel

theorem witness_RegisterWrites_6 :
    let s : State := tReady
    let n : Nat := 7
    (s.hostReaches = true) ∧
    (n < 8) ∧
    ((∀ m, m < 8 → s.extentUsed m = false)) ∧
    ((SMap.get 0 s.tier.ext (2 * n)).getLsbD 0 = false) := by decide +kernel

theorem witness_RegisterWrites_6_2 :
    let s : State := { tReady with tier := { tReady.tier with ext := [(14, 0x200001)] } }
    let n : Nat := 7
    (s.hostReaches = true) ∧
    (n < 8) ∧
    ((∀ m, m < 8 → s.extentUsed m = false)) ∧
    ((SMap.get 0 s.tier.ext (2 * n)).getLsbD 0 = true) := by decide +kernel

theorem witness_RegisterWrites_4 :
    let s : State := { tReady with tier := { tReady.tier with ext := [(14, 1)] } }
    let n : Nat := 7
    (s.hostReaches = true) ∧
    (n < 8) ∧
    ((SMap.get 0 s.tier.ext (2 * n)).getLsbD 0 = true) := by decide +kernel

end Sys2Proof.Tests
end

/-! What a stop, a report and the tier engine's work leave as it was (02 R50; 09 R481; 14 R408). -/

namespace Sys2Proof.Machine

/-! ### The relation -/

/-- What a stop of a basin and the tier engine's work leave of a basin: its binding and its checkpoint; its program and its memory
where `keep` says so; and no pending fence or re-bind appears. -/
structure Basin.Calms (keep : Prop) (v w : Basin) : Prop where
  desc : w.desc = v.desc
  ckpt : w.ckpt = v.ckpt
  img : keep → w.img = v.img
  mem : keep → w.mem = v.mem
  fences : v.fencePending = [] → w.fencePending = []
  rebind : v.pendingRebind = none → w.pendingRebind = none

/-- What they leave of a core: its scratchpad, its fence and that it stands still. -/
structure Core.Calms (k l : Core) : Prop where
  sp : l.sp = k.sp
  fenced : k.fenced = true → l.fenced = true
  aStopped : k.a.stopped = true → l.a.stopped = true
  xStopped : k.x.stopped = true → l.x.stopped = true

/-- A state that comes from another by stops, moves of pages and reports: no core starts, no fence is lifted, no test, fence or
re-bind comes due; the basins of `P` keep their programs and their memory. -/
structure State.Calms (P : Nat → Prop) (s t : State) : Prop where
  basin : ∀ b, (s.basin b).Calms (P b) (t.basin b)
  core : ∀ c, (s.core c).Calms (t.core c)
  due : t.rel.due = s.rel.due
  canTest : t.canTest = s.canTest

/-- The parts of a basin that the relation speaks of. -/
def Basin.calmParts (v : Basin) : Desc × Ckpt × Option Image × SMap Byte × List (Nat × Nat) × Option Desc :=
  (v.desc, v.ckpt, v.img, v.mem, v.fencePending, v.pendingRebind)

/-- The parts of a state that the relation speaks of. -/
def State.calmParts (s : State) : SMap Basin × SMap Core × List Nat × Bool := (s.basins, s.cores, s.rel.due, s.canTest)

/-- A basin whose parts are the same. -/
theorem Basin.Calms.of_same {keep : Prop} {v w : Basin} (h : w.calmParts = v.calmParts) : v.Calms keep w := by
  simp only [Basin.calmParts, Prod.mk.injEq] at h
  obtain ⟨hd, hc, hi, hm, hf, hr⟩ := h
  exact ⟨hd, hc, fun _ => hi, fun _ => hm, fun h0 => hf.trans h0, fun h0 => hr.trans h0⟩

theorem Basin.Calms.trans {keep : Prop} {u v w : Basin} (h : u.Calms keep v) (g : v.Calms keep w) : u.Calms keep w where
  desc := g.desc.trans h.desc
  ckpt := g.ckpt.trans h.ckpt
  img k := (g.img k).trans (h.img k)
  mem k := (g.mem k).trans (h.mem k)
  fences e := g.fences (h.fences e)
  rebind e := g.rebind (h.rebind e)

theorem Core.Calms.refl (k : Core) : k.Calms k := ⟨rfl, id, id, id⟩

theorem Core.Calms.trans {k l m : Core} (h : k.Calms l) (g : l.Calms m) : k.Calms m :=
  ⟨g.sp.trans h.sp, g.fenced ∘ h.fenced, g.aStopped ∘ h.aStopped, g.xStopped ∘ h.xStopped⟩

namespace State.Calms

variable {P : Nat → Prop} {s t u : State}

/-- A state whose parts are the same. -/
theorem of_same (h : t.calmParts = s.calmParts) : s.Calms P t := by
  simp only [State.calmParts, Prod.mk.injEq] at h
  obtain ⟨hb, hc, hd, ht⟩ := h
  refine ⟨fun b => .of_same ?_, fun c => ?_, hd, ht⟩
  · simp only [State.basin, hb]
  · simp only [State.core, hc, Core.Calms.refl]

theorem refl (s : State) : s.Calms P s := of_same rfl

theorem trans (h : s.Calms P t) (g : t.Calms P u) : s.Calms P u where
  basin b := (h.basin b).trans (g.basin b)
  core c := (h.core c).trans (g.core c)
  due := g.due.trans h.due
  canTest := g.canTest.trans h.canTest

/-- Where no core of a basin is due for a test that can start, none is afterwards. -/
theorem noTest (h : s.Calms P t) {b : Nat} (h0 : (s.anyDue b && s.canTest) = false) : (t.anyDue b && t.canTest) = false := by
  have mono : t.anyDue b = true → s.anyDue b = true := by
    simp only [State.anyDue, State.liveCores, List.any_eq_true, List.mem_filter, (h.basin b).desc, h.due]
    rintro ⟨c, ⟨hc, hf⟩, hd⟩
    have hs := (h.core c).fenced
    exact ⟨c, ⟨hc, by grind⟩, hd⟩
  rw [h.canTest]
  grind

/-! ### Updates of the state -/

theorem same (h : s.Calms P t) (e : u.calmParts = t.calmParts) : s.Calms P u := h.trans (of_same e)

theorem foldl {α : Type} {f : State → α → State} {l : List α} (h : s.Calms P t) (hf : ∀ t a, s.Calms P t → s.Calms P (f t a)) :
    s.Calms P (l.foldl f t) := by
  induction l generalizing t with
  | nil => exact h
  | cons a l ih => exact ih (hf t a h)

theorem updBasin {b : Nat} {f : Basin → Basin} (h : s.Calms P t) (hf : (t.basin b).Calms (P b) (f (t.basin b))) :
    s.Calms P (t.updBasin b f) := by
  refine h.trans ⟨fun b' => ?_, fun c => .refl _, rfl, rfl⟩
  rw [State.basin_updBasin]
  split
  · next e => subst e; exact hf
  · exact .of_same rfl

/-- An update of a basin that changes none of the parts that the relation speaks of. -/
theorem updSame {b : Nat} {f : Basin → Basin} (h : s.Calms P t) (hf : ∀ v, (f v).calmParts = v.calmParts) :
    s.Calms P (t.updBasin b f) := h.updBasin (.of_same (hf _))

theorem updCore {c : Nat} {f : Core → Core} (h : s.Calms P t) (hf : (t.core c).Calms (f (t.core c))) :
    s.Calms P (t.updCore c f) := by
  refine h.trans ⟨fun b => .of_same rfl, fun c' => ?_, rfl, rfl⟩
  rw [State.core_updCore]
  split
  · next e => subst e; exact hf
  · exact .refl _

theorem updCores {cs : List Nat} {f : Nat → Core → Core} (h : s.Calms P t) (hf : ∀ c k, Core.Calms k (f c k)) :
    s.Calms P (t.updCores cs f) :=
  h.foldl fun _ c h => h.updCore (hf c _)

/-! ### Stops, reports and halts -/

theorem notify {fn : HostFn} {v : Nat} (h : s.Calms P t) : s.Calms P (t.notify fn v) := by
  unfold State.notify
  dsimp only
  split
  · cases fn with
    | pf0 => exact h.same rfl
    | vf b => exact h.updSame (f := fun x => { x with msix := _ }) fun _ => rfl
  · exact h.same rfl

theorem markEvent {b i : Nat} (h : s.Calms P t) : s.Calms P (t.markEvent b i) := h.updSame fun _ => rfl

theorem setEvent {b i : Nat} (h : s.Calms P t) : s.Calms P (t.setEvent b i) := .notify (.notify (.markEvent h))

theorem postReport {r : Report} (h : s.Calms P t) : s.Calms P (t.postReport r) := by
  unfold State.postReport
  split
  · exact .notify (h.same rfl)
  · exact h.same rfl

theorem report {r : Report} (h : s.Calms P t) : s.Calms P (t.report r) := by
  unfold State.report
  dsimp only
  split
  · split
    · exact h.same rfl
    · exact h.same rfl
  · exact .postReport (h.same rfl)

theorem stopCores {b : Nat} (h : s.Calms P t) : s.Calms P (t.stopCores b) := by
  unfold State.stopCores
  exact h.updCores fun _ _ => ⟨rfl, id, fun _ => rfl, fun _ => rfl⟩

theorem dropTest {b : Nat} (h : s.Calms P t) : s.Calms P (t.dropTest b) := h.same rfl

theorem startTest {b : Nat} (h : s.Calms P t) : s.Calms P (t.startTest b) := by
  have on : ∀ r, r.due = t.rel.due → s.Calms P (State.switchQuarry { t with rel := r } true) := fun r hr => by
    unfold State.switchQuarry
    split
    · exact h.trans ⟨fun _ => .of_same rfl, fun _ => .refl _, hr, rfl⟩
    · exact h.trans ⟨fun _ => .of_same rfl, fun _ => .refl _, hr, rfl⟩
  unfold State.startTest
  dsimp only
  split
  · exact .updSame (on _ rfl) fun _ => rfl
  · exact on _ rfl

theorem takeRebind {b : Nat} (h : s.Calms P t) : s.Calms P (t.takeRebind b) := by
  unfold State.takeRebind
  split
  · exact h.updBasin ⟨rfl, rfl, fun _ => rfl, fun _ => rfl, id, fun _ => rfl⟩
  · exact h

theorem restTest {b : Nat} (h : s.Calms P t) : s.Calms P (t.restTest b) := by
  unfold State.restTest
  split
  · exact h
  · split
    · exact h.startTest
    · exact h.takeRebind

theorem enterParked {b : Nat} (h : s.Calms P t) : s.Calms P (t.enterParked b) := by
  unfold State.enterParked
  exact .restTest (.setEvent (h.updSame fun _ => rfl))

theorem beginUnbind {b : Nat} (h : s.Calms P t) : s.Calms P (t.beginUnbind b) := by
  unfold State.beginUnbind
  exact .updBasin (.stopCores h.dropTest) ⟨rfl, rfl, fun _ => rfl, fun _ => rfl, id, fun _ => rfl⟩

theorem enterFence {b : Option Nat} {kind c : Nat} (h : s.Calms P t) : s.Calms P (t.enterFence b kind c) := by
  have stopped : s.Calms P (t.updCore c fun k => { k.stop with fenced := true }) :=
    h.updCore ⟨rfl, fun _ => rfl, fun _ => rfl, fun _ => rfl⟩
  unfold State.enterFence
  exact .report (stopped.same rfl)

theorem applyFences {b : Nat} (h : s.Calms P t) : s.Calms P (t.applyFences b) := by
  unfold State.applyFences
  dsimp only
  have fenced : s.Calms P ((t.basin b).fencePending.foldl (fun s f => s.enterFence (some b) f.1 f.2)
      (t.updBasin b fun x => { x with fencePending := [] })) :=
    .foldl (h.updBasin ⟨rfl, rfl, fun _ => rfl, fun _ => rfl, fun _ => rfl, id⟩) fun _ _ g => g.enterFence
  split
  · exact fenced.beginUnbind
  · refine .enterParked (.markEvent (.updSame (.updCores fenced fun _ _ => ?_) fun _ => rfl))
    exact ⟨rfl, id, fun _ => rfl, fun _ => rfl⟩

theorem settle {b : Nat} (h : s.Calms P t) : s.Calms P (t.settle b) := by
  unfold State.settle
  split
  · exact h.restTest
  · exact h.applyFences

theorem haltBasin {b cause : Nat} (h : s.Calms P t) : s.Calms P (t.haltBasin b cause) := by
  unfold State.haltBasin
  exact .settle (.setEvent (.updSame h.stopCores fun _ => rfl))

/-! ### The tier engine -/

theorem updPage {b p : Nat} {f : Page → Page} (h : s.Calms P t) : s.Calms P (t.updPage b p f) := h.updSame fun _ => rfl

theorem updQueue {b j : Nat} {f : TpQueue → TpQueue} (h : s.Calms P t) : s.Calms P (t.updQueue b j f) :=
  h.updSame fun _ => rfl

theorem zeroFill {b p : Nat} (h : s.Calms P t) : s.Calms P (t.zeroFill b p) := by
  unfold State.zeroFill
  dsimp only
  split
  · exact .updPage (h.same rfl)
  · exact h.updPage

theorem takeMap {b p : Nat} (h : s.Calms P t) (e : t.takeMap b p = some u) : s.Calms P u := by
  unfold State.takeMap at e
  split at e
  · cases e; exact h
  · obtain ⟨x, -, rfl⟩ := Option.map_eq_some_iff.1 e
    exact .zeroFill (h.same rfl)

theorem askMove {b p : Nat} (h : s.Calms P t) : s.Calms P (t.askMove b p) := by
  unfold State.askMove
  dsimp only
  split
  · exact h
  · split
    · exact .updPage (h.same rfl)
    · split
      · exact .updPage (h.same rfl)
      · exact h

theorem addMove {b p : Nat} {c : MoveCause} {f : Page → Page} (h : s.Calms P t) : s.Calms P (t.addMove b p c f) := by
  unfold State.addMove
  split
  · exact h
  · next v e =>
      have moved : s.Calms P (v.updPage b p fun g => { f g with moved := 0 }) := .updPage (h.takeMap e)
      exact .askMove (moved.same rfl)

theorem supply {b p : Nat} (h : s.Calms P t) (e : t.supply b p = .waits u) : s.Calms P u := by
  unfold State.supply at e
  dsimp only at e
  split at e
  · split at e
    · cases e
    · split at e
      · cases e
        exact h
      · cases e
  · split at e
    · cases e
    · split at e
      · cases e
        exact h
      · split at e
        · cases e
          split
          · exact h
          · exact h.addMove
        · split at e
          · cases e
            exact h
          · cases e

theorem retryMove {b p : Nat} (h : s.Calms P t) : s.Calms P (t.retryMove b p) := by
  unfold State.retryMove
  dsimp only
  split
  · exact h
  · split
    · split
      · exact h.addMove
      · next e => exact h.supply e
      · exact h
    · exact h.updPage

theorem takeFrames {b n : Nat} {l : List Nat} (h : s.Calms P t) (e : takeFrames b n t l = .waits u) : s.Calms P u := by
  induction n generalizing t l with
  | zero => cases e
  | succ n ih =>
    unfold Machine.takeFrames at e
    split at e
    · refine ih ?_ e
      exact h.updSame fun _ => rfl
    · next hs => cases e; exact h.supply hs
    · cases e

theorem setDepth {b j d : Nat} (h : s.Calms P t) : s.Calms P (t.setDepth b j d) := by
  unfold State.setDepth
  dsimp only
  split
  · exact h.updQueue
  · split
    · exact h.updQueue
    · next e => exact .updQueue (.updSame (h.updQueue.takeFrames e) fun _ => rfl)
    · exact h.updQueue

theorem retryDepths {b : Nat} (h : s.Calms P t) : s.Calms P (t.retryDepths b) := by
  unfold State.retryDepths
  refine h.foldl fun t e h => ?_
  split
  · exact h.setDepth
  · exact h

theorem growLog {b n : Nat} (h : s.Calms P t) : s.Calms P (growLog b n t) := by
  induction n generalizing t with
  | zero => exact h
  | succ n ih =>
    unfold Machine.growLog
    split
    · exact h
    · split
      · exact ih (h.updSame fun _ => rfl)
      · next e => exact h.supply e
      · exact h.markEvent.haltBasin

theorem drainGroup {n : Nat} (h : s.Calms P t) : s.Calms P (t.drainGroup n) := by
  unfold State.drainGroup
  dsimp only
  split
  · exact h
  · refine .foldl (h.same rfl) fun t p h => ?_
    unfold State.pausePrio
    dsimp only
    repeat' split
    all_goals exact h.same rfl

theorem startPushes {b : Nat} (h : s.Calms P t) : s.Calms P (t.startPushes b) := by
  unfold State.startPushes
  refine h.foldl fun t p h => ?_
  dsimp only
  split
  · split
    · exact h
    · exact h.updSame fun _ => rfl
  · split
    · exact h.addMove.updSame fun _ => rfl
    · exact h

theorem rawMove {f : Nat} {c : MoveCause} (h : s.Calms P t) : s.Calms P (t.rawMove f c) := by
  unfold State.rawMove State.addRaw
  split
  · split
    · exact h
    · exact .updSame (h.same rfl) fun _ => rfl
  · exact h

theorem drain {n : Nat} (h : s.Calms P t) : s.Calms P (t.drain n) := by
  unfold State.drain
  dsimp only
  refine .foldl (h.foldl fun t f h => h.rawMove) fun t e h => h.foldl fun t q h => ?_
  split
  · exact h
  · split
    · exact h
    · split
      · exact h.addMove
      · split
        · split
          · exact h
          · exact h.addMove
        · exact h

theorem fenceMoves {f : Nat} (h : s.Calms P t) : s.Calms P (t.fenceMoves f) := by
  unfold State.fenceMoves
  refine .foldl h.rawMove fun t e h => h.foldl fun t q h => ?_
  dsimp only
  split
  · exact h
  · split
    · split
      · exact h.addMove
      · exact h
    · split
      · split
        · exact h.addMove
        · exact h
      · exact h

/-- What goes on after frames have become free moves pages, and stops basins whose receive log finds no frame. -/
theorem advanceTier (h : s.Calms P t) : s.Calms P t.advanceTier := by
  unfold State.advanceTier
  refine .foldl (.foldl (.foldl (.foldl (.foldl (.foldl (.foldl h ?retry) ?depths) ?logs) ?groups) ?pushes) ?drains) ?fences
  case retry => exact fun _ e h => h.foldl fun _ q h => h.retryMove
  case depths => exact fun _ e h => h.retryDepths
  case logs => exact fun _ e h => h.growLog
  case groups => exact fun _ n h => h.drainGroup
  case pushes => exact fun _ e h => h.startPushes
  case drains =>
    intro t n h
    split
    · exact h.drain
    · exact h
  case fences => exact fun _ n h => h.foldl fun _ f h => h.fenceMoves

end State.Calms
end Sys2Proof.Machine

/-! The FLR of a virtual function (11 R320; 02 R38, R40). -/

namespace Sys2Proof.Machine

/-! ### Cores after an update of a list of cores -/

/-- What an update gives to every core, each core of the list has after it. -/
theorem State.core_updCores_of_mem {s : State} {cs : List Nat} {f : Nat → Core → Core} {p : Core → Prop} (hf : ∀ c k, p (f c k))
    {c : Nat} (hc : c ∈ cs) : p ((s.updCores cs f).core c) := by
  have kept : ∀ (l : List Nat) (s : State), p (s.core c) → p ((s.updCores l f).core c) := by
    intro l
    induction l with
    | nil => exact fun _ h => h
    | cons a l ih =>
      intro s h
      refine ih _ ?_
      rw [State.core_updCore]
      split
      · exact hf _ _
      · exact h
  induction cs generalizing s with
  | nil => cases hc
  | cons a cs ih =>
    rcases List.mem_cons.1 hc with rfl | hc
    · refine kept cs _ ?_
      rw [State.core_updCore_self]
      exact hf _ _
    · exact ih hc

/-! ### A basin with nothing to wait for comes to rest -/

/-- A basin that enters IDLE with no pending fence, due test or re-bind stays as it entered. -/
theorem State.enterIdle_of_restful {s : State} {b : Nat} (hf : (s.basin b).fencePending = [])
    (ht : (s.anyDue b && s.canTest) = false) (hr : (s.basin b).pendingRebind = none) :
    s.enterIdle b = s.updBasin b fun x => { x with phase := .idle, sluice := none, parkReq := false } := by
  have idle : s.Calms (fun _ => True) (s.updBasin b fun x => { x with phase := .idle, sluice := none, parkReq := false }) :=
    .updSame (.refl s) fun _ => rfl
  simp only [State.enterIdle, State.settle, State.restTest, State.takeRebind, (idle.basin b).fences hf, idle.noTest ht,
    (idle.basin b).rebind hr]
  simp

/-! ### The FLR of a virtual function -/

theorem State.core_clearTransport (s : State) (b c : Nat) :
    (s.clearTransport b).core c =
      if (s.basin b).desc.contains c then { s.core c with capture := none, capsule := none, barges := [] } else s.core c := by
  unfold State.clearTransport State.core
  rw [SMap.get_mapV]
  split <;> rfl

/-- The return of the old tiles changes memory and pages only (02 R47). -/
theorem Basin.discardFresh_calms {keep : Prop} (hk : ¬ keep) (v : Basin) : v.Calms keep v.discardFresh := by
  have undone : ∀ (l : List TileSave) (v : Basin), v.Calms keep (l.foldl Basin.restoreTile v) := by
    intro l
    induction l with
    | nil => exact fun _ => .of_same rfl
    | cons u l ih =>
      have tile : ∀ v : Basin, v.Calms keep (v.restoreTile u) := fun _ => ⟨rfl, rfl, fun h => absurd h hk, fun h => absurd h hk, id, id⟩
      exact fun v => (tile v).trans (ih _)
  exact (undone v.undo v).trans (.of_same rfl)

namespace State.Calms

variable {P : Nat → Prop} {s t : State} {b : Nat}

theorem clearTransport (h : s.Calms P t) : s.Calms P (t.clearTransport b) := by
  refine h.trans ⟨fun _ => .of_same rfl, fun c => ?_, rfl, rfl⟩
  rw [State.core_clearTransport]
  split
  · exact ⟨rfl, id, id, id⟩
  · exact .refl _

theorem dropPasses (h : s.Calms P t) : s.Calms P (t.dropPasses b) := h.same rfl

theorem resetQps (h : s.Calms P t) : s.Calms P (t.resetQps b) := by
  unfold State.resetQps
  dsimp only
  split
  · exact h
  · exact .foldl (h.updSame fun _ => rfl) fun _ _ h => h.same rfl

/-- The loss of an interval changes the memory of its own basin alone. -/
theorem loseInterval (h : s.Calms (· ≠ b) t) : s.Calms (· ≠ b) (t.loseInterval b) := by
  have own : ¬ (b ≠ b) := fun h => h rfl
  unfold State.loseInterval
  refine .advanceTier (.foldl (.updBasin h (.trans (Basin.discardFresh_calms own _) (.of_same rfl))) fun t w h => ?_)
  exact .updBasin (h.same rfl) ⟨rfl, rfl, fun _ => rfl, fun h => absurd h own, id, id⟩

theorem clearProgram (h : s.Calms (· ≠ b) t) : s.Calms (· ≠ b) (t.clearProgram b) := by
  unfold State.clearProgram
  refine .updBasin (.updCores h fun _ _ => ?_) ?_
  · exact ⟨rfl, id, id, id⟩
  · exact ⟨rfl, rfl, fun h => absurd rfl h, fun _ => rfl, id, id⟩

end State.Calms

/-- The stop of a basin at its function's FLR: its cores stand, and what it had under way is dropped (11 R320). -/
def State.flrStop (s : State) (b : Nat) : State := ((((s.dropTest b).stopCores b).clearTransport b).dropPasses b).resetQps b

/-- The same with the work of a basin that runs lost since its last checkpoint. -/
def State.flrLose (s : State) (b : Nat) : State :=
  if (s.basin b).phase = .running ∨ (s.basin b).phase = .restarting then
    ((s.flrStop b).loseInterval b).updBasin b fun v => { v with train := v.back.train }
  else s.flrStop b

/-- What the function's FLR leaves of a basin whose program is cleared. -/
def Basin.flrClear (v : Basin) : Basin :=
  { v.emptyQueues with
    msix := [], layers := [], verdict := none, suppressed := [], colls := [], collRan := [], rxTaken := [], sluice := none
    testPause := false, parkReq := false }

/-- What host software sends takes effect where it reaches the device. -/
theorem State.fromHost_of_reaches {s : State} (h : s.hostReaches = true) (f : State → State) : s.fromHost f = f s := by
  simp only [State.hostReaches, Bool.and_eq_true, decide_eq_true_eq] at h
  obtain ⟨hlink, hphase⟩ := h
  simp [State.fromHost, State.overLink, hphase, hlink]

/-- VF_FLR of a basin on which the binder does not work. -/
theorem exec_vfFlr_of_bound {s : State} {b : Nat} (hr : s.hostReaches = true) (hfree : (s.basin b).phase ≠ .free)
    (hunb : (s.basin b).phase ≠ .unbinding) (hbind : (s.basin b).phase ≠ .binding) :
    exec (.vfFlr b) s = .next ((((s.flrLose b).clearProgram b).updBasin b Basin.flrClear).enterIdle b) := by
  show Host.Outcome.next (s.fromHost _) = _
  rw [State.fromHost_of_reaches hr]
  split
  · contradiction
  · contradiction
  · rw [if_neg hbind]
    unfold State.flrLose
    split <;> rfl

/-- The stop with which the FLR begins. -/
theorem State.flr_stopCores_calms (s : State) (b : Nat) : s.Calms (· ≠ b) ((s.dropTest b).stopCores b) :=
  .stopCores (.dropTest (.refl s))

/-- The FLR starts no core and touches neither the program nor the memory of another basin. -/
theorem State.flrLose_calms (s : State) (b : Nat) : ((s.dropTest b).stopCores b).Calms (· ≠ b) (s.flrLose b) := by
  have stop : ((s.dropTest b).stopCores b).Calms (· ≠ b) (s.flrStop b) := by
    unfold State.flrStop
    exact .resetQps (.dropPasses (.clearTransport (.refl _)))
  unfold State.flrLose
  split
  · exact .updSame stop.loseInterval fun _ => rfl
  · exact stop

/-- A core that the FLR stops stands at its end, without a program. -/
theorem State.flr_core (s : State) (b : Nat) {c : Nat} (hc : c ∈ s.liveCores b) :
    let t := (s.flrLose b).clearProgram b
    (t.core c).a.stopped = true ∧ (t.core c).x.stopped = true ∧ (t.core c).base = 0 := by
  have lost := s.flrLose_calms b
  have stands : (((s.dropTest b).stopCores b).core c).a.stopped = true ∧ (((s.dropTest b).stopCores b).core c).x.stopped = true :=
    State.core_updCores_of_mem (p := fun k => k.a.stopped = true ∧ k.x.stopped = true) (fun _ _ => ⟨rfl, rfl⟩) hc
  have mem : c ∈ ((s.flrLose b).basin b).desc.cores := by
    rw [(((s.flr_stopCores_calms b).trans lost).basin b).desc]
    exact (List.mem_filter.1 hc).1
  have kept := (lost.clearProgram).core c
  refine ⟨kept.aStopped stands.1, kept.xStopped stands.2, ?_⟩
  exact State.core_updCores_of_mem (p := fun k => k.base = 0) (fun _ _ => rfl) mem

/-- VF_FLR (11 R320; 02 R38): a bound basin becomes IDLE without program or vectors, its binding and checkpoint stay, its cores stand,
and no other basin's binding, program or memory changes. -/
theorem vfFlr_leaves_idle (s : State) (b : Nat) (hr : s.hostReaches = true) (hfree : (s.basin b).phase ≠ .free)
    (hunb : (s.basin b).phase ≠ .unbinding) (hbind : (s.basin b).phase ≠ .binding) (hfence : (s.basin b).fencePending = [])
    (htest : (s.anyDue b && s.canTest) = false) (hrebind : (s.basin b).pendingRebind = none) :
    ∃ t, exec (.vfFlr b) s = .next t ∧ (t.basin b).phase = .idle ∧ (t.basin b).img = none ∧ (t.basin b).msix = [] ∧
      (t.basin b).desc = (s.basin b).desc ∧ (t.basin b).ckpt = (s.basin b).ckpt ∧ (t.basin b).sluice = none ∧
      (∀ c ∈ s.liveCores b, (t.core c).a.stopped = true ∧ (t.core c).x.stopped = true ∧ (t.core c).base = 0) ∧
      ∀ b', b' ≠ b → (t.basin b').desc = (s.basin b').desc ∧ (t.basin b').img = (s.basin b').img ∧
        ∀ a, t.memByte b' a = s.memByte b' a := by
  have cleared : s.Calms (· ≠ b) (((s.flrLose b).clearProgram b).updBasin b Basin.flrClear) :=
    .updSame ((s.flr_stopCores_calms b).trans (s.flrLose_calms b)).clearProgram fun _ => rfl
  have ended : s.Calms (· ≠ b) ((((s.flrLose b).clearProgram b).updBasin b Basin.flrClear).updBasin b
      fun x => { x with phase := .idle, sluice := none, parkReq := false }) := .updSame cleared fun _ => rfl
  have own := cleared.basin b
  refine ⟨_, exec_vfFlr_of_bound hr hfree hunb hbind, ?_⟩
  rw [State.enterIdle_of_restful (own.fences hfence) (cleared.noTest htest) (own.rebind hrebind)]
  refine ⟨?_, ?_, ?_, (ended.basin b).desc, (ended.basin b).ckpt, ?_, fun c hc => ?_, fun b' h => ?_⟩
  · rw [State.basin_updBasin_self]
  · rw [State.basin_updBasin_self, State.basin_updBasin_self, State.clearProgram, State.basin_updBasin_self]
    rfl
  · rw [State.basin_updBasin_self, State.basin_updBasin_self]
    rfl
  · rw [State.basin_updBasin_self]
  · rw [State.core_updBasin, State.core_updBasin]
    exact s.flr_core b hc
  · obtain ⟨hd, -, hi, hm, -, -⟩ := ended.basin b'
    exact ⟨hd, hi h, fun a => by rw [State.memByte, State.memByte, hm h]⟩

end Sys2Proof.Machine

/-! Resets of PF0 and of the package, and the link's events (11 R317, R320, R324, R344; 15 R436, R438). -/

namespace Sys2Proof.Machine

/-! ### What an unbind leaves -/

/-- An update of cores changes the cores alone. -/
theorem State.updCores_eq (s : State) (cs : List Nat) (f : Nat → Core → Core) :
    s.updCores cs f = { s with cores := (s.updCores cs f).cores } := by
  induction cs generalizing s with
  | nil => rfl
  | cons c cs ih => exact ih (s.updCore c (f c))

/-- The parts of the device that an unbind leaves: the link, the security block and the firmware. -/
def State.controlParts (s : State) : Link × Sec × Fwu := (s.link, s.sec, s.fwu)

theorem State.stopCores_basin (s : State) (b c : Nat) : (s.stopCores b).basin c = s.basin c := by
  rw [State.stopCores, State.updCores_eq]
  rfl

theorem State.beginUnbind_controlParts (s : State) (b : Nat) : (s.beginUnbind b).controlParts = s.controlParts := by
  show ((s.dropTest b).stopCores b).controlParts = _
  rw [State.stopCores, State.updCores_eq]
  rfl

/-- The basin that is unbound is UNBINDING, and every other keeps its phase (02 R38). -/
theorem State.beginUnbind_phase (s : State) (b c : Nat) :
    ((s.beginUnbind b).basin c).phase = if b = c then .unbinding else (s.basin c).phase := by
  rw [State.beginUnbind, State.basin_updBasin, State.stopCores_basin]
  split
  · rfl
  · rw [State.stopCores_basin]
    rfl

/-! ### The FLR of PF0 -/

/-- A basin of no binding, or one whose binding is being taken back. -/
abbrev BasinPhase.unbound (p : BasinPhase) : Prop := p = .free ∨ p = .unbinding

/-- One basin of the list at PF0's FLR. -/
def State.unbindEntry (s : State) (e : Nat × Basin) : State :=
  if e.2.phase.unbound then s else s.beginUnbind e.1

theorem State.flrPf0_eq (s : State) :
    s.flrPf0 = { s.basins.foldl State.unbindEntry s with
      link := { (s.basins.foldl State.unbindEntry s).link with attach := 0, enabledMinor := 0 } } := by
  have entry : (fun (s : State) (e : Nat × Basin) => match e.2.phase with
      | .free | .unbinding => s
      | _ => s.beginUnbind e.1) = State.unbindEntry := by
    funext s e
    unfold State.unbindEntry
    split <;> simp_all
  unfold State.flrPf0
  rw [← entry] <;> rfl

theorem State.unbindEntry_controlParts (s : State) (e : Nat × Basin) : (s.unbindEntry e).controlParts = s.controlParts := by
  unfold State.unbindEntry
  split
  · rfl
  · exact s.beginUnbind_controlParts e.1

theorem State.unbindEntries_controlParts (l : List (Nat × Basin)) (s : State) :
    (l.foldl State.unbindEntry s).controlParts = s.controlParts := by
  induction l generalizing s with
  | nil => rfl
  | cons e l ih => exact (ih _).trans (s.unbindEntry_controlParts e)

/-- A basin that is unbound stays so while others are unbound. -/
theorem State.unbindEntries_unbound {s : State} {b : Nat} (h : (s.basin b).phase.unbound) (l : List (Nat × Basin)) :
    ((l.foldl State.unbindEntry s).basin b).phase.unbound := by
  induction l generalizing s with
  | nil => exact h
  | cons e l ih =>
    refine ih ?_
    unfold State.unbindEntry
    split
    · exact h
    · rw [State.beginUnbind_phase]
      split
      · exact .inr rfl
      · exact h

/-- Every basin that the list names as bound is unbound. -/
theorem State.unbindEntries_of_mem {b : Nat} {v : Basin} (hv : ¬ v.phase.unbound) {l : List (Nat × Basin)} (hl : (b, v) ∈ l)
    (s : State) : ((l.foldl State.unbindEntry s).basin b).phase.unbound := by
  induction l generalizing s with
  | nil => cases hl
  | cons e l ih =>
    rcases List.mem_cons.1 hl with rfl | hl
    · refine State.unbindEntries_unbound ?_ l
      rw [State.unbindEntry, if_neg hv, State.beginUnbind_phase, if_pos rfl]
      exact .inr rfl
    · exact ih hl _

/-- A map that reads other than its default at a key lists what it reads. -/
theorem SMap.mem_of_get_ne {α : Type} {d : α} {m : SMap α} {k : Nat} (h : SMap.get d m k ≠ d) : (k, SMap.get d m k) ∈ m := by
  induction m with
  | nil => exact absurd rfl h
  | cons e m ih =>
    obtain ⟨j, v⟩ := e
    rw [SMap.get_cons] at h ⊢
    split at h
    · next hj =>
        subst hj
        simp
    · next hj =>
        rw [if_neg hj]
        exact List.mem_cons_of_mem _ (ih h)

/-- PF0's FLR leaves no basin bound (11 R320). -/
theorem State.flrPf0_unbound (s : State) (b : Nat) : (s.flrPf0.basin b).phase.unbound := by
  rw [State.flrPf0_eq]
  show ((s.basins.foldl State.unbindEntry s).basin b).phase.unbound
  by_cases h : (s.basin b).phase.unbound
  · exact State.unbindEntries_unbound h _
  · refine State.unbindEntries_of_mem h (SMap.mem_of_get_ne fun h0 => h ?_) s
    rw [State.basin, h0]
    exact .inl rfl

/-- PF0's FLR detaches the host and leaves the rest of the link, the security block and the firmware. -/
theorem State.flrPf0_control (s : State) :
    s.flrPf0.link = { s.link with attach := 0, enabledMinor := 0 } ∧ s.flrPf0.sec = s.sec ∧ s.flrPf0.fwu = s.fwu := by
  have parts := State.unbindEntries_controlParts s.basins s
  simp only [State.controlParts, Prod.mk.injEq] at parts
  obtain ⟨hl, hs, hf⟩ := parts
  rw [State.flrPf0_eq]
  exact ⟨by rw [hl], hs, hf⟩

theorem pf0Flr_unbinds (s : State) (hr : s.hostReaches = true) :
    ∃ t, exec .pf0Flr s = .next t ∧ t.link.attach = 0 ∧ t.link.enabledMinor = 0 ∧ t.link.up = s.link.up ∧
      ∀ b, (t.basin b).phase = .free ∨ (t.basin b).phase = .unbinding := by
  refine ⟨s.flrPf0, ?_, ?_⟩
  · show Host.Outcome.next (s.fromHost State.flrPf0) = _
    rw [State.fromHost_of_reaches hr]
  · obtain ⟨hl, -, -⟩ := s.flrPf0_control
    rw [hl]
    exact ⟨rfl, rfl, rfl, s.flrPf0_unbound⟩

/-! ### PERST_N -/

/-- The end of staging leaves both slots (15 R423). -/
theorem Fwu.endStaging_slots (f : Fwu) : f.endStaging.slotA = f.slotA ∧ f.endStaging.slotB = f.slotB := by
  unfold Fwu.endStaging
  split
  · exact ⟨rfl, rfl⟩
  · exact ⟨rfl, rfl⟩

theorem perstN_resets (s : State) (hp : s.mgmt.phase ≠ .inReset) :
    ∃ t, exec .perstN s = .next t ∧ t.link.up = false ∧ t.link.ideKeys = false ∧ t.link.insecure = false ∧ t.link.attach = 0 ∧
      t.sec.scope = 0 ∧ t.sec.sessionFn = none ∧ t.mgmt.perst = true ∧ t.sec.cmdKey = s.sec.cmdKey ∧ t.sec.svn = s.sec.svn ∧
      t.fwu.slotA = s.fwu.slotA ∧ t.fwu.slotB = s.fwu.slotB := by
  obtain ⟨hl, hs, hf⟩ := s.flrPf0_control
  obtain ⟨hA, hB⟩ := s.fwu.endStaging_slots
  refine ⟨_, congrArg Host.Outcome.next (if_neg hp), rfl, rfl, rfl, ?_, rfl, rfl, rfl, ?_, ?_, ?_, ?_⟩
  · show s.flrPf0.link.attach = 0
    rw [hl]
  · show s.flrPf0.sec.cmdKey = _
    rw [hs]
  · show s.flrPf0.sec.svn = _
    rw [hs]
  · show s.flrPf0.fwu.endStaging.slotA = _
    rw [hf, hA]
  · show s.flrPf0.fwu.endStaging.slotB = _
    rw [hf, hB]

/-- The reset of the bias registers takes every page out of host bias (11 R323). -/
theorem Basin.page_resetBias (v : Basin) (p : Nat) : v.resetBias.page p = { v.page p with hostBias := false } :=
  SMap.get_mapV ({} : Page) v.pages (fun _ g => { g with hostBias := false }) p rfl

theorem perstNDeassert_trains (s : State) (cxl : Bool) (width rate : Nat) (hp : s.mgmt.phase ≠ .inReset)
    (hn : s.mgmt.perst = true) (ht : linkTrains cxl width rate = true) :
    ∃ t, exec (.perstNDeassert cxl width rate) s = .next t ∧ t.link.up = true ∧ t.link.cxl = cxl ∧ t.link.width = width ∧
      t.link.rate = rate ∧ t.mgmt.perst = false ∧ t.cores = s.cores ∧ t.sec = s.sec ∧
      s.sameBytes t ∧ ∀ b, (t.basin b).biasPage = 0 ∧ (t.basin b).biasPages = 0 ∧ (t.basin b).biasRun = none ∧
        (t.basin b).phase = (s.basin b).phase ∧ ∀ p, ((t.basin b).page p).hostBias = false := by
  have reset : ∀ b, SMap.get {} (SMap.mapV {} s.basins fun _ v => v.resetBias) b = (s.basin b).resetBias :=
    fun b => SMap.get_mapV {} s.basins (fun _ v => v.resetBias) b rfl
  refine ⟨_, congrArg Host.Outcome.next (if_neg (by simp [hp, hn, ht])), rfl, rfl, rfl, rfl, rfl, rfl, rfl,
    ⟨fun _ _ => rfl, fun b a => ?_⟩, fun b => ?_⟩
  · simp only [State.memByte, State.basin, reset]
    rfl
  · simp only [State.basin, reset]
    exact ⟨rfl, rfl, rfl, rfl, fun p => by rw [Basin.page_resetBias]⟩

/-! ### Events of the link -/

/-- A notice of PF0 changes neither the link nor a basin, a core or the security block. -/
theorem State.notify_pf0_keeps (s : State) (v : Nat) :
    (s.notify .pf0 v).link = s.link ∧ (s.notify .pf0 v).basins = s.basins ∧ (s.notify .pf0 v).cores = s.cores ∧
      (s.notify .pf0 v).sec = s.sec := by
  unfold State.notify
  dsimp only
  split
  · exact ⟨rfl, rfl, rfl, rfl⟩
  · exact ⟨rfl, rfl, rfl, rfl⟩

theorem ideFail_makes_insecure (s : State) (hu : s.link.up = true) (hk : s.link.ideKeys = true) :
    ∃ t, exec .ideFail s = .next t ∧ t.link = { s.link with insecure := true, ideFail := true } ∧ t.basins = s.basins ∧
      t.cores = s.cores ∧ t.sec = s.sec :=
  ⟨_, congrArg Host.Outcome.next (if_pos ⟨hu, hk⟩), State.notify_pf0_keeps _ 6⟩

theorem cxlLinkRetrain_keeps_mode (s : State) (width rate : Nat) (hu : s.link.up = true)
    (ht : linkTrains s.link.cxl width rate = true) :
    ∃ t, exec (.cxlLinkRetrain width rate) s = .next t ∧ t.link = { s.link with width := width, rate := rate } ∧
      t.basins = s.basins ∧ t.cores = s.cores := by
  obtain ⟨hl, hb, hc, -⟩ := State.notify_pf0_keeps { s with link := { s.link with width := width, rate := rate } } 6
  exact ⟨_, congrArg Host.Outcome.next (if_pos ⟨hu, ht⟩), hl, hb, hc⟩

/-- Settles O39: the FLR of a VF by the relation of a stop and the tier engine's work, PF0's and PERST_N by the list of basins. -/
theorem resetsAndLink : Obligations.ResetsAndLink :=
  ⟨vfFlr_leaves_idle, pf0Flr_unbinds, perstN_resets, perstNDeassert_trains, ideFail_makes_insecure, cxlLinkRetrain_keeps_mode⟩

end Sys2Proof.Machine

/-! Register writes (00 R10, R15; 11 R330, R342): a half write of TP_CTRL against a basin whose list of queues is not canonical. -/

namespace Sys2Proof.Machine

/-- A device whose basin 0 is IDLE and lists towpath queue 0 twice. The first entry is the one that reads: it has the depth of 2^10 items
and waits for no other. The second waits for 2^12 items. -/
def State.queueListedTwice : State :=
  { mgmt := { phase := .ready, pwrgood := true, vioOk := true, perst := false }, link := { up := true }
    basins := [(0, { phase := .idle, tp := [(0, { timeoutUs := 2 }), (0, { wantDepth := some 12 })] })] }

/-- The depth of queue 0 of basin 0 in the state that a command leaves. -/
def Outcome.depthLeft : Out State → Option Nat
  | .next t => some (t.queue 0 0).depthLog2
  | _ => none

/-- The write of TIMEOUT_US lets waiting depths go on, entry by entry of the list (`State.retryDepths`), and the second entry's is taken
by the queue, although the queue that reads waited for none. -/
theorem queueListedTwice_takes_depth :
    Outcome.depthLeft (exec (.registerWrite (.vf 0) (0x1004 + 32 * 0) false 1) State.queueListedTwice) = some 12 := by
  decide +kernel

/-- Refutes O55: its clause on a 32-bit write of TP_CTRL's upper half says that the queue keeps its depth, for every `State` and so also
for a list of queues that names one queue twice, which is not in the canonical form of a sparse map (`SMap.wf`). There the entry behind
the one that reads still waits for a depth, and the write lets it be taken: 10 becomes 12. The clause's premises speak of the queue as
it reads, and none of them asks for the canonical form of the basin's `tp`. -/
theorem not_registerWrites : ¬ Obligations.RegisterWrites := by
  rintro ⟨page, -⟩
  obtain ⟨-, -, -, -, upperHalf⟩ := page State.queueListedTwice 0 1 (by decide) (by decide) (by decide)
  obtain ⟨t, ht, -, -, -, depth, -⟩ := upperHalf 0 (by decide) (by decide) (by decide) (by decide) (by decide) (by decide)
  have taken := queueListedTwice_takes_depth
  rw [ht] at taken
  have kept : (State.queueListedTwice.queue 0 0).depthLog2 = 10 := by decide
  rw [kept] at depth
  simp [Outcome.depthLeft, depth] at taken

end Sys2Proof.Machine

/-! Keyed commands that the binder takes, and PARK_REQ (02 R35, R38, R40; 15 R429, R430). -/

namespace Sys2Proof.Machine

/-! ### A keyed command whose checks pass -/

/-- The state on which a keyed command takes its effect: BUSY, with its block in the buffer and its counter consumed (15 R429). -/
def State.keyedTaken (s : State) (opcode : Nat) (k : KBlock) : State :=
  { s with sec := { s.sec with
    busy := true, status := kBusy, opcode := opcode, buf := SMap.setList 0 [] 0 (kBytes k opcode), lastCounter := k.counter.toNat } }

/-- A command whose checks pass and whose reserved bytes are zero runs on its basin (15 R428, R429). -/
theorem State.keyedCommand_of_runs {s : State} {op : Nat} {k : KBlock} (h : s.runsKeyed op k = true) :
    (op = 1 → s.keyedCommand op k = (s.keyedTaken op k).runBind k.basin.toNat k) ∧
    (op = 2 → s.keyedCommand op k = (s.keyedTaken op k).runRebind k.basin.toNat k) ∧
    (op = 3 → s.keyedCommand op k = (s.keyedTaken op k).runUnbind k.basin.toNat k) := by
  simp only [State.runsKeyed, Bool.and_eq_true, Bool.not_eq_true', decide_eq_true_eq] at h
  obtain ⟨⟨⟨⟨⟨⟨⟨⟨hup, hsecure⟩, hidle⟩, hphase⟩, hgap⟩, hpass⟩, hbasin⟩, hrsv⟩, htail⟩ := h
  have low : bits k.basin.toNat 5 0 = k.basin.toNat := Nat.mod_eq_of_lt hbasin
  have high : bits k.basin.toNat 7 6 = 0 := by simp only [bits, Nat.shiftRight_eq_div_pow]; omega
  have runs : s.keyedCommand op k = ({ s with sec := { s.sec with
      busy := true, status := kBusy, opcode := op, buf := SMap.setList 0 [] 0 (kBytes k op) } } : State).runKeyed op k := by
    simp [State.keyedCommand, State.overLink, State.goKeyed, hup, hsecure, hidle, hphase, hgap]
  have passes : ({ s with sec := { s.sec with
      busy := true, status := kBusy, opcode := op, buf := SMap.setList 0 [] 0 (kBytes k op) } } : State).keyedRefusal op k = none :=
    hpass
  rw [runs, State.runKeyed, passes]
  simp only [low, high, hrsv, htail, ne_eq, not_true_eq_false, or_self, if_false]
  refine ⟨?_, ?_, ?_⟩
  all_goals
    rintro rfl
    rfl

/-- The end of a keyed command changes neither a basin nor a core (15 R430). -/
theorem State.endKeyed_keeps (s : State) (st : Nat) :
    (s.endKeyed st).basins = s.basins ∧ (s.endKeyed st).cores = s.cores ∧
      (s.endKeyed st).sec = { s.sec with status := st, busy := false } := by
  obtain ⟨-, hb, hc, hs⟩ := State.notify_pf0_keeps { s with sec := { s.sec with status := st, busy := false } } 2
  exact ⟨hb, hc, hs⟩

/-! ### BIND, REBIND and UNBIND -/

/-- The check of a descriptor's own number against the basin that the block names (15 R431). -/
theorem bindBlock_ok {k : KBlock} (hz : kZeroFrom k 64 = true) (hn : kWord k 0 % 64 = k.basin.toNat) :
    ¬ (kZeroFrom k 64 = false ∨ bits (kWord k 0) 5 0 ≠ k.basin.toNat) := by
  have number : bits (kWord k 0) 5 0 = k.basin.toNat := hn
  simp [hz, number]

theorem bind_starts_binding (s : State) (k : KBlock) (h : s.runsKeyed 1 k = true) (hz : kZeroFrom k 64 = true)
    (hn : kWord k 0 % 64 = k.basin.toNat) (hok : s.bindRefusal k.basin.toNat k false = none) :
    ∃ t, exec (.bind k) s = .next t ∧
      t.basin k.basin.toNat = { phase := .binding, newDesc := some (bindDesc k), kcmd := true } ∧
      t.sec.lastCounter = k.counter.toNat ∧ t.sec.busy = true ∧ t.sec.status = 0x02 ∧
      (∀ b, b ≠ k.basin.toNat → t.basin b = s.basin b) ∧ t.cores = s.cores := by
  have accepted : (s.keyedTaken 1 k).bindRefusal k.basin.toNat k false = none := hok
  have run : s.keyedCommand 1 k = (s.keyedTaken 1 k).setBasin k.basin.toNat
      { phase := .binding, newDesc := some (bindDesc k), kcmd := true } := by
    rw [(State.keyedCommand_of_runs h).1 rfl, State.runBind, if_neg (bindBlock_ok hz hn), accepted]
  refine ⟨_, congrArg Host.Outcome.next run, State.basin_setBasin_self .., rfl, rfl, rfl, fun b hb => ?_, rfl⟩
  rw [State.basin_setBasin, if_neg hb.symm]
  rfl

theorem rebind_starts_or_waits (s : State) (k : KBlock) (h : s.runsKeyed 2 k = true) (hz : kZeroFrom k 64 = true)
    (hn : kWord k 0 % 64 = k.basin.toNat) (hok : s.bindRefusal k.basin.toNat k true = none) :
    let x := s.basin k.basin.toNat
    ∃ t, exec (.rebind k) s = .next t ∧ t.sec.lastCounter = k.counter.toNat ∧ t.cores = s.cores ∧
      (x.phase = .running ∨ x.phase = .restarting →
        (t.basin k.basin.toNat).pendingRebind = some (bindDesc k) ∧ (t.basin k.basin.toNat).phase = x.phase ∧
        t.sec.status = 0x03 ∧ t.sec.busy = false) ∧
      (x.phase ≠ .running → x.phase ≠ .restarting →
        t.basin k.basin.toNat = { x with phase := .binding, newDesc := some (bindDesc k), kcmd := true } ∧
        t.sec.busy = true) := by
  intro x
  have accepted : (s.keyedTaken 2 k).bindRefusal k.basin.toNat k true = none := hok
  have same : (s.keyedTaken 2 k).basin k.basin.toNat = x := rfl
  by_cases busy : x.phase = .running ∨ x.phase = .restarting
  · have run : s.keyedCommand 2 k =
        ((s.keyedTaken 2 k).updBasin k.basin.toNat fun v => { v with pendingRebind := some (bindDesc k) }).endKeyed kPending := by
      rw [(State.keyedCommand_of_runs h).2.1 rfl, State.runRebind, if_neg (bindBlock_ok hz hn), accepted, same]
      rcases busy with hp | hp <;> rw [hp]
    obtain ⟨hb, hc, hs⟩ := State.endKeyed_keeps
      ((s.keyedTaken 2 k).updBasin k.basin.toNat fun v => { v with pendingRebind := some (bindDesc k) }) kPending
    refine ⟨_, congrArg Host.Outcome.next run, ?_, hc, fun _ => ?_, fun h1 h2 => ?_⟩
    · rw [hs]; rfl
    · rw [hs, State.basin, hb, ← State.basin, State.basin_updBasin_self]
      exact ⟨rfl, rfl, rfl, rfl⟩
    · exact absurd busy (not_or.2 ⟨h1, h2⟩)
  · have run : s.keyedCommand 2 k = (s.keyedTaken 2 k).updBasin k.basin.toNat fun v =>
        { v with phase := .binding, newDesc := some (bindDesc k), kcmd := true } := by
      rw [(State.keyedCommand_of_runs h).2.1 rfl, State.runRebind, if_neg (bindBlock_ok hz hn), accepted]
      simp only [same]
      obtain ⟨h1, h2⟩ := not_or.1 busy
      split
      · contradiction
      · contradiction
      · rfl
    exact ⟨_, congrArg Host.Outcome.next run, rfl, rfl, fun hp => absurd hp busy, fun _ _ => ⟨State.basin_updBasin_self .., rfl⟩⟩

theorem unbind_stops (s : State) (k : KBlock) (h : s.runsKeyed 3 k = true) (hz : kZeroFrom k 0 = true)
    (hfree : (s.basin k.basin.toNat).phase ≠ .free) :
    ∃ t, exec (.unbind k) s = .next t ∧ (t.basin k.basin.toNat).phase = .unbinding ∧
      (t.basin k.basin.toNat).kcmd = true ∧ (t.basin k.basin.toNat).pendingRebind = none ∧ t.sec.busy = true ∧
      t.sec.lastCounter = k.counter.toNat ∧
      ∀ c ∈ s.liveCores k.basin.toNat, (t.core c).a.stopped = true ∧ (t.core c).x.stopped = true := by
  have bound : ((s.keyedTaken 3 k).basin k.basin.toNat).phase ≠ .free := hfree
  have run : s.keyedCommand 3 k =
      ((s.keyedTaken 3 k).beginUnbind k.basin.toNat).updBasin k.basin.toNat fun v => { v with kcmd := true } := by
    rw [(State.keyedCommand_of_runs h).2.2 rfl, State.runUnbind, if_neg (by simp [hz]), if_neg bound]
  have control := (s.keyedTaken 3 k).beginUnbind_controlParts k.basin.toNat
  simp only [State.controlParts, Prod.mk.injEq] at control
  obtain ⟨-, hsec, -⟩ := control
  refine ⟨_, congrArg Host.Outcome.next run, ?_, ?_, ?_, ?_, ?_, fun c hc => ?_⟩
  · rw [State.basin_updBasin_self]
    exact (State.beginUnbind_phase ..).trans (if_pos rfl)
  · rw [State.basin_updBasin_self]
  · rw [State.basin_updBasin_self, State.beginUnbind, State.basin_updBasin_self]
  · rw [State.updBasin_sec, hsec]; rfl
  · rw [State.updBasin_sec, hsec]; rfl
  · have live : c ∈ ((s.keyedTaken 3 k).dropTest k.basin.toNat).liveCores k.basin.toNat := hc
    rw [State.core_updBasin, State.beginUnbind, State.core_updBasin, State.stopCores]
    exact State.core_updCores_of_mem (p := fun l => l.a.stopped = true ∧ l.x.stopped = true) (fun _ _ => ⟨rfl, rfl⟩) live

/-! ### PARK_REQ -/

theorem parkReq_is_held (s : State) (b : Nat) (hup : s.link.up = true) (hsecure : s.link.insecure = false)
    (hphase : s.mgmt.phase ≠ .recovery) (hrun : (s.basin b).phase = .running) :
    ∃ t, exec (.parkReq b) s = .next t ∧ t.basin b = { s.basin b with parkReq := true } ∧
      (∀ b', b' ≠ b → t.basin b' = s.basin b') ∧ t.cores = s.cores := by
  have reaches : s.hostReaches = true := by simp [State.hostReaches, hup, hsecure, hphase]
  have run : s.fromHost (fun s => s.requestPark b) = s.updBasin b fun v => { v with parkReq := true } := by
    rw [State.fromHost_of_reaches reaches, State.requestPark, if_pos hrun]
  refine ⟨_, congrArg Host.Outcome.next run, State.basin_updBasin_self .., fun b' hb => ?_, rfl⟩
  rw [State.basin_updBasin, if_neg hb.symm]

/-- Settles O29: each command is taken from its checks to the binder's first step. -/
theorem binderAccepts : Obligations.BinderAccepts :=
  ⟨bind_starts_binding, rebind_starts_or_waits, unbind_stops, parkReq_is_held⟩

end Sys2Proof.Machine

/-! What a stop of a basin leaves of the device, and the halts of 02 R50, R55; 03 R85, R89; 07 R217. -/

namespace Sys2Proof.Machine

/-! ### The relation -/

/-- What a stop leaves of a core: its scratchpad, its registers and a latched halt record (03 R87, R89). -/
structure Core.Stops (k l : Core) : Prop where
  sp : l.sp = k.sp
  aRegs : l.a.regs = k.a.regs
  xRegs : l.x.regs = k.x.regs
  hrec : k.hrec.latched = true → l.hrec = k.hrec

/-- What it leaves of the basin that stops: the events that are set, and the map of blocked cores. -/
structure Basin.Stops (v w : Basin) : Prop where
  event : ∀ i, v.event.getLsbD i = true → w.event.getLsbD i = true
  blocked : w.sluiceBlocked = v.sluiceBlocked

/-- No entry of the basins' map has this number. -/
def State.unlisted (s : State) (b : Nat) : Prop := ∀ e ∈ s.basins, e.1 ≠ b

/-- A state that comes from another by stops and reports of basin `b`: the tier engine and every other basin are as they were. -/
structure State.Stops (b : Nat) (s t : State) : Prop where
  tier : t.tier = s.tier
  own : (s.basin b).Stops (t.basin b)
  others : ∀ b', b' ≠ b → t.basin b' = s.basin b'
  unlisted : ∀ b', b' ≠ b → s.unlisted b' → t.unlisted b'
  core : ∀ c, (s.core c).Stops (t.core c)

/-- The parts of a state that the relation speaks of. -/
def State.stopParts (s : State) : SMap Basin × SMap Core × Tier := (s.basins, s.cores, s.tier)

theorem Core.Stops.refl (k : Core) : k.Stops k := ⟨rfl, rfl, rfl, fun _ => rfl⟩

theorem Core.Stops.trans {k l m : Core} (h : k.Stops l) (g : l.Stops m) : k.Stops m where
  sp := g.sp.trans h.sp
  aRegs := g.aRegs.trans h.aRegs
  xRegs := g.xRegs.trans h.xRegs
  hrec e := (g.hrec (by rw [h.hrec e]; exact e)).trans (h.hrec e)

/-- A core that stops, whatever becomes of a record that is not latched. -/
theorem Core.Stops.of_stop (k : Core) {r : HaltRec} (hr : k.hrec.latched = true → r = k.hrec) :
    k.Stops { k.stop with hrec := r } := ⟨rfl, rfl, rfl, hr⟩

theorem Basin.Stops.of_same {v w : Basin} (he : w.event = v.event) (hb : w.sluiceBlocked = v.sluiceBlocked) : v.Stops w :=
  ⟨fun _ h => he ▸ h, hb⟩

theorem HaltRec.latch_latched {h r : HaltRec} (e : h.latched = true) : h.latch r = h := if_pos e

theorem HaltRec.latch_fresh {h r : HaltRec} (e : h.latched = false) : h.latch r = { r with latched := true } :=
  if_neg (by simp [e])

theorem HaltRec.latched_latch (h r : HaltRec) : (h.latch r).latched = true := by
  unfold HaltRec.latch
  split
  · assumption
  · rfl

theorem SMap.mem_insert {α : Type} {m : SMap α} {k : Nat} {v : α} {e : Nat × α} (h : e ∈ SMap.insert m k v) : e.1 = k ∨ e ∈ m := by
  induction m with
  | nil => exact .inl (by simp_all [SMap.insert])
  | cons p m ih =>
    obtain ⟨a, w⟩ := p
    unfold SMap.insert at h
    split at h
    · rcases List.mem_cons.1 h with rfl | h
      · exact .inl rfl
      · exact .inr h
    · split at h
      · rcases List.mem_cons.1 h with rfl | h
        · exact .inl rfl
        · exact .inr (List.mem_cons_of_mem _ h)
      · rcases List.mem_cons.1 h with rfl | h
        · exact .inr List.mem_cons_self
        · exact (ih h).imp_right (List.mem_cons_of_mem _)

/-- An update of one basin lists no other. -/
theorem State.unlisted_updBasin {s : State} {b b' : Nat} {f : Basin → Basin} (hb : b' ≠ b) (h : s.unlisted b') :
    (s.updBasin b f).unlisted b' := by
  intro e he
  have cases : e.1 = b ∨ e ∈ s.basins := by
    unfold State.updBasin State.setBasin SMap.set at he
    dsimp only at he
    split at he
    · exact .inr (List.mem_filter.1 he).1
    · exact SMap.mem_insert he
  rcases cases with h' | h'
  · exact h' ▸ hb.symm
  · exact h e h'

/-! ### Reports -/

theorem State.notify_pf0_stopParts (s : State) (v : Nat) : (s.notify .pf0 v).stopParts = s.stopParts := by
  unfold State.notify
  dsimp only
  split
  · rfl
  · rfl

theorem State.report_stopParts (s : State) (r : Report) : (s.report r).stopParts = s.stopParts := by
  unfold State.report
  dsimp only
  split
  · split
    · rfl
    · rfl
  · unfold State.postReport
    split
    · exact State.notify_pf0_stopParts _ 0
    · rfl

namespace State.Stops

variable {b : Nat} {s t u : State}

/-! ### Updates of the state -/

theorem of_same (e : t.stopParts = s.stopParts) : s.Stops b t := by
  simp only [State.stopParts, Prod.mk.injEq] at e
  obtain ⟨hb, hc, ht⟩ := e
  refine ⟨ht, ?_, fun b' _ => ?_, fun b' _ h => ?_, fun c => ?_⟩
  · simp only [State.basin, hb]
    exact .of_same rfl rfl
  · simp only [State.basin, hb]
  · simpa only [State.unlisted, hb] using h
  · simp only [State.core, hc, Core.Stops.refl]

theorem refl (s : State) : s.Stops b s := of_same rfl

theorem trans (h : s.Stops b t) (g : t.Stops b u) : s.Stops b u where
  tier := g.tier.trans h.tier
  own := ⟨fun i e => g.own.event i (h.own.event i e), g.own.blocked.trans h.own.blocked⟩
  others b' hb := (g.others b' hb).trans (h.others b' hb)
  unlisted b' hb e := g.unlisted b' hb (h.unlisted b' hb e)
  core c := (h.core c).trans (g.core c)

theorem same (h : s.Stops b t) (e : u.stopParts = t.stopParts) : s.Stops b u := h.trans (of_same e)

theorem updBasin {f : Basin → Basin} (h : s.Stops b t) (hf : ∀ v, Basin.Stops v (f v)) : s.Stops b (t.updBasin b f) := by
  refine h.trans ⟨rfl, ?_, fun b' hb => ?_, fun b' hb => State.unlisted_updBasin hb, fun c => .refl _⟩
  · rw [State.basin_updBasin_self]
    exact hf _
  · rw [State.basin_updBasin, if_neg hb.symm]

/-- An update of the basin that leaves its events and its map of blocked cores. -/
theorem updSame {f : Basin → Basin} (h : s.Stops b t)
    (he : ∀ v, (f v).event = v.event) (hb : ∀ v, (f v).sluiceBlocked = v.sluiceBlocked) :
    s.Stops b (t.updBasin b f) := h.updBasin fun v => .of_same (he v) (hb v)

theorem updCore {c : Nat} {f : Core → Core} (h : s.Stops b t) (hf : ∀ k, Core.Stops k (f k)) : s.Stops b (t.updCore c f) := by
  refine h.trans ⟨rfl, .of_same rfl rfl, fun _ _ => rfl, fun _ _ e => e, fun c' => ?_⟩
  rw [State.core_updCore]
  split
  · next e => subst e; exact hf _
  · exact .refl _

theorem updCores {cs : List Nat} {f : Nat → Core → Core} (h : s.Stops b t) (hf : ∀ c k, Core.Stops k (f c k)) :
    s.Stops b (t.updCores cs f) :=
  List.foldlRecOn cs _ h fun _ h c _ => h.updCore (hf c)

/-! ### Stops, reports and halts -/

theorem notify {v : Nat} (h : s.Stops b t) : s.Stops b (t.notify (.vf b) v) := by
  unfold State.notify
  dsimp only
  split
  · exact h.updSame (f := fun x => { x with msix := _ }) (fun _ => rfl) fun _ => rfl
  · exact h.same rfl

theorem markEvent {i : Nat} (h : s.Stops b t) : s.Stops b (t.markEvent b i) :=
  h.updBasin fun v => ⟨fun j e => by simp [e], rfl⟩

theorem setEvent {i : Nat} (h : s.Stops b t) : s.Stops b (t.setEvent b i) :=
  .same (.notify (.markEvent h)) (State.notify_pf0_stopParts _ 8)

theorem stopCores (h : s.Stops b t) : s.Stops b (t.stopCores b) := by
  unfold State.stopCores
  exact h.updCores fun _ k => .of_stop k fun e => if_pos e

theorem startTest (h : s.Stops b t) : s.Stops b (t.startTest b) := by
  have quarry : ∀ u : State, (u.switchQuarry true).stopParts = u.stopParts := fun u => by
    unfold State.switchQuarry
    split
    · rfl
    · rfl
  unfold State.startTest
  dsimp only
  split
  · exact .updSame (h.same (quarry _)) (fun _ => rfl) fun _ => rfl
  · exact h.same (quarry _)

theorem takeRebind (h : s.Stops b t) : s.Stops b (t.takeRebind b) := by
  unfold State.takeRebind
  split
  · exact h.updSame (fun _ => rfl) fun _ => rfl
  · exact h

theorem restTest (h : s.Stops b t) : s.Stops b (t.restTest b) := by
  unfold State.restTest
  split
  · exact h
  · split
    · exact h.startTest
    · exact h.takeRebind

theorem enterParked (h : s.Stops b t) : s.Stops b (t.enterParked b) := by
  unfold State.enterParked
  exact .restTest (.setEvent (h.updSame (fun _ => rfl) fun _ => rfl))

theorem beginUnbind (h : s.Stops b t) : s.Stops b (t.beginUnbind b) := by
  unfold State.beginUnbind
  exact .updSame (.stopCores (h.same rfl)) (fun _ => rfl) fun _ => rfl

theorem report {r : Report} (h : s.Stops b t) : s.Stops b (t.report r) := h.same (State.report_stopParts t r)

theorem enterFence {o : Option Nat} {kind c : Nat} (h : s.Stops b t) : s.Stops b (t.enterFence o kind c) := by
  have stopped : s.Stops b (t.updCore c fun k => { k.stop with fenced := true }) := h.updCore fun _ => ⟨rfl, rfl, rfl, fun _ => rfl⟩
  unfold State.enterFence
  exact .report (stopped.same rfl)

theorem applyFences (h : s.Stops b t) : s.Stops b (t.applyFences b) := by
  unfold State.applyFences
  dsimp only
  have fenced : s.Stops b ((t.basin b).fencePending.foldl (fun s f => s.enterFence (some b) f.1 f.2)
      (t.updBasin b fun x => { x with fencePending := [] })) :=
    List.foldlRecOn _ _ (h.updSame (fun _ => rfl) fun _ => rfl) fun _ g _ _ => g.enterFence
  split
  · exact fenced.beginUnbind
  · refine .enterParked (.markEvent (.updSame (.updCores fenced fun _ k => ?_) (fun _ => rfl) fun _ => rfl))
    exact .of_stop k HaltRec.latch_latched

theorem settle (h : s.Stops b t) : s.Stops b (t.settle b) := by
  unfold State.settle
  split
  · exact h.restTest
  · exact h.applyFences

theorem haltBasin {cause : Nat} (h : s.Stops b t) : s.Stops b (t.haltBasin b cause) := by
  unfold State.haltBasin
  exact .settle (.setEvent (.updSame h.stopCores (fun _ => rfl) fun _ => rfl))

theorem beginRestart {cause : Nat} (h : s.Stops b t) : s.Stops b (t.beginRestart b cause) := by
  unfold State.beginRestart
  dsimp only
  split
  · exact h.haltBasin
  · exact h.stopCores.updSame (fun _ => rfl) fun _ => rfl

theorem tierEvent {cause detail : Nat} (h : s.Stops b t) : s.Stops b (t.tierEvent b cause detail) := by
  unfold State.tierEvent
  split
  · exact h.markEvent
  · split
    · exact h.markEvent
    · exact h

theorem respond {cause detail : Nat} (h : s.Stops b t) : s.Stops b (t.respond b cause detail) := by
  unfold State.respond
  split
  · dsimp only
    split
    · exact h.tierEvent.beginRestart
    · exact h.tierEvent.haltBasin
  · exact h

end State.Stops

/-! ### Cores after a stop -/

/-- What a core is after an update of a list of cores that holds it, where the update repeated changes nothing more. -/
theorem State.core_updCores_of_idem {s : State} {cs : List Nat} {f : Nat → Core → Core} {c : Nat}
    (hf : ∀ k, f c (f c k) = f c k) (hc : c ∈ cs) : (s.updCores cs f).core c = f c (s.core c) := by
  have once : ∀ (l : List Nat) (s : State) (k : Core), s.core c = f c k → (s.updCores l f).core c = f c k := by
    intro l
    induction l with
    | nil => exact fun _ _ h => h
    | cons a l ih =>
      intro s k h
      refine ih _ k ?_
      rw [State.core_updCore]
      split
      · next e => subst e; rw [h, hf]
      · exact h
  induction cs generalizing s with
  | nil => cases hc
  | cons a cs ih =>
    by_cases ha : a = c
    · subst ha
      exact once cs _ _ (State.core_updCore_self ..)
    · have other : (s.updCore a (f a)).core c = s.core c := by rw [State.core_updCore, if_neg ha]
      rw [← other]
      exact ih ((List.mem_cons.1 hc).resolve_left (Ne.symm ha))

theorem State.basin_updCores (s : State) (cs : List Nat) (f : Nat → Core → Core) (b : Nat) :
    (s.updCores cs f).basin b = s.basin b := by
  rw [State.updCores_eq]
  rfl

/-- The core that halts latches its record, and nothing that the basin's response does changes it (03 R89). -/
theorem State.haltWith_hrec {s : State} {c : Nat} {r : HaltRec} (h : (s.core c).hrec.latched = false) :
    ((s.haltWith c r).core c).hrec = { r with latched := true } := by
  have own : ((s.updCore c fun k => { k.stop with hrec := k.hrec.latch r }).core c).hrec = { r with latched := true } := by
    rw [State.core_updCore_self]
    exact HaltRec.latch_fresh h
  unfold State.haltWith
  dsimp only
  split
  · exact (((State.Stops.respond (.refl _)).core c).hrec (by rw [own])).trans own
  · exact own

/-! ### The basin that halts -/

/-- A notice of an event changes the function's MSI-X table alone. -/
theorem State.notify_vf_basin (s : State) (b v : Nat) : ∃ m, (s.notify (.vf b) v).basin b = { s.basin b with msix := m } := by
  unfold State.notify
  dsimp only
  split
  · exact ⟨_, State.basin_updBasin_self ..⟩
  · exact ⟨_, rfl⟩

/-- An event sets its bit and gives its notice. -/
theorem State.setEvent_basin (s : State) (b i : Nat) : ∃ m, (s.setEvent b i).basin b =
    { s.basin b with event := (s.basin b).event ||| BitVec.ofNat 32 (2 ^ i), msix := m } := by
  obtain ⟨m, hm⟩ := (s.markEvent b i).notify_vf_basin b 0
  have parts := State.notify_pf0_stopParts ((s.markEvent b i).notify (.vf b) 0) 8
  simp only [State.stopParts, Prod.mk.injEq] at parts
  obtain ⟨hb, -⟩ := parts
  refine ⟨m, ?_⟩
  rw [State.setEvent, State.basin, hb, ← State.basin, hm, State.markEvent, State.basin_updBasin_self]

/-- The bit of an event. -/
theorem event_bit (e : BitVec 32) {i : Nat} (hi : i < 32) : (e ||| BitVec.ofNat 32 (2 ^ i)).getLsbD i = true := by
  rw [BitVec.getLsbD_or, BitVec.getLsbD_ofNat, Nat.testBit_two_pow_self]
  simp [hi]

/-- A rest that finds a due test or a PENDING re-bind leaves LAST_CAUSE. -/
theorem State.restTest_lastCause (s : State) (b : Nat) : ((s.restTest b).basin b).lastCause = (s.basin b).lastCause := by
  have tested : ∀ u : State, (u.switchQuarry true).basin b = u.basin b := fun u => by
    unfold State.switchQuarry
    split
    · rfl
    · rfl
  unfold State.restTest State.startTest State.takeRebind
  dsimp only
  split
  · rfl
  · split
    · split
      · rw [State.basin_updBasin_self, tested]; rfl
      · rw [tested]; rfl
    · split
      · rw [State.basin_updBasin_self]
      · rfl

/-- A basin that halts without a pending fence names its cause. -/
theorem State.haltBasin_lastCause {s : State} {b cause : Nat} (h : (s.basin b).fencePending = []) :
    ((s.haltBasin b cause).basin b).lastCause = cause := by
  obtain ⟨m, hm⟩ := ((s.stopCores b).updBasin b fun x => { x with
    phase := .halted, lastCause := cause, sluice := none, parkReq := false, testPause := false }).setEvent_basin b 2
  rw [State.basin_updBasin_self, State.stopCores_basin] at hm
  rw [State.haltBasin, State.settle, if_pos (by rw [hm, h]), State.restTest_lastCause, hm]

/-- A basin that halts sets BSN_EVENT.HALTED (02 R56). -/
theorem State.haltBasin_event (s : State) (b cause : Nat) : ((s.haltBasin b cause).basin b).event.getLsbD 2 = true := by
  unfold State.haltBasin
  refine (State.Stops.settle (.refl _)).own.event 2 ?_
  obtain ⟨m, hm⟩ := ((s.stopCores b).updBasin b fun x => { x with
    phase := .halted, lastCause := cause, sluice := none, parkReq := false, testPause := false }).setEvent_basin b 2
  rw [hm]
  exact event_bit _ (by decide)

/-! ### Sluice timeout -/

/-- A core that the sluice timeout halts (02 R55). -/
def Core.watchdog (k : Core) : Core :=
  { k with hrec := k.hrec.latch { aPc := k.a.pc, xPc := k.x.pc, detail := 0, stream := 3, cause := cWatchdog } }

theorem Core.watchdog_watchdog (k : Core) : k.watchdog.watchdog = k.watchdog := by
  unfold Core.watchdog
  rw [HaltRec.latch_latched (HaltRec.latched_latch ..)]

/-- A basin with the map of the cores that gave no token, and the event of the timeout. -/
def State.sluiceMissed (s : State) (b : Nat) (q : Sluice) : State :=
  (s.updBasin b fun v =>
    { v with sluiceBlocked := blockedMap v.desc ((s.liveCores b).filter fun c => !q.tokens.contains c) }).markEvent b 0

theorem State.basin_sluiceMissed (s : State) (b : Nat) (q : Sluice) : (s.sluiceMissed b q).basin b = { s.basin b with
    sluiceBlocked := blockedMap (s.basin b).desc ((s.liveCores b).filter fun c => !q.tokens.contains c)
    event := (s.basin b).event ||| BitVec.ofNat 32 (2 ^ 0) } := by
  rw [State.sluiceMissed, State.markEvent, State.basin_updBasin_self, State.basin_updBasin_self]

theorem State.liveCores_sluiceMissed (s : State) (b : Nat) (q : Sluice) : (s.sluiceMissed b q).liveCores b = s.liveCores b := by
  unfold State.liveCores
  rw [State.basin_sluiceMissed]
  rfl

theorem sluiceTimeout_halts (s : State) (b : Nat) (q : Sluice) (hq : (s.basin b).sluice = some q) (hrun : (s.basin b).phase = .running)
    (hpass : (s.basin b).closes q.n = true → s.sluiceDone b q = true → s.passActive b = false) :
    ∃ t, exec (.sluiceTimeout b) s = .next t ∧
      (∀ c ∈ s.liveCores b, (s.core c).hrec.latched = false →
        (t.core c).hrec =
          { latched := true, aPc := (s.core c).a.pc, xPc := (s.core c).x.pc, stream := 3, cause := 0x10 }) ∧
      ((s.basin b).fencePending = [] → (t.basin b).lastCause = 0x10) ∧ (t.basin b).event.getLsbD 0 = true ∧
      (t.basin b).event.getLsbD 2 = true ∧
      (t.basin b).sluiceBlocked = blockedMap (s.basin b).desc ((s.liveCores b).filter fun c => !q.tokens.contains c) := by
  have counts : (!((s.basin b).closes q.n && s.sluiceDone b q && s.passActive b)) = true := by grind
  obtain ⟨u, hu⟩ : ∃ u, u = (s.sluiceMissed b q).updCores (s.liveCores b) fun _ k => k.watchdog := ⟨_, rfl⟩
  have run : exec (.sluiceTimeout b) s = .next (u.haltBasin b cWatchdog) := by
    rw [hu, ← State.liveCores_sluiceMissed s b q]
    show execSluiceTimeout b s = .next ((s.sluiceMissed b q).haltCores b 3 cWatchdog 0)
    simp only [execSluiceTimeout, hq, hrun, counts, and_self, if_true]
    rfl
  have before : u.basin b = (s.sluiceMissed b q).basin b := by rw [hu, State.basin_updCores]
  have halted : u.Stops b (u.haltBasin b cWatchdog) := .haltBasin (.refl u)
  refine ⟨_, run, fun c hc hl => ?_, fun hf => ?_, ?_, State.haltBasin_event .., ?_⟩
  · have own : (u.core c).hrec =
        { latched := true, aPc := (s.core c).a.pc, xPc := (s.core c).x.pc, stream := 3, cause := 0x10 } := by
      rw [hu, State.core_updCores_of_idem (f := fun _ k => k.watchdog) Core.watchdog_watchdog hc]
      exact HaltRec.latch_fresh hl
    exact ((halted.core c).hrec (by rw [own])).trans own
  · exact State.haltBasin_lastCause (by rw [before, State.basin_sluiceMissed, hf])
  · refine halted.own.event 0 ?_
    rw [before, State.basin_sluiceMissed]
    exact event_bit _ (by decide)
  · rw [halted.own.blocked, before, State.basin_sluiceMissed]

/-! ### Mutual wait -/

/-- The code of the streams that wait on each other, where they do (03 R85, R90). -/
def State.mutualCode (s : State) (c b : Nat) : Option Nat :=
  let ba := s.active c .a && s.blocked b c .a
  let bx := s.active c .x && s.blocked b c .x
  if ba && bx then some 2 else if ba && (s.core c).x.halted then some 0 else if bx && (s.core c).a.halted then some 1 else none

/-- The record of a core that mutual wait halts (03 R91). -/
def Core.mutualRec (k : Core) (n : Nat) : HaltRec :=
  { aPc := k.a.pc, xPc := k.x.pc, aWait := waitCode k k.a, xWait := waitCode k k.x, stream := n, cause := cMutual }

theorem exec_mutualWait_of_some {s : State} {c b n : Nat} (hb : s.basinOf c = some b) (h : s.mutualCode c b = some n) :
    exec (.mutualWait c) s = .next (s.haltWith c ((s.core c).mutualRec n)) := by
  show execMutualWait c s = _
  unfold State.mutualCode at h
  simp only [execMutualWait, hb, h]
  rfl

theorem exec_mutualWait_of_none {s : State} {c b : Nat} (hb : s.basinOf c = some b) (h : s.mutualCode c b = none) :
    exec (.mutualWait c) s = .next s := by
  show execMutualWait c s = _
  unfold State.mutualCode at h
  simp only [execMutualWait, hb, h]

theorem mutualWait_halts (s : State) (c b : Nat) (hb : s.basinOf c = some b) (hl : (s.core c).hrec.latched = false) :
    let k := s.core c
    let ba := s.active c .a && s.blocked b c .a
    let bx := s.active c .x && s.blocked b c .x
    ∃ t, exec (.mutualWait c) s = .next t ∧
      (∀ n, ba = true ∧ bx = true ∧ n = 2 ∨ ba = true ∧ bx = false ∧ k.x.halted = true ∧ n = 0 ∨
          ba = false ∧ bx = true ∧ k.a.halted = true ∧ n = 1 →
        (t.core c).hrec = { latched := true, aPc := k.a.pc, xPc := k.x.pc, aWait := waitCode k k.a, xWait := waitCode k k.x,
                            stream := n, cause := 0x07 }) ∧
      (ba = false → bx = false → t = s) := by
  intro k ba bx
  have waits : s.mutualCode c b = if ba && bx then some 2 else if ba && k.x.halted then some 0
    else if bx && k.a.halted then some 1 else none := rfl
  have named : ∀ n, ba = true ∧ bx = true ∧ n = 2 ∨ ba = true ∧ bx = false ∧ k.x.halted = true ∧ n = 0 ∨
      ba = false ∧ bx = true ∧ k.a.halted = true ∧ n = 1 → s.mutualCode c b = some n := by
    rintro n (⟨h1, h2, rfl⟩ | ⟨h1, h2, h3, rfl⟩ | ⟨h1, h2, h3, rfl⟩)
    · rw [waits, h1, h2]; rfl
    · rw [waits, h1, h2, h3]; rfl
    · rw [waits, h1, h2, h3]; rfl
  have free : ba = false → bx = false → s.mutualCode c b = none := fun h1 h2 => by rw [waits, h1, h2]; rfl
  cases code : s.mutualCode c b with
  | none =>
    refine ⟨s, exec_mutualWait_of_none hb code, fun n hn => ?_, fun _ _ => rfl⟩
    rw [named n hn] at code
    cases code
  | some m =>
    refine ⟨_, exec_mutualWait_of_some hb code, fun n hn => ?_, fun h1 h2 => ?_⟩
    · rw [named n hn] at code
      cases code
      exact State.haltWith_hrec hl
    · rw [free h1 h2] at code
      cases code

/-! ### Slot overrun -/

/-- A basin that restarts does not respond to a halt, and another basin's response leaves it. -/
theorem State.respond_leaves {s : State} {b : Nat} (h : (s.basin b).phase = .restarting) (b' cause detail : Nat) :
    (s.respond b' cause detail).basin b = s.basin b := by
  by_cases hb : b = b'
  · subst hb
    rw [State.respond, h]
  · exact (State.Stops.respond (.refl s)).others b hb

/-- A halt of a core leaves a basin that restarts. -/
theorem State.haltWith_leaves {s : State} {b : Nat} (h : (s.basin b).phase = .restarting) (c : Nat) (r : HaltRec) :
    (s.haltWith c r).basin b = s.basin b := by
  unfold State.haltWith
  dsimp only
  split
  · exact State.respond_leaves (s := s.updCore c _) h ..
  · rfl

/-- A halt of any core leaves a record that is latched. -/
theorem State.haltWith_latched {s : State} {c : Nat} (h : (s.core c).hrec.latched = true) (d : Nat) (r : HaltRec) :
    ((s.haltWith d r).core c).hrec = (s.core c).hrec := by
  have stop : ((s.updCore d fun k => { k.stop with hrec := k.hrec.latch r }).core c).hrec = (s.core c).hrec :=
    ((State.Stops.updCore (b := 0) (.refl s) fun k => .of_stop k HaltRec.latch_latched).core c).hrec h
  unfold State.haltWith
  dsimp only
  split
  · exact (((State.Stops.respond (.refl _)).core c).hrec (by rw [stop, h])).trans stop
  · exact stop

/-- A core of a RUNNING basin that overruns its slots lets the basin restart while RESTART_LIMIT allows it (02 R50). -/
theorem State.haltCore_overrun_restarts {s : State} {b c : Nat} {st : Strm} {detail : Nat} (hb : s.basinOf c = some b)
    (hrun : (s.basin b).phase = .running) (hlim : (s.basin b).restarts < (s.basin b).restartLimit) :
    ((s.haltCore c st cOverrun detail).basin b).phase = .restarting ∧
      ((s.haltCore c st cOverrun detail).basin b).lastCause = cOverrun := by
  have restarting : ∀ u : State, u.basin b = s.basin b → ((u.respond b cOverrun detail).basin b).phase = .restarting ∧
      ((u.respond b cOverrun detail).basin b).lastCause = cOverrun := fun u hu => by
    have tier : u.tierEvent b cOverrun detail = u := by simp [State.tierEvent, cOverrun, cTier]
    have limit : ¬ (u.basin b).restartLimit ≤ (u.basin b).restarts := by rw [hu]; omega
    simp only [State.respond, hu, hrun, tier]
    rw [if_pos (by simp [Machine.restarts]), State.beginRestart, if_neg limit, State.basin_updBasin_self]
    exact ⟨rfl, rfl⟩
  have place : ∀ f, (s.updCore c f).basinOf c = some b := fun _ => hb
  unfold State.haltCore State.haltWith
  dsimp only
  rw [place]
  exact restarting _ rfl

/-- Basin `b` restarts for an overrun, and core `c` holds a record. -/
def State.overran (b c : Nat) (r : HaltRec) (s : State) : Prop :=
  (s.basin b).phase = .restarting ∧ (s.basin b).lastCause = cOverrun ∧ (s.core c).hrec = r

/-- The halt of a further core, of this basin or another, changes none of it. -/
theorem State.overran.haltCore {b c : Nat} {r : HaltRec} {s : State} (hr : r.latched = true) (h : s.overran b c r) (d : Nat) (st : Strm)
    (cause detail : Nat) : (s.haltCore d st cause detail).overran b c r := by
  obtain ⟨phase, caused, record⟩ := h
  unfold State.overran
  rw [State.haltCore, State.haltWith_leaves phase, State.haltWith_latched (by rw [record, hr])]
  exact ⟨phase, caused, record⟩

theorem slotOverrun_restarts (s : State) (b l c : Nat) (cs : List Nat) (m : Image) (g : SegRec) (hg : (s.basin b).segRec = some g)
    (hm : (s.basin b).img = some m) (hrun : (s.basin b).phase = .running) (hover : (s.basin b).seg.overtime = true)
    (htime : (s.basin b).segStart + (g.nframes + g.overtime) * g.frame ≤ s.basinTime b) (howe : s.owing b = [l])
    (hsrc : (sourceCores m g l).filter (fun d => !(s.core d).fenced) = c :: cs) (hb : s.basinOf c = some b)
    (hlim : (s.basin b).restarts < (s.basin b).restartLimit) (hl : (s.core c).hrec.latched = false) :
    ∃ t, exec (.slotOverrun b) s = .next t ∧ (t.basin b).phase = .restarting ∧ (t.basin b).lastCause = 0x0B ∧
      (t.core c).hrec =
        { latched := true, aPc := (s.core c).a.pc, xPc := (s.core c).x.pc, detail := 1, stream := 0, cause := 0x0B } := by
  have run : exec (.slotOverrun b) s = .next (cs.foldl (fun s c => s.haltCore c .a cOverrun 1) (s.haltCore c .a cOverrun 1)) := by
    show execSlotOverrun b s = _
    simp [execSlotOverrun, State.overrun, hg, hm, hrun, hover, htime, howe, hsrc]
  obtain ⟨phase, cause⟩ := State.haltCore_overrun_restarts (st := .a) (detail := 1) hb hrun hlim
  have first : (s.haltCore c .a cOverrun 1).overran b c
      { latched := true, aPc := (s.core c).a.pc, xPc := (s.core c).x.pc, detail := 1, stream := 0, cause := 0x0B } :=
    ⟨phase, cause, State.haltWith_hrec hl⟩
  exact ⟨_, run, List.foldlRecOn cs _ first fun _ h d _ => h.haltCore rfl d ..⟩

/-- Settles O20: each halt latches its cores' records, and what follows in the basin and beside it leaves them. -/
theorem runHalts : Obligations.RunHalts := ⟨sluiceTimeout_halts, mutualWait_halts, slotOverrun_restarts⟩

end Sys2Proof.Machine

/-! A restart (02 R50; 03 R71; 04 R113): the record of a core that another basin's pending fence names. -/

namespace Sys2Proof.Machine

/-- A device whose basin 0 restarts, with a record that starts core 0 at 0x1008. Basin 1 is bound on the cluster beside it: a fence
pends there that names core 0, and its receive log holds a byte for which the device has no frame. -/
def State.fenceAbroad : State :=
  { mgmt := { phase := .ready, pwrgood := true, vioOk := true, perst := false }, link := { up := true }
    basins := [
      (0, { phase := .restarting, desc := { width := 1, height := 1 }
            back := { valid := true
                      recs := [(0, { index := 0, aPc := 0x1008, xPc := 0x1010, aRegs := [], xRegs := [], aTags := 0, xTags := 0, flags := 0
                                     seed := 0, xstat := false })] } }),
      (1, { phase := .idle, desc := { originCol := 1, width := 1, height := 1 }, fencePending := [(1, 0)]
            rxLog := [(0, [(0, false)])] })] }

/-- The address of stream A of core 0 in the state that a command leaves. -/
def Outcome.aPcLeft : Out State → Option Nat
  | .next t => some (t.core 0).a.pc
  | _ => none

/-- The loss of the interval lets waiting receive logs take frames (`State.advanceTier`). Basin 1 finds none and halts, its pending fence
takes effect on core 0, and a fenced core takes no record (`State.restoreCores`). -/
theorem fenceAbroad_leaves_core : Outcome.aPcLeft (exec (.restartResume 0) State.fenceAbroad) = some 0 := by decide +kernel

/-- Refutes O21: it says that every core of the basin that is unfenced before the restart takes its record, for every `State`. Where another
basin's pending fences name such a core, the restart itself can let that fence take effect: core 0 stays at address 0, and its record
says 0x1008. A fence enters the list of the basin whose rectangle holds its core (`State.fenceCore`), and no premise asks for that. -/
theorem not_restartRestores : ¬ Obligations.RestartRestores := by
  intro restores
  obtain ⟨t, ht, -, -, -, -, -, -, cores⟩ :=
    restores State.fenceAbroad 0 (by decide) (by decide) (by decide) (by decide) (by decide) (by decide)
  obtain ⟨pc, -⟩ := cores 0 (by decide) _ rfl
  have left := fenceAbroad_leaves_core
  rw [ht] at left
  simp [Outcome.aPcLeft, pc] at left

end Sys2Proof.Machine

/-! What the tier engine's work leaves of a number that no basin has (02 R38; 09 R279, R481). -/

namespace Sys2Proof.Machine

/-! ### The invariant -/

/-- Basin `b` is not listed, nothing moves for it, and the cores of `cs` hold neither scratchpad nor registers. -/
structure State.Vacant (b : Nat) (cs : List Nat) (s : State) : Prop where
  unlisted : s.unlisted b
  unmoved : ∀ m ∈ s.tier.moves, m.basin ≠ b
  zeroed : ∀ c ∈ cs, (s.core c).sp = [] ∧ (s.core c).a.regs = [] ∧ (s.core c).x.regs = []

/-- The older of two pages, where the second is one of those asked for (09 R274, R283). -/
def olderPage (e : Nat) (ok : Page → Prop) [DecidablePred ok] (best : Option (Nat × Nat × Nat)) (q : Nat × Page) :
    Option (Nat × Nat × Nat) :=
  if ok q.2 then
    match best with
    | some (a, _, _) => if q.2.age < a then some (q.2.age, e, q.1) else best
    | none => some (q.2.age, e, q.1)
  else best

/-- A page that is chosen among the pages of listed basins is not one of a basin that is not listed. -/
theorem olderPage_listed {b e : Nat} {ok : Page → Prop} [DecidablePred ok] {best : Option (Nat × Nat × Nat)} (he : e ≠ b)
    (h : ∀ x : Nat × Nat × Nat, best = some x → x.2.1 ≠ b) (l : SMap Page) :
    ∀ x : Nat × Nat × Nat, l.foldl (olderPage e ok) best = some x → x.2.1 ≠ b := by
  refine List.foldlRecOn (motive := fun best => ∀ x : Nat × Nat × Nat, best = some x → x.2.1 ≠ b) l _ h fun best hbest q _ x hx => ?_
  unfold olderPage at hx
  split at hx
  · split at hx
    · split at hx
      · cases hx; exact he
      · exact hbest x hx
    · cases hx; exact he
  · exact hbest x hx

theorem State.mapVictim_listed {s : State} {b : Nat} {e : Nat × Nat} (h : s.unlisted b) (he : s.mapVictim = some e) : e.1 ≠ b := by
  have folds : s.mapVictim = (s.basins.foldl (fun best e =>
      e.2.pages.foldl (olderPage e.1 fun g => g.st = .hbm ∧ g.hasMap) best) none).map (·.2) := rfl
  rw [folds] at he
  obtain ⟨x, hx, rfl⟩ := Option.map_eq_some_iff.1 he
  exact List.foldlRecOn (motive := fun best => ∀ x : Nat × Nat × Nat, best = some x → x.2.1 ≠ b) s.basins _ (fun _ h => by cases h)
    (fun _ hbest e hl => olderPage_listed (h e hl) hbest _) x hx

theorem State.victim_listed {s : State} {b : Nat} {ok : Nat → Basin → Bool} {e : Nat × Nat} (h : s.unlisted b)
    (he : s.victim ok = some e) : e.1 ≠ b := by
  have folds : s.victim ok = (s.basins.foldl (fun best e => if e.2.phase ≠ .free ∧ ok e.1 e.2 then
      e.2.pages.foldl (olderPage e.1 fun g => g.evictable) best else best) none).map fun t => (t.2.1, t.2.2) := rfl
  rw [folds] at he
  obtain ⟨x, hx, rfl⟩ := Option.map_eq_some_iff.1 he
  refine List.foldlRecOn (motive := fun best => ∀ x : Nat × Nat × Nat, best = some x → x.2.1 ≠ b) s.basins _ (fun _ h => by cases h)
    (fun best hbest e hl => ?_) x hx
  split
  · exact olderPage_listed (h e hl) hbest _
  · exact hbest

theorem State.rawOwner_listed {s : State} {b f e : Nat} (h : s.unlisted b) (he : s.rawOwner f = some e) : e ≠ b := by
  obtain ⟨x, hx, rfl⟩ := Option.map_eq_some_iff.1 he
  exact h x (List.mem_of_find?_eq_some hx)

namespace State.Vacant

variable {b b' : Nat} {cs : List Nat} {s t : State}

/-! ### Updates of the state -/

/-- Another basin stops. -/
theorem stops (h : s.Vacant b cs) (hb : b ≠ b') (g : s.Stops b' t) : t.Vacant b cs where
  unlisted := g.unlisted b hb h.unlisted
  unmoved := by rw [g.tier]; exact h.unmoved
  zeroed c hc := by
    obtain ⟨sp, aRegs, xRegs⟩ := h.zeroed c hc
    exact ⟨(g.core c).sp.trans sp, (g.core c).aRegs.trans aRegs, (g.core c).xRegs.trans xRegs⟩

theorem same (h : s.Vacant b cs) (e : t.stopParts = s.stopParts) : t.Vacant b cs :=
  h.stops (Nat.succ_ne_self b).symm (.of_same e)

theorem updBasin {f : Basin → Basin} (h : s.Vacant b cs) (hb : b ≠ b') : (s.updBasin b' f).Vacant b cs :=
  ⟨State.unlisted_updBasin hb h.unlisted, h.unmoved, h.zeroed⟩

theorem moves {l : List Move} (h : s.Vacant b cs) (hl : ∀ m ∈ l, m.basin ≠ b) :
    ({ s with tier := { s.tier with moves := l } } : State).Vacant b cs := ⟨h.unlisted, hl, h.zeroed⟩

/-- A queue of moves with one more, in its place. -/
theorem queued {m : Move} {p : Prop} [Decidable p] (h : s.Vacant b cs) (hm : m.basin ≠ b) :
    ({ s with tier := { s.tier with moves := if p then m :: s.tier.moves else s.tier.moves ++ [m] } } : State).Vacant b cs := by
  refine h.moves fun n hn => ?_
  have cases : n = m ∨ n ∈ s.tier.moves := by
    split at hn
    · exact List.mem_cons.1 hn
    · exact (List.mem_append.1 hn).symm.imp_left List.mem_singleton.1
  rcases cases with rfl | hn
  · exact hm
  · exact h.unmoved n hn

theorem updPage {p : Nat} {f : Page → Page} (h : s.Vacant b cs) (hb : b ≠ b') : (s.updPage b' p f).Vacant b cs := h.updBasin hb

theorem updQueue {j : Nat} {f : TpQueue → TpQueue} (h : s.Vacant b cs) (hb : b ≠ b') : (s.updQueue b' j f).Vacant b cs :=
  h.updBasin hb

/-- What is done for every basin that was listed is done for another. -/
theorem eachBasin {f : State → Nat × Basin → State} (h : t.Vacant b cs) (hs : s.unlisted b)
    (hf : ∀ (t : State) (e : Nat × Basin), t.Vacant b cs → b ≠ e.1 → (f t e).Vacant b cs) : (s.basins.foldl f t).Vacant b cs :=
  List.foldlRecOn s.basins f h fun t ht e he => hf t e ht (hs e he).symm

theorem foldl {α : Type} {f : State → α → State} {l : List α} (h : s.Vacant b cs)
    (hf : ∀ t a, t.Vacant b cs → (f t a).Vacant b cs) : (l.foldl f s).Vacant b cs :=
  List.foldlRecOn l f h fun t ht a _ => hf t a ht

/-! ### Moves of pages -/

theorem zeroFill {p : Nat} (h : s.Vacant b cs) (hb : b ≠ b') : (s.zeroFill b' p).Vacant b cs := by
  unfold State.zeroFill
  dsimp only
  split
  · exact .updPage (h.same rfl) hb
  · exact h.updPage hb

theorem takeMap {p : Nat} (h : s.Vacant b cs) (e : s.takeMap b' p = some t) : t.Vacant b cs := by
  unfold State.takeMap at e
  split at e
  · cases e; exact h
  · obtain ⟨x, hx, rfl⟩ := Option.map_eq_some_iff.1 e
    exact .zeroFill (h.same rfl) (State.mapVictim_listed h.unlisted hx).symm

theorem askMove {p : Nat} (h : s.Vacant b cs) (hb : b ≠ b') : (s.askMove b' p).Vacant b cs := by
  unfold State.askMove
  dsimp only
  split
  · exact h
  · split
    · exact .updPage (h.same rfl) hb
    · split
      · exact .updPage (h.same rfl) hb
      · exact h

theorem addMove {p : Nat} {c : MoveCause} {f : Page → Page} (h : s.Vacant b cs) (hb : b ≠ b') : (s.addMove b' p c f).Vacant b cs := by
  unfold State.addMove
  split
  · exact h
  · next u e =>
      have chosen : (u.updPage b' p fun g => { f g with moved := 0 }).Vacant b cs := .updPage (h.takeMap e) hb
      exact .askMove (chosen.queued hb.symm) hb

theorem supply {p : Nat} (h : s.Vacant b cs) (e : s.supply b' p = .waits t) : t.Vacant b cs := by
  unfold State.supply at e
  dsimp only at e
  split at e
  · split at e
    · cases e
    · split at e
      · cases e; exact h
      · cases e
  · split at e
    · cases e
    · split at e
      · cases e; exact h
      · split at e
        · next hv _ =>
            cases e
            split
            · exact h
            · exact h.addMove (State.victim_listed h.unlisted hv).symm
        · split at e
          · cases e; exact h
          · cases e

theorem retryMove {p : Nat} (h : s.Vacant b cs) (hb : b ≠ b') : (s.retryMove b' p).Vacant b cs := by
  unfold State.retryMove
  dsimp only
  split
  · exact h
  · split
    · split
      · exact h.addMove hb
      · next e => exact h.supply e
      · exact h
    · exact h.updPage hb

theorem addRaw {f n : Nat} {c : MoveCause} (h : s.Vacant b cs) (hb : b ≠ b') : (s.addRaw b' f n c).Vacant b cs := by
  unfold State.addRaw
  split
  · exact h
  · exact .updBasin (h.queued hb.symm) hb

theorem rawMove {f : Nat} {c : MoveCause} (h : s.Vacant b cs) : (s.rawMove f c).Vacant b cs := by
  unfold State.rawMove
  split
  · next e _ => exact h.addRaw (State.rawOwner_listed h.unlisted e).symm
  · exact h

theorem startPushes (h : s.Vacant b cs) (hb : b ≠ b') : (s.startPushes b').Vacant b cs := by
  unfold State.startPushes
  refine h.foldl fun t p h => ?_
  dsimp only
  split
  · split
    · exact h
    · exact h.updBasin hb
  · split
    · exact (h.addMove hb).updBasin hb
    · exact h

theorem drain {n : Nat} (h : s.Vacant b cs) : (s.drain n).Vacant b cs := by
  unfold State.drain
  dsimp only
  have raws : ∀ l : List Nat, (l.foldl (fun s f => s.rawMove f .retirement) s).Vacant b cs := fun l => h.foldl fun t f h => h.rawMove
  refine (raws _).eachBasin (raws _).unlisted fun t e h hb => h.foldl fun t q h => ?_
  split
  · exact h
  · split
    · exact h
    · split
      · exact h.addMove hb
      · split
        · split
          · exact h
          · exact h.addMove hb
        · exact h

theorem fenceMoves {f : Nat} (h : s.Vacant b cs) : (s.fenceMoves f).Vacant b cs := by
  unfold State.fenceMoves
  refine h.rawMove.eachBasin h.unlisted fun t e h hb => h.foldl fun t q h => ?_
  dsimp only
  split
  · exact h
  · split
    · split
      · exact h.addMove hb
      · exact h
    · split
      · split
        · exact h.addMove hb
        · exact h
      · exact h

/-! ### Depths, logs and buffers -/

theorem takeFrames {n : Nat} {l : List Nat} (h : s.Vacant b cs) (hb : b ≠ b') (e : takeFrames b' n s l = .waits t) :
    t.Vacant b cs := by
  induction n generalizing s l with
  | zero => cases e
  | succ n ih =>
    unfold Machine.takeFrames at e
    split at e
    · exact ih (h.updBasin hb) e
    · next hs => cases e; exact h.supply hs
    · cases e

theorem setDepth {j d : Nat} (h : s.Vacant b cs) (hb : b ≠ b') : (s.setDepth b' j d).Vacant b cs := by
  unfold State.setDepth
  dsimp only
  split
  · exact h.updQueue hb
  · split
    · exact h.updQueue hb
    · next e => exact (((h.updQueue hb).takeFrames hb e).updBasin hb).updQueue hb
    · exact h.updQueue hb

theorem retryDepths (h : s.Vacant b cs) (hb : b ≠ b') : (s.retryDepths b').Vacant b cs := by
  unfold State.retryDepths
  refine h.foldl fun t e h => ?_
  split
  · exact h.setDepth hb
  · exact h

theorem growLog {n : Nat} (h : s.Vacant b cs) (hb : b ≠ b') : (growLog b' n s).Vacant b cs := by
  induction n generalizing s with
  | zero => exact h
  | succ n ih =>
    unfold Machine.growLog
    split
    · exact h
    · split
      · exact ih (h.updBasin hb)
      · next e => exact h.supply e
      · exact h.stops hb (.haltBasin (.markEvent (.refl s)))

theorem drainGroup {n : Nat} (h : s.Vacant b cs) : (s.drainGroup n).Vacant b cs := by
  unfold State.drainGroup
  dsimp only
  split
  · exact h
  · refine .foldl (h.same rfl) fun t p h => ?_
    unfold State.pausePrio
    dsimp only
    repeat' split
    all_goals exact h.same rfl

/-- What goes on after frames have become free concerns listed basins alone. -/
theorem advanceTier (h : s.Vacant b cs) : s.advanceTier.Vacant b cs := by
  unfold State.advanceTier
  have retried : State.Vacant b cs _ := h.eachBasin h.unlisted
    (f := fun s e => e.2.pages.foldl (fun s q => s.retryMove e.1 q.1) s) fun t e h hb => h.foldl fun t q h => h.retryMove hb
  have depths : State.Vacant b cs _ := retried.eachBasin retried.unlisted (f := fun s e => s.retryDepths e.1) fun t e h hb => h.retryDepths hb
  have logs : State.Vacant b cs _ := depths.eachBasin depths.unlisted (f := fun s e => s.fillLog e.1) fun t e h hb => h.growLog hb
  have groups : State.Vacant b cs _ := logs.foldl (f := State.drainGroup) (l := List.range 4) fun t n h => h.drainGroup
  have pushes : State.Vacant b cs _ := groups.eachBasin groups.unlisted (f := fun s e => s.startPushes e.1) fun t e h hb => h.startPushes hb
  refine .foldl (pushes.foldl fun t n h => ?drains) fun t n h => h.foldl fun t f h => h.fenceMoves
  case drains =>
    split
    · exact h.drain
    · exact h

end State.Vacant
end Sys2Proof.Machine

/-! The completion of the binder's work (02 R35, R36, R38; 13 R370; 15 R430). -/

namespace Sys2Proof.Machine

/-! ### What the binder's helpers leave -/

/-- Domains of clusters switch without a change of basins, cores or the tier engine. -/
theorem State.switchClusters_stopParts (s : State) (on : Bool) (cs : List Nat) : (s.switchClusters on cs).stopParts = s.stopParts := by
  unfold State.switchClusters
  refine List.foldlRecOn (motive := fun t : State => t.stopParts = s.stopParts) cs _ rfl fun t h c _ => ?_
  split
  · exact h
  · exact h

/-- Whether a cluster's domain is on after others have been switched on (13 R370). -/
theorem State.switchClusters_bit (s : State) (cs : List Nat) (n : Nat) :
    (s.switchClusters true cs).power.clusterOn.getLsbD n = (s.power.clusterOn.getLsbD n || (decide (n ∈ cs) && decide (n < 64))) := by
  have one : ∀ (s : State) (c : Nat), (s.switchClusters true [c]).power.clusterOn.getLsbD n =
      (s.power.clusterOn.getLsbD n || (decide (n = c) && decide (n < 64))) := by
    intro s c
    simp only [State.switchClusters, List.foldl_cons, List.foldl_nil]
    split
    · next on =>
        by_cases hc : n = c
        · simp [hc, on]
        · simp [hc]
    · show (setBit s.power.clusterOn c true).getLsbD n = _
      rw [setBit_getLsbD]
      grind
  induction cs generalizing s with
  | nil => simp [State.switchClusters]
  | cons c cs ih =>
    have first : s.switchClusters true (c :: cs) = (s.switchClusters true [c]).switchClusters true cs := rfl
    rw [first, ih, one]
    grind

/-- Quarry's domain and its cores are not the clusters'. -/
theorem State.switchQuarry_keeps (s : State) (on : Bool) :
    (s.switchQuarry on).stopParts = s.stopParts ∧ (s.switchQuarry on).power.clusterOn = s.power.clusterOn := by
  unfold State.switchQuarry
  split
  · exact ⟨rfl, rfl⟩
  · exact ⟨rfl, rfl⟩

/-- A basin that does not run comes to rest without a change, where no re-bind is PENDING. -/
theorem State.restTest_keeps {s : State} {b : Nat} (hp : (s.basin b).phase ≠ .running) (hr : (s.basin b).pendingRebind = none) :
    (s.restTest b).stopParts = s.stopParts ∧ (s.restTest b).power.clusterOn = s.power.clusterOn := by
  unfold State.restTest State.startTest State.takeRebind
  dsimp only
  split
  · exact ⟨rfl, rfl⟩
  · split
    · obtain ⟨parts, on⟩ := State.switchQuarry_keeps
        { s with rel := { s.rel with testing := (s.rel.testing ++ s.liveCores b).dedup } } true
      simp only [State.stopParts, Prod.mk.injEq] at parts
      have idle : ((State.switchQuarry { s with rel := { s.rel with testing := (s.rel.testing ++ s.liveCores b).dedup } } true).basin
          b).phase ≠ .running := by
        rw [State.basin, parts.1]; exact hp
      rw [if_neg idle]
      exact ⟨by simp only [State.stopParts, parts], on⟩
    · rw [hr]
      exact ⟨rfl, rfl⟩

/-- Tests of unbound cores change no basin, no core and nothing of the tier engine. -/
theorem State.testUnbound_stopParts (s : State) : s.testUnbound.stopParts = s.stopParts := by
  unfold State.testUnbound
  dsimp only
  split
  · rfl
  · split
    · rfl
    · exact (State.switchClusters_stopParts ..).trans (State.switchQuarry_keeps ..).1

/-! ### The end of the keyed command -/

/-- The keyed command that the binder carried out, where there was one, reads DONE (15 R430). -/
def State.endBinder (s : State) (b : Nat) (keyed : Bool) : State :=
  if keyed then (s.updBasin b fun v => { v with kcmd := false }).endKeyed kDone else s

theorem State.notify_pf0_power (s : State) (v : Nat) : (s.notify .pf0 v).power = s.power := by
  unfold State.notify
  dsimp only
  split
  · rfl
  · rfl

theorem State.endKeyed_stopParts (s : State) (st : Nat) : (s.endKeyed st).stopParts = s.stopParts :=
  State.notify_pf0_stopParts _ 2

theorem State.basin_endBinder (s : State) (b : Nat) (keyed : Bool) :
    (s.endBinder b keyed).basin b = { s.basin b with kcmd := (s.basin b).kcmd && !keyed } := by
  cases keyed with
  | false => simp [State.endBinder]
  | true =>
    have parts := State.endKeyed_stopParts (s.updBasin b fun v => { v with kcmd := false }) kDone
    simp only [State.stopParts, Prod.mk.injEq] at parts
    rw [State.endBinder, if_pos rfl, State.basin, parts.1, ← State.basin, State.basin_updBasin_self]
    simp

theorem State.endBinder_keeps (s : State) (b : Nat) (keyed : Bool) :
    (s.endBinder b keyed).cores = s.cores ∧ (s.endBinder b keyed).tier = s.tier ∧ (s.endBinder b keyed).power = s.power := by
  cases keyed with
  | false => exact ⟨rfl, rfl, rfl⟩
  | true =>
    have parts := State.endKeyed_stopParts (s.updBasin b fun v => { v with kcmd := false }) kDone
    simp only [State.stopParts, Prod.mk.injEq] at parts
    exact ⟨parts.2.1, parts.2.2, State.notify_pf0_power ..⟩

theorem State.endBinder_sec {s : State} {b : Nat} {keyed : Bool} (h : keyed = true) :
    (s.endBinder b keyed).sec.status = 0x01 ∧ (s.endBinder b keyed).sec.busy = false := by
  obtain ⟨-, -, hs⟩ := State.endKeyed_keeps (s.updBasin b fun v => { v with kcmd := false }) kDone
  rw [State.endBinder, if_pos h, hs]
  exact ⟨rfl, rfl⟩

/-! ### A bind -/

theorem State.basin_clearBasinCounters (s : State) (b c : Nat) : (s.clearBasinCounters b).basin c = s.basin c := rfl

/-- A bound basin is IDLE with its descriptor and nothing else but the counts its view starts from, its cores are zeroed, and its
clusters' domains are on (02 R35, R36; 13 R370). -/
theorem State.finishBind_leaves (s : State) (b : Nat) (d : Desc) :
    (∃ w, (s.finishBind b d).basin b = { phase := .idle, desc := d, viewBase := w }) ∧
      (∀ c ∈ d.cores, (s.finishBind b d).core c = { fenced := (s.core c).fenced }) ∧
      ∀ n ∈ d.clusters, n < 64 → (s.finishBind b d).power.clusterOn.getLsbD n = true := by
  obtain ⟨z, hz⟩ : ∃ z, z = (s.switchClusters true d.clusters).zeroCores d.cores := ⟨_, rfl⟩
  obtain ⟨u, hu⟩ : ∃ u, u = (z.setBasin b { phase := .idle, desc := d, viewBase := z.viewOf d.cores [] }).clearBasinCounters b :=
    ⟨_, rfl⟩
  have bound : u.basin b = { phase := .idle, desc := d, viewBase := z.viewOf d.cores [] } := by
    rw [hu, State.basin_clearBasinCounters, State.basin_setBasin_self]
  have rest : s.finishBind b d = u.restTest b := by rw [hu, hz]; rfl
  obtain ⟨parts, on⟩ := State.restTest_keeps (s := u) (b := b) (by rw [bound]; exact nofun) (by rw [bound])
  simp only [State.stopParts, Prod.mk.injEq] at parts
  obtain ⟨basins, cores, -⟩ := parts
  rw [rest]
  refine ⟨⟨_, by rw [State.basin, basins]; exact bound⟩, fun c hc => ?_, fun n hn hlt => ?_⟩
  · have before : (s.switchClusters true d.clusters).core c = s.core c := by
      have parts := s.switchClusters_stopParts true d.clusters
      simp only [State.stopParts, Prod.mk.injEq] at parts
      rw [State.core, parts.2.1]; rfl
    have zero : u.core c = { fenced := (s.core c).fenced } := by
      rw [← before, hu, hz]
      exact State.core_updCores_of_idem (f := fun _ k => { fenced := k.fenced }) (fun _ => rfl) hc
    rw [State.core, cores]; exact zero
  · rw [on, hu, hz, State.zeroCores, State.updCores_eq]
    show (s.switchClusters true d.clusters).power.clusterOn.getLsbD n = true
    simp [State.switchClusters_bit, hn, hlt]

theorem binderCompletion_binds (s : State) (b : Nat) (d : Desc) (hp : (s.basin b).phase = .binding)
    (hd : (s.basin b).newDesc = some d) (hw : (s.basin b).desc.width = 0) :
    ∃ t, exec (.binderCompletion b) s = .next t ∧ (t.basin b).phase = .idle ∧ (t.basin b).desc = d ∧
      (t.basin b).newDesc = none ∧ (t.basin b).mem = [] ∧ (t.basin b).img = none ∧ (t.basin b).kcmd = false ∧
      (∀ c ∈ d.cores, t.core c = { fenced := (s.core c).fenced }) ∧
      (∀ n ∈ d.clusters, n < 64 → t.power.clusterOn.getLsbD n = true) ∧
      ((s.basin b).kcmd = true → t.sec.status = 0x01 ∧ t.sec.busy = false) := by
  have run : exec (.binderCompletion b) s = .next ((s.finishBind b d).endBinder b (s.basin b).kcmd) := by
    show execBinderCompletion b s = _
    simp only [execBinderCompletion, hp, hd, hw, if_true]
    rfl
  obtain ⟨⟨w, bound⟩, zeroed, on⟩ := s.finishBind_leaves b d
  obtain ⟨cores, -, power⟩ := (s.finishBind b d).endBinder_keeps b (s.basin b).kcmd
  have own : ((s.finishBind b d).endBinder b (s.basin b).kcmd).basin b = { phase := .idle, desc := d, viewBase := w } := by
    simp only [State.basin_endBinder, bound, Bool.false_and]
  refine ⟨_, run, by rw [own], by rw [own], by rw [own], by rw [own], by rw [own], by rw [own], fun c hc => ?_,
    fun n hn hlt => ?_, State.endBinder_sec⟩
  · rw [State.core, cores, ← State.core]
    exact zeroed c hc
  · rw [power]
    exact on n hn hlt

/-! ### An unbind -/

/-- The device without what moved, travelled or waited for a basin (02 R38). -/
def State.withdraw (s : State) (b : Nat) : State :=
  let u := ((s.clearTransport b).dropPasses b).resetQps b
  { u with
    tier := { u.tier with moves := u.tier.moves.filter fun m => decide (m.basin ≠ b) }
    rel := { u.rel with adderPending := u.rel.adderPending.filter fun a => !(s.basin b).desc.contains a.1 } }

/-- The device with a basin's cores zeroed, its domains off and its entry gone. -/
def State.release (s : State) (b : Nat) (d : Desc) : State := ((s.zeroCores d.cores).switchClusters false d.clusters).setBasin b {}

theorem State.finishUnbind_eq (s : State) (b : Nat) : s.finishUnbind b = ((s.basin b).fencePending.foldl
    (fun s f => s.enterFence none f.1 f.2) ((s.withdraw b).release b (s.basin b).desc)).advanceTier.testUnbound := rfl

theorem State.release_vacant {s : State} {b : Nat} {d : Desc} (h : ∀ m ∈ s.tier.moves, m.basin ≠ b) :
    (s.release b d).Vacant b d.cores := by
  have parts := State.switchClusters_stopParts (s.zeroCores d.cores) false d.clusters
  simp only [State.stopParts, Prod.mk.injEq] at parts
  obtain ⟨-, cores, tier⟩ := parts
  refine ⟨fun e he => ?_, ?_, fun c hc => ?_⟩
  · rw [State.release, State.setBasin, SMap.set, if_pos rfl] at he
    simpa using (List.mem_filter.1 he).2
  · rw [State.release, State.setBasin_tier, tier, State.zeroCores, State.updCores_eq]
    exact h
  · rw [State.release, State.core_setBasin, State.core, cores, ← State.core]
    exact State.core_updCores_of_mem (p := fun k => k.sp = [] ∧ k.a.regs = [] ∧ k.x.regs = []) (fun _ _ => ⟨rfl, rfl, rfl⟩) hc

/-- An unbound basin leaves nothing of it: no entry, no move, and zeroed cores (02 R36, R38). -/
theorem State.finishUnbind_vacant (s : State) (b : Nat) : (s.finishUnbind b).Vacant b (s.basin b).desc.cores := by
  have released : ((s.withdraw b).release b (s.basin b).desc).Vacant b (s.basin b).desc.cores :=
    State.release_vacant fun m hm => by simpa using (List.mem_filter.1 hm).2
  have fenced := released.foldl (f := fun s f => s.enterFence none f.1 f.2) (l := (s.basin b).fencePending) fun t f h =>
    h.stops (Nat.succ_ne_self b).symm (.enterFence (.refl t))
  rw [State.finishUnbind_eq]
  exact fenced.advanceTier.same (State.testUnbound_stopParts _)

theorem binderCompletion_unbinds (s : State) (b : Nat) (hp : (s.basin b).phase = .unbinding) :
    ∃ t, exec (.binderCompletion b) s = .next t ∧ t.basin b = {} ∧
      (∀ c ∈ (s.basin b).desc.cores, (t.core c).sp = [] ∧ (t.core c).a.regs = [] ∧ (t.core c).x.regs = []) ∧
      (∀ m ∈ t.tier.moves, m.basin ≠ b) ∧ ((s.basin b).kcmd = true → t.sec.status = 0x01 ∧ t.sec.busy = false) := by
  have run : exec (.binderCompletion b) s = .next ((s.finishUnbind b).endBinder b (s.basin b).kcmd) := by
    show execBinderCompletion b s = _
    unfold execBinderCompletion
    dsimp only
    rw [hp]
    rfl
  obtain ⟨unlisted, unmoved, zeroed⟩ := s.finishUnbind_vacant b
  obtain ⟨cores, tier, -⟩ := (s.finishUnbind b).endBinder_keeps b (s.basin b).kcmd
  refine ⟨_, run, ?_, fun c hc => ?_, ?_, State.endBinder_sec⟩
  · have free : (s.finishUnbind b).basin b = {} := SMap.get_unlisted _ _ _ unlisted
    simp only [State.basin_endBinder, free, Bool.false_and]
  · rw [State.core, cores, ← State.core]
    exact zeroed c hc
  · rw [tier]
    exact unmoved

end Sys2Proof.Machine

/-! The completion of a re-bind (02 R35, R39, R40). -/

namespace Sys2Proof.Machine

/-! ### Bindings and memory -/

/-- What a binding is, with the basin's memory. -/
def Basin.bindParts (v : Basin) : BasinPhase × Desc × Option Desc × Bool × Option Desc × List (Nat × Nat) × SMap Byte :=
  (v.phase, v.desc, v.newDesc, v.kcmd, v.pendingRebind, v.fencePending, v.mem)

/-- Every basin's binding and memory are as they were. -/
def State.SameBinding (s t : State) : Prop := ∀ b, (t.basin b).bindParts = (s.basin b).bindParts

namespace State.SameBinding

variable {s t u : State} {b : Nat}

theorem refl (s : State) : s.SameBinding s := fun _ => rfl

theorem trans (h : s.SameBinding t) (g : t.SameBinding u) : s.SameBinding u := fun b => (g b).trans (h b)

theorem same (h : s.SameBinding t) (e : u.basins = t.basins) : s.SameBinding u :=
  h.trans fun b => by rw [State.basin, State.basin, e]

theorem updBasin {f : Basin → Basin} (h : s.SameBinding t) (hf : ∀ v, (f v).bindParts = v.bindParts) :
    s.SameBinding (t.updBasin b f) := by
  refine h.trans fun b' => ?_
  rw [State.basin_updBasin]
  split
  · next e => subst e; exact hf _
  · rfl

theorem updPage {p : Nat} {f : Page → Page} (h : s.SameBinding t) : s.SameBinding (t.updPage b p f) := h.updBasin fun _ => rfl

theorem updCores {cs : List Nat} {f : Nat → Core → Core} (h : s.SameBinding t) : s.SameBinding (t.updCores cs f) :=
  h.trans fun b => by rw [State.basin_updCores]

theorem switchClusters {on : Bool} {cs : List Nat} (h : s.SameBinding t) : s.SameBinding (t.switchClusters on cs) := by
  have parts := t.switchClusters_stopParts on cs
  simp only [State.stopParts, Prod.mk.injEq] at parts
  exact h.same parts.1

theorem setEvent {i : Nat} (h : s.SameBinding t) : s.SameBinding (t.setEvent b i) := by
  refine h.trans fun b' => ?_
  by_cases hb : b' = b
  · subst hb
    obtain ⟨m, hm⟩ := t.setEvent_basin b' i
    rw [hm]
    rfl
  · rw [(State.Stops.setEvent (.refl t)).others b' hb]

/-! ### Moves of pages -/

theorem zeroFill {p : Nat} (h : s.SameBinding t) : s.SameBinding (t.zeroFill b p) := by
  unfold State.zeroFill
  dsimp only
  split
  · exact .updPage (h.same rfl)
  · exact h.updPage

theorem takeMap {p : Nat} (h : s.SameBinding t) (e : t.takeMap b p = some u) : s.SameBinding u := by
  unfold State.takeMap at e
  split at e
  · cases e; exact h
  · obtain ⟨x, -, rfl⟩ := Option.map_eq_some_iff.1 e
    exact .zeroFill (h.same rfl)

theorem askMove {p : Nat} (h : s.SameBinding t) : s.SameBinding (t.askMove b p) := by
  unfold State.askMove
  dsimp only
  split
  · exact h
  · split
    · exact .updPage (h.same rfl)
    · split
      · exact .updPage (h.same rfl)
      · exact h

theorem addMove {p : Nat} {c : MoveCause} {f : Page → Page} (h : s.SameBinding t) : s.SameBinding (t.addMove b p c f) := by
  unfold State.addMove
  split
  · exact h
  · next v e =>
      have chosen : s.SameBinding (v.updPage b p fun g => { f g with moved := 0 }) := .updPage (h.takeMap e)
      exact .askMove (chosen.same rfl)

theorem trimPages {n : Nat} (h : s.SameBinding t) : s.SameBinding (trimPages b n t) := by
  induction n generalizing t with
  | zero => exact h
  | succ n ih =>
    unfold Machine.trimPages
    dsimp only
    split
    · exact h
    · split
      · exact ih h.addMove
      · exact h

end State.SameBinding

/-! ### The steps of a re-bind -/

/-- The cores, the program and the domains of a basin whose rectangle changes (02 R39; 13 R370). -/
def State.moveRect (s : State) (b : Nat) (o d : Desc) : State :=
  if o.sameRect d then s
  else
    let gone := o.cores.filter fun c => !d.contains c
    let new := d.cores.filter fun c => !o.contains c
    let s := ((s.clearProgram b).zeroCores gone).zeroCores new
    let s := s.updBasin b fun v => { v with viewBase := s.viewOf new v.viewBase }
    (s.switchClusters false (o.clusters.filter fun c => !d.clusters.contains c)).switchClusters true d.clusters

theorem State.moveRect_sameBinding (s : State) (b : Nat) (o d : Desc) : s.SameBinding (s.moveRect b o d) := by
  have program : s.SameBinding (s.clearProgram b) := by
    unfold State.clearProgram
    exact .updBasin (.updCores (.refl s)) fun _ => rfl
  unfold State.moveRect
  split
  · exact .refl s
  · exact .switchClusters (.switchClusters (.updBasin (.updCores (.updCores program)) fun _ => rfl))

/-- The device with a basin bound anew, before pages above its limit leave. -/
def State.rebound (s : State) (b : Nat) (d : Desc) : State :=
  ((s.updBasin b fun v => v.recharge d).moveRect b (s.basin b).desc d).updBasin b fun v =>
    { v with desc := d, newDesc := none, phase := if (s.basin b).desc.sameRect d then .parked else .idle }

/-- The same with those pages on their way and the event given. -/
def State.trimmed (s : State) (b : Nat) (d : Desc) : State :=
  let u := trimPages b ((s.rebound b d).basin b).held (s.rebound b d)
  if (u.basin b).kcmd then u else u.setEvent b 4

theorem State.finishRebind_eq (s : State) (b : Nat) (d : Desc) : s.finishRebind b d = ((s.trimmed b d).settle b).testUnbound := rfl

theorem State.rebound_bindParts (s : State) (b : Nat) (d : Desc) : ((s.rebound b d).basin b).bindParts =
    (if (s.basin b).desc.sameRect d then .parked else .idle, d, none, (s.basin b).kcmd, (s.basin b).pendingRebind,
      (s.basin b).fencePending, (s.basin b).mem) := by
  have moved := (State.SameBinding.updBasin (b := b) (f := fun v => v.recharge d) (.refl s) fun _ => rfl).trans
    (State.moveRect_sameBinding _ b (s.basin b).desc d) b
  simp only [Basin.bindParts, Prod.mk.injEq] at moved
  obtain ⟨-, -, -, keyed, rebind, fences, mem⟩ := moved
  rw [State.rebound, State.basin_updBasin_self]
  simp only [Basin.bindParts, keyed, rebind, fences, mem]

theorem State.trimmed_bindParts (s : State) (b : Nat) (d : Desc) :
    ((s.trimmed b d).basin b).bindParts = ((s.rebound b d).basin b).bindParts := by
  unfold State.trimmed
  dsimp only
  split
  · exact State.SameBinding.trimPages (.refl _) b
  · exact (State.SameBinding.trimPages (.refl _)).setEvent b

/-- A re-bind that no keyed command carried out sets BSN_EVENT bit 4 (02 R40, R56). -/
theorem State.trimmed_event {s : State} {b : Nat} {d : Desc} (h : (s.basin b).kcmd = false) :
    ((s.trimmed b d).basin b).event.getLsbD 4 = true := by
  have parts := (State.SameBinding.trimPages (b := b) (n := ((s.rebound b d).basin b).held) (.refl (s.rebound b d)) b).trans
    (s.rebound_bindParts b d)
  simp only [Basin.bindParts, Prod.mk.injEq] at parts
  obtain ⟨-, -, -, keyed, -⟩ := parts
  obtain ⟨m, hm⟩ := (Machine.trimPages b ((s.rebound b d).basin b).held (s.rebound b d)).setEvent_basin b 4
  rw [State.trimmed, if_neg (by simp [keyed, h]), hm]
  exact event_bit _ (by decide)

/-- A basin at rest with nothing that waits for its rest settles without a change. -/
theorem State.settle_stopParts {s : State} {b : Nat} (hf : (s.basin b).fencePending = []) (hp : (s.basin b).phase ≠ .running)
    (hr : (s.basin b).pendingRebind = none) : (s.settle b).stopParts = s.stopParts := by
  rw [State.settle, if_pos hf]
  exact (State.restTest_keeps hp hr).1

/-- What settles after a re-bind with no pending fence or further re-bind changes no basin. -/
theorem State.finishRebind_basin {s : State} {b : Nat} (d : Desc) (hf : (s.basin b).fencePending = [])
    (hr : (s.basin b).pendingRebind = none) : (s.finishRebind b d).basin b = (s.trimmed b d).basin b := by
  have parts := (s.trimmed_bindParts b d).trans (s.rebound_bindParts b d)
  simp only [Basin.bindParts, Prod.mk.injEq] at parts
  obtain ⟨phase, -, -, -, rebind, fences, -⟩ := parts
  have idle : ((s.trimmed b d).basin b).phase ≠ .running := by
    rw [phase]
    split
    · exact nofun
    · exact nofun
  have settled := (State.testUnbound_stopParts _).trans
    (State.settle_stopParts (fences.trans hf) idle (rebind.trans hr))
  rw [← State.finishRebind_eq] at settled
  simp only [State.stopParts, Prod.mk.injEq] at settled
  rw [State.basin, settled.1, ← State.basin]

theorem binderCompletion_rebinds (s : State) (b : Nat) (d : Desc) (hp : (s.basin b).phase = .binding)
    (hd : (s.basin b).newDesc = some d) (hw : (s.basin b).desc.width ≠ 0) (hf : (s.basin b).fencePending = [])
    (hr : (s.basin b).pendingRebind = none) :
    ∃ t, exec (.binderCompletion b) s = .next t ∧ (t.basin b).desc = d ∧ (t.basin b).newDesc = none ∧
      (t.basin b).phase = (if (s.basin b).desc.sameRect d then .parked else .idle) ∧ (t.basin b).kcmd = false ∧
      ((s.basin b).kcmd = false → (t.basin b).event.getLsbD 4 = true) ∧
      ((s.basin b).kcmd = true → t.sec.status = 0x01 ∧ t.sec.busy = false) ∧ ∀ a, t.memByte b a = s.memByte b a := by
  have run : exec (.binderCompletion b) s = .next ((s.finishRebind b d).endBinder b (s.basin b).kcmd) := by
    show execBinderCompletion b s = _
    simp only [execBinderCompletion, hp, hd, hw, if_false]
    rfl
  have parts := (s.trimmed_bindParts b d).trans (s.rebound_bindParts b d)
  have event := State.trimmed_event (s := s) (b := b) (d := d)
  have settled := State.finishRebind_basin d hf hr
  have own := State.basin_endBinder (s.finishRebind b d) b (s.basin b).kcmd
  have done := State.endBinder_sec (s := s.finishRebind b d) (b := b) (keyed := (s.basin b).kcmd)
  generalize (s.trimmed b d).basin b = w at parts event settled
  generalize (s.finishRebind b d).endBinder b (s.basin b).kcmd = t at run own done
  simp only [Basin.bindParts, Prod.mk.injEq] at parts
  obtain ⟨phase, desc, newDesc, keyed, -, -, mem⟩ := parts
  rw [settled, keyed, Bool.and_not_self] at own
  refine ⟨t, run, ?_, ?_, ?_, ?_, fun hk => ?_, done, fun a => ?_⟩
  · rw [own, desc]
  · rw [own, newDesc]
  · rw [own, phase]
  · rw [own]
  · rw [own, event hk]
  · rw [State.memByte, own, mem, State.memByte]

/-- Settles O30: a bind by what a basin at rest keeps, a re-bind by the binding that its steps keep, and an unbind by what
the tier engine leaves of a number that no basin has. -/
theorem binderCompletes : Obligations.BinderCompletes :=
  ⟨binderCompletion_binds, binderCompletion_rebinds, fun s b hp _ => binderCompletion_unbinds s b hp⟩

end Sys2Proof.Machine

/-! What an instruction that issues leaves of its core and of the device (04 R102, R109). -/

namespace Sys2Proof.Machine

/-! ### The stream that goes on -/

@[simp] theorem Stream.setReg_counts (u : Stream) (n last m : Nat) (v : Word) (p : Bool) :
    (u.setReg n v p).counts last m = u.counts last m := by
  simp only [Stream.counts, Stream.setReg_loops]

@[simp] theorem Stream.setReg_ends (u : Stream) (n last : Nat) (v : Word) (p : Bool) : (u.setReg n v p).ends last = u.ends last := by
  simp only [Stream.ends, Stream.setReg_loops]

theorem Stream.goesOn_retire (u : Stream) (wc cc : Nat) : u.goesOn (u.retire wc cc) wc cc := by
  obtain ⟨-, halted, stopped, -⟩ := Stream.after_keeps { u with wait := .none, issue := u.issue + cc, ahead := u.ahead + cc }
    (u.pc + 8 * wc) (u.pc + 8 * wc + 8) u.loops
  exact ⟨Stream.retire_pc u wc cc, Stream.retire_issue u wc cc, Stream.retire_wait u wc cc, halted, stopped⟩

/-- A stream goes on from a written register as it would from the register as it was. -/
@[simp] theorem Stream.goesOn_setReg (u v : Stream) (n wc cc : Nat) (w : Word) (p : Bool) :
    (u.setReg n w p).goesOn v wc cc ↔ u.goesOn v wc cc := by
  simp [Stream.goesOn]

theorem Stream.keepsRegs_retire (u : Stream) (wc cc rd : Nat) : u.keepsRegs (u.retire wc cc) (u.pc + 8 * wc) rd :=
  fun n hn _ hc => ⟨(u.retire_reg wc cc n hc).1, (u.retire_reg wc cc n hc).2 hn⟩

theorem Stream.keepsRegs_setReg_retire (u : Stream) (wc cc rd : Nat) (w : Word) (p : Bool) :
    u.keepsRegs ((u.setReg rd w p).retire wc cc) (u.pc + 8 * wc) rd := by
  intro n hn hrd hc
  obtain ⟨hreg, htag⟩ := (u.setReg rd w p).retire_reg wc cc n (by simpa using hc)
  have other : ¬(rd = n ∧ rd ≠ 0) := by omega
  rw [hreg, htag hn, Stream.reg_setReg, Stream.tag_setReg _ _ _ _ _ hn, if_neg other, if_neg other]
  exact ⟨rfl, rfl⟩

/-- The register that an instruction writes, where no loop level that ends with it counts there. -/
theorem Stream.setReg_retire_self (u : Stream) {wc cc rd : Nat} (w : Word) (p : Bool) (h16 : rd < 16) (h0 : rd ≠ 0)
    (hc : u.counts (u.pc + 8 * wc) rd = false) :
    ((u.setReg rd w p).retire wc cc).reg rd = w ∧ ((u.setReg rd w p).retire wc cc).tag rd = p := by
  obtain ⟨hreg, htag⟩ := (u.setReg rd w p).retire_reg wc cc rd (by simpa using hc)
  rw [hreg, htag h16, Stream.reg_setReg, Stream.tag_setReg _ _ _ _ _ h16]
  simp [h0]

/-! ### The core that changes -/

theorem State.onlyCore_setCore (s : State) (c : Nat) (v : Core) : s.onlyCore (s.setCore c v) c :=
  ⟨by simp only [State.setCore], fun c' h => by rw [State.core_setCore, if_neg h.symm], fun _ _ => rfl, fun _ _ => rfl⟩

theorem State.onlyCore_setCore_retire (s : State) (c : Nat) (v : Core) (st : Strm) (wc cc : Nat) :
    s.onlyCore ((s.setCore c v).retire c st wc cc) c := by
  refine ⟨?_, fun c' h => ?_, fun key h => ?_, fun _ _ => rfl⟩
  · simp only [State.retire, State.count, State.updCore, State.setCore]
  · rw [State.retire_core, if_neg h.symm, State.core_setCore, if_neg h.symm]
  · rw [State.retire, State.count_get, if_neg (h _).symm]; rfl

@[simp] theorem State.core_setCore_retire (s : State) (c : Nat) (v : Core) (st : Strm) (wc cc : Nat) :
    ((s.setCore c v).retire c st wc cc).core c = v.setStream st ((v.stream st).retire wc cc) := by
  simp [State.retire_core]

/-- A core that changes outside its scratchpad leaves every byte. -/
theorem State.onlyCore.sameBytes {s t : State} {c : Nat} (h : s.onlyCore t c) (hsp : (t.core c).sp = (s.core c).sp) :
    s.sameBytes t := by
  obtain ⟨-, others, -, mem⟩ := h
  refine ⟨fun c' a => ?_, mem⟩
  by_cases hc : c' = c
  · rw [hc, State.spByte, State.spByte, hsp]
  · rw [State.spByte, State.spByte, others c' hc]

/-- A core that changes in one stream leaves the device but that stream. -/
theorem State.onlyCore.onlyStream {s t : State} {c : Nat} {st : Strm} (h : s.onlyCore t c)
    (hk : (t.core c).setStream st ((s.core c).stream st) = s.core c) : s.onlyStream t c st := by
  have bytes := h.sameBytes (by rw [← hk, Core.setStream_sp])
  obtain ⟨rest, others, counters, -⟩ := h
  exact ⟨rest, others, hk, counters, bytes⟩

/-- A core whose stream only begins to wait. -/
theorem State.onlyStream_setStream (s : State) (c : Nat) (st : Strm) (v : Stream) :
    s.onlyStream (s.setCore c ((s.core c).setStream st v)) c st :=
  (s.onlyCore_setCore c _).onlyStream (by simp)

end Sys2Proof.Machine

/-! SETF, WAITF and the end of its wait (03 R72, R73; 04 R111). -/

namespace Sys2Proof.Machine

/-! ### What an instruction that clears does -/

theorem exec_setf_of_clears {s : State} {i : Issue}
    (h : s.clears i (maskFields 0x0A i.insn) (maskConds ((s.applyEcc i.ecc).streamOf i) i.insn) = true) :
    let s1 := s.applyEcc i.ecc
    let k := s1.core i.core
    let m := flagMask (s1.streamOf i) i.insn
    exec (.setf i) s = .next ((s1.setCore i.core
      { k with flags := if i.insn.opt.getLsbD 0 then k.flags &&& ~~~m else k.flags ||| m }).retire i.core i.strm 0 1) :=
  congrArg _ (State.present_clears h rfl rfl rfl)

/-- The condition under which a WAITF takes its flags (03 R73). -/
def Core.takesFlags (k : Core) (st : Strm) (m : BitVec 32) (keep : Bool) : Bool :=
  satisfied k.flags m && !(decide (st = .x) && k.aFirst m keep)

theorem Core.takesFlags_iff (k : Core) (st : Strm) (m : BitVec 32) (keep : Bool) :
    k.takesFlags st m keep = true ↔ k.flags &&& m = m ∧ ¬(st = .x ∧ k.aFirst m keep = true) := by
  simp [Core.takesFlags, satisfied, imp_iff_not_or]

/-- A core whose WAITF takes its flags. -/
def Core.takeFlags (k : Core) (m : BitVec 32) (keep : Bool) : Core := { k with flags := consume k.flags m keep }

theorem exec_waitf_of_clears {s : State} {i : Issue}
    (h : s.clears i (maskFields 0x09 i.insn) (maskConds ((s.applyEcc i.ecc).streamOf i) i.insn) = true) :
    let s1 := s.applyEcc i.ecc
    let k := s1.core i.core
    let m := flagMask (s1.streamOf i) i.insn
    let keep := i.insn.opt.getLsbD 0
    exec (.waitf i) s = .next (if k.takesFlags i.strm m keep then
      (s1.setCore i.core (k.takeFlags m keep)).retire i.core i.strm 0 1
      else s1.setCore i.core (k.setStream i.strm { s1.streamOf i with wait := .flags m keep })) :=
  congrArg _ (State.present_clears h rfl rfl rfl)

theorem exec_waitfSatisfied_of_takes {s : State} {c : Nat} {st : Strm} {m : BitVec 32} {keep : Bool} (ha : s.active c st = true)
    (hw : ((s.core c).stream st).wait = .flags m keep) (ht : (s.core c).takesFlags st m keep = true) :
    exec (.waitfSatisfied c st) s = .next ((s.setCore c ((s.core c).takeFlags m keep)).retire c st 0 1) := by
  refine congrArg _ ((if_pos ha).trans ?_)
  rw [hw]
  exact if_pos ht

/-! ### What becomes of the core -/

/-- Flags that change as an instruction issues: the stream goes on, and the rest of its core stays. -/
theorem State.setFlags_retire (s : State) (c : Nat) (st : Strm) (f : BitVec 32) :
    let k := s.core c
    let u := k.stream st
    let t := (s.setCore c { k with flags := f }).retire c st 0 1
    s.onlyCore t c ∧ u.goesOn ((t.core c).stream st) 0 1 ∧ u.keepsRegs ((t.core c).stream st) u.pc 0 ∧
      (t.core c).setStream st u = { k with flags := f } := by
  intro k u t
  have stream : ({ k with flags := f } : Core).stream st = u := by cases st <;> rfl
  have core : t.core c = ({ k with flags := f } : Core).setStream st (u.retire 0 1) := by
    rw [State.core_setCore_retire, stream]
  refine ⟨s.onlyCore_setCore_retire .., ?_, ?_, ?_⟩
  · rw [core, Core.stream_setStream_self]
    exact u.goesOn_retire 0 1
  · rw [core, Core.stream_setStream_self]
    exact u.keepsRegs_retire 0 1 0
  · rw [core, Core.setStream_setStream, ← stream, Core.setStream_stream]

/-- Settles O5: each instruction that issues changes the flags by `State.setFlags_retire`, and a WAITF that takes nothing waits. -/
theorem eventFlags : Obligations.EventFlags := by
  refine ⟨fun s i => ?issued, fun s c st m keep ha hw hm hfirst => ?satisfied⟩
  case issued =>
    intro s1 u k m takes
    refine ⟨fun h => ?setf, fun h => ?waitf⟩
    case setf =>
      obtain ⟨only, goes, regs, core⟩ := s1.setFlags_retire i.core i.strm _
      exact ⟨_, exec_setf_of_clears h, only, goes, regs, core⟩
    case waitf =>
      have iff : k.takesFlags i.strm m (i.insn.opt.getLsbD 0) = true ↔ takes := Core.takesFlags_iff ..
      by_cases ht : takes
      · obtain ⟨only, goes, regs, core⟩ := s1.setFlags_retire i.core i.strm _
        exact ⟨_, (exec_waitf_of_clears h).trans (congrArg _ (if_pos (iff.2 ht))), only, fun _ => ⟨goes, regs, core⟩,
          fun hn => absurd ht hn⟩
      · refine ⟨_, (exec_waitf_of_clears h).trans (congrArg _ (if_neg (mt iff.1 ht))), s1.onlyCore_setCore .., fun hy => absurd hy ht,
          fun _ => ⟨?_, ?_⟩⟩
        · rw [State.streamOf, State.core_setCore_self, Core.stream_setStream_self]
          rfl
        · rw [State.core_setCore_self, Core.setStream_setStream]
          exact Core.setStream_stream _ _
  case satisfied =>
    have takes : (s.core c).takesFlags st m keep = true :=
      (Core.takesFlags_iff ..).2 ⟨hm, fun ⟨hx, first⟩ => by simp [hfirst hx] at first⟩
    obtain ⟨only, goes, -, core⟩ := s.setFlags_retire c st _
    exact ⟨_, exec_waitfSatisfied_of_takes ha hw takes, only, goes, core⟩

end Sys2Proof.Machine

/-! What the stored errors of a read leave of scratchpads, queue rings and memory (03 R67; 14 R390, R404). -/

namespace Sys2Proof.Machine

/-! ### The parts -/

/-- A core's queues with their rings, and its scratchpad. -/
def Core.dataParts (k : Core) : SMap DQueue × Word × Word × SMap Byte := (k.queues, k.ring0, k.ring1, k.sp)

/-- A state with every core's queues, rings and scratchpad and every basin's memory as they were. -/
structure State.SameData (s t : State) : Prop where
  core : ∀ c, (t.core c).dataParts = (s.core c).dataParts
  mem : ∀ b, (t.basin b).mem = (s.basin b).mem

/-- Cores with the same parts give the same queues, rings and bytes. -/
theorem Core.queue_ring_sp_of_dataParts {k l : Core} (h : l.dataParts = k.dataParts) :
    l.queue = k.queue ∧ l.ring = k.ring ∧ l.sp = k.sp := by
  simp only [Core.dataParts, Prod.mk.injEq] at h
  obtain ⟨queues, ring0, ring1, sp⟩ := h
  refine ⟨funext fun q => ?_, funext fun q => ?_, sp⟩
  · simp only [Core.queue, queues]
  · simp only [Core.ring, Core.ringWord, ring0, ring1]

theorem State.sameBytes.trans {s t u : State} (h : s.sameBytes t) (g : t.sameBytes u) : s.sameBytes u :=
  let ⟨sp, mem⟩ := h
  let ⟨sp', mem'⟩ := g
  ⟨fun c a => (sp' c a).trans (sp c a), fun b a => (mem' b a).trans (mem b a)⟩

namespace State.SameData

variable {s t u : State}

theorem sameBytes (h : s.SameData t) : s.sameBytes t := by
  refine ⟨fun c a => ?_, fun b a => ?_⟩
  · obtain ⟨-, -, sp⟩ := Core.queue_ring_sp_of_dataParts (h.core c)
    rw [State.spByte, State.spByte, sp]
  · rw [State.memByte, State.memByte, h.mem b]

/-! ### Updates of the state -/

theorem refl (s : State) : s.SameData s := ⟨fun _ => rfl, fun _ => rfl⟩

theorem same (h : s.SameData t) (e : u.stopParts = t.stopParts) : s.SameData u := by
  simp only [State.stopParts, Prod.mk.injEq] at e
  obtain ⟨basins, cores, -⟩ := e
  refine ⟨fun c => ?_, fun b => ?_⟩
  · simpa only [State.core, cores] using h.core c
  · simpa only [State.basin, basins] using h.mem b

theorem updCore {c : Nat} {f : Core → Core} (h : s.SameData t) (hf : ∀ k, (f k).dataParts = k.dataParts) :
    s.SameData (t.updCore c f) := by
  refine ⟨fun c' => ?_, h.mem⟩
  rw [State.core_updCore]
  split
  · next e => exact e ▸ (hf _).trans (h.core c)
  · exact h.core c'

theorem updCores {cs : List Nat} {f : Nat → Core → Core} (h : s.SameData t) (hf : ∀ c k, (f c k).dataParts = k.dataParts) :
    s.SameData (t.updCores cs f) :=
  List.foldlRecOn cs _ h fun _ h c _ => h.updCore (hf c)

theorem updBasin {b : Nat} {f : Basin → Basin} (h : s.SameData t) (hf : ∀ v, (f v).mem = v.mem) : s.SameData (t.updBasin b f) := by
  refine ⟨h.core, fun b' => ?_⟩
  rw [State.basin_updBasin]
  split
  · next e => exact e ▸ (hf _).trans (h.mem b)
  · exact h.mem b'

/-! ### Reports, tests and fences -/

theorem notify {b v : Nat} (h : s.SameData t) : s.SameData (t.notify (.vf b) v) := by
  unfold State.notify
  dsimp only
  split
  · exact h.updBasin (f := fun x => { x with msix := _ }) fun _ => rfl
  · exact h.same rfl

theorem markEvent {b i : Nat} (h : s.SameData t) : s.SameData (t.markEvent b i) := h.updBasin fun _ => rfl

theorem setEvent {b i : Nat} (h : s.SameData t) : s.SameData (t.setEvent b i) :=
  .same (.notify (.markEvent h)) (State.notify_pf0_stopParts _ 8)

theorem stopCores {b : Nat} (h : s.SameData t) : s.SameData (t.stopCores b) := by
  unfold State.stopCores
  exact h.updCores fun _ _ => rfl

theorem startTest {b : Nat} (h : s.SameData t) : s.SameData (t.startTest b) := by
  unfold State.startTest
  dsimp only
  split
  · exact .updBasin (h.same (State.switchQuarry_keeps ..).1) fun _ => rfl
  · exact h.same (State.switchQuarry_keeps ..).1

theorem takeRebind {b : Nat} (h : s.SameData t) : s.SameData (t.takeRebind b) := by
  unfold State.takeRebind
  split
  · exact h.updBasin fun _ => rfl
  · exact h

theorem restTest {b : Nat} (h : s.SameData t) : s.SameData (t.restTest b) := by
  unfold State.restTest
  split
  · exact h
  · split
    · exact h.startTest
    · exact h.takeRebind

theorem enterParked {b : Nat} (h : s.SameData t) : s.SameData (t.enterParked b) := by
  unfold State.enterParked
  exact .restTest (.setEvent (h.updBasin fun _ => rfl))

theorem beginUnbind {b : Nat} (h : s.SameData t) : s.SameData (t.beginUnbind b) := by
  unfold State.beginUnbind
  exact .updBasin (.stopCores (h.same rfl)) fun _ => rfl

theorem enterFence {o : Option Nat} {kind c : Nat} (h : s.SameData t) : s.SameData (t.enterFence o kind c) := by
  have stopped : s.SameData (t.updCore c fun k => { k.stop with fenced := true }) := h.updCore fun _ => rfl
  unfold State.enterFence
  exact .same (stopped.same rfl) (State.report_stopParts ..)

theorem applyFences {b : Nat} (h : s.SameData t) : s.SameData (t.applyFences b) := by
  have fenced : s.SameData ((t.basin b).fencePending.foldl (fun s f => s.enterFence (some b) f.1 f.2)
      (t.updBasin b fun x => { x with fencePending := [] })) :=
    List.foldlRecOn _ _ (h.updBasin fun _ => rfl) fun _ g _ _ => g.enterFence
  unfold State.applyFences
  dsimp only
  split
  · exact fenced.beginUnbind
  · exact .enterParked (.markEvent (.updBasin (.updCores fenced fun _ _ => rfl) fun _ => rfl))

theorem fenceCore {kind c : Nat} (h : s.SameData t) : s.SameData (t.fenceCore kind c) := by
  unfold State.fenceCore
  split
  · exact h
  · split
    · exact h.enterFence
    · dsimp only
      split
      · exact .applyFences (h.updBasin fun _ => rfl)
      · exact h.updBasin fun _ => rfl

theorem fenceUnit {kind index : Nat} (h : s.SameData t) : s.SameData (t.fenceUnit kind index) := by
  unfold State.fenceUnit
  split
  · exact h.fenceCore
  · exact h.fenceCore
  · exact h.fenceCore.fenceCore
  · exact h

theorem charge {kind index event addr detail act : Nat} {b : Option Nat} (h : s.SameData t) :
    s.SameData (t.charge kind index event addr detail act b) := by
  unfold State.charge
  dsimp only
  split
  · exact .fenceUnit (.same (h.same rfl) (State.report_stopParts ..))
  · exact .same (h.same rfl) (State.report_stopParts ..)

/-- Stored errors poison blocks and may fence cores: every queue, ring and byte stays. -/
theorem applyEcc {es : List EccHit} (h : s.SameData t) : s.SameData (t.applyEcc es) := by
  induction es generalizing t with
  | nil => exact h
  | cons e es ih =>
    unfold State.applyEcc
    refine ih ?_
    split
    · exact .charge (h.updCore fun _ => rfl)
    · exact h.same rfl

end State.SameData
end Sys2Proof.Machine

/-! QPUSH, QPOP, the end of their waits and the refill of the stage (03 R75 to R79; 04 R110). -/

namespace Sys2Proof.Machine

/-! ### Queues and scratchpads of a core -/

theorem queueNum_eq (i : Insn) : queueNum i = i.imm.toNat % 8 := by
  simp [queueNum, bits]

@[simp] theorem Core.queue_setQueue_self (k : Core) (q : Nat) (v : DQueue) : (k.setQueue q v).queue q = v := SMap.get_set_self ..

@[simp] theorem Core.stream_setQueue (k : Core) (q : Nat) (v : DQueue) (st : Strm) : (k.setQueue q v).stream st = k.stream st := by
  cases st <;> rfl

@[simp] theorem Core.sp_setQueue (k : Core) (q : Nat) (v : DQueue) : (k.setQueue q v).sp = k.sp := rfl

@[simp] theorem Core.queue_setStream (k : Core) (st : Strm) (v : Stream) (q : Nat) : (k.setStream st v).queue q = k.queue q := by
  cases st <;> rfl

@[simp] theorem Core.stream_spWrite (k : Core) (a : Nat) (bs : List Byte) (p : Bool) (st : Strm) :
    (k.spWrite a bs p).stream st = k.stream st := by
  cases st <;> rfl

theorem SMap.getList_eq_map {α : Type} (d : α) (m : SMap α) (a n : Nat) :
    SMap.getList d m a n = (List.range n).map fun i => SMap.get d m (a + i) := by
  induction n generalizing a with
  | zero => rfl
  | succ n ih => simp [SMap.getList, ih, List.range_succ_eq_map, Nat.add_assoc, Nat.add_comm 1]

/-- What was written is read back. -/
theorem Core.spRead_spWrite (k : Core) (a : Nat) (bs : List Byte) (p : Bool) : (k.spWrite a bs p).spRead a bs.length = bs := by
  rw [Core.spRead, SMap.getList_eq_map]
  refine List.ext_getElem (by simp) fun i _ hi => ?_
  rw [List.getElem_map, List.getElem_range, Core.spWrite_get, dif_pos (by omega)]
  simp

/-! ### Pushing and popping -/

theorem DQueue.toStage_iff (v : DQueue) : v.toStage = true ↔ v.ring = [] ∧ v.stage.length < 8 := by
  simp [DQueue.toStage]

theorem DQueue.toStage_eq_false_iff (v : DQueue) : v.toStage = false ↔ v.ring ≠ [] ∨ 8 ≤ v.stage.length := by
  rw [← Bool.not_eq_true, DQueue.toStage_iff, not_and_or, not_lt]

theorem Core.canPush_iff (k : Core) (q : Nat) :
    k.canPush q = true ↔ (k.queue q).toStage = true ∨ (k.queue q).ring.length < (k.ring q).2 := by
  simp [Core.canPush]

/-- The address of the ring's tail in scratchpad (03 R76). -/
def Core.ringTail (k : Core) (q : Nat) : Nat := (k.ring q).1 + 8 * ((k.queue q).tail % (k.ring q).2)

theorem Core.push_toStage {k : Core} {q : Nat} (h : (k.queue q).toStage = true) (w : Word) (p : Bool) :
    k.push q w p = k.setQueue q { k.queue q with stage := (k.queue q).stage ++ [(w, p)] } := if_pos h

theorem Core.push_toRing {k : Core} {q : Nat} (h : (k.queue q).toStage = false) (w : Word) (p : Bool) :
    k.push q w p = (k.spWrite (k.ringTail q) (leBytes 8 w.toNat) false).setQueue q
      { k.queue q with ring := (k.queue q).ring ++ [p], tail := (k.queue q).tail + 1 } := if_neg (by simp [h])

theorem Core.push_sp_of_toRing {k : Core} {q : Nat} (h : (k.queue q).toStage = false) (w : Word) (p : Bool) :
    (k.push q w p).spRead (k.ringTail q) 8 = leBytes 8 w.toNat ∧
      ∀ a, a < k.ringTail q ∨ k.ringTail q + 8 ≤ a → SMap.get 0 (k.push q w p).sp a = SMap.get 0 k.sp a := by
  have eight : (leBytes 8 w.toNat).length = 8 := rfl
  rw [Core.push_toRing h]
  refine ⟨Core.spRead_spWrite k (k.ringTail q) (leBytes 8 w.toNat) false, fun a ha => ?_⟩
  rw [Core.sp_setQueue, Core.spWrite_get, dif_neg (by omega)]

@[simp] theorem Core.stream_push (k : Core) (q : Nat) (w : Word) (p : Bool) (st : Strm) : (k.push q w p).stream st = k.stream st := by
  unfold Core.push
  dsimp only
  split
  · simp
  · simp

theorem Core.pop_cons {k : Core} {q : Nat} {w : Word} {p : Bool} {es : List (Word × Bool)} (h : (k.queue q).stage = (w, p) :: es)
    (st : Strm) (rd : Nat) :
    k.pop st q rd = (k.setQueue q { k.queue q with stage := es }).setStream st ((k.stream st).setReg rd w p) := by
  simp only [Core.pop, h]

theorem Core.canPop_iff (k : Core) (q : Nat) : k.canPop q = true ↔ (k.queue q).stage ≠ [] := by
  simp [Core.canPop]

theorem Core.refill_cons {k : Core} {q : Nat} {p : Bool} {ps : List Bool} (h : (k.queue q).ring = p :: ps)
    (hroom : (k.queue q).stage.length < 8) :
    let v := k.queue q
    let a := (k.ring q).1 + 8 * ((v.tail - v.ring.length) % (k.ring q).2)
    k.refill q = k.setQueue q { v with
      stage := v.stage ++ [(BitVec.ofNat 64 (leNat (k.spRead a 8)), p || k.spPoisoned a 8)], ring := ps } := by
  simp only [Core.refill, h, hroom, if_true]

/-! ### QPUSH -/

theorem exec_qpush_of_clears {s : State} {i : Issue}
    (h : s.clears i { op := 0x07, words := [1], imm := 7, ra := true } (queueConds i true) = true) :
    let s1 := s.applyEcc i.ecc
    let u := s1.streamOf i
    let k := s1.core i.core
    let q := queueNum i.insn
    let w := u.reg i.insn.ra.toNat
    let p := u.tag i.insn.ra.toNat
    exec (.qpush i) s = .next (if k.canPush q then (s1.setCore i.core (k.push q w p)).retire i.core i.strm 0 1
      else s1.setCore i.core (k.setStream i.strm { u with wait := .push q w p })) :=
  congrArg _ (State.present_clears h rfl rfl rfl)

/-- A push as an instruction ends: the stream goes on. -/
theorem State.push_retire (s : State) (c : Nat) (st : Strm) (q : Nat) (w : Word) (p : Bool) :
    let u := (s.core c).stream st
    let t := (s.setCore c ((s.core c).push q w p)).retire c st 0 1
    s.onlyCore t c ∧ (t.core c).queue q = ((s.core c).push q w p).queue q ∧ (t.core c).sp = ((s.core c).push q w p).sp ∧
      u.goesOn ((t.core c).stream st) 0 1 := by
  intro u t
  have core : t.core c = ((s.core c).push q w p).setStream st (u.retire 0 1) := by
    rw [State.core_setCore_retire, Core.stream_push]
  refine ⟨s.onlyCore_setCore_retire .., ?_, ?_, ?_⟩
  · rw [core, Core.queue_setStream]
  · rw [core, Core.setStream_sp]
  · rw [core, Core.stream_setStream_self]
    exact u.goesOn_retire 0 1

/-- QPUSH, where the queue can take the entry and where it cannot. -/
theorem qpush_moves (s : State) (i : Issue) (q : Nat) (hq : q = i.insn.imm.toNat % 8)
    (h : s.clears i { op := 0x07, words := [1], imm := 7, ra := true } (queueConds i true) = true) :
    let s1 := s.applyEcc i.ecc
    let u := s1.streamOf i
    let k := s1.core i.core
    let w := u.reg i.insn.ra.toNat
    let p := u.tag i.insn.ra.toNat
    ∃ t, exec (.qpush i) s = .next t ∧ s1.onlyCore t i.core ∧
      ((k.queue q).ring = [] → (k.queue q).stage.length < 8 →
        ((t.core i.core).queue q).stage = (k.queue q).stage ++ [(w, p)] ∧ ((t.core i.core).queue q).ring = [] ∧
        s1.sameBytes t ∧ u.goesOn (t.streamOf i) 0 1) ∧
      ((k.queue q).ring ≠ [] ∨ 8 ≤ (k.queue q).stage.length → (k.queue q).ring.length < (k.ring q).2 →
        ((t.core i.core).queue q).ring = (k.queue q).ring ++ [p] ∧
        ((t.core i.core).queue q).stage = (k.queue q).stage ∧
        ((t.core i.core).spRead (k.ringTail q) 8 = leBytes 8 w.toNat ∧
          ∀ a, a < k.ringTail q ∨ k.ringTail q + 8 ≤ a → t.spByte i.core a = s1.spByte i.core a) ∧
        u.goesOn (t.streamOf i) 0 1) ∧
      ((k.queue q).ring ≠ [] ∨ 8 ≤ (k.queue q).stage.length → (k.ring q).2 ≤ (k.queue q).ring.length →
        t.streamOf i = { u with wait := .push q w p } ∧ s1.onlyStream t i.core i.strm) := by
  intro s1 u k w p
  obtain rfl : queueNum i.insn = q := (queueNum_eq i.insn).trans hq.symm
  have toStage := (k.queue (queueNum i.insn)).toStage_iff
  have toRing := (k.queue (queueNum i.insn)).toStage_eq_false_iff
  by_cases hc : k.canPush (queueNum i.insn) = true
  · obtain ⟨only, queue, sp, goes⟩ := s1.push_retire i.core i.strm (queueNum i.insn) w p
    refine ⟨_, (exec_qpush_of_clears h).trans (congrArg _ (if_pos hc)), only, fun hr hs => ?stage, fun hr _ => ?ring,
      fun hr hfull => ?full⟩
    case stage =>
      have push := Core.push_toStage (toStage.2 ⟨hr, hs⟩) w p
      refine ⟨?_, ?_, only.sameBytes ?_, goes⟩
      · rw [queue, push, Core.queue_setQueue_self]
      · rw [queue, push, Core.queue_setQueue_self]
        exact hr
      · rw [sp, push, Core.sp_setQueue]
    case ring =>
      have push := Core.push_toRing (toRing.2 hr) w p
      obtain ⟨written, others⟩ := Core.push_sp_of_toRing (toRing.2 hr) w p
      refine ⟨?_, ?_, ⟨?_, fun a ha => ?_⟩, goes⟩
      · rw [queue, push, Core.queue_setQueue_self]
      · rw [queue, push, Core.queue_setQueue_self]
      · rw [Core.spRead, sp]
        exact written
      · rw [State.spByte, sp]
        exact others a ha
    case full =>
      rw [Core.canPush_iff, toRing.2 hr] at hc
      exact absurd hfull (by simpa using hc)
  · have full := mt (k.canPush_iff _).2 hc
    refine ⟨_, (exec_qpush_of_clears h).trans (congrArg _ (if_neg hc)), s1.onlyCore_setCore .., fun hr hs => ?_, fun _ room => ?_,
      fun _ _ => ⟨?_, s1.onlyStream_setStream ..⟩⟩
    · exact absurd (.inl (toStage.2 ⟨hr, hs⟩)) full
    · exact absurd (.inr room) full
    · rw [State.streamOf, State.core_setCore_self, Core.stream_setStream_self]

/-! ### QPOP -/

theorem exec_qpop_of_clears {s : State} {i : Issue}
    (h : s.clears i { op := 0x08, words := [1], imm := 7, rd := true } (queueConds i false) = true) :
    let s1 := s.applyEcc i.ecc
    let k := s1.core i.core
    let q := queueNum i.insn
    exec (.qpop i) s = .next (if k.canPop q then (s1.setCore i.core (k.pop i.strm q i.insn.rd.toNat)).retire i.core i.strm 0 1
      else s1.setCore i.core (k.setStream i.strm { s1.streamOf i with wait := .pop q i.insn.rd.toNat })) :=
  congrArg _ (State.present_clears h rfl rfl rfl)

/-- A pop as an instruction ends: the head of the stage is in the register, unless a loop level that ends here counts there. -/
theorem State.pop_retire (s : State) (c : Nat) (st : Strm) {q rd : Nat} {w : Word} {p : Bool} {es : List (Word × Bool)}
    (hrd : rd < 16) (hs : ((s.core c).queue q).stage = (w, p) :: es) :
    let u := (s.core c).stream st
    let t := (s.setCore c ((s.core c).pop st q rd)).retire c st 0 1
    s.onlyCore t c ∧ (t.core c).queue q = { (s.core c).queue q with stage := es } ∧ (t.core c).sp = (s.core c).sp ∧
      (rd ≠ 0 → u.counts u.pc rd = false → ((t.core c).stream st).reg rd = w ∧ ((t.core c).stream st).tag rd = p) ∧
      u.keepsRegs ((t.core c).stream st) u.pc rd ∧ u.goesOn ((t.core c).stream st) 0 1 := by
  intro u t
  have core : t.core c =
      ((s.core c).setQueue q { (s.core c).queue q with stage := es }).setStream st ((u.setReg rd w p).retire 0 1) := by
    rw [State.core_setCore_retire, Core.pop_cons hs, Core.stream_setStream_self, Core.setStream_setStream]
  refine ⟨s.onlyCore_setCore_retire .., ?_, ?_, ?_, ?_, ?_⟩
  · rw [core, Core.queue_setStream, Core.queue_setQueue_self]
  · rw [core, Core.setStream_sp, Core.sp_setQueue]
  all_goals rw [core, Core.stream_setStream_self]
  · exact u.setReg_retire_self (wc := 0) w p hrd
  · exact u.keepsRegs_setReg_retire 0 1 rd w p
  · exact (u.goesOn_setReg _ rd 0 1 w p).1 ((u.setReg rd w p).goesOn_retire 0 1)

/-- QPOP, from a stage with an entry and from an empty one. -/
theorem qpop_moves (s : State) (i : Issue) (q : Nat) (hq : q = i.insn.imm.toNat % 8)
    (h : s.clears i { op := 0x08, words := [1], imm := 7, rd := true } (queueConds i false) = true) :
    let s1 := s.applyEcc i.ecc
    let u := s1.streamOf i
    let k := s1.core i.core
    let rd := i.insn.rd.toNat
    ∃ t, exec (.qpop i) s = .next t ∧ s1.onlyCore t i.core ∧ s1.sameBytes t ∧
      (∀ w p es, (k.queue q).stage = (w, p) :: es →
        ((t.core i.core).queue q).stage = es ∧ ((t.core i.core).queue q).ring = (k.queue q).ring ∧
        (rd ≠ 0 → u.counts u.pc rd = false → (t.streamOf i).reg rd = w ∧ (t.streamOf i).tag rd = p) ∧
        u.keepsRegs (t.streamOf i) u.pc rd ∧ u.goesOn (t.streamOf i) 0 1) ∧
      ((k.queue q).stage = [] → t.streamOf i = { u with wait := .pop q rd } ∧ s1.onlyStream t i.core i.strm) := by
  intro s1 u k rd
  obtain rfl : queueNum i.insn = q := (queueNum_eq i.insn).trans hq.symm
  cases hs : (k.queue (queueNum i.insn)).stage with
  | cons e es =>
    have entry : k.canPop (queueNum i.insn) = true := (k.canPop_iff _).2 (by simp [hs])
    obtain ⟨only, queue, sp, reg, keeps, goes⟩ := s1.pop_retire i.core i.strm i.insn.rd.isLt hs
    refine ⟨_, (exec_qpop_of_clears h).trans (congrArg _ (if_pos entry)), only, only.sameBytes sp, fun w p es' head => ?_, nofun⟩
    cases head
    rw [queue]
    exact ⟨rfl, rfl, reg, keeps, goes⟩
  | nil =>
    have empty : ¬k.canPop (queueNum i.insn) = true := by simp [Core.canPop_iff, hs]
    have only := s1.onlyCore_setCore i.core (k.setStream i.strm { u with wait := .pop (queueNum i.insn) rd })
    refine ⟨_, (exec_qpop_of_clears h).trans (congrArg _ (if_neg empty)), only, only.sameBytes ?_, nofun,
      fun _ => ⟨?_, s1.onlyStream_setStream ..⟩⟩
    · rw [State.core_setCore_self, Core.setStream_sp]
    · rw [State.streamOf, State.core_setCore_self, Core.stream_setStream_self]

/-! ### The end of a wait, and the refill -/

theorem exec_queueStallRelease_of_push {s : State} {c q : Nat} {st : Strm} {w : Word} {p : Bool} (ha : s.active c st = true)
    (hw : ((s.core c).stream st).wait = .push q w p) (hc : (s.core c).canPush q = true) :
    exec (.queueStallRelease c st) s = .next ((s.setCore c ((s.core c).push q w p)).retire c st 0 1) := by
  refine congrArg _ ((if_pos ha).trans ?_)
  rw [hw]
  exact if_pos hc

theorem exec_queueStallRelease_of_pop {s : State} {c q rd : Nat} {st : Strm} (ha : s.active c st = true)
    (hw : ((s.core c).stream st).wait = .pop q rd) (hc : (s.core c).canPop q = true) :
    exec (.queueStallRelease c st) s = .next ((s.setCore c ((s.core c).pop st q rd)).retire c st 0 1) := by
  refine congrArg _ ((if_pos ha).trans ?_)
  rw [hw]
  exact if_pos hc

theorem exec_queueStageRefill_of_canRefill {s : State} {c q : Nat} {ecc : List EccHit} (ha : s.active c .a = true ∨ s.active c .x = true)
    (hc : (s.core c).canRefill q = true) :
    exec (.queueStageRefill c ⟨q, ecc⟩) s = .next ((s.applyEcc ecc).updCore c fun k => k.refill q) :=
  congrArg _ (if_pos (by simp [ha, hc]))

/-- The refill after the stored errors that its read meets: they poison blocks, and leave queue, ring and bytes as they were. -/
theorem queueStageRefill_moves (s : State) (c q : Nat) (ecc : List EccHit) (p : Bool) (ps : List Bool)
    (ha : s.active c .a = true ∨ s.active c .x = true) (hr : ((s.core c).queue q).ring = p :: ps)
    (hroom : ((s.core c).queue q).stage.length < 8) :
    let v := (s.core c).queue q
    let at_ := ((s.core c).ring q).1 + 8 * ((v.tail - v.ring.length) % ((s.core c).ring q).2)
    let s1 := s.applyEcc ecc
    ∃ t, exec (.queueStageRefill c ⟨q, ecc⟩) s = .next t ∧ s1.onlyCore t c ∧ s.sameBytes t ∧
      ((t.core c).queue q).ring = ps ∧
      ((t.core c).queue q).stage = v.stage ++
        [(BitVec.ofNat 64 (leNat ((s.core c).spRead at_ 8)), p || (s1.core c).spPoisoned at_ 8)] := by
  intro v at_ s1
  have same : s.SameData s1 := (State.SameData.refl s).applyEcc
  obtain ⟨queue, ring, sp⟩ := Core.queue_ring_sp_of_dataParts (same.core c)
  have refill := Core.refill_cons (k := s1.core c) (q := q) (p := p) (ps := ps) (by rw [queue, hr]) (by rw [queue]; exact hroom)
  have can : (s.core c).canRefill q = true := by simp [Core.canRefill, hr, hroom]
  have only : s1.onlyCore (s1.updCore c fun k => k.refill q) c := s1.onlyCore_setCore c _
  refine ⟨_, exec_queueStageRefill_of_canRefill ha can, only, ?_, ?_, ?_⟩
  · exact same.sameBytes.trans (only.sameBytes (by rw [State.core_updCore_self, refill, Core.sp_setQueue]))
  · rw [State.core_updCore_self, refill, Core.queue_setQueue_self]
  · rw [State.core_updCore_self, refill, Core.queue_setQueue_self, queue, ring, Core.spRead, sp]
    rfl

/-- Settles O6: the instructions push and pop where stage and ring allow, the end of a wait pushes and pops as they do, and the refill
takes the head of the ring. -/
theorem dataQueues : Obligations.DataQueues := by
  refine ⟨qpush_moves, qpop_moves, fun s c st q rd w p es ha hw hrd hs => ?popped, fun s c st q w p ha hw hr hs => ?pushed,
    queueStageRefill_moves⟩
  case popped =>
    obtain ⟨only, queue, -, reg, -, goes⟩ := s.pop_retire c st hrd hs
    exact ⟨_, exec_queueStallRelease_of_pop ha hw ((Core.canPop_iff ..).2 (by simp [hs])), only, by rw [queue], reg, goes⟩
  case pushed =>
    have stage := (DQueue.toStage_iff ((s.core c).queue q)).2 ⟨hr, hs⟩
    obtain ⟨only, queue, -, goes⟩ := s.push_retire c st q w p
    refine ⟨_, exec_queueStallRelease_of_push ha hw ((Core.canPush_iff ..).2 (.inl stage)), only, ?_, goes⟩
    rw [queue, Core.push_toStage stage, Core.queue_setQueue_self]

end Sys2Proof.Machine

/-! Scalar arithmetic, immediates and special registers (04 R106, R107, R112, R114). -/

namespace Sys2Proof.Machine

/-! ### An instruction that writes a register, or nothing -/

/-- The state in which a stream has written a register and its instruction, of one word, has ended. -/
def State.endWriting (s : State) (c : Nat) (st : Strm) (rd : Nat) (w : Word) (p : Bool) (cc : Nat) : State :=
  (s.setCore c ((s.core c).setStream st (((s.core c).stream st).setReg rd w p))).retire c st 0 cc

theorem State.endWriting_leaves (s : State) (c : Nat) (st : Strm) {rd : Nat} (hrd : rd < 16) (w : Word) (p : Bool) (cc : Nat) :
    let u := (s.core c).stream st
    let v := ((s.endWriting c st rd w p cc).core c).stream st
    (rd ≠ 0 → u.counts u.pc rd = false → v.reg rd = w ∧ v.tag rd = p) ∧ u.keepsRegs v u.pc rd ∧ u.goesOn v 0 cc ∧
      s.onlyStream (s.endWriting c st rd w p cc) c st := by
  intro u v
  have stream : v = (u.setReg rd w p).retire 0 cc := by
    show ((s.endWriting c st rd w p cc).core c).stream st = _
    unfold State.endWriting
    rw [State.core_setCore_retire, Core.stream_setStream_self, Core.stream_setStream_self]
  rw [stream]
  exact ⟨u.setReg_retire_self (wc := 0) w p hrd, u.keepsRegs_setReg_retire 0 cc rd w p,
    (u.goesOn_setReg _ rd 0 cc w p).1 ((u.setReg rd w p).goesOn_retire 0 cc), s.onlyStream_retire c st _ 0 cc⟩

theorem State.core_retire (s : State) (c : Nat) (st : Strm) (wc cc : Nat) :
    (s.retire c st wc cc).core c = (s.core c).setStream st (((s.core c).stream st).retire wc cc) := by
  rw [State.retire_core, if_pos rfl]

theorem State.onlyCore_retire (s : State) (c : Nat) (st : Strm) (wc cc : Nat) : s.onlyCore (s.retire c st wc cc) c := by
  refine ⟨?_, fun c' h => ?_, fun key h => ?_, fun _ _ => rfl⟩
  · simp only [State.retire, State.count, State.updCore, State.setCore]
  · rw [State.retire_core, if_neg h.symm]
  · rw [State.retire, State.count_get, if_neg (h _).symm]; rfl

/-- An instruction that only issues: its stream goes on, and nothing else changes. -/
theorem State.retire_leaves (s : State) (c : Nat) (st : Strm) (wc cc : Nat) :
    let u := (s.core c).stream st
    let v := ((s.retire c st wc cc).core c).stream st
    u.keepsRegs v (u.pc + 8 * wc) 0 ∧ u.goesOn v wc cc ∧ s.onlyStream (s.retire c st wc cc) c st := by
  intro u v
  have stream : v = u.retire wc cc := by
    show ((s.retire c st wc cc).core c).stream st = _
    rw [State.core_retire, Core.stream_setStream_self]
  rw [stream]
  exact ⟨u.keepsRegs_retire wc cc 0, u.goesOn_retire wc cc, (s.onlyCore_retire c st wc cc).onlyStream (by simp [State.core_retire])⟩

/-! ### Arithmetic -/

/-- The arithmetic instructions are `State.alu` with their issue time and their result. -/
theorem exec_alu {c : Instr} {i : Issue} {cc n : Nat} {f : Word → Word → Word} (s : State) (ha : aluOf c = some (i, cc, f))
    (hp : presentedOf c = some (i, n)) : exec c s = .next (s.alu i n cc f) := by
  cases c with
  | add j | sub j | mul j | and j | or j | xor j | shl j | shr j | sra j =>
    cases ha; cases hp; rfl
  | min j | max j =>
    cases ha; cases hp
    refine congrArg _ (congrArg _ (funext fun a => funext fun b => ?_))
    simp [BitVec.slt]
  | _ => cases ha

theorem Stream.alu_eq (t : Stream) (i : Insn) (f : Word → Word → Word) : t.alu i f =
    t.setReg i.rd.toNat (f (t.reg i.ra.toNat) (if i.opt.getLsbD 0 then sext32 i.imm else t.reg i.rb.toNat))
      (t.tag i.ra.toNat || if i.opt.getLsbD 0 then false else t.tag i.rb.toNat) := by
  unfold Stream.alu aluB
  split
  · rfl
  · rfl

theorem State.alu_of_clears {s : State} {i : Issue} {n cc : Nat} {f : Word → Word → Word}
    (h : s.clears i (aluFields n i.insn) [] = true) :
    let s1 := s.applyEcc i.ecc
    let u := s1.streamOf i
    s.alu i n cc f = s1.endWriting i.core i.strm i.insn.rd.toNat
      (f (u.reg i.insn.ra.toNat) (if i.insn.opt.getLsbD 0 then sext32 i.insn.imm else u.reg i.insn.rb.toNat))
      (u.tag i.insn.ra.toNat || if i.insn.opt.getLsbD 0 then false else u.tag i.insn.rb.toNat) cc := by
  intro s1 u
  rw [State.alu, State.present_clears h rfl rfl rfl]
  simp only [Stream.alu_eq]
  rfl

/-- Settles O1: each instruction writes its result as `State.endWriting_leaves` says. -/
theorem scalarArithmetic : Obligations.ScalarArithmetic := by
  intro s c i cc n f ha hp h
  obtain ⟨reg, keeps, ⟨straight, issue, wait, -, -⟩, only⟩ :=
    (s.applyEcc i.ecc).endWriting_leaves i.core i.strm i.insn.rd.isLt _ _ cc
  exact ⟨_, (exec_alu s ha hp).trans (congrArg _ (State.alu_of_clears h)), reg, keeps, straight, issue, wait, only⟩

/-! ### Immediates -/

theorem exec_movi_of_clears {s : State} {i : Issue} (h : s.clears i (moviFields 0x1B) [] = true) :
    exec (.movi i) s =
      .next ((s.applyEcc i.ecc).endWriting i.core i.strm i.insn.rd.toNat (sext32 i.insn.imm) false 1) :=
  congrArg _ (State.present_clears h rfl rfl rfl)

theorem exec_movhi_of_clears {s : State} {i : Issue} (h : s.clears i (moviFields 0x1C) [] = true) :
    let s1 := s.applyEcc i.ecc
    let u := s1.streamOf i
    let rd := i.insn.rd.toNat
    exec (.movhi i) s = .next (s1.endWriting i.core i.strm rd (movhiVal i.insn.imm (u.reg rd)) (u.tag rd) 1) :=
  congrArg _ (State.present_clears h rfl rfl rfl)

/-- The halves of MOVHI's result. -/
theorem movhiVal_halves (imm : BitVec 32) (v : Word) :
    (movhiVal imm v).extractLsb' 32 32 = imm ∧ (movhiVal imm v).extractLsb' 0 32 = v.extractLsb' 0 32 := by
  unfold movhiVal
  refine ⟨BitVec.extractLsb'_append_eq_left, ?_⟩
  rw [BitVec.extractLsb'_append_eq_right, BitVec.setWidth_eq_extractLsb' (by decide)]

/-- Settles O2: both write their register as `State.endWriting_leaves` says. -/
theorem moveImmediate : Obligations.MoveImmediate := by
  refine fun s i => ⟨fun h => ⟨_, exec_movi_of_clears h, State.endWriting_leaves _ _ _ i.insn.rd.isLt _ _ 1⟩, fun h => ?_⟩
  obtain ⟨reg, rest⟩ := (s.applyEcc i.ecc).endWriting_leaves i.core i.strm i.insn.rd.isLt
    (movhiVal i.insn.imm (((s.applyEcc i.ecc).streamOf i).reg i.insn.rd.toNat)) (((s.applyEcc i.ecc).streamOf i).tag i.insn.rd.toNat) 1
  refine ⟨_, exec_movhi_of_clears h, fun hrd hc => ?_, rest⟩
  obtain ⟨value, tag⟩ := reg hrd hc
  obtain ⟨high, low⟩ := movhiVal_halves i.insn.imm (((s.applyEcc i.ecc).streamOf i).reg i.insn.rd.toNat)
  exact ⟨(congrArg (BitVec.extractLsb' 32 32) value).trans high, (congrArg (BitVec.extractLsb' 0 32) value).trans low, tag⟩

/-! ### Special registers -/

theorem exec_movs_of_clears {s : State} {i : Issue}
    (h : s.clears i { op := 0x0B, words := [1], imm := 0xFF, rd := true } (movsConds (s.applyEcc i.ecc) i) = true) :
    let s1 := s.applyEcc i.ecc
    exec (.movs i) s = .next (s1.endWriting i.core i.strm i.insn.rd.toNat
      (s1.special (s1.basinAt i.core) i.core i.strm (bits i.insn.imm.toNat 7 0)) false 1) :=
  congrArg _ (State.present_clears h rfl rfl rfl)

theorem State.special_eq (s : State) (b c : Nat) (st : Strm) (n : Nat) : s.special b c st n =
    if n = 0x00 then BitVec.ofNat 64 ((s.basin b).desc.coreIndex c)
    else if n = 0x01 then BitVec.ofNat 64 ((s.basin b).desc.geom c)
    else if n = 0x02 then BitVec.ofNat 64 (s.liveCores b).length
    else if n = 0x03 then BitVec.ofNat 64 (s.core c).ckseq
    else if n = 0x04 then BitVec.ofNat 64 (s.core c).lscale
    else if n = 0x05 then BitVec.ofNat 64 (s.core c).verdict
    else if n = 0x06 then BitVec.ofNat 64 (s.core c).step
    else if n = 0x08 then (s.core c).seed
    else if n = 0x09 then BitVec.ofNat 64 (if (s.core c).xstat then 1 else 0)
    else if n = 0x10 then BitVec.ofNat 64 (s.core c).cycle
    else if n = 0x40 then BitVec.ofNat 64 ((s.core c).stream st).issue
    else BitVec.ofNat 64 (SMap.get 0 ((s.core c).stream st).stalls (n - 0x40)) := by
  unfold State.special
  dsimp only
  split
  case h_9 => cases (s.core c).xstat <;> rfl
  case h_12 => simp_all
  all_goals rfl

theorem exec_movsw_of_clears {s : State} {i : Issue}
    (h : s.clears i { op := 0x0C, words := [1], imm := 0xFF, ra := true } (movswConds i) = true) :
    let s1 := s.applyEcc i.ecc
    let k := s1.core i.core
    let n := bits i.insn.imm.toNat 7 0
    exec (.movsw i) s = .next (if n = 0x08 ∧ k.stochastic then s1.unitWait i.core i.strm 11
      else (s1.setCore i.core (k.writeSpecial n ((s1.streamOf i).reg i.insn.ra.toNat))).retire i.core i.strm 0 1) :=
  congrArg _ (State.present_clears h rfl rfl rfl)

/-- A stream that waits for its unit: nothing else changes. -/
theorem State.unitWait_waitsFor (s : State) (i : Issue) (rank : Nat) : s.waitsFor (s.unitWait i.core i.strm rank) i rank := by
  refine ⟨?_, s.onlyStream_setStream ..⟩
  rw [State.streamOf, State.unitWait, State.core_updCore_self, Core.stream_setStream_self]
  rfl

/-- A core that has changed outside its streams and its scratchpad, as an instruction of one of its streams ends. -/
theorem State.setCore_retire_leaves (s : State) (c : Nat) (st : Strm) {k : Core} (wc cc : Nat)
    (hst : k.stream st = (s.core c).stream st) (hsp : k.sp = (s.core c).sp) :
    let u := (s.core c).stream st
    let t := (s.setCore c k).retire c st wc cc
    t.core c = k.setStream st (u.retire wc cc) ∧ s.onlyCore t c ∧ s.sameBytes t ∧
      u.keepsRegs ((t.core c).stream st) (u.pc + 8 * wc) 0 ∧ u.goesOn ((t.core c).stream st) wc cc := by
  intro u t
  have core : t.core c = k.setStream st (u.retire wc cc) := by rw [State.core_setCore_retire, hst]
  have only : s.onlyCore t c := s.onlyCore_setCore_retire c k st wc cc
  rw [core, Core.stream_setStream_self]
  exact ⟨rfl, only, only.sameBytes (by rw [core, Core.setStream_sp, hsp]), u.keepsRegs_retire wc cc 0, u.goesOn_retire wc cc⟩

theorem Core.writeSpecial_leaves (k : Core) (n : Nat) (v : Word) (st : Strm) :
    (k.writeSpecial n v).stream st = k.stream st ∧ (k.writeSpecial n v).sp = k.sp := by
  unfold Core.writeSpecial
  cases st <;> split <;> exact ⟨rfl, rfl⟩

theorem movsw_writes (s : State) (i : Issue) (n : Nat) (hn : n = bits i.insn.imm.toNat 7 0)
    (h : s.clears i { op := 0x0C, words := [1], imm := 0xFF, ra := true } (movswConds i) = true) :
    let s1 := s.applyEcc i.ecc
    let u := s1.streamOf i
    let k := s1.core i.core
    let v := u.reg i.insn.ra.toNat
    ∃ t, exec (.movsw i) s = .next t ∧ s1.onlyCore t i.core ∧ s1.sameBytes t ∧
      (n = 0x08 → k.stochastic = false →
        (t.core i.core).seed = v ∧ (t.core i.core).genDrain = genRestart v k.ckseq kDrain ∧
        (t.core i.core).genVec = genRestart v k.ckseq kVec ∧ u.keepsRegs (t.streamOf i) u.pc 0 ∧
        u.goesOn (t.streamOf i) 0 1) ∧
      (n = 0x08 → k.stochastic = true → t.streamOf i = { u with wait := .unit 11 }) ∧
      (n ≠ 0x08 →
        (t.core i.core).xstat = (k.xstat && !v.getLsbD 0) ∧ (t.core i.core).seed = k.seed ∧
        u.keepsRegs (t.streamOf i) u.pc 0 ∧ u.goesOn (t.streamOf i) 0 1) := by
  subst hn
  intro s1 u k v
  by_cases hw : bits i.insn.imm.toNat 7 0 = 0x08 ∧ k.stochastic = true
  · obtain ⟨stream, only⟩ := s1.unitWait_waitsFor i 11
    have core := s1.onlyCore_setCore i.core (k.setStream i.strm { u with wait := .unit 11 })
    refine ⟨_, (exec_movsw_of_clears h).trans (congrArg _ (if_pos hw)), core, core.sameBytes ?_, fun _ hs => ?_, fun _ _ => stream,
      fun hn => absurd hw.1 hn⟩
    · rw [State.core_setCore_self, Core.setStream_sp]
    · simp [hs] at hw
  · obtain ⟨stream, sp⟩ := k.writeSpecial_leaves (bits i.insn.imm.toNat 7 0) v i.strm
    obtain ⟨core, only, bytes, keeps, goes⟩ := s1.setCore_retire_leaves i.core i.strm 0 1 stream sp
    refine ⟨_, (exec_movsw_of_clears h).trans (congrArg _ (if_neg hw)), only, bytes, fun hn _ => ?_, fun hn hs => absurd ⟨hn, hs⟩ hw,
      fun hn => ?_⟩
    · refine ⟨?_, ?_, ?_, keeps, goes⟩ <;> rw [core] <;> simp [Core.writeSpecial, Core.restartGens, hn]
    · refine ⟨?_, ?_, keeps, goes⟩ <;> rw [core] <;> simp [Core.writeSpecial, hn]

/-- Settles O3: MOVS writes its register as `State.endWriting_leaves` says, and MOVSW waits or writes (`movsw_writes`). -/
theorem specialRegisters : Obligations.SpecialRegisters := by
  refine ⟨?movs, movsw_writes⟩
  case movs =>
    intro s i n hn h s1 u k rd
    subst hn
    obtain ⟨reg, rest⟩ := s1.endWriting_leaves i.core i.strm i.insn.rd.isLt
      (s1.special (s1.basinAt i.core) i.core i.strm (bits i.insn.imm.toNat 7 0)) false 1
    refine ⟨_, exec_movs_of_clears h, fun hrd hc => ?_, rest⟩
    obtain ⟨value, tag⟩ := reg hrd hc
    exact ⟨tag, value.trans (s1.special_eq ..)⟩

end Sys2Proof.Machine

/-! Branches, fences, NOP and loops (03 R81 to R83; 04 R108, R109, R115, R116). -/

namespace Sys2Proof.Machine

/-! ### Checks that have passed -/

theorem lowest_eq_none {cs : List Cond} (h : lowest cs = none) : cs = [] := by
  cases cs with
  | nil => rfl
  | cons c cs =>
    rw [lowest] at h
    split at h
    · cases h
    · split at h <;> cases h

theorem checkStep_mem (cause : Nat) : checkStep cause ∈ [2, 3, 4, 5, 6, 7] ∨ checkStep cause = 8 := by
  unfold checkStep
  repeat' split
  all_goals decide

/-- Where the device reports no condition, none holds: every cause has its step. -/
theorem firstFail_eq_none {cs : List Cond} (h : firstFail cs = none) : cs = [] := by
  rw [List.eq_nil_iff_forall_not_mem]
  intro c hc
  unfold firstFail at h
  split at h
  · cases h
  · next early =>
    rcases checkStep_mem c.1 with hs | hs
    · have none := lowest_eq_none (List.findSome?_eq_none_iff.1 early _ hs)
      simp only [List.filter_eq_nil_iff, decide_eq_true_eq] at none
      exact none c hc rfl
    · simp only [List.head?_eq_none_iff, List.filter_eq_nil_iff, decide_eq_true_eq] at h
      exact h c hc hs

theorem cond_eq_nil_iff (b : Bool) (cause detail : Nat) : Machine.cond b cause detail = [] ↔ b = false := by
  cases b <;> simp [Machine.cond]

/-- An instruction that passes its checks holds no reserved option value (04 R101). -/
theorem State.clears_reserved {s : State} {i : Issue} {f : Fields} {cs : List Cond} (h : s.clears i f cs = true) :
    f.reserved = false := by
  simp only [State.clears, Bool.and_eq_true, decide_eq_true_eq] at h
  have none := firstFail_eq_none h.2
  simp only [Fields.conds, List.append_eq_nil_iff, cond_eq_nil_iff, Bool.or_eq_false_iff] at none
  tauto

/-! ### A stream that changes with its issue counter -/

theorem State.onlyStream_count {s t : State} {c : Nat} {st : Strm} (h : s.onlyStream t c st) (j n : Nat) :
    s.onlyStream (t.count .core c j n) c st := by
  obtain ⟨rest, others, core, counters, bytes⟩ := h
  refine ⟨?_, others, core, fun key hk => ?_, bytes⟩
  · rw [← rest]
    simp only [State.count]
  · rw [State.count_get, if_neg (hk j).symm]
    exact counters key hk

/-! ### Branches -/

theorem exec_br_of_clears {s : State} {i : Issue}
    (h : s.clears i { op := 0x02, words := [1], imm := BitVec.allOnes 32, opt := 1, ra := i.insn.opt.getLsbD 0 }
      (Machine.cond (i.insn.opt.getLsbD 0 && ((s.applyEcc i.ecc).streamOf i).tag i.insn.ra.toNat) cPoison 0x04 ++
        targetConds ((s.applyEcc i.ecc).core i.core) (brTarget ((s.applyEcc i.ecc).streamOf i) i.insn)) = true) :
    let s1 := s.applyEcc i.ecc
    exec (.br i) s = .next (s1.branch i.core i.strm (brTarget (s1.streamOf i) i.insn).toNat) :=
  congrArg _ (State.present_clears h rfl rfl rfl)

theorem exec_brc_of_clears {s : State} {i : Issue}
    (h : s.clears i { op := 0x03, words := [1], imm := BitVec.allOnes 32, opt := 7, ra := true, rb := true,
                      reserved := decide (6 ≤ bits i.insn.opt.toNat 2 0) }
      (Machine.cond (((s.applyEcc i.ecc).streamOf i).tag i.insn.ra.toNat || ((s.applyEcc i.ecc).streamOf i).tag i.insn.rb.toNat)
          cPoison 0x04 ++
        if ((s.applyEcc i.ecc).streamOf i).brc i.insn then
          targetConds ((s.applyEcc i.ecc).core i.core) (brcTarget ((s.applyEcc i.ecc).streamOf i) i.insn) else []) = true) :
    let s1 := s.applyEcc i.ecc
    let u := s1.streamOf i
    exec (.brc i) s = .next (if u.brc i.insn then s1.branch i.core i.strm (brcTarget u i.insn).toNat
      else s1.retire i.core i.strm 0 1) :=
  congrArg _ (State.present_clears h rfl rfl rfl)

/-- What a taken branch leaves of its stream and of the device. -/
theorem State.branch_leaves (s : State) (c : Nat) (st : Strm) (target : Nat) :
    let u := (s.core c).stream st
    let v := ((s.branch c st target).core c).stream st
    v.pc = target ∧ v.issue = u.issue + 1 ∧ v.loops = leaveLoops target u.loops ∧
      SMap.get 0 v.stalls 13 = SMap.get 0 u.stalls 13 + 2 ∧ (∀ n, v.reg n = u.reg n ∧ v.tag n = u.tag n) ∧
      s.onlyStream (s.branch c st target) c st := by
  intro u v
  have stream : v = u.branch target := by
    show ((s.branch c st target).core c).stream st = _
    unfold State.branch
    rw [State.core_count, State.core_count, State.core_updCore_self, Core.stream_setStream_self]
  rw [stream]
  exact ⟨rfl, rfl, rfl, SMap.get_set_self 0 u.stalls 13 (SMap.get 0 u.stalls 13 + 2), fun _ => ⟨rfl, rfl⟩,
    State.onlyStream_count (State.onlyStream_count (s.onlyStream_setStream c st _) _ _) _ _⟩

/-- BRC's condition by its code (04 R108). -/
theorem brcTaken_iff {op : Nat} (h : op < 6) (a b : Word) : brcTaken op a b = true ↔
    op = 0 ∧ a = b ∨ op = 1 ∧ a ≠ b ∨ op = 2 ∧ a.toInt < b.toInt ∨ op = 3 ∧ b.toInt ≤ a.toInt ∨
      op = 4 ∧ a.toNat < b.toNat ∨ op = 5 ∧ b.toNat ≤ a.toNat := by
  interval_cases op <;> simp [brcTaken, BitVec.slt, BitVec.ult]

/-- Settles O4: a taken branch by `State.branch_leaves`, one that is not taken by `State.retire_leaves`. -/
theorem branches : Obligations.Branches := by
  refine ⟨fun s i h => ⟨_, exec_br_of_clears h, State.branch_leaves ..⟩, fun s i h => ?brc⟩
  case brc =>
    intro s1 u a b op holds target
    have code : op < 6 := Nat.lt_of_not_le (of_decide_eq_false (State.clears_reserved h))
    have taken : u.brc i.insn = true ↔ holds := brcTaken_iff code a b
    by_cases hb : holds
    · obtain ⟨pc, issue, loops, stalls, regs, only⟩ := s1.branch_leaves i.core i.strm target
      exact ⟨_, (exec_brc_of_clears h).trans (congrArg _ (if_pos (taken.2 hb))), only, fun _ => ⟨pc, issue, loops, stalls, regs⟩,
        fun hn => absurd hb hn⟩
    · obtain ⟨keeps, goes, only⟩ := s1.retire_leaves i.core i.strm 0 1
      exact ⟨_, (exec_brc_of_clears h).trans (congrArg _ (if_neg (mt taken.1 hb))), only, fun hy => absurd hy hb,
        fun _ => ⟨keeps, goes⟩⟩

/-! ### Fences -/

theorem exec_fence_of_clears {s : State} {i : Issue} (h : s.clears i { op := 0x05, words := [1], imm := 1, opt := 0xF } [] = true) :
    let s1 := s.applyEcc i.ecc
    let k := s1.core i.core
    let ops := k.covered i.insn.opt i.strm (i.insn.imm.getLsbD 0)
    exec (.fence i) s = .next (if ops = [] then s1.retire i.core i.strm 0 1
      else s1.setCore i.core (k.setStream i.strm { s1.streamOf i with wait := .fence ops })) := by
  intro s1 k ops
  refine (congrArg Host.Outcome.next (State.present_clears h rfl rfl rfl)).trans (congrArg _ ?_)
  dsimp only
  split
  · next e => exact (if_pos e).symm
  · next e => exact (if_neg e).symm

/-- A FENCE that names no kind covers nothing. -/
theorem Core.covered_zero (k : Core) (st : Strm) (both : Bool) : k.covered 0 st both = [] := by
  simp [Core.covered]

theorem exec_fenceRelease_of_fence {s : State} {c : Nat} {st : Strm} {ops : List Nat} (ha : s.active c st = true)
    (hw : ((s.core c).stream st).wait = .fence ops) :
    exec (.fenceRelease c st) s =
      .next (if ops.any fun o => (s.core c).inFlight.contains o then s else s.retire c st 0 1) :=
  congrArg _ ((if_pos ha).trans (by rw [hw]))

/-- Settles O7: FENCE and FENCE_RELEASE go on by `State.retire_leaves`, or nothing changes but the wait. -/
theorem fences : Obligations.Fences := by
  refine ⟨fun s i h => ?issued, fun s c st ops ha hw => ?released⟩
  case issued =>
    intro s1 u ops
    have none : i.insn.opt = 0 → ops = [] := fun h0 => (congrArg (fun o => (s1.core i.core).covered o i.strm _) h0).trans
      (Core.covered_zero ..)
    by_cases ho : ops = []
    · obtain ⟨keeps, goes, only⟩ := s1.retire_leaves i.core i.strm 0 1
      exact ⟨_, (exec_fence_of_clears h).trans (congrArg _ (if_pos ho)), only, fun _ => ⟨keeps, goes⟩, none, fun hn => absurd ho hn⟩
    · refine ⟨_, (exec_fence_of_clears h).trans (congrArg _ (if_neg ho)), s1.onlyStream_setStream .., fun hy => absurd hy ho, none,
        fun _ => ?_⟩
      rw [State.streamOf, State.core_setCore_self, Core.stream_setStream_self]
  case released =>
    have open_iff : (ops.any fun o => (s.core c).inFlight.contains o) = true ↔ ∃ o ∈ ops, o ∈ (s.core c).inFlight := by simp
    by_cases hopen : ∃ o ∈ ops, o ∈ (s.core c).inFlight
    · refine ⟨_, (exec_fenceRelease_of_fence ha hw).trans (congrArg _ (if_pos (open_iff.2 hopen))), fun hn => ?_, fun _ => rfl⟩
      obtain ⟨o, ho, hf⟩ := hopen
      exact absurd hf (hn o ho)
    · obtain ⟨-, goes, only⟩ := s.retire_leaves c st 0 1
      exact ⟨_, (exec_fenceRelease_of_fence ha hw).trans (congrArg _ (if_neg (mt open_iff.1 hopen))), fun _ => ⟨only, goes⟩,
        fun hy => absurd hy hopen⟩

/-! ### Loops -/

theorem exec_nop_of_clears {s : State} {i : Issue} (h : s.clears i { op := 0x00, words := [1] } [] = true) :
    exec (.nop i) s = .next ((s.applyEcc i.ecc).retire i.core i.strm 0 1) :=
  congrArg _ (State.present_clears h rfl rfl rfl)

theorem exec_loop_of_clears {s : State} {i : Issue}
    (h : s.clears i { op := 0x04, words := [1], imm := 0xFFFF, ra := true, rd := true }
      (loopConds ((s.applyEcc i.ecc).streamOf i) i.insn) = true) :
    let s1 := s.applyEcc i.ecc
    exec (.loop i) s = .next ((s1.setCore i.core ((s1.core i.core).setStream i.strm ((s1.streamOf i).loop i.insn))).count .core
      i.core (if i.strm = .a then 1 else 2) 1) :=
  congrArg _ (State.present_clears h rfl rfl rfl)

/-- A stream that LOOP with a count leaves: a level is open, and its index register holds 0. -/
theorem Stream.loop_open {u : Stream} {i : Insn} (h : loopCount u i ≠ 0) :
    let v := u.loop i
    v.issue = u.issue + 1 ∧ v.pc = u.pc + 8 ∧
      v.loops = { start := u.pc + 8, last := u.pc + 8 * bits i.imm.toNat 15 0, count := loopCount u i, it := 0, rd := i.rd.toNat } ::
        u.loops ∧
      (i.rd.toNat ≠ 0 → v.reg i.rd.toNat = 0) ∧ ∀ m, m ≠ i.rd.toNat → v.reg m = u.reg m := by
  simp only [Stream.loop, if_neg h, Stream.setReg_issue, Stream.setReg_pc, Stream.setReg_loops, Stream.reg_setReg]
  refine ⟨trivial, trivial, trivial, fun hrd => if_pos ⟨trivial, hrd⟩, fun m hm => ?_⟩
  rw [if_neg (by omega)]
  rfl

/-- A stream that LOOP without a count leaves, where no enclosing level ends with the skipped body. -/
theorem Stream.loop_skip {u : Stream} {i : Insn} (h : loopCount u i = 0) (he : u.ends (u.pc + 8 * bits i.imm.toNat 15 0) = false) :
    u.loop i = { u with wait := .none, issue := u.issue + 1, ahead := u.ahead + 1, pc := u.pc + 8 * (bits i.imm.toNat 15 0 + 1) } := by
  simp only [Stream.loop, if_pos h]
  exact Stream.after_straight _ _ _ _ he

theorem Stream.loop_issue (u : Stream) (i : Insn) : (u.loop i).issue = u.issue + 1 := by
  by_cases h : loopCount u i = 0
  · simp only [Stream.loop, if_pos h]
    exact (Stream.after_keeps _ _ _ _).2.2.2.1
  · exact (Stream.loop_open h).1

/-- The level that a body's end advances where an iteration is left. -/
theorem Stream.after_again {t : Stream} {last next : Nat} {l : LoopLevel} (ls : List LoopLevel) (he : l.last = last)
    (hi : l.it + 1 < l.count) : t.after last next (l :: ls) =
      ({ t with loops := { l with it := l.it + 1 } :: ls, pc := l.start }).setReg l.rd (BitVec.ofNat 64 (l.it + 1)) false := by
  rw [Stream.after, if_pos he, if_pos hi]

/-- The level that a body's end closes. -/
theorem Stream.after_closes {t : Stream} {last next : Nat} {l : LoopLevel} (ls : List LoopLevel) (he : l.last = last)
    (hi : l.count ≤ l.it + 1) : t.after last next (l :: ls) = t.after last next ls := by
  rw [Stream.after, if_pos he, if_neg (by omega)]

theorem loop_opens (s : State) (i : Issue) (h : s.clears i { op := 0x04, words := [1], imm := 0xFFFF, ra := true, rd := true }
    (loopConds ((s.applyEcc i.ecc).streamOf i) i.insn) = true) :
    let s1 := s.applyEcc i.ecc
    let u := s1.streamOf i
    let rd := i.insn.rd.toNat
    let body := i.insn.imm.toNat % 2 ^ 16
    let n := (u.reg i.insn.ra.toNat).toNat % 2 ^ 32
    ∃ t, exec (.loop i) s = .next t ∧ s1.onlyStream t i.core i.strm ∧ (t.streamOf i).issue = u.issue + 1 ∧
      (n ≠ 0 →
        (t.streamOf i).loops = { start := u.pc + 8, last := u.pc + 8 * body, count := n, it := 0, rd := rd } :: u.loops ∧
        (t.streamOf i).pc = u.pc + 8 ∧ (rd ≠ 0 → (t.streamOf i).reg rd = 0) ∧
        ∀ m, m ≠ rd → (t.streamOf i).reg m = u.reg m) ∧
      (n = 0 → u.ends (u.pc + 8 * body) = false →
        (t.streamOf i).loops = u.loops ∧ (t.streamOf i).pc = u.pc + 8 * (body + 1) ∧
        ∀ m, (t.streamOf i).reg m = u.reg m) := by
  intro s1 u rd body n
  have stream : (((s1.setCore i.core ((s1.core i.core).setStream i.strm (u.loop i.insn))).count .core i.core
      (if i.strm = .a then 1 else 2) 1).streamOf i) = u.loop i.insn := by
    rw [State.streamOf, State.core_count, State.core_setCore_self, Core.stream_setStream_self]
  refine ⟨_, exec_loop_of_clears h, State.onlyStream_count (s1.onlyStream_setStream ..) _ _, ?_, fun hn => ?_, fun hn he => ?_⟩
  all_goals rw [stream]
  · exact u.loop_issue i.insn
  · obtain ⟨-, pc, loops, index, regs⟩ := Stream.loop_open (u := u) (i := i.insn) hn
    exact ⟨loops, pc, index, regs⟩
  · rw [Stream.loop_skip hn he]
    exact ⟨rfl, rfl, fun _ => rfl⟩

/-- The end of a body, shown at NOP. -/
theorem nop_ends_body (s : State) (i : Issue) (l : LoopLevel) (ls : List LoopLevel) (h : s.clears i { op := 0x00, words := [1] } [] = true) :
    let s1 := s.applyEcc i.ecc
    let u := s1.streamOf i
    u.loops = l :: ls → l.last = u.pc →
    ∃ t, exec (.nop i) s = .next t ∧
      (l.it + 1 < l.count →
        (t.streamOf i).pc = l.start ∧ (t.streamOf i).loops = { l with it := l.it + 1 } :: ls ∧
        (l.rd ≠ 0 → (t.streamOf i).reg l.rd = BitVec.ofNat 64 (l.it + 1)) ∧
        ∀ n, n ≠ l.rd → (t.streamOf i).reg n = u.reg n) ∧
      (l.count ≤ l.it + 1 → (ls.any fun m => decide (m.last = u.pc)) = false →
        (t.streamOf i).pc = u.pc + 8 ∧ (t.streamOf i).loops = ls ∧ ∀ n, (t.streamOf i).reg n = u.reg n) ∧
      (l.count ≤ l.it + 1 → ∀ m ms, ls = m :: ms → m.last = u.pc → m.it + 1 < m.count →
        (t.streamOf i).pc = m.start ∧ (t.streamOf i).loops = { m with it := m.it + 1 } :: ms) := by
  intro s1 u hl he
  have stream : (s1.retire i.core i.strm 0 1).streamOf i =
      Stream.after { u with wait := .none, issue := u.issue + 1, ahead := u.ahead + 1 } u.pc (u.pc + 8) (l :: ls) := by
    rw [State.streamOf_retire, ← hl]
    rfl
  refine ⟨_, exec_nop_of_clears h, fun hi => ?again, fun hc hs => ?closes, fun hc m ms hm hme hmi => ?next⟩
  all_goals rw [stream]
  case again =>
    rw [Stream.after_again ls he hi, Stream.setReg_pc, Stream.setReg_loops]
    refine ⟨rfl, rfl, fun hrd => ?_, fun n hn => ?_⟩
    · rw [Stream.reg_setReg, if_pos ⟨rfl, hrd⟩]
    · rw [Stream.reg_setReg, if_neg (by omega)]
      rfl
  case closes =>
    rw [Stream.after_closes ls he hc, Stream.after_straight _ _ _ _ hs]
    exact ⟨rfl, rfl, fun _ => rfl⟩
  case next =>
    rw [Stream.after_closes ls he hc, hm, Stream.after_again ms hme hmi, Stream.setReg_pc, Stream.setReg_loops]
    exact ⟨rfl, rfl⟩

/-- Settles O9: LOOP by the two cases of its count, and the end of a body by the level that ends there. -/
theorem hardwareLoops : Obligations.HardwareLoops := ⟨loop_opens, nop_ends_body⟩

end Sys2Proof.Machine

/-! What stops, fences and reports leave of a core's streams, and of the basin that a core lies in (02 R50, R53; 03 R87, R89). -/

namespace Sys2Proof.Machine

/-! ### The basin of a core -/

/-- A bound basin whose rectangle holds a core. -/
def Basin.holds (v : Basin) (c : Nat) : Bool := decide (v.phase ≠ .free) && v.desc.contains c

theorem State.basinOf_eq (s : State) (c : Nat) : s.basinOf c = (s.basins.find? fun e => e.2.holds c).map (·.1) := rfl

/-- A core lies in a bound basin. -/
def State.placed (s : State) (c : Nat) : Prop := ∃ b, s.basinOf c = some b ∧ (s.basin b).phase ≠ .free

/-- The first entry that fits, after the value at a key has changed to one that fits where the old one did. -/
theorem SMap.find?_insert {α : Type} {d : α} {m : SMap α} {k : Nat} {v : α} {p : Nat × α → Bool} {e : Nat × α}
    (hp : p (k, SMap.get d m k) = true → p (k, v) = true) (he : m.find? p = some e) :
    (SMap.insert m k v).find? p = some e ∨ (SMap.insert m k v).find? p = some (k, v) := by
  induction m with
  | nil => cases he
  | cons a m ih =>
    obtain ⟨j, w⟩ := a
    simp only [SMap.insert, SMap.get_cons] at hp ⊢
    by_cases hv : p (k, v) = true
    · split
      · simp [hv]
      · split
        · simp [hv]
        · grind
    · split
      · grind
      · split
        · grind
        · grind

/-- The first entry that fits, after another key's entries have gone. -/
theorem SMap.find?_erase {α : Type} {m : SMap α} {k : Nat} {p : Nat × α → Bool} {e : Nat × α} (hk : e.1 ≠ k)
    (he : m.find? p = some e) : (SMap.erase m k).find? p = some e := by
  obtain ⟨fits, before, after, rfl, first⟩ := List.find?_eq_some_iff_append.1 he
  refine List.find?_eq_some_iff_append.2 ⟨fits, SMap.erase before k, SMap.erase after k, ?_, fun a ha => first a (List.mem_filter.1 ha).1⟩
  simp [SMap.erase, hk]

/-- A change of one basin that keeps its rectangle and does not free it: the basin of a core stays, unless it becomes the one that changes. -/
theorem State.basinOf_updBasin {s : State} {c b b0 : Nat} {f : Basin → Basin} (hd : (f (s.basin b)).desc = (s.basin b).desc)
    (hf : (s.basin b).phase ≠ .free → (f (s.basin b)).phase ≠ .free) (hb : s.basinOf c = some b0) (hp : (s.basin b0).phase ≠ .free) :
    (s.updBasin b f).basinOf c = some b0 ∨ (s.updBasin b f).basinOf c = some b ∧ (f (s.basin b)).phase ≠ .free := by
  obtain ⟨⟨b1, v⟩, he, rfl⟩ := Option.map_eq_some_iff.1 ((s.basinOf_eq c).symm.trans hb)
  by_cases hv : f (s.basin b) = {}
  · have other : b1 ≠ b := by
      rintro rfl
      exact hf hp (by rw [hv])
    have erased : (s.updBasin b f).basins = SMap.erase s.basins b := by
      simp only [State.updBasin, State.setBasin, SMap.set, if_pos hv]
    exact .inl (by rw [State.basinOf_eq, erased, SMap.find?_erase other he]; rfl)
  · have inserted : (s.updBasin b f).basins = SMap.insert s.basins b (f (s.basin b)) := by
      simp only [State.updBasin, State.setBasin, SMap.set, if_neg hv]
    have fits : (s.basin b).holds c = true → (f (s.basin b)).holds c = true := by
      simp only [Basin.holds, Bool.and_eq_true, decide_eq_true_eq, hd]
      exact And.imp_left hf
    rcases SMap.find?_insert (d := ({} : Basin)) (p := fun (e : Nat × Basin) => e.2.holds c) fits he with h' | h'
    · exact .inl (by rw [State.basinOf_eq, inserted, h']; rfl)
    · have held := List.find?_some h'
      simp only [Basin.holds, Bool.and_eq_true, decide_eq_true_eq] at held
      exact .inr ⟨by rw [State.basinOf_eq, inserted, h']; rfl, held.1⟩

theorem State.placed_updBasin {s : State} {c b : Nat} {f : Basin → Basin} (hd : (f (s.basin b)).desc = (s.basin b).desc)
    (hf : (s.basin b).phase ≠ .free → (f (s.basin b)).phase ≠ .free) (h : s.placed c) : (s.updBasin b f).placed c := by
  obtain ⟨b0, hb, hp⟩ := h
  rcases State.basinOf_updBasin hd hf hb hp with h | ⟨h, hn⟩
  · refine ⟨b0, h, ?_⟩
    rw [State.basin_updBasin]
    split
    · next e => exact hf (e ▸ hp)
    · exact hp
  · exact ⟨b, h, by rw [State.basin_updBasin_self]; exact hn⟩

/-- A change of the basin of a core. -/
theorem State.basinAt_updBasin_self {s : State} {c : Nat} {f : Basin → Basin} (h : s.placed c)
    (hd : (f (s.basin (s.basinAt c))).desc = (s.basin (s.basinAt c)).desc)
    (hf : (f (s.basin (s.basinAt c))).phase = (s.basin (s.basinAt c)).phase) :
    (s.updBasin (s.basinAt c) f).basinAt c = s.basinAt c := by
  obtain ⟨b, hb, hp⟩ := h
  have at_ : s.basinAt c = b := by rw [State.basinAt, hb]; rfl
  rw [at_] at hd hf ⊢
  have own : (s.updBasin b f).basinOf c = some b := by
    rcases State.basinOf_updBasin hd (by rw [hf]; exact id) hb hp with h | ⟨h, -⟩
    · exact h
    · exact h
  rw [State.basinAt, own]
  rfl

/-- An instruction of a stream that can issue has a core that lies in a bound basin. -/
theorem State.placed_of_canIssue {s : State} {c : Nat} {st : Strm} (h : s.canIssue c st = true) : s.placed c := by
  unfold State.canIssue at h
  cases hb : s.basinOf c with
  | none => simp [hb] at h
  | some b =>
    simp only [hb, Bool.and_eq_true, decide_eq_true_eq] at h
    exact ⟨b, hb, by rw [h.1.1.1.1.1.1]; decide⟩

/-! ### The relation -/

/-- What stops, fences and reports leave of a core: its scratchpad, its streams' addresses and registers, that they stand still, and a
latched halt record (03 R87, R89). -/
structure Core.Rests (k l : Core) : Prop where
  sp : l.sp = k.sp
  pc : ∀ st, (l.stream st).pc = (k.stream st).pc
  reg : ∀ st n, (l.stream st).reg n = (k.stream st).reg n
  halted : ∀ st, (l.stream st).halted = (k.stream st).halted
  stopped : ∀ st, (k.stream st).stopped = true → (l.stream st).stopped = true
  hrec : k.hrec.latched = true → l.hrec = k.hrec

/-- A state that comes from another by stops, fences and reports: what its cores keep, and that a core in a bound basin stays in one. -/
structure State.Rests (s t : State) : Prop where
  core : ∀ c, (s.core c).Rests (t.core c)
  placed : ∀ c, s.placed c → t.placed c

theorem Core.Rests.refl (k : Core) : k.Rests k := ⟨rfl, fun _ => rfl, fun _ _ => rfl, fun _ => rfl, fun _ => id, fun _ => rfl⟩

theorem Core.Rests.trans {k l m : Core} (h : k.Rests l) (g : l.Rests m) : k.Rests m where
  sp := g.sp.trans h.sp
  pc st := (g.pc st).trans (h.pc st)
  reg st n := (g.reg st n).trans (h.reg st n)
  halted st := (g.halted st).trans (h.halted st)
  stopped st e := g.stopped st (h.stopped st e)
  hrec e := (g.hrec (by rw [h.hrec e]; exact e)).trans (h.hrec e)

/-- A core that stops, whatever becomes of a record that is not latched, and of its fence. -/
theorem Core.Rests.of_stop (k : Core) {r : HaltRec} (f : Bool) (hr : k.hrec.latched = true → r = k.hrec) :
    k.Rests { k.stop with hrec := r, fenced := f } := by
  refine ⟨rfl, fun st => ?_, fun st _ => ?_, fun st => ?_, fun st _ => ?_, hr⟩
  all_goals cases st <;> rfl

namespace State.Rests

variable {s t u : State}

/-! ### Updates of the state -/

theorem refl (s : State) : s.Rests s := ⟨fun _ => .refl _, fun _ => id⟩

theorem trans (h : s.Rests t) (g : t.Rests u) : s.Rests u :=
  ⟨fun c => (h.core c).trans (g.core c), fun c => g.placed c ∘ h.placed c⟩

theorem same (h : s.Rests t) (e : u.stopParts = t.stopParts) : s.Rests u := by
  simp only [State.stopParts, Prod.mk.injEq] at e
  obtain ⟨hb, hc, -⟩ := e
  refine h.trans ⟨fun c => ?_, fun c hp => ?_⟩
  · simp only [State.core, hc, Core.Rests.refl]
  · simpa only [State.placed, State.basinOf, State.basin, hb] using hp

theorem updBasin {b : Nat} {f : Basin → Basin} (h : s.Rests t) (hd : ∀ v, (f v).desc = v.desc)
    (hf : ∀ v, v.phase ≠ .free → (f v).phase ≠ .free) : s.Rests (t.updBasin b f) :=
  h.trans ⟨fun _ => .refl _, fun _ => State.placed_updBasin (hd _) (hf _)⟩

theorem updCore {c : Nat} {f : Core → Core} (h : s.Rests t) (hf : ∀ k, Core.Rests k (f k)) : s.Rests (t.updCore c f) := by
  refine h.trans ⟨fun c' => ?_, fun _ => id⟩
  rw [State.core_updCore]
  split
  · next e => subst e; exact hf _
  · exact .refl _

theorem updCores {cs : List Nat} {f : Nat → Core → Core} (h : s.Rests t) (hf : ∀ c k, Core.Rests k (f c k)) :
    s.Rests (t.updCores cs f) :=
  List.foldlRecOn cs _ h fun _ h c _ => h.updCore (hf c)

/-! ### Stops, reports and halts -/

theorem notify {b v : Nat} (h : s.Rests t) : s.Rests (t.notify (.vf b) v) := by
  unfold State.notify
  dsimp only
  split
  · exact h.updBasin (f := fun x => { x with msix := _ }) (fun _ => rfl) fun _ => id
  · exact h.same rfl

theorem markEvent {b i : Nat} (h : s.Rests t) : s.Rests (t.markEvent b i) := h.updBasin (fun _ => rfl) fun _ => id

theorem setEvent {b i : Nat} (h : s.Rests t) : s.Rests (t.setEvent b i) :=
  .same (.notify (.markEvent h)) (State.notify_pf0_stopParts _ 8)

theorem stopCores {b : Nat} (h : s.Rests t) : s.Rests (t.stopCores b) := by
  unfold State.stopCores
  exact h.updCores fun _ k => .of_stop k k.fenced fun e => if_pos e

theorem startTest {b : Nat} (h : s.Rests t) : s.Rests (t.startTest b) := by
  unfold State.startTest
  dsimp only
  split
  · exact .updBasin (h.same (State.switchQuarry_keeps ..).1) (fun _ => rfl) fun _ => id
  · exact h.same (State.switchQuarry_keeps ..).1

theorem takeRebind {b : Nat} (h : s.Rests t) : s.Rests (t.takeRebind b) := by
  unfold State.takeRebind
  split
  · exact h.updBasin (fun _ => rfl) fun _ _ => nofun
  · exact h

theorem restTest {b : Nat} (h : s.Rests t) : s.Rests (t.restTest b) := by
  unfold State.restTest
  split
  · exact h
  · split
    · exact h.startTest
    · exact h.takeRebind

theorem enterParked {b : Nat} (h : s.Rests t) : s.Rests (t.enterParked b) := by
  unfold State.enterParked
  exact .restTest (.setEvent (h.updBasin (fun _ => rfl) fun _ _ => nofun))

theorem beginUnbind {b : Nat} (h : s.Rests t) : s.Rests (t.beginUnbind b) := by
  unfold State.beginUnbind
  exact .updBasin (.stopCores (h.same rfl)) (fun _ => rfl) fun _ _ => nofun

theorem enterFence {o : Option Nat} {kind c : Nat} (h : s.Rests t) : s.Rests (t.enterFence o kind c) := by
  have stopped : s.Rests (t.updCore c fun k => { k.stop with fenced := true }) := h.updCore fun k => .of_stop k true fun _ => rfl
  unfold State.enterFence
  exact .same (stopped.same rfl) (State.report_stopParts ..)

theorem applyFences {b : Nat} (h : s.Rests t) : s.Rests (t.applyFences b) := by
  have fenced : s.Rests ((t.basin b).fencePending.foldl (fun s f => s.enterFence (some b) f.1 f.2)
      (t.updBasin b fun x => { x with fencePending := [] })) :=
    List.foldlRecOn _ _ (h.updBasin (fun _ => rfl) fun _ => id) fun _ g _ _ => g.enterFence
  unfold State.applyFences
  dsimp only
  split
  · exact fenced.beginUnbind
  · refine .enterParked (.markEvent (.updBasin (.updCores fenced fun _ k => ?_) (fun _ => rfl) fun _ => id))
    exact .of_stop k k.fenced HaltRec.latch_latched

theorem settle {b : Nat} (h : s.Rests t) : s.Rests (t.settle b) := by
  unfold State.settle
  split
  · exact h.restTest
  · exact h.applyFences

theorem haltBasin {b cause : Nat} (h : s.Rests t) : s.Rests (t.haltBasin b cause) := by
  unfold State.haltBasin
  exact .settle (.setEvent (.updBasin h.stopCores (fun _ => rfl) fun _ _ => nofun))

theorem enterIdle {b : Nat} (h : s.Rests t) : s.Rests (t.enterIdle b) := by
  unfold State.enterIdle
  exact .settle (h.updBasin (fun _ => rfl) fun _ _ => nofun)

theorem respond {b cause detail : Nat} (h : s.Rests t) : s.Rests (t.respond b cause detail) := by
  have event : s.Rests (t.tierEvent b cause detail) := by
    unfold State.tierEvent
    split
    · exact h.markEvent
    · split
      · exact h.markEvent
      · exact h
  unfold State.respond
  split
  · dsimp only
    split
    · unfold State.beginRestart
      dsimp only
      split
      · exact event.haltBasin
      · exact event.stopCores.updBasin (fun _ => rfl) fun _ _ => nofun
    · exact event.haltBasin
  · exact h

theorem fenceCore {kind c : Nat} (h : s.Rests t) : s.Rests (t.fenceCore kind c) := by
  unfold State.fenceCore
  split
  · exact h
  · split
    · exact h.enterFence
    · dsimp only
      split
      · exact .applyFences (h.updBasin (fun _ => rfl) fun _ => id)
      · exact h.updBasin (fun _ => rfl) fun _ => id

theorem charge {kind index event addr detail act : Nat} {b : Option Nat} (h : s.Rests t) :
    s.Rests (t.charge kind index event addr detail act b) := by
  have fence : ∀ {u : State}, s.Rests u → s.Rests (u.fenceUnit kind index) := fun h => by
    unfold State.fenceUnit
    split
    · exact h.fenceCore
    · exact h.fenceCore
    · exact h.fenceCore.fenceCore
    · exact h
  unfold State.charge
  dsimp only
  split
  · exact fence (.same (h.same rfl) (State.report_stopParts ..))
  · exact .same (h.same rfl) (State.report_stopParts ..)

/-- Stored errors poison blocks and may fence cores. -/
theorem applyEcc {es : List EccHit} (h : s.Rests t) : s.Rests (t.applyEcc es) := by
  induction es generalizing t with
  | nil => exact h
  | cons e es ih =>
    unfold State.applyEcc
    refine ih ?_
    split
    · exact .charge (h.updCore fun k =>
        ⟨rfl, fun st => by cases st <;> rfl, fun st _ => by cases st <;> rfl, fun st => by cases st <;> rfl,
          fun st h => by cases st <;> exact h, fun _ => rfl⟩)
    · exact h.same rfl

end State.Rests

/-- A core that halts stands still with its registers, whatever its basin does (03 R87). -/
theorem State.haltWith_rests (s : State) (c : Nat) (r : HaltRec) :
    s.Rests (s.haltWith c r) ∧ ∀ st, (((s.haltWith c r).core c).stream st).stopped = true := by
  have stop : s.Rests (s.updCore c fun k => { k.stop with hrec := k.hrec.latch r }) :=
    .updCore (.refl s) fun k => .of_stop k k.fenced HaltRec.latch_latched
  have still : ∀ st, (((s.updCore c fun k => { k.stop with hrec := k.hrec.latch r }).core c).stream st).stopped = true := fun st => by
    rw [State.core_updCore_self]
    cases st <;> rfl
  unfold State.haltWith
  dsimp only
  split
  · exact ⟨stop.respond, fun st => ((State.Rests.respond (.refl _)).core c).stopped st (still st)⟩
  · exact ⟨stop, still⟩

/-! ### The first check -/

/-- Every instruction is presented with the fields of its opcode. -/
theorem exec_eq_present {c : Instr} {i : Issue} {n : Nat} (hp : presentedOf c = some (i, n)) (s : State) :
    ∃ f conds act, exec c s = .next (s.present i f conds act) ∧ ∀ k, (f s k).op = n := by
  cases c with
  | nop j | halt j | br j | brc j | loop j | fence j | sluice j | qpush j | qpop j | waitf j | setf j | movs j | movsw j
  | add j | sub j | mul j | and j | or j | xor j | shl j | shr j | sra j | min j | max j | movi j | movhi j
  | brg j | brgt j | put j | reds j | bcan j | oparm j | opstr j u | opdrn j
  | vadd j | vmul j | vfma j | vexp j | vrsq j | vmax j | vcvt j | vred j | vldx j | vstx j =>
    cases hp
    exact ⟨_, _, _, rfl, fun _ => rfl⟩
  | _ => cases hp

/-- An instruction whose words cannot be fetched halts its core. -/
theorem State.present_unfetched {s : State} {i : Issue} {f : State → Core → Fields} {conds : State → Core → Stream → List Cond}
    {act : State → State} {e : Cond} (hi : s.canIssue i.core i.strm = true)
    (hp : i.insn.presents (f s (s.core i.core)).op = true)
    (hf : fetchCond ((s.applyEcc i.ecc).core i.core) i.insn ((s.applyEcc i.ecc).streamOf i) = some e) :
    s.present i f conds act = (s.applyEcc i.ecc).haltCore i.core i.strm e.1 e.2 := by
  simp only [State.streamOf] at hf
  simp only [State.present, hi, hp, Bool.and_self, if_true, hf]

theorem fetchCond_of_poisoned {k : Core} {i : Insn} {t : Stream} (h : k.spPoisoned t.pc (8 * (i.wc.toNat + 1)) = true) :
    fetchCond k i t = some (cPoison, 0x01) := if_pos h

theorem fetchCond_of_outside {k : Core} {i : Insn} {t : Stream} (hp : k.spPoisoned t.pc (8 * (i.wc.toNat + 1)) = false)
    (h : t.pc < k.base ∨ k.base + k.size < t.pc + 8 * (i.wc.toNat + 1)) : fetchCond k i t = some (cPrivilege, 0x01) := by
  rw [fetchCond, if_neg (by simp [hp]), if_pos h]

/-- What the halt of a core at the issue of an instruction leaves of it (03 R87, R89). -/
theorem State.haltCore_leaves (s : State) (c : Nat) (st : Strm) (cause detail : Nat) :
    let k := s.core c
    let l := (s.haltCore c st cause detail).core c
    (k.hrec.latched = false → l.hrec =
      { latched := true, aPc := k.a.pc, xPc := k.x.pc, detail := detail, stream := if st = .a then 0 else 1, cause := cause }) ∧
    k.Rests l ∧ ∀ st, (l.stream st).stopped = true := by
  intro k l
  obtain ⟨rests, still⟩ := s.haltWith_rests c { aPc := k.a.pc, xPc := k.x.pc, detail := detail, stream := strmCode st, cause := cause }
  refine ⟨fun hl => (State.haltWith_hrec hl).trans ?_, rests.core c, still⟩
  cases st <;> rfl

/-- Settles O10: the first check halts the core by `State.haltCore_leaves`, and a stream that cannot issue takes nothing. -/
theorem issueChecks : Obligations.IssueChecks := by
  refine ⟨fun s c i n e hp hpres hi => ?halts, fun s c i hp hi => ?idle⟩
  case halts =>
    intro s1 k u m hcond hl
    have fetch : fetchCond k i.insn u = some e := by
      rcases hcond with ⟨poisoned, rfl⟩ | ⟨clean, outside, rfl⟩
      · exact fetchCond_of_poisoned poisoned
      · exact fetchCond_of_outside clean outside
    obtain ⟨f, conds, act, run, op⟩ := exec_eq_present hp s
    obtain ⟨record, rests, still⟩ := s1.haltCore_leaves i.core i.strm e.1 e.2
    refine ⟨_, run.trans (congrArg _ (State.present_unfetched hi (by rw [op]; exact hpres) fetch)), record hl, still .a, still .x,
      fun st n => ⟨rests.reg st n, rests.pc st⟩, fun a => ?_⟩
    rw [State.spByte, rests.sp, State.spByte]
  case idle =>
    obtain ⟨⟨i', n⟩, presented, rfl⟩ := Option.map_eq_some_iff.1 hp
    obtain ⟨f, conds, act, run, -⟩ := exec_eq_present presented s
    exact run.trans (congrArg _ (State.present_idle hi))

/-! ### HALT -/

/-- A stream that executes HALT (03 R88). -/
def Stream.halt (u : Stream) : Stream := { u with halted := true, wait := .none, issue := u.issue + 1, ahead := u.ahead + 1 }

/-- The state in which a stream has executed HALT, and what follows for its core has not come yet. -/
def State.haltStream (s : State) (c : Nat) (st : Strm) : State :=
  (s.setCore c ((s.core c).setStream st ((s.core c).stream st).halt)).count .core c (if st = .a then 1 else 2) 1

theorem exec_halt_of_clears {s : State} {i : Issue} (h : s.clears i { op := 0x01, words := [1] } [] = true) :
    exec (.halt i) s = .next (((s.applyEcc i.ecc).haltStream i.core i.strm).finishCore i.core) :=
  congrArg _ (State.present_clears h rfl rfl rfl)

theorem State.core_haltStream (s : State) (c : Nat) (st : Strm) :
    (s.haltStream c st).core c = (s.core c).setStream st ((s.core c).stream st).halt := by
  unfold State.haltStream
  rw [State.core_count, State.core_setCore_self]

theorem State.haltStream_finished (s : State) (c : Nat) (st : Strm) :
    ((s.haltStream c st).core c).finished = ((s.core c).stream (otherStrm st)).halted := by
  rw [State.core_haltStream]
  cases st
  · exact Bool.true_and _
  · exact Bool.and_true _

/-- A core both of whose streams have executed HALT, with its record (03 R88). -/
def State.recordHalt (s : State) (c : Nat) : State := s.updCore c fun k => { k with hrec := k.hrec.latch (haltInstrRec k) }

theorem State.finishCore_of_running {s : State} {c : Nat} (h : (s.core c).finished = false) : s.finishCore c = s :=
  if_neg (by simp [h])

theorem State.finishCore_of_placed {s : State} {c b : Nat} (h : (s.core c).finished = true) (hb : s.basinOf c = some b) :
    s.finishCore c = if (s.recordHalt c).liveCores b |>.all fun d => ((s.recordHalt c).core d).finished
      then (s.recordHalt c).enterIdle b else s.recordHalt c := by
  have place : (s.recordHalt c).basinOf c = some b := hb
  rw [State.finishCore, if_pos h]
  show (match (s.recordHalt c).basinOf c with | some b => _ | none => _) = _
  rw [place]
  rfl

theorem State.finishCore_rests {s : State} {c : Nat} (h : (s.core c).finished = true) :
    (s.recordHalt c).Rests (s.finishCore c) := by
  cases hb : s.basinOf c with
  | some b =>
    rw [State.finishCore_of_placed h hb]
    split
    · exact .enterIdle (.refl _)
    · exact .refl _
  | none =>
    have place : (s.recordHalt c).basinOf c = none := hb
    rw [State.finishCore, if_pos h]
    show (s.recordHalt c).Rests (match (s.recordHalt c).basinOf c with | some b => _ | none => _)
    rw [place]
    exact .refl _

theorem State.core_recordHalt (s : State) (c : Nat) :
    (s.recordHalt c).core c = { s.core c with hrec := (s.core c).hrec.latch (haltInstrRec (s.core c)) } := s.core_updCore_self c _

theorem State.stream_recordHalt (s : State) (c : Nat) (st : Strm) : ((s.recordHalt c).core c).stream st = (s.core c).stream st := by
  rw [State.core_recordHalt]
  cases st <;> rfl

/-- The unfenced cores of a basin after the HALT that finishes a core, and whether they have all finished. -/
theorem State.recordHalt_live (s : State) (c b : Nat) (st : Strm) :
    let w := (s.haltStream c st).recordHalt c
    w.liveCores b = s.liveCores b ∧
      ∀ d, d ≠ c → (w.core d).finished = (s.core d).finished := by
  intro w
  have core : ∀ d, w.core d = if c = d then { (s.haltStream c st).core c with
      hrec := ((s.haltStream c st).core c).hrec.latch (haltInstrRec ((s.haltStream c st).core c)) } else s.core d := fun d => by
    rw [show w = (s.haltStream c st).recordHalt c from rfl, State.recordHalt, State.core_updCore]
    split
    · rfl
    · next hd => rw [State.haltStream, State.core_count, State.core_setCore, if_neg hd]
  refine ⟨List.filter_congr fun d _ => ?_, fun d hd => by rw [core, if_neg (Ne.symm hd)]⟩
  rw [core]
  split
  · next hd => rw [State.core_haltStream, ← hd, Core.setStream_fenced]
  · rfl

theorem halt_stops (s : State) (i : Issue) (h : s.clears i { op := 0x01, words := [1] } [] = true) :
    let s1 := s.applyEcc i.ecc
    let u := s1.streamOf i
    let k := s1.core i.core
    ∃ t, exec (.halt i) s = .next t ∧
      ((k.stream (otherStrm i.strm)).halted = false →
        t.streamOf i = { u with halted := true, wait := .none, issue := u.issue + 1, ahead := u.ahead + 1 } ∧
        s1.onlyStream t i.core i.strm) ∧
      (t.streamOf i).halted = true ∧
      ((k.stream (otherStrm i.strm)).halted = true → k.hrec.latched = false →
        (t.core i.core).hrec = { latched := true, aPc := k.a.pc, xPc := k.x.pc, stream := 3, cause := 0x0F }) ∧
      ((k.stream (otherStrm i.strm)).halted = true → ∀ b, s1.basinOf i.core = some b →
        let rest := (s1.liveCores b).all fun c => decide (c = i.core) || (s1.core c).finished
        (rest = false → t.basins = s1.basins) ∧
        (rest = true → (s1.basin b).fencePending = [] → s1.anyDue b = false → (s1.basin b).pendingRebind = none →
          (t.basin b).phase = .idle)) := by
  intro s1 u k
  have finished : ((s1.haltStream i.core i.strm).core i.core).finished = (k.stream (otherStrm i.strm)).halted :=
    s1.haltStream_finished ..
  have stream : (s1.haltStream i.core i.strm).streamOf i = u.halt := by
    rw [State.streamOf, State.core_haltStream, Core.stream_setStream_self]
    rfl
  refine ⟨_, exec_halt_of_clears h, fun hn => ?first, ?halted, fun hy hl => ?record, fun hy b hb => ?basin⟩
  case first =>
    rw [State.finishCore_of_running (finished.trans hn), stream]
    exact ⟨rfl, State.onlyStream_count (s1.onlyStream_setStream ..) _ _⟩
  case halted =>
    cases hy : (k.stream (otherStrm i.strm)).halted with
    | false =>
      rw [State.finishCore_of_running (finished.trans hy), stream]
      rfl
    | true =>
      rw [State.streamOf, ((State.finishCore_rests (finished.trans hy)).core i.core).halted, State.stream_recordHalt, ← State.streamOf,
        stream]
      rfl
  case record =>
    have latched := HaltRec.latch_fresh (h := ((s1.haltStream i.core i.strm).core i.core).hrec)
      (r := haltInstrRec ((s1.haltStream i.core i.strm).core i.core)) (by rw [State.core_haltStream, Core.setStream_hrec]; exact hl)
    rw [((State.finishCore_rests (finished.trans hy)).core i.core).hrec (by rw [State.core_recordHalt, latched]), State.core_recordHalt,
      latched, State.core_haltStream]
    cases i.strm <;> rfl
  case basin =>
    intro rest
    obtain ⟨live, others⟩ := s1.recordHalt_live i.core b i.strm
    have own : (((s1.haltStream i.core i.strm).recordHalt i.core).core i.core).finished = true := by
      rw [State.core_recordHalt]
      exact finished.trans hy
    have all : (((s1.haltStream i.core i.strm).recordHalt i.core).liveCores b).all
        (fun d => (((s1.haltStream i.core i.strm).recordHalt i.core).core d).finished) = rest := by
      rw [live]
      refine List.all_congr rfl fun d => ?_
      by_cases hd : d = i.core
      · rw [hd, own]; simp
      · rw [others d hd]; simp [hd]
    rw [State.finishCore_of_placed (finished.trans hy) hb, all]
    refine ⟨fun hr => ?_, fun hr hf hd hp => ?_⟩
    · rw [if_neg (by simp [hr])]
      rfl
    · have due : ((s1.haltStream i.core i.strm).recordHalt i.core).anyDue b = s1.anyDue b := by
        rw [State.anyDue, live]
        rfl
      rw [if_pos hr, State.enterIdle_of_restful (s := (s1.haltStream i.core i.strm).recordHalt i.core) hf (by rw [due, hd]; rfl) hp,
        State.basin_updBasin_self]

/-- Settles O8: NOP by `State.retire_leaves`; HALT by what the end of a core's program leaves (`halt_stops`). -/
theorem nopAndHalt : Obligations.NopAndHalt := by
  refine ⟨fun s i h => ?_, halt_stops⟩
  obtain ⟨keeps, goes, only⟩ := (s.applyEcc i.ecc).retire_leaves i.core i.strm 0 1
  exact ⟨_, exec_nop_of_clears h, keeps, goes, only⟩

end Sys2Proof.Machine

/-! SLUICE, the dispatch of vector work, and barges at issue (04 R103, R117, R119 to R125, R132 to R137). -/

namespace Sys2Proof.Machine

/-! ### Changes of one core in turn -/

theorem State.onlyCore.trans {s t u : State} {c : Nat} (h : s.onlyCore t c) (g : t.onlyCore u c) : s.onlyCore u c := by
  obtain ⟨rest, others, counters, mem⟩ := h
  obtain ⟨rest', others', counters', mem'⟩ := g
  refine ⟨?_, fun c' hc => (others' c' hc).trans (others c' hc), fun key hk => (counters' key hk).trans (counters key hk),
    fun b a => (mem' b a).trans (mem b a)⟩
  have both := congrArg (fun v : State => { v with cores := s.cores, pmc := { v.pmc with counters := s.pmc.counters } }) rest'
  exact both.trans rest

theorem State.onlyCore_count (s : State) (c j n : Nat) : s.onlyCore (s.count .core c j n) c :=
  ⟨by simp only [State.count], fun _ _ => rfl, fun key hk => by rw [State.count_get, if_neg (hk j).symm], fun _ _ => rfl⟩

theorem State.unitWait_leaves (s : State) (c : Nat) (st : Strm) (rank : Nat) :
    s.onlyCore (s.unitWait c st rank) c ∧ s.sameBytes (s.unitWait c st rank) := by
  have only : s.onlyCore (s.unitWait c st rank) c := s.onlyCore_setCore c _
  refine ⟨only, only.sameBytes ?_⟩
  rw [State.unitWait, State.core_updCore_self, Core.setStream_sp]

/-! ### SLUICE -/

/-- A stream that has issued SLUICE (04 R117). -/
def Stream.atSluiceOf (u : Stream) (i : Insn) : Stream :=
  { u with wait := .sluice (bits i.imm.toNat 15 0) (i.opt.getLsbD 0) i.fe i.flg.toNat, issue := u.issue + 1, ahead := u.ahead + 1 }

/-- The state in which a stream waits at a sluice, before its core's arrival. -/
def State.waitAtSluice (s : State) (i : Issue) : State :=
  (s.setCore i.core ((s.core i.core).setStream i.strm ((s.streamOf i).atSluiceOf i.insn))).count .core i.core
    (if i.strm = .a then 1 else 2) 1

theorem exec_sluice_of_clears {s : State} {i : Issue} (h : s.clears i { op := 0x06, words := [1], imm := 0xFFFF, opt := 1, fe := true }
      (Machine.cond (i.insn.opt.getLsbD 0 && !((s.applyEcc i.ecc).streamOf i).loops.isEmpty) cLoopDepth 0x02 ++
        Machine.cond (((s.applyEcc i.ecc).core i.core).stream (otherStrm i.strm)).halted cSluice 0x02) = true) :
    exec (.sluice i) s = .next (((s.applyEcc i.ecc).waitAtSluice i).sluiceArrival i.core) :=
  congrArg _ (State.present_clears h rfl rfl rfl)

theorem State.core_waitAtSluice (s : State) (i : Issue) :
    (s.waitAtSluice i).core i.core = (s.core i.core).setStream i.strm ((s.streamOf i).atSluiceOf i.insn) := by
  rw [State.waitAtSluice, State.core_count, State.core_setCore_self]

theorem State.sluiceArrival_of_alone {s : State} {c : Nat} {st : Strm} (h : ((s.core c).stream st).atSluice = none) :
    s.sluiceArrival c = s := by
  unfold State.sluiceArrival
  cases st
  · have h : (s.core c).a.atSluice = none := h
    simp only [h]
  · have h : (s.core c).x.atSluice = none := h
    simp only [h]
    cases (s.core c).a.atSluice <;> rfl

theorem sluiceConds_of_expected {v : Basin} {k : Core} {n : Nat} {ck : Bool} {g : SegRec} (hn : n = v.seg.cur) (hg : v.segRec = some g)
    (hck : g.ck = ck) (hq : ∀ q, k.queue q = {}) : sluiceConds v k (n, ck) (n, ck) = [] := by
  simp [sluiceConds, Machine.cond, hn, hg, hck, hq]

theorem State.checkClosing_of_full {s : State} {b : Nat} (h : (s.basin b).short = false) : s.checkClosing b = s := by
  unfold State.checkClosing
  dsimp only
  split
  · rw [if_neg (by simp [h])]
  · rfl

theorem Basin.arrive_eq (v : Basin) (c n : Nat) (ck : Bool) : v.arrive c n ck = { v with sluice := some (match v.sluice with
    | some q => { q with arrived := q.arrived ++ [c] }
    | none => { n := n, ck := ck, arrived := [c] }) } := by
  unfold Basin.arrive
  cases v.sluice <;> rfl

theorem State.sluiceArrival_of_met {s : State} {c n : Nat} {ck : Bool} {g : SegRec} (ha : (s.core c).a.atSluice = some (n, ck))
    (hx : (s.core c).x.atSluice = some (n, ck)) (hn : n = (s.basin (s.basinAt c)).seg.cur)
    (hg : (s.basin (s.basinAt c)).segRec = some g) (hck : g.ck = ck) (hq : ∀ q, (s.core c).queue q = {})
    (hs : (s.basin (s.basinAt c)).short = false) :
    s.sluiceArrival c = s.updBasin (s.basinAt c) fun v => v.arrive c n ck := by
  have full : ((s.updBasin (s.basinAt c) fun v => v.arrive c n ck).basin (s.basinAt c)).short = false := by
    rw [State.basin_updBasin_self, Basin.arrive_eq]
    exact hs
  unfold State.sluiceArrival
  simp only [ha, hx, sluiceConds_of_expected hn hg hck hq, List.head?_nil]
  exact State.checkClosing_of_full full

theorem Core.atSluice_of_streams {k : Core} {st : Strm} {p : Nat × Bool} (h : (k.stream st).atSluice = some p)
    (ho : (k.stream (otherStrm st)).atSluice = some p) : k.a.atSluice = some p ∧ k.x.atSluice = some p := by
  cases st
  · exact ⟨h, ho⟩
  · exact ⟨ho, h⟩

theorem sluice_arrives (s : State) (i : Issue) :
    let s1 := s.applyEcc i.ecc
    let u := s1.streamOf i
    let k := s1.core i.core
    let ck := i.insn.opt.getLsbD 0
    let n := i.insn.imm.toNat % 2 ^ 16
    let b := s1.basinAt i.core
    s.clears i { op := 0x06, words := [1], imm := 0xFFFF, opt := 1, fe := true }
      (Machine.cond (ck && !u.loops.isEmpty) cLoopDepth 0x02 ++ Machine.cond (k.stream (otherStrm i.strm)).halted cSluice 0x02) = true →
    ∃ t, exec (.sluice i) s = .next t ∧
      ((k.stream (otherStrm i.strm)).atSluice = none →
        t.streamOf i = { u with wait := .sluice n ck i.insn.fe i.insn.flg.toNat, issue := u.issue + 1, ahead := u.ahead + 1 } ∧
        s1.onlyStream t i.core i.strm) ∧
      ((k.stream (otherStrm i.strm)).atSluice = some (n, ck) → n = (s1.basin b).seg.cur →
        (∃ g, (s1.basin b).segRec = some g ∧ g.ck = ck) → (∀ q, k.queue q = {}) → (s1.basin b).short = false →
        (t.basin b).sluice = some (match (s1.basin b).sluice with
          | some q => { q with arrived := q.arrived ++ [i.core] }
          | none => { n := n, ck := ck, arrived := [i.core] }) ∧
        (∀ c, c ≠ i.core → t.core c = s1.core c) ∧ s1.sameBytes t) := by
  intro s1 u k ck n b h
  have core := s1.core_waitAtSluice i
  have only : s1.onlyStream (s1.waitAtSluice i) i.core i.strm := State.onlyStream_count (s1.onlyStream_setStream ..) _ _
  refine ⟨_, exec_sluice_of_clears h, fun alone => ?alone, fun met hn hg hq hs => ?met⟩
  case alone =>
    rw [State.sluiceArrival_of_alone (st := otherStrm i.strm) (by rw [core, Core.stream_setStream_other]; exact alone), State.streamOf,
      core, Core.stream_setStream_self]
    exact ⟨rfl, only⟩
  case met =>
    obtain ⟨g, hg, hck⟩ := hg
    obtain ⟨ha, hx⟩ := Core.atSluice_of_streams (k := (s1.waitAtSluice i).core i.core) (st := i.strm) (p := (n, ck))
      (by rw [core, Core.stream_setStream_self]; rfl) (by rw [core, Core.stream_setStream_other]; exact met)
    rw [State.sluiceArrival_of_met ha hx hn hg hck (fun q => by rw [core, Core.queue_setStream]; exact hq q) hs]
    obtain ⟨-, others, -, -, bytes⟩ := only
    refine ⟨?_, others, bytes.trans ⟨fun _ _ => rfl, fun b' a => ?_⟩⟩
    · show (((s1.waitAtSluice i).updBasin b _).basin b).sluice = _
      rw [State.basin_updBasin_self, Basin.arrive_eq]
      rfl
    · rw [State.memByte, State.basin_updBasin]
      split
      · next e => rw [Basin.arrive_eq, e]; rfl
      · rfl

theorem exec_sluiceReady_of_quiet {s : State} {c : Nat} {q : Sluice} (hq : (s.basin (s.basinAt c)).sluice = some q)
    (hp : (s.basin (s.basinAt c)).phase = .running) (hk : (s.core c).quiet = true) (ha : q.arrived.contains c = true)
    (ht : q.tokens.contains c = false) :
    exec (.sluiceReady c) s = .next (s.updBasin (s.basinAt c) fun v => { v with sluice := some { q with
      tokens := q.tokens ++ [c], stamps := SMap.set 0 q.stamps c (s.latTime c), tLast := max q.tLast (s.latTime c) } }) := by
  show execSluiceReady c s = _
  simp only [execSluiceReady, hq, hp, hk, ha, ht, and_self, Bool.not_false, if_true]

/-- Settles O18: a stream's wait, its core's arrival and its core's token. -/
theorem sluiceArrival : Obligations.SluiceArrival := by
  refine ⟨sluice_arrives, fun s c q hq hp hs hd hv hb ha ht => ⟨_, exec_sluiceReady_of_quiet hq hp ?_ ha ht, ?_, fun b hne => ?_, rfl⟩⟩
  · simp [Core.quiet, hs, hd, hv, hb]
  · rw [State.basin_updBasin_self]
  · rw [State.basin_updBasin, if_neg hne.symm]

/-! ### Vector work at issue -/

theorem exec_vec {c : Instr} {i : Issue} {code : Nat} (s : State) (h : vecOf c = some (i, code)) :
    exec c s = .next (s.vec i code) := by
  cases c with
  | vadd j | vmul j | vfma j | vexp j | vrsq j | vmax j | vcvt j | vred j => cases h; rfl
  | _ => cases h

/-- The dispatch of work to the vector unit, or the wait for it (04 R103). -/
theorem State.dispatchVec_leaves (s : State) (i : Issue) (o : Op) :
    let u := s.streamOf i
    let k := s.core i.core
    let t := s.dispatchVec i o
    s.onlyCore t i.core ∧ s.sameBytes t ∧ (2 ≤ k.vecPipe.length → s.waitsFor t i 11) ∧
      (k.vecPipe.length < 2 → (t.core i.core).vecPipe = k.vecPipe ++ [{ o with id := k.nextOp }] ∧
        u.goesOn (t.streamOf i) i.insn.wc.toNat 1 ∧ u.keepsRegs (t.streamOf i) (u.pc + 8 * i.insn.wc.toNat) 0) := by
  intro u k t
  by_cases hfull : 2 ≤ k.vecPipe.length
  · have wait : t = s.unitWait i.core i.strm 11 := if_pos hfull
    obtain ⟨only, bytes⟩ := s.unitWait_leaves i.core i.strm 11
    rw [wait]
    exact ⟨only, bytes, fun _ => s.unitWait_waitsFor i 11, fun h => absurd hfull (by omega)⟩
  · have enter : t = (s.setCore i.core { k with vecPipe := k.vecPipe ++ [{ o with id := k.nextOp }], nextOp := k.nextOp + 1 }).retire
        i.core i.strm i.insn.wc.toNat 1 := if_neg hfull
    obtain ⟨core, only, bytes, keeps, goes⟩ := s.setCore_retire_leaves i.core i.strm i.insn.wc.toNat 1
      (k := { k with vecPipe := k.vecPipe ++ [{ o with id := k.nextOp }], nextOp := k.nextOp + 1 }) (by cases i.strm <;> rfl) rfl
    rw [← enter] at core only bytes keeps goes
    refine ⟨only, bytes, fun h => absurd h hfull, fun _ => ⟨?_, goes, keeps⟩⟩
    rw [core, Core.setStream_vecPipe]

/-- What VSTX asks of the vector unit. -/
def Stream.vstxOp (u : Stream) (i : Issue) : Op :=
  { code := oVstx, pc := u.pc, strm := i.strm, insn := i.insn, opA := BitVec.ofNat 64 (vecAddr u i.insn),
    opB := u.reg i.insn.rb.toNat, tagB := u.tag i.insn.rb.toNat }

theorem Stream.vstxOp_opA (u : Stream) (i : Issue) :
    (u.vstxOp i).opA = u.reg i.insn.ra.toNat + i.insn.imm.signExtend 64 := by
  rw [Stream.vstxOp, vecAddr, BitVec.ofNat_toNat, BitVec.setWidth_eq]
  rfl

theorem exec_vstx_of_clears {s : State} {i : Issue}
    (h : s.clears i { op := 0x49, words := [1], only := some .x, imm := BitVec.allOnes 32, rb := true, ra := true }
      (vecAddrConds ((s.applyEcc i.ecc).streamOf i) i.insn) = true) :
    exec (.vstx i) s = .next ((s.applyEcc i.ecc).dispatchVec i (((s.applyEcc i.ecc).streamOf i).vstxOp i)) :=
  congrArg _ (State.present_clears h rfl rfl rfl)

theorem exec_vldx_of_clears {s : State} {i : Issue}
    (h : s.clears i { op := 0x48, words := [1], only := some .x, imm := BitVec.allOnes 32, ra := true, rd := true }
      (vecAddrConds ((s.applyEcc i.ecc).streamOf i) i.insn) = true) :
    let s1 := s.applyEcc i.ecc
    let k := s1.core i.core
    let a := vecAddr (s1.streamOf i) i.insn
    exec (.vldx i) s = .next (if !k.vecPipe.isEmpty then s1.unitWait i.core i.strm 11
      else s1.endWriting i.core i.strm i.insn.rd.toNat (BitVec.ofNat 64 (leNat (k.spRead a 8))) (k.spPoisoned a 8) 3) :=
  congrArg _ (State.present_clears h rfl rfl rfl)

/-- Settles O16: dispatch by `State.dispatchVec_leaves`; VLDX waits, or writes its register as `State.endWriting_leaves` says. -/
theorem vectorIssue : Obligations.VectorIssue := by
  refine ⟨fun s c i code hc h => ?vec, fun s i => ?vstx, fun s i => ?vldx⟩
  case vec =>
    exact ⟨_, (exec_vec s hc).trans (congrArg _ (State.present_clears h rfl rfl rfl)), State.dispatchVec_leaves ..⟩
  case vstx =>
    intro s1 u k h
    obtain ⟨only, bytes, waits, enters⟩ := s1.dispatchVec_leaves i (u.vstxOp i)
    refine ⟨_, exec_vstx_of_clears h, only, bytes, waits, fun room => ?_⟩
    obtain ⟨pipe, -⟩ := enters room
    rw [Stream.vstxOp_opA] at pipe
    exact pipe
  case vldx =>
    intro s1 u k rd at_ h
    by_cases he : k.vecPipe = []
    · obtain ⟨reg, keeps, goes, only⟩ := s1.endWriting_leaves i.core i.strm i.insn.rd.isLt
        (BitVec.ofNat 64 (leNat (k.spRead at_ 8))) (k.spPoisoned at_ 8) 3
      exact ⟨_, (exec_vldx_of_clears h).trans (congrArg _ (if_neg (by simp [s1, k, he]))), fun hn => absurd he hn,
        fun _ => ⟨reg, keeps, goes, only⟩⟩
    · exact ⟨_, (exec_vldx_of_clears h).trans (congrArg _ (if_pos (by simpa using he))), fun _ => s1.unitWait_waitsFor i 11,
        fun hy => absurd hy he⟩

end Sys2Proof.Machine

/-! The dispatch of barges (04 R103, R119 to R124). -/

namespace Sys2Proof.Machine

/-! ### Dispatch -/

/-- A barge as its dispatch fills it in (04 R119): its number, its instruction, its flag and its lane's transfer. -/
def State.numbered (s : State) (i : Issue) (g : Barge) : Barge :=
  { g with id := (s.core i.core).nextOp, pc := (s.streamOf i).pc, lane := laneNum i.insn,
           flag := if i.insn.fe then some i.insn.flg.toNat else none,
           transfer := (s.basin (s.basinAt i.core)).issued i.core (laneNum i.insn) }

/-- The core once a barge stands in its engine. -/
def Core.takeBarge (k : Core) (g : Barge) : Core := { k with barges := k.barges ++ [g], nextOp := k.nextOp + 1 }

/-- The basin once a core has issued a transfer of a lane. -/
def Basin.issueLane (v : Basin) (c l : Nat) : Basin := { v with laneIssued := SMap.upd 0 v.laneIssued (laneKey c l) (· + 1) }

theorem Basin.issued_issueLane (v : Basin) (c l : Nat) : (v.issueLane c l).issued c l = v.issued c l + 1 := by
  rw [Basin.issued, Basin.issueLane, SMap.upd, SMap.get_set_self, Basin.issued]

theorem State.basin_dispatchBarge (s : State) (i : Issue) (g : Barge) (b : Nat) : (s.dispatchBarge i g).basin b =
    if s.basinAt i.core = b then (s.basin (s.basinAt i.core)).issueLane i.core (laneNum i.insn) else s.basin b :=
  s.basin_updBasin (s.basinAt i.core) b fun v => v.issueLane i.core (laneNum i.insn)

theorem State.dispatchBarge_dispatched (s : State) (i : Issue) (g : Barge) : s.dispatched (s.dispatchBarge i g) i (s.numbered i g) := by
  obtain ⟨core, ⟨-, others, -, mem⟩, ⟨bytes, -⟩, keeps, goes⟩ :=
    (s.updBasin (s.basinAt i.core) fun v => v.issueLane i.core (laneNum i.insn)).setCore_retire_leaves i.core i.strm
      (k := (s.core i.core).takeBarge (s.numbered i g)) i.insn.wc.toNat 1 (by cases i.strm <;> rfl) rfl
  refine ⟨?_, ?_, ?_, ?_, goes, keeps, others, ?_, bytes, ?_⟩
  · exact (congrArg Core.barges core).trans (Core.setStream_barges ..)
  · exact (congrArg Core.nextOp core).trans (Core.setStream_nextOp ..)
  · exact (congrArg Core.flags core).trans (Core.setStream_flags ..)
  · rw [State.basin_dispatchBarge, if_pos rfl]
    exact Basin.issued_issueLane ..
  · exact fun b hb => by rw [State.basin_dispatchBarge, if_neg hb.symm]
  · intro b a
    rw [State.memByte, State.basin_dispatchBarge]
    split
    · next e => rw [← e]; rfl
    · rfl

theorem State.layer_dispatchBarge (s : State) (i : Issue) (g : Barge) (b n : Nat) :
    ((s.dispatchBarge i g).basin b).layer n = (s.basin b).layer n := by
  rw [State.basin_dispatchBarge]
  split
  · next e => rw [← e]; rfl
  · rfl

/-! ### A contribution at issue -/

/-- What a contribution leaves of a basin. -/
theorem Basin.contribute_keeps (v : Basin) (layer : Option Nat) (out : Bool) (step : Nat) (x : Bool) :
    let w := v.contribute layer out step x
    w.desc = v.desc ∧ w.phase = v.phase ∧ w.mem = v.mem ∧ w.laneIssued = v.laneIssued := by
  cases layer <;> exact ⟨rfl, rfl, rfl, rfl⟩

theorem Basin.layer_updLayer_self (v : Basin) (n : Nat) (f : LayerAcct → LayerAcct) : (v.updLayer n f).layer n = f (v.layer n) :=
  SMap.get_set_self ..

theorem Basin.contribute_out (v : Basin) (n step : Nat) (x : Bool) : ((v.contribute (some n) true step x).layer n).out = (v.layer n).out + 1 :=
  congrArg LayerAcct.out (Basin.layer_updLayer_self ..)

theorem Basin.contribute_red (v : Basin) (n step : Nat) (x : Bool) : ((v.contribute (some n) false step x).layer n).red = (v.layer n).red + 1 :=
  congrArg LayerAcct.red (Basin.layer_updLayer_self ..)

theorem State.basinAt_contribute {s : State} {c : Nat} (h : s.placed c) (layer : Option Nat) (out : Bool) :
    (s.contribute c layer out).basinAt c = s.basinAt c := by
  obtain ⟨desc, phase, -⟩ := (s.basin (s.basinAt c)).contribute_keeps layer out (s.core c).step (s.core c).xstat
  exact State.basinAt_updBasin_self h desc phase

theorem State.basin_contribute (s : State) (c : Nat) (layer : Option Nat) (out : Bool) (b : Nat) : (s.contribute c layer out).basin b =
    if s.basinAt c = b then (s.basin (s.basinAt c)).contribute layer out (s.core c).step (s.core c).xstat else s.basin b :=
  s.basin_updBasin ..

theorem State.sameBytes_contribute (s : State) (c : Nat) (layer : Option Nat) (out : Bool) : s.sameBytes (s.contribute c layer out) := by
  obtain ⟨-, -, mem, -⟩ := (s.basin (s.basinAt c)).contribute_keeps layer out (s.core c).step (s.core c).xstat
  refine ⟨fun _ _ => rfl, fun b a => ?_⟩
  rw [State.memByte, State.basin_contribute]
  split
  · next e => rw [mem, e]; rfl
  · rfl

theorem State.placed_of_clears {s : State} {i : Issue} {f : Fields} {cs : List Cond} (h : s.clears i f cs = true) :
    (s.applyEcc i.ecc).placed i.core := by
  simp only [State.clears, Bool.and_eq_true] at h
  exact (State.Rests.applyEcc (.refl s)).placed _ (State.placed_of_canIssue h.1.1.1)

/-- A contribution and its barge, from the state in which the instruction issues. -/
theorem State.dispatched_contribute {s t : State} {i : Issue} {g : Barge} {layer : Option Nat} {out : Bool} (h : s.placed i.core)
    (hd : (s.contribute i.core layer out).dispatched t i g) : s.dispatched t i g := by
  obtain ⟨barges, next, flags, issued, goes, keeps, others, basins, bytes⟩ := hd
  obtain ⟨-, -, -, lane⟩ := (s.basin (s.basinAt i.core)).contribute_keeps layer out (s.core i.core).step (s.core i.core).xstat
  rw [State.basinAt_contribute h] at issued basins
  rw [State.basin_contribute, if_pos rfl, Basin.issued, Basin.issued, lane] at issued
  refine ⟨barges, next, flags, issued, goes, keeps, others, fun b hb => ?_,
    (s.sameBytes_contribute ..).trans bytes⟩
  rw [basins b hb, State.basin_contribute, if_neg hb.symm]

theorem State.numbered_contribute {s : State} {i : Issue} {layer : Option Nat} {out : Bool} (h : s.placed i.core) (g : Barge) :
    (s.contribute i.core layer out).numbered i g = s.numbered i g := by
  obtain ⟨-, -, -, lane⟩ := (s.basin (s.basinAt i.core)).contribute_keeps layer out (s.core i.core).step (s.core i.core).xstat
  simp only [State.numbered, State.basinAt_contribute h, State.basin_contribute, if_true, Basin.issued, lane]
  rfl

/-- The dispatch of a transfer of a layer. -/
theorem State.contribute_dispatchBarge {s : State} {i : Issue} (h : s.placed i.core) (layer : Option Nat) (out : Bool) (g : Barge) :
    s.dispatched ((s.contribute i.core layer out).dispatchBarge i g) i (s.numbered i g) ∧
      ∀ n, (((s.contribute i.core layer out).dispatchBarge i g).basin (s.basinAt i.core)).layer n =
        ((s.basin (s.basinAt i.core)).contribute layer out (s.core i.core).step (s.core i.core).xstat).layer n := by
  refine ⟨State.dispatched_contribute (layer := layer) (out := out) h ?_, fun n => ?_⟩
  · rw [← State.numbered_contribute h (layer := layer) (out := out)]
    exact State.dispatchBarge_dispatched ..
  · rw [State.layer_dispatchBarge, State.basin_contribute, if_pos rfl]

/-! ### The four instructions -/

theorem tpNum_eq (i : Insn) : tpNum i = i.imm.toNat / 2 ^ 16 % 16 := by
  rw [tpNum, bits, Nat.shiftRight_eq_div_pow]
  rfl

theorem gLayer_eq (i : Insn) : gLayer i = if i.opt.getLsbD 3 then some (i.imm.toNat / 2 ^ 20) else none := by
  rw [gLayer, bits, Nat.shiftRight_eq_div_pow, Nat.mod_eq_of_lt]
  have := i.imm.isLt
  omega

theorem Core.bargeFull_iff (k : Core) : k.bargeFull = true ↔ 16 ≤ k.barges.length := decide_eq_true_iff

/-- A barge takes a descriptor, or its stream waits with BARGE_FULL (04 R103). -/
theorem State.bargeFull_cases (s : State) (i : Issue) (d : State) :
    let t := if (s.core i.core).bargeFull then s.unitWait i.core i.strm 9 else d
    (16 ≤ (s.core i.core).barges.length → s.waitsFor t i 9) ∧ ((s.core i.core).barges.length < 16 → t = d) := by
  intro t
  refine ⟨fun full => ?_, fun room => if_neg ?_⟩
  · rw [show t = _ from if_pos ((Core.bargeFull_iff _).2 full)]
    exact s.unitWait_waitsFor i 9
  · rw [Core.bargeFull_iff]
    omega

/-- The barge of a BRG whose descriptor is free. -/
def State.brgBarge (s : State) (i : Issue) : State :=
  let ws := shapeWords (s.core i.core) i.insn.w2
  if bits i.insn.opt.toNat 1 0 = 0 then
    s.dispatchBarge i { kind := .brg, desc := i.insn.w1, mstride := (memSide i.insn.w2).mstride, shape := ws,
                        ba := ((s.streamOf i).reg i.insn.ra.toNat).toNat, size := streamLen (opDesc i.insn.w1) (shapeOf ws) }
  else s.dispatchBarge i { kind := .brgTp, desc := i.insn.w1, queue := tpNum i.insn, size := (opDesc i.insn.w1).bytes }

/-- The fields that a BRG uses (04 R119, R120). -/
def brgFields (i : Insn) : Fields :=
  let mem := decide (bits i.opt.toNat 1 0 = 0)
  { op := 0x20, words := if 2 ≤ bits i.opt.toNat 1 0 then [2, 3] else if mem then [3] else [2], only := some .a,
    imm := if mem then 0xFFFF else 0xFFFFF, opt := 3, ra := mem, fe := true, reserved := decide (2 ≤ bits i.opt.toNat 1 0) }

theorem exec_brg_of_clears {s : State} {i : Issue} (h : s.clears i (brgFields i.insn)
      (brgConds ((s.applyEcc i.ecc).basin ((s.applyEcc i.ecc).basinAt i.core)) i.core ((s.applyEcc i.ecc).core i.core)
        ((s.applyEcc i.ecc).streamOf i) i.insn) = true) :
    exec (.brg i) s = .next (if ((s.applyEcc i.ecc).core i.core).bargeFull then (s.applyEcc i.ecc).unitWait i.core i.strm 9
      else (s.applyEcc i.ecc).brgBarge i) := by
  refine (congrArg _ (State.present_clears h rfl rfl rfl)).trans (congrArg _ ?_)
  simp only [State.brgBarge, decide_eq_true_eq]
  rfl

theorem exec_brgt_of_clears {s : State} {i : Issue}
    (h : s.clears i { op := 0x21, words := [3], only := some .a, imm := 0xFFFF, ra := true, fe := true }
      (brgtConds ((s.applyEcc i.ecc).basin ((s.applyEcc i.ecc).basinAt i.core)) i.core ((s.applyEcc i.ecc).streamOf i) i.insn) = true) :
    exec (.brgt i) s = .next (if ((s.applyEcc i.ecc).core i.core).bargeFull then (s.applyEcc i.ecc).unitWait i.core i.strm 9
      else (s.applyEcc i.ecc).dispatchBarge i
        { kind := .brgt, desc := i.insn.w1, mstride := (memSide i.insn.w2).mstride,
          ba := (((s.applyEcc i.ecc).streamOf i).reg i.insn.ra.toNat).toNat, size := (opDesc i.insn.w1).bytes }) :=
  congrArg _ (State.present_clears h rfl rfl rfl)

/-- The barge of a PUT whose descriptor is free. -/
def State.putBarge (s : State) (i : Issue) : State :=
  match bits i.insn.opt.toNat 1 0 with
  | 0 =>
    let ws := shapeWords (s.core i.core) i.insn.w2
    (s.contribute i.core (gLayer i.insn) true).dispatchBarge i
      { kind := .putMem, desc := i.insn.w1, mstride := (memSide i.insn.w2).mstride, shape := ws,
        ba := ((s.streamOf i).reg i.insn.ra.toNat).toNat, size := streamLen (opDesc i.insn.w1) (shapeOf ws), grad := gLayer i.insn }
  | 1 =>
    (s.contribute i.core (gLayer i.insn) false).dispatchBarge i
      { kind := .putLat, desc := i.insn.w1, desc2 := i.insn.w2, size := (opDesc i.insn.w1).bytes, grad := gLayer i.insn }
  | _ => s.dispatchBarge i { kind := .putTp, desc := i.insn.w1, queue := tpNum i.insn, size := (opDesc i.insn.w1).bytes }

theorem exec_put_of_clears {s : State} {i : Issue} (h : s.clears i (putFields i.insn)
      (putConds ((s.applyEcc i.ecc).basin ((s.applyEcc i.ecc).basinAt i.core)) i.core ((s.applyEcc i.ecc).core i.core)
        ((s.applyEcc i.ecc).streamOf i) i.insn) = true) :
    exec (.put i) s = .next (if ((s.applyEcc i.ecc).core i.core).bargeFull then (s.applyEcc i.ecc).unitWait i.core i.strm 9
      else (s.applyEcc i.ecc).putBarge i) :=
  congrArg _ (State.present_clears h rfl rfl rfl)

theorem exec_reds_of_clears {s : State} {i : Issue}
    (h : s.clears i { op := 0x23, words := [3], only := some .a, imm := 0xFFFF ||| gImm i.insn, opt := 8, fe := true }
      (redsConds ((s.applyEcc i.ecc).basin ((s.applyEcc i.ecc).basinAt i.core)) i.core i.insn) = true) :
    exec (.reds i) s = .next (if ((s.applyEcc i.ecc).core i.core).bargeFull then (s.applyEcc i.ecc).unitWait i.core i.strm 9
      else ((s.applyEcc i.ecc).contribute i.core (gLayer i.insn) false).dispatchBarge i
        { kind := .reds, desc := i.insn.w1, desc2 := i.insn.w2, size := (opDesc i.insn.w1).bytes, grad := gLayer i.insn }) :=
  congrArg _ (State.present_clears h rfl rfl rfl)

theorem State.dispatched_layer {s : State} {i : Issue} (h : s.placed i.core) (layer : Option Nat) (out : Bool) (g : Barge)
    (f : LayerAcct → Nat) (hf : ∀ (v : Basin) n k x, f ((v.contribute (some n) out k x).layer n) = f (v.layer n) + 1) :
    s.dispatched ((s.contribute i.core layer out).dispatchBarge i g) i (s.numbered i g) ∧ ∀ n, layer = some n →
      f ((((s.contribute i.core layer out).dispatchBarge i g).basin (s.basinAt i.core)).layer n) =
        f ((s.basin (s.basinAt i.core)).layer n) + 1 := by
  obtain ⟨dispatched, layers⟩ := State.contribute_dispatchBarge h layer out g
  refine ⟨dispatched, fun n hn => ?_⟩
  rw [layers, hn, hf]

/-- Settles O11: each dispatch by `State.dispatchBarge_dispatched`, that of a layer's transfer by `State.contribute_dispatchBarge`. -/
theorem bargesDispatch : Obligations.BargesDispatch := by
  refine ⟨fun s i => ?brg, fun s i => ?brgt, fun s i => ?put, fun s i => ?reds⟩
  case brg =>
    intro s1 mem h k g
    obtain ⟨full, room⟩ := s1.bargeFull_cases i (s1.brgBarge i)
    refine ⟨_, exec_brg_of_clears h, full, fun lt (h0 : bits i.insn.opt.toNat 1 0 = 0) => ?_,
      fun lt (h1 : bits i.insn.opt.toNat 1 0 = 1) => ?_⟩
    · rw [room lt, State.brgBarge, if_pos h0]
      exact s1.dispatchBarge_dispatched ..
    · rw [room lt, State.brgBarge, if_neg (by omega), ← tpNum_eq]
      exact s1.dispatchBarge_dispatched ..
  case brgt =>
    intro s1 h k
    obtain ⟨full, room⟩ := s1.bargeFull_cases i _
    refine ⟨_, exec_brgt_of_clears h, full, fun lt => ?_⟩
    rw [room lt]
    exact s1.dispatchBarge_dispatched ..
  case put =>
    intro s1 b h k layer g
    obtain ⟨full, room⟩ := s1.bargeFull_cases i (s1.putBarge i)
    refine ⟨_, exec_put_of_clears h, full, fun lt (h0 : bits i.insn.opt.toNat 1 0 = 0) => ?_,
      fun lt (h1 : bits i.insn.opt.toNat 1 0 = 1) => ?_, fun lt (h2 : bits i.insn.opt.toNat 1 0 = 2) => ?_⟩
    · rw [room lt, State.putBarge, h0, gLayer_eq]
      exact State.dispatched_layer (State.placed_of_clears h) _ true _ _ Basin.contribute_out
    · rw [room lt, State.putBarge, h1, gLayer_eq]
      exact State.dispatched_layer (State.placed_of_clears h) _ false _ _ Basin.contribute_red
    · rw [room lt, State.putBarge, h2, ← tpNum_eq]
      exact s1.dispatchBarge_dispatched ..
  case reds =>
    intro s1 b h k layer
    obtain ⟨full, room⟩ := s1.bargeFull_cases i _
    refine ⟨_, exec_reds_of_clears h, full, fun lt => ?_⟩
    rw [room lt, gLayer_eq]
    exact State.dispatched_layer (State.placed_of_clears h) _ false _ _ Basin.contribute_red

end Sys2Proof.Machine

/-! BCAN (04 R125; 08 R254). -/

namespace Sys2Proof.Machine

theorem Barge.cancels_iff (g : Barge) (mask : BitVec 32) : g.cancels mask = true ↔
    (g.kind = .brg ∨ g.kind = .brgt ∨ g.kind = .brgTp) ∧ g.cancelled = false ∧ g.dropped = false ∧
      ∃ f, g.flag = some f ∧ mask.getLsbD f = true := by
  unfold Barge.cancels
  cases g.kind <;> cases g.flag <;> simp [and_assoc]

/-- Marks of a list of keys. -/
theorem SMap.get_foldl_mark (js : List Nat) (m : SMap Bool) (j : Nat) :
    SMap.get false (js.foldl (fun m b => SMap.set false m b true) m) j = (decide (j ∈ js) || SMap.get false m j) := by
  induction js generalizing m with
  | nil => simp
  | cons b js ih =>
    rw [List.foldl_cons, ih, SMap.get_set]
    by_cases hb : b = j
    · simp [hb]
    · simp [hb, Ne.symm hb]

theorem Core.cancel_spPoison (k : Core) (mask : BitVec 32) (j : Nat) : SMap.get false (k.cancel mask).spPoison j =
    (decide (∃ g ∈ k.barges, g.cancels mask = true ∧ j ∈ g.destBlocks) || SMap.get false k.spPoison j) := by
  rw [Core.cancel, SMap.get_foldl_mark]
  simp [and_assoc]

/-- The barges of a core after BCAN, in their places. -/
theorem Core.cancel_barges (k : Core) (mask : BitVec 32) (n : Nat) : (k.cancel mask).barges[n]? =
    (k.barges[n]?).map fun g => if g.cancels mask then { g with cancelled := true } else g := by
  rw [Core.cancel, List.getElem?_map]

theorem exec_bcan_of_clears {s : State} {i : Issue}
    (h : s.clears i { op := 0x24, words := [1], only := some .a, imm := BitVec.allOnes 32 } [] = true) :
    exec (.bcan i) s = .next ((((s.applyEcc i.ecc).setCore i.core (((s.applyEcc i.ecc).core i.core).cancel i.insn.imm)).count .core i.core 39
      (((s.applyEcc i.ecc).core i.core).cancelledBytes i.insn.imm)).retire i.core i.strm 0 1) :=
  congrArg _ (State.present_clears h rfl rfl rfl)

/-- A core that has changed outside its streams and its scratchpad, and one of its counters, as an instruction ends. -/
theorem State.setCore_count_retire_leaves (s : State) (c : Nat) (st : Strm) {k : Core} (j n wc cc : Nat)
    (hst : k.stream st = (s.core c).stream st) (hsp : k.sp = (s.core c).sp) :
    let u := (s.core c).stream st
    let t := ((s.setCore c k).count .core c j n).retire c st wc cc
    t.core c = k.setStream st (u.retire wc cc) ∧ s.onlyCore t c ∧ s.sameBytes t ∧
      u.keepsRegs ((t.core c).stream st) (u.pc + 8 * wc) 0 ∧ u.goesOn ((t.core c).stream st) wc cc := by
  intro u t
  have core : t.core c = k.setStream st (u.retire wc cc) := by
    rw [State.core_retire, State.core_count, State.core_setCore_self, hst]
  have only : s.onlyCore t c :=
    ((s.onlyCore_setCore c k).trans (State.onlyCore_count ..)).trans (State.onlyCore_retire ..)
  rw [core, Core.stream_setStream_self]
  exact ⟨rfl, only, only.sameBytes (by rw [core, Core.setStream_sp, hsp]), u.keepsRegs_retire wc cc 0, u.goesOn_retire wc cc⟩

/-- Settles O12: the core after BCAN is `Core.cancel`, whose marks `Core.cancel_spPoison` and whose barges `Core.cancel_barges` give. -/
theorem bcanCancels : Obligations.BcanCancels := by
  intro s i h s1 u k hit
  have hits : ∀ g, hit g ↔ g.cancels i.insn.imm = true := fun g => (g.cancels_iff i.insn.imm).symm
  obtain ⟨core, only, bytes, keeps, goes⟩ := s1.setCore_count_retire_leaves i.core i.strm (k := k.cancel i.insn.imm) 39
    (k.cancelledBytes i.insn.imm) 0 1 (by cases i.strm <;> rfl) rfl
  refine ⟨_, exec_bcan_of_clears h, only, bytes, goes, keeps, ?_, ?_, fun n g hg => ⟨fun hc => ?_, fun hc => ?_⟩,
    fun g hg hc j hj => ?_, fun j hj => ?_⟩
  all_goals rw [core]
  · exact Core.setStream_flags ..
  · rw [Core.setStream_barges, Core.cancel, List.length_map]
  · rw [Core.setStream_barges, Core.cancel_barges, hg, Option.map_some, if_pos ((hits g).1 hc)]
  · rw [Core.setStream_barges, Core.cancel_barges, hg, Option.map_some, if_neg (mt (hits g).2 hc)]
  · rw [Core.setStream_spPoison, Core.cancel_spPoison, decide_eq_true ⟨g, hg, (hits g).1 hc, hj⟩, Bool.true_or]
  · have outside : ¬ ∃ g ∈ k.barges, g.cancels i.insn.imm = true ∧ j ∈ g.destBlocks := by
      rintro ⟨g, hg, hc, hm⟩
      exact hj g hg ((hits g).2 hc) hm
    rw [Core.setStream_spPoison, Core.cancel_spPoison, decide_eq_false outside, Bool.false_or]

end Sys2Proof.Machine

/-! Barges that end FAILED (08 R253, R255): the record of a core that lies, beyond the die's edge, in another basin's list of cores. -/

namespace Sys2Proof.Machine

/-- The members of a failed transfer (08 R253): the barges of a basin that end FAILED together, in basin core index order. -/
def State.failedMembers (s : State) (b : Nat) (g : Barge) : List (Nat × Barge) :=
  (s.liveCores b).flatMap fun d => ((s.core d).barges.filter fun h =>
    h.failed && !h.dropped && !h.cancelled && decide (h.lane = g.lane) && decide (h.transfer = g.transfer)).map fun h => (d, h)

/-- A failed barge leaves its descriptor slot, and is recorded and counted. -/
def State.dropFailed (s : State) (b : Nat) (e : Nat × Barge) : State :=
  ((s.updCore e.1 fun k => ({ k with barges := k.barges.filter fun h => decide (h.id ≠ e.2.id) }).poisonRest e.2
    (if e.2.kind.reads then 128 * e.2.landed else e.2.size)).updBasin b fun v => v.recordFault e.1 e.2).count .core e.1 37 1

theorem State.endFailed_eq {s : State} {b : Nat} {g : Barge} {ms : List (Nat × Barge)} (h : s.failedMembers b g = ms) :
    s.endFailed b g = ms.foldl (fun s e => s.haltAt e.1 .a e.2.pc cTier 0x02) (ms.foldl (fun s e => s.dropFailed b e) s) := by
  rw [← h]
  rfl

/-- A barge that ends FAILED (08 R255). -/
theorem exec_bargeComplete_of_failed {s : State} {c id b : Nat} {g : Barge}
    (hg : (s.core c).barges.find? (fun h => decide (h.id = id)) = some g) (hb : s.basinOf c = some b) (he : s.bargeEnded b g = true)
    (hf : g.failed = true) (hd : g.dropped = false) (hc : g.cancelled = false) :
    exec (.bargeComplete c id) s = .next (s.endFailed b g) := by
  show execBargeComplete c id s = _
  simp only [execBargeComplete, hg, hb, he, if_true, State.endBarge, hf, hd, hc, Bool.not_false, Bool.and_self]

theorem State.haltAt_keeps_record {s : State} {d : Nat} (h : (s.core d).hrec.latched = true) (c : Nat) (st : Strm) (pc cause detail : Nat) :
    ((s.haltAt c st pc cause detail).core d).hrec = (s.core d).hrec :=
  ((s.haltWith_rests c _).1.core d).hrec h

/-- The failed barge of a core whose merged return has failed, with its number. -/
def Barge.failedMember (id : Nat) : Barge := { id := id, kind := .brgt, failed := true }

/-- Cores 63 and 64 lie in basin 1, which spans the die's sixteen cluster columns, and are members of one failed return. Basin 0 is bound
on two cluster columns from the last one: its rectangle holds core 63, and its cores, counted on from the edge, end with those of the
next row, 64 among them. Its restarts are used up, and a fence pends there. -/
def State.edgeFence : State :=
  { cores := [(63, { barges := [.failedMember 1] }), (64, { barges := [.failedMember 0] })]
    basins := [
      (0, { phase := .running, desc := { originCol := 15, width := 2, height := 1 }, fencePending := [(1, 0)], restartLimit := 0 }),
      (1, { phase := .running, desc := { width := 16, height := 1 } })] }

/-- The state of `State.edgeFence` in which both barges have left and core 63 has halted. -/
def State.edgeHalted : State :=
  ((State.edgeFence.dropFailed 1 (63, .failedMember 1)).dropFailed 1 (64, .failedMember 0)).haltAt 63 .a
    (Barge.failedMember 1).pc cTier 0x02

theorem edgeFence_members : State.edgeFence.failedMembers 1 (.failedMember 0) = [(63, .failedMember 1), (64, .failedMember 0)] := by
  decide +kernel

/-- Core 63 halts first. It lies in basin 0, which halts, and whose pending fence gives core 64 the record FENCED (`State.applyFences`). -/
theorem edgeHalted_record : (State.edgeHalted.core 64).hrec = { latched := true, stream := 3, cause := cFenced } := by decide +kernel

/-- The record stays as core 64 halts in its turn. -/
theorem edgeFence_record : ((State.edgeFence.endFailed 1 (.failedMember 0)).core 64).hrec.cause = cFenced := by
  have latched : (State.edgeHalted.core 64).hrec.latched = true := by rw [edgeHalted_record]
  rw [State.endFailed_eq edgeFence_members]
  simp only [List.foldl_cons, List.foldl_nil]
  rw [← State.edgeHalted, State.haltAt_keeps_record latched, edgeHalted_record]

/-- Refutes O13: its second clause says that the core of a barge that ended FAILED latches TIER_ERROR, for every `State`. The barge's return
can have a member at a core that `State.basinOf` gives to another basin, whose response to that core's halt comes first: in
`State.edgeFence` it applies a pending fence to every core of that basin's list, and core 64 latches FENCED. No premise asks that
rectangles lie within the die or that basins be disjoint, as every bind makes them (02 R28, R30). -/
theorem not_bargesEnd : ¬ Obligations.BargesEnd := by
  rintro ⟨-, failed, -⟩
  obtain ⟨t, ht, -, -, -, -, record⟩ := failed State.edgeFence 64 0 1 (.failedMember 0) rfl rfl rfl rfl rfl rfl (by decide +kernel) rfl
    (by decide)
  obtain ⟨-, cause, -⟩ := record rfl
  obtain rfl : State.edgeFence.endFailed 1 (.failedMember 0) = t :=
    Host.Outcome.next.inj ((exec_bargeComplete_of_failed rfl rfl rfl rfl rfl rfl).symm.trans ht)
  exact absurd (edgeFence_record.symm.trans cause) (by decide)

end Sys2Proof.Machine

/-! The arrays at issue (04 R126 to R130): what the rows of the stream pipeline leave. -/

namespace Sys2Proof.Machine

/-! ### Rows -/

/-- An operation apart from the rows that have entered. -/
def Op.atStart (o : Op) : Op := { o with rows := 0 }

/-- What the rows of the stream pipeline leave of a core: its streams, its operations, its flags and its scratchpad. -/
def Core.unstreamed (k : Core) : Stream × Stream × Nat × SMap Byte × BitVec 32 × List Op × List Op :=
  (k.a, k.x, k.nextOp, k.sp, k.flags, k.drainPipe, k.streamPipe.map Op.atStart)

/-- A state that differs from another by rows of stream pipelines. -/
structure State.Streams (s t : State) : Prop where
  core : ∀ c, (t.core c).unstreamed = (s.core c).unstreamed
  basins : t.basins = s.basins

theorem Core.unstreamed_parts {k l : Core} (h : l.unstreamed = k.unstreamed) :
    (∀ st, l.stream st = k.stream st) ∧ l.nextOp = k.nextOp ∧ l.sp = k.sp ∧ l.flags = k.flags ∧ l.drainPipe = k.drainPipe ∧
      l.streamPipe.map Op.atStart = k.streamPipe.map Op.atStart := by
  simp only [Core.unstreamed, Prod.mk.injEq] at h
  obtain ⟨a, x, rest⟩ := h
  exact ⟨fun st => by cases st; exacts [a, x], rest⟩

namespace State.Streams

variable {s t u : State}

theorem refl (s : State) : s.Streams s := ⟨fun _ => rfl, rfl⟩

theorem trans (h : s.Streams t) (g : t.Streams u) : s.Streams u := ⟨fun c => (g.core c).trans (h.core c), g.basins.trans h.basins⟩

theorem updCore {c : Nat} {f : Core → Core} (h : s.Streams t) (hf : (f (t.core c)).unstreamed = (t.core c).unstreamed) :
    s.Streams (t.updCore c f) := by
  refine ⟨fun c' => ?_, h.basins⟩
  rw [State.core_updCore]
  split
  · next e => exact e ▸ hf.trans (h.core c)
  · exact h.core c'

theorem sameBytes (h : s.Streams t) : s.sameBytes t := by
  refine ⟨fun c a => ?_, fun b a => ?_⟩
  · obtain ⟨-, -, sp, -⟩ := Core.unstreamed_parts (h.core c)
    rw [State.spByte, State.spByte, sp]
  · rw [State.memByte, State.memByte, State.basin, State.basin, h.basins]

end State.Streams

theorem Core.streamArray_unstreamed (k : Core) (w : OpDesc) (row : Nat) (last : Bool) (j rank : Nat) :
    (k.streamArray w row last j rank).unstreamed = k.unstreamed := by
  simp only [Core.streamArray]
  split <;> rfl

theorem Core.streamRow_unstreamed (k : Core) (w : OpDesc) (row : Nat) (last : Bool) : (k.streamRow w row last).unstreamed = k.unstreamed := by
  have arrays : (k.armed.arrays.zipIdx.foldl (fun k e => k.streamArray w row last e.1 e.2) k).unstreamed = k.unstreamed :=
    List.foldlRecOn (motive := fun (l : Core) => l.unstreamed = k.unstreamed) _ _ rfl fun l hl _ _ => (l.streamArray_unstreamed ..).trans hl
  simp only [Core.streamRow]
  split <;> exact arrays

theorem Core.strikeRow_unstreamed (k0 k : Core) (w : OpDesc) (row : Nat) (u : Option Upset) :
    (k0.strikeRow k w row u).unstreamed = k.unstreamed := by
  unfold Core.strikeRow
  split
  · rfl
  · split <;> rfl

/-- A capsule's move to the partner's buffer (14 R399). -/
theorem State.Streams.sample (s : State) (c : Nat) (k : Core) : s.Streams (s.sample c k) := by
  have taken : s.Streams (s.updCore c fun q => { q with capture := none }) := .updCore (.refl s) rfl
  unfold State.sample
  split
  · split
    · dsimp only
      split
      · split
        · exact taken.trans ⟨fun _ => rfl, rfl⟩
        · exact taken.updCore rfl
      · exact taken
    · exact .refl s
  · exact .refl s

theorem State.Streams.enterRow (s : State) (c : Nat) (w : OpDesc) (row : Nat) (last : Bool) (u : Option Upset) :
    s.Streams (s.enterRow c w row last u) := by
  have row : s.Streams (s.updCore c fun q => { (s.core c).strikeRow (q.streamRow w row last) w row u with
      capture := (s.core c).gather c (s.selects (s.basinAt c) c) w row }) :=
    .updCore (.refl s) ((Core.strikeRow_unstreamed ..).trans (Core.streamRow_unstreamed ..))
  have counted := row.trans (u := (s.updCore c fun q => { (s.core c).strikeRow (q.streamRow w _ last) w _ u with
      capture := (s.core c).gather c (s.selects (s.basinAt c) c) w _ }).count .core c 31 1) ⟨fun _ => rfl, rfl⟩
  exact counted.trans (.sample ..)

theorem State.Streams.opstrGo (c : Nat) (w : OpDesc) (n row : Nat) (s : State) : s.Streams (Machine.opstrGo c w n row s).1 := by
  induction n generalizing row s with
  | zero => exact .refl s
  | succ n ih =>
    unfold Machine.opstrGo
    split
    · exact (State.Streams.enterRow ..).trans (ih ..)
    · exact .refl s

theorem Op.atStart_setRows (pipe : List Op) (id rows : Nat) :
    (pipe.map fun q => if q.id = id then { q with rows := rows } else q).map Op.atStart = pipe.map Op.atStart := by
  rw [List.map_map]
  refine List.map_congr_left fun q _ => ?_
  rw [Function.comp_apply]
  split <;> rfl

theorem State.Streams.runStream (s : State) (c : Nat) : s.Streams (s.runStream c) := by
  refine List.foldlRecOn (motive := fun (acc : State × Bool) => s.Streams acc.1) _ _ (.refl s) fun acc hacc o _ => ?_
  split
  · exact hacc
  · dsimp only
    refine (hacc.trans (State.Streams.opstrGo ..)).updCore ?_
    simp only [Core.unstreamed, Op.atStart_setRows]

theorem State.runStream_of_empty {s : State} {c : Nat} (h : (s.core c).streamPipe = []) : s.runStream c = s := by
  rw [State.runStream, h]
  rfl

/-! ### OPARM -/

/-- The armed set of an OPARM (04 R127). -/
def armedOf (i : Insn) : Armed :=
  { arrays := maskBits i.imm.toNat 4, rDesc := i.w1, k := (opDesc i.w1).rows, p := 0, exact := i.opt.getLsbD 0 }

theorem exec_oparm_of_clears {s : State} {i : Issue} (h : s.clears i { op := 0x30, words := [2], only := some .x, imm := 0xF, opt := 1 }
      (oparmConds ((s.applyEcc i.ecc).core i.core) i.insn) = true) :
    let s1 := s.applyEcc i.ecc
    exec (.oparm i) s = .next (if !(s1.core i.core).streamPipe.isEmpty then s1.unitWait i.core i.strm 10
      else (s1.setCore i.core { s1.core i.core with armed := armedOf i.insn }).retire i.core i.strm 1 1) :=
  congrArg _ (State.present_clears h rfl rfl rfl)

theorem oparm_arms (s : State) (i : Issue) :
    let s1 := s.applyEcc i.ecc
    let u := s1.streamOf i
    let k := s1.core i.core
    s.clears i { op := 0x30, words := [2], only := some .x, imm := 0xF, opt := 1 } (oparmConds k i.insn) = true →
    ∃ t, exec (.oparm i) s = .next t ∧
      (k.streamPipe ≠ [] → s1.waitsFor t i 10) ∧
      (k.streamPipe = [] →
        (t.core i.core).armed =
          { arrays := (List.range 4).filter fun j => i.insn.imm.getLsbD j, rDesc := i.insn.w1, k := (opDesc i.insn.w1).rows,
            p := 0, exact := i.insn.opt.getLsbD 0 } ∧
        (t.core i.core).tiles = k.tiles ∧ u.goesOn (t.streamOf i) 1 1 ∧ u.keepsRegs (t.streamOf i) (u.pc + 8) 0 ∧
        s1.onlyCore t i.core ∧ s1.sameBytes t) := by
  intro s1 u k h
  refine ⟨_, exec_oparm_of_clears h, fun busy => ?_, fun free => ?_⟩
  · rw [if_pos (by simpa [s1, k] using busy)]
    exact s1.unitWait_waitsFor i 10
  · rw [if_neg (by simp [s1, k, free])]
    obtain ⟨core, only, bytes, keeps, goes⟩ := s1.setCore_retire_leaves i.core i.strm (k := { k with armed := armedOf i.insn }) 1 1
      (by cases i.strm <;> rfl) rfl
    exact ⟨(congrArg Core.armed core).trans (Core.setStream_armed ..), (congrArg Core.tiles core).trans (Core.setStream_tiles ..),
      goes, keeps, only, bytes⟩

/-! ### OPDRN -/

/-- What an OPDRN asks of the drain pipeline. -/
def Stream.opdrnOp (u : Stream) (i : Issue) : Op :=
  { code := 0x32, pc := u.pc, strm := i.strm, insn := i.insn, opA := u.reg i.insn.ra.toNat, tagA := u.tag i.insn.ra.toNat }

/-- The core once an operation stands in its drain pipeline. -/
def Core.dispatchDrain (k : Core) (o : Op) : Core :=
  { k with drainPipe := k.drainPipe ++ [{ o with id := k.nextOp }], nextOp := k.nextOp + 1 }

theorem exec_opdrn_of_clears {s : State} {i : Issue}
    (h : s.clears i { op := 0x32, words := [2], only := some .x, imm := 0xFF0F, opt := 7, ra := i.insn.opt.getLsbD 1, fe := true }
      (opdrnConds ((s.applyEcc i.ecc).core i.core) i.insn) = true) :
    let s1 := s.applyEcc i.ecc
    exec (.opdrn i) s = .next (if 2 ≤ (s1.core i.core).drainPipe.length then s1.unitWait i.core i.strm 10
      else (s1.setCore i.core ((s1.core i.core).dispatchDrain ((s1.streamOf i).opdrnOp i))).retire i.core i.strm 1 1) :=
  congrArg _ (State.present_clears h rfl rfl rfl)

theorem opdrn_enters (s : State) (i : Issue) :
    let s1 := s.applyEcc i.ecc
    let u := s1.streamOf i
    let k := s1.core i.core
    s.clears i { op := 0x32, words := [2], only := some .x, imm := 0xFF0F, opt := 7, ra := i.insn.opt.getLsbD 1, fe := true }
      (opdrnConds k i.insn) = true →
    ∃ t, exec (.opdrn i) s = .next t ∧
      (2 ≤ k.drainPipe.length → s1.waitsFor t i 10) ∧
      (k.drainPipe.length < 2 →
        (t.core i.core).drainPipe = k.drainPipe ++
          [{ id := k.nextOp, code := 0x32, pc := u.pc, strm := i.strm, insn := i.insn, opA := u.reg i.insn.ra.toNat
             tagA := u.tag i.insn.ra.toNat }] ∧
        u.goesOn (t.streamOf i) 1 1 ∧ s1.onlyCore t i.core ∧ s1.sameBytes t) := by
  intro s1 u k h
  refine ⟨_, exec_opdrn_of_clears h, fun full => ?_, fun room => ?_⟩
  · rw [if_pos full]
    exact s1.unitWait_waitsFor i 10
  · rw [if_neg (Nat.not_le.2 room)]
    obtain ⟨core, only, bytes, -, goes⟩ := s1.setCore_retire_leaves i.core i.strm (k := k.dispatchDrain (u.opdrnOp i)) 1 1
      (by cases i.strm <;> rfl) rfl
    exact ⟨(congrArg Core.drainPipe core).trans (Core.setStream_drainPipe ..), goes, only, bytes⟩

/-! ### OPSTR -/

/-- The state in which the first row of an OPSTR has entered, where a fault has struck it. -/
def State.struckRow (s : State) (i : Issue) (n : Nat) (u : Option Upset) : State :=
  if u.isSome then s.enterRow i.core (opDesc i.insn.w1) 0 (decide (n = 1)) u else s

/-- What an OPSTR of `n` rows asks of the stream pipeline. -/
def Stream.opstrOp (u : Stream) (i : Issue) (n rows : Nat) : Op :=
  { code := 0x31, pc := u.pc, strm := i.strm, insn := i.insn, opA := BitVec.ofNat 64 n, total := n, rows := rows }

/-- An OPSTR that enters the stream pipeline, whose rows then go on. -/
def State.enterStream (s : State) (i : Issue) (n : Nat) (u : Option Upset) : State :=
  (((s.struckRow i n u).updCore i.core fun k => k.dispatchStream ((s.streamOf i).opstrOp i n (if u.isSome then 1 else 0))).retire
    i.core i.strm 1 1).runStream i.core

/-- The fault that strikes the first row of an OPSTR, where that row enters at once. -/
def Core.firstFault (k : Core) (fault : Option Upset) : Option Upset := if k.streamPipe.isEmpty && k.rowFits then fault else none

theorem exec_opstr_of_clears {s : State} {i : Issue} (fault : Option Upset)
    (h : s.clears i { op := 0x31, words := [2], only := some .x, ra := true, fe := true }
      (opstrConds ((s.applyEcc i.ecc).core i.core) ((s.applyEcc i.ecc).streamOf i) i.insn) = true) :
    let s1 := s.applyEcc i.ecc
    let k := s1.core i.core
    let n := opstrRows (s1.streamOf i) i.insn
    exec (.opstr i fault) s = .next (if n = 0 then (s1.retire i.core i.strm 1 1).setInsnFlag i.core i.insn
      else if 2 ≤ k.streamPipe.length then s1.unitWait i.core i.strm 10
      else if k.rowCaught (opDesc i.insn.w1) 0 (k.firstFault fault) then
        (s1.retire i.core i.strm 1 1).residueHalt i.core i.strm (s1.streamOf i).pc 0x01 0x01
      else s1.enterStream i n (k.firstFault fault)) :=
  congrArg _ (State.present_clears h rfl rfl rfl)

theorem Core.rowCaught_firstFault {k : Core} {w : OpDesc} {fault : Option Upset}
    (h : ¬ (k.streamPipe = [] ∧ k.rowFits = true ∧ k.rowCaught w 0 fault = true)) : k.rowCaught w 0 (k.firstFault fault) = false := by
  unfold Core.firstFault
  split
  · next enters =>
    rw [Bool.and_eq_true, List.isEmpty_iff] at enters
    exact Bool.eq_false_iff.2 fun caught => h ⟨enters.1, enters.2, caught⟩
  · rfl

theorem State.Streams.struckRow (s : State) (i : Issue) (n : Nat) (u : Option Upset) : s.Streams (s.struckRow i n u) := by
  unfold State.struckRow
  split
  · exact .enterRow ..
  · exact .refl s

theorem State.setInsnFlag_leaves (s : State) (c : Nat) (i : Insn) :
    let t := s.setInsnFlag c i
    s.onlyCore t c ∧ s.sameBytes t ∧ (∀ st, (t.core c).stream st = (s.core c).stream st) ∧
      (t.core c).flags = if i.fe then setBit (s.core c).flags i.flg.toNat true else (s.core c).flags := by
  intro t
  by_cases fe : i.fe = true
  · have set : t = s.setCore c { s.core c with flags := setBit (s.core c).flags i.flg.toNat true } := if_pos fe
    have only : s.onlyCore t c := set ▸ s.onlyCore_setCore c _
    have core : t.core c = { s.core c with flags := setBit (s.core c).flags i.flg.toNat true } := by rw [set, State.core_setCore_self]
    exact ⟨only, only.sameBytes (by rw [core]), fun st => by rw [core]; cases st <;> rfl, by rw [core, if_pos fe]⟩
  · have same : t = s := if_neg fe
    rw [same, if_neg fe]
    exact ⟨⟨rfl, fun _ _ => rfl, fun _ _ => rfl, fun _ _ => rfl⟩, ⟨fun _ _ => rfl, fun _ _ => rfl⟩, fun _ => rfl, rfl⟩

/-- An OPSTR that has entered the stream pipeline. -/
theorem State.enterStream_leaves (s : State) (i : Issue) (n : Nat) (u : Option Upset) :
    let k := s.core i.core
    let t := s.enterStream i n u
    (t.core i.core).nextOp = k.nextOp + 1 ∧ (t.core i.core).streamPipe.length = k.streamPipe.length + 1 ∧
      (∃ o, (t.core i.core).streamPipe.getLast? = some o ∧ o.id = k.nextOp ∧ o.insn = i.insn ∧ o.total = n) ∧
      (s.streamOf i).goesOn (t.streamOf i) 1 1 ∧ s.sameBytes t := by
  intro k t
  have struck := State.Streams.struckRow s i n u
  obtain ⟨streams, next, -, -, -, pipe⟩ := Core.unstreamed_parts (struck.core i.core)
  obtain ⟨core, -, bytes, -, goes⟩ := (s.struckRow i n u).setCore_retire_leaves i.core i.strm
    (k := ((s.struckRow i n u).core i.core).dispatchStream ((s.streamOf i).opstrOp i n (if u.isSome then 1 else 0))) 1 1
    (by cases i.strm <;> rfl) rfl
  have run := State.Streams.runStream (((s.struckRow i n u).updCore i.core fun k =>
    k.dispatchStream ((s.streamOf i).opstrOp i n (if u.isSome then 1 else 0))).retire i.core i.strm 1 1) i.core
  obtain ⟨streams', next', -, -, -, pipe'⟩ := Core.unstreamed_parts (run.core i.core)
  have entered : (t.core i.core).streamPipe.map Op.atStart =
      k.streamPipe.map Op.atStart ++ [{ (s.streamOf i).opstrOp i n 0 with id := k.nextOp }] := by
    rw [← pipe, ← next]
    refine pipe'.trans ((congrArg (fun l : Core => l.streamPipe.map Op.atStart) core).trans ?_)
    rw [Core.setStream_streamPipe, Core.dispatchStream, List.map_append]
    rfl
  refine ⟨?_, ?_, ?_, ?_, struck.sameBytes.trans (bytes.trans run.sameBytes)⟩
  · refine next'.trans ((congrArg Core.nextOp core).trans ?_)
    rw [Core.setStream_nextOp, Core.dispatchStream, next]
  · simpa using congrArg List.length entered
  · have last := congrArg List.getLast? entered
    rw [List.getLast?_map, List.getLast?_concat] at last
    obtain ⟨o, ho, eq⟩ := Option.map_eq_some_iff.1 last
    exact ⟨o, ho, congrArg Op.id eq, congrArg Op.insn eq, congrArg Op.total eq⟩
  · rw [streams] at goes
    have stream : t.streamOf i = _ := streams' i.strm
    rw [stream]
    exact goes

/-- Settles O14: OPARM and OPDRN change their core alone; the rows that an OPSTR lets enter leave its streams and operations
(`State.Streams`). -/
theorem arrayIssue : Obligations.ArrayIssue := by
  refine ⟨oparm_arms, fun s i fault => ?opstr, opdrn_enters⟩
  case opstr =>
    intro s1 u k h
    refine ⟨_, exec_opstr_of_clears fault h, fun (empty : opstrRows u i.insn = 0) => ?_,
      fun (rows : opstrRows u i.insn ≠ 0) full => ?_, fun (rows : opstrRows u i.insn ≠ 0) room clean => ?_⟩
    · rw [if_pos empty]
      obtain ⟨-, goes, -, -, -, -, bytes⟩ := s1.retire_leaves i.core i.strm 1 1
      obtain ⟨only', bytes', streams, flags⟩ := (s1.retire i.core i.strm 1 1).setInsnFlag_leaves i.core i.insn
      refine ⟨?_, (s1.onlyCore_retire ..).trans only', bytes.trans bytes', ?_⟩
      · rw [State.streamOf, streams]
        exact goes
      · rw [flags, State.core_retire, Core.setStream_flags]
    · rw [if_neg rows, if_pos full]
      exact s1.unitWait_waitsFor i 10
    · rw [if_neg rows, if_neg (Nat.not_le.2 room), if_neg (by rw [Core.rowCaught_firstFault clean]; decide)]
      exact s1.enterStream_leaves ..

end Sys2Proof.Machine

/-! The arrays' completions (04 R129, R130; 05 R144, R168). -/

namespace Sys2Proof.Machine

/-! ### OPSTR -/

/-- The core once the first OPSTR has left its pipeline with its passes ended. -/
def Core.leaveStream (k : Core) (fault : Option Upset) (os : List Op) : Core := { (k.strikeCell fault).endPasses with streamPipe := os }

theorem exec_opstrComplete_of_entered {s : State} {c : Nat} {fault : Option Upset} {ecc : List EccHit} {o : Op} {os : List Op}
    (hp : (s.core c).streamPipe = o :: os) (ht : o.total ≤ o.rows) (hc : ((s.applyEcc ecc).core c).cellCaught fault = false) :
    exec (.opstrComplete c ⟨fault, ecc⟩) s =
      .next ((((s.applyEcc ecc).setCore c (((s.applyEcc ecc).core c).leaveStream fault os)).setInsnFlag c o.insn).runStream c) := by
  show execOpstrComplete c ⟨fault, ecc⟩ s = _
  simp only [execOpstrComplete, hp, if_neg (Nat.not_lt.2 ht), hc]
  rfl

theorem Core.strikeCell_keeps (k : Core) (fault : Option Upset) : (k.strikeCell fault).sp = k.sp ∧ (k.strikeCell fault).flags = k.flags := by
  unfold Core.strikeCell
  split
  · exact ⟨rfl, rfl⟩
  · split <;> exact ⟨rfl, rfl⟩

/-- A struck cell leaves its tile's state. -/
theorem Core.strikeCell_tile (k : Core) (fault : Option Upset) (n : Nat) :
    (SMap.get {} (k.strikeCell fault).tiles n).st = (SMap.get {} k.tiles n).st ∧
      (SMap.get {} (k.strikeCell fault).tiles n).ended = (SMap.get {} k.tiles n).ended := by
  unfold Core.strikeCell
  split
  · exact ⟨rfl, rfl⟩
  · split
    · next j t _ =>
      simp only [Core.setTile, SMap.get_set]
      split
      · next e => rw [← e]; exact ⟨rfl, rfl⟩
      · exact ⟨rfl, rfl⟩
    · exact ⟨rfl, rfl⟩

theorem Core.endPasses_tile (k : Core) (n : Nat) : SMap.get {} k.endPasses.tiles n =
    if (SMap.get {} k.tiles n).ended then { SMap.get {} k.tiles n with st := .full, ended := false } else SMap.get {} k.tiles n :=
  SMap.get_mapV {} k.tiles (fun _ t => if t.ended then { t with st := .full, ended := false } else t) n rfl

theorem State.core_setInsnFlag (s : State) (c : Nat) (i : Insn) : (s.setInsnFlag c i).core c =
    { s.core c with flags := if i.fe then setBit (s.core c).flags i.flg.toNat true else (s.core c).flags } := by
  unfold State.setInsnFlag
  split
  · rw [State.setFlag, State.core_updCore_self]
  · rfl

theorem Op.ids_of_atStart {as bs : List Op} (h : as.map Op.atStart = bs.map Op.atStart) : as.map Op.id = bs.map Op.id := by
  simpa only [List.map_map, show Op.id ∘ Op.atStart = Op.id from rfl] using congrArg (List.map Op.id) h

theorem opstr_completes (s : State) (c : Nat) (fault : Option Upset) (ecc : List EccHit) (o : Op) (os : List Op)
    (hp : (s.core c).streamPipe = o :: os) (ht : o.total ≤ o.rows) :
    let k := (s.applyEcc ecc).core c
    k.cellCaught fault = false →
    ∃ t, exec (.opstrComplete c ⟨fault, ecc⟩) s = .next t ∧ s.sameBytes t ∧
      (t.core c).streamPipe.map Op.id = os.map Op.id ∧
      (t.core c).flags = (if o.insn.fe then setBit k.flags o.insn.flg.toNat true else k.flags) ∧
      (os = [] → ∀ n, (SMap.get {} k.tiles n).ended = true →
        (SMap.get {} (t.core c).tiles n).st = .full ∧ (SMap.get {} (t.core c).tiles n).ended = false ∧
        (fault = none → SMap.get {} (t.core c).tiles n = { SMap.get {} k.tiles n with st := .full, ended := false })) := by
  intro k hc
  obtain ⟨sp, flags⟩ := k.strikeCell_keeps fault
  have only := (s.applyEcc ecc).onlyCore_setCore c (k.leaveStream fault os)
  have left := only.sameBytes (by rw [State.core_setCore_self]; exact sp)
  obtain ⟨-, bytes, -, flag⟩ := ((s.applyEcc ecc).setCore c (k.leaveStream fault os)).setInsnFlag_leaves c o.insn
  have run := State.Streams.runStream (((s.applyEcc ecc).setCore c (k.leaveStream fault os)).setInsnFlag c o.insn) c
  obtain ⟨-, -, -, flags', -, pipe⟩ := Core.unstreamed_parts (run.core c)
  rw [State.core_setInsnFlag, State.core_setCore_self] at pipe
  rw [State.core_setCore_self, show (k.leaveStream fault os).flags = k.flags from flags] at flag
  refine ⟨_, exec_opstrComplete_of_entered hp ht hc,
    (State.SameData.applyEcc (.refl s)).sameBytes.trans (left.trans (bytes.trans run.sameBytes)), ?_, flags'.trans flag, ?_⟩
  · exact Op.ids_of_atStart pipe
  · rintro rfl n ended
    obtain ⟨st, en⟩ := k.strikeCell_tile fault n
    have tile : SMap.get {} (k.leaveStream fault []).tiles n = { SMap.get {} (k.strikeCell fault).tiles n with st := .full, ended := false } :=
      (Core.endPasses_tile ..).trans (if_pos (en.trans ended))
    rw [State.runStream_of_empty (by rw [State.core_setInsnFlag, State.core_setCore_self]; rfl), State.core_setInsnFlag,
      State.core_setCore_self, tile]
    refine ⟨rfl, rfl, ?_⟩
    rintro rfl
    rfl

/-! ### OPDRN -/

/-- A byte that lies in none of the first `n` rows of a descriptor, of `w` bytes each. -/
def OpDesc.outside (d : OpDesc) (n w a : Nat) : Prop := ∀ r, r < n → a < d.rowAddr r ∨ d.rowAddr r + w ≤ a

/-- Work of a unit that has left a core's streams, flags and pipelines, and its scratchpad outside of some bytes. -/
structure Core.Writes (k l : Core) (out : Nat → Prop) : Prop where
  stream : ∀ st, l.stream st = k.stream st
  flags : l.flags = k.flags
  sp : ∀ a, out a → SMap.get 0 l.sp a = SMap.get 0 k.sp a

theorem Core.Writes.refl (k : Core) (out : Nat → Prop) : k.Writes k out := ⟨fun _ => rfl, rfl, fun _ _ => rfl⟩

theorem Core.Writes.trans {k l m : Core} {out : Nat → Prop} (h : k.Writes l out) (g : l.Writes m out) : k.Writes m out :=
  ⟨fun st => (g.stream st).trans (h.stream st), g.flags.trans h.flags, fun a ha => (g.sp a ha).trans (h.sp a ha)⟩

theorem SMap.get_setList_outside {α : Type} [DecidableEq α] {d : α} {m : SMap α} {k : Nat} {vs : List α} {j : Nat}
    (h : j < k ∨ k + vs.length ≤ j) : SMap.get d (SMap.setList d m k vs) j = SMap.get d m j := by
  rw [SMap.get_setList, dif_neg (by omega)]

theorem length_leBytes (n v : Nat) : (leBytes n v).length = n := by
  induction n generalizing v with
  | zero => rfl
  | succ n ih => rw [leBytes, List.length_cons, ih]

theorem Core.Writes.storeElems {k : Core} {out : Nat → Prop} {a w : Nat} {vs : List (Nat × Bool)}
    (h : ∀ b, out b → b < a ∨ a + (vs.length * w + 7) / 8 ≤ b) : k.Writes (Machine.storeElems k a w vs) out :=
  ⟨fun st => by cases st <;> rfl, rfl, fun b hb => SMap.get_setList_outside (by rw [length_leBytes]; exact h b hb)⟩

theorem Core.Writes.setTile (k : Core) (j t : Nat) (v : Tile) (out : Nat → Prop) : k.Writes (k.setTile j t v) out :=
  ⟨fun st => by cases st <;> rfl, rfl, fun _ _ => rfl⟩

theorem Core.Writes.genDrain {k l : Core} {out : Nat → Prop} (h : k.Writes l out) (b : Bool) (x : Word) :
    k.Writes (if b then { l with genDrain := x } else l) out := by
  split
  · exact h.trans ⟨fun st => by cases st <;> rfl, rfl, fun _ _ => rfl⟩
  · exact h

/-- The bytes that a drain of `n` arrays leaves. -/
def Op.drainOutside (o : Op) (n : Nat) : Nat → Prop :=
  (opDesc o.insn.w1).outside 16 (2 * n * fmtBits (opDesc o.insn.w1).fmt)

/-- The outputs of an array lie in its part of D's row. -/
theorem Op.drainOutside_group {o : Op} {n r rank b : Nat} (hb : o.drainOutside n b) (hr : r < 16) (hn : rank < n) :
    b < (opDesc o.insn.w1).rowAddr r + 2 * rank * fmtBits (opDesc o.insn.w1).fmt ∨
      (opDesc o.insn.w1).rowAddr r + 2 * rank * fmtBits (opDesc o.insn.w1).fmt + 2 * fmtBits (opDesc o.insn.w1).fmt ≤ b := by
  have part : 2 * (rank + 1) * fmtBits (opDesc o.insn.w1).fmt ≤ 2 * n * fmtBits (opDesc o.insn.w1).fmt :=
    Nat.mul_le_mul_right _ (Nat.mul_le_mul_left 2 hn)
  rw [Nat.mul_add, Nat.mul_one, Nat.add_mul] at part
  rcases hb r hr with h | h
  · exact .inl (by omega)
  · exact .inr (by omega)

theorem Core.Writes.drainRow {k : Core} {acc : DrainAcc} {o : Op} {u : Option Upset} {t : Tile} {rank n r : Nat} (hr : r < 16)
    (hn : rank < n) (h : k.Writes acc.core (o.drainOutside n)) : k.Writes (Machine.drainRow o u t rank acc r).core (o.drainOutside n) := by
  unfold Machine.drainRow
  split
  · exact h
  · dsimp only
    split
    · exact h
    · split
      · exact h
      · refine (h.trans (.storeElems fun b hb => ?_)).genDrain _ _
        simp only [List.length_map, List.length_range]
        have := Op.drainOutside_group hb hr hn
        omega

theorem Core.Writes.drainArray {k : Core} {acc : DrainAcc} {o : Op} {u : Option Upset} {j rank n : Nat} (hn : rank < n)
    (h : k.Writes acc.core (o.drainOutside n)) : k.Writes (Machine.drainArray o u acc j rank).core (o.drainOutside n) := by
  unfold Machine.drainArray
  split
  · exact h
  · split
    · exact h
    · next t _ =>
      have rows : k.Writes ((List.range 16).foldl (Machine.drainRow o u (acc.core.tile j t) rank) acc).core (o.drainOutside n) :=
        List.foldlRecOn (motive := fun (acc : DrainAcc) => k.Writes acc.core (o.drainOutside n)) _ _ h fun _ ha r hr =>
          ha.drainRow (List.mem_range.1 hr) hn
      dsimp only
      split
      · exact rows
      · exact rows.trans (.setTile ..)

theorem State.core_setXstat (s : State) (c : Nat) (ov : Bool) : (s.setXstat c ov).core c = { s.core c with xstat := ov || (s.core c).xstat } := by
  unfold State.setXstat
  cases ov
  · rfl
  · rw [if_pos rfl, State.core_count, State.core_updCore_self, Bool.true_or]

theorem State.setXstat_leaves (s : State) (c : Nat) (ov : Bool) :
    (∀ c', c' ≠ c → (s.setXstat c ov).core c' = s.core c') ∧ ∀ b a, (s.setXstat c ov).memByte b a = s.memByte b a := by
  unfold State.setXstat
  split
  · exact ⟨fun c' hc => by rw [State.core_count, State.core_updCore, if_neg hc.symm], fun _ _ => rfl⟩
  · exact ⟨fun _ _ => rfl, fun _ _ => rfl⟩

/-- The arrays that an OPDRN drains. -/
def Op.drainMask (o : Op) : List Nat := (List.range 4).filter fun j => o.insn.imm.getLsbD j

/-- The arrays of an OPDRN, with their ranks, that it drains now on a running core. -/
def Core.fullNow (k : Core) (o : Op) : List (Nat × Nat) :=
  (o.drainMask.zipIdx.drop o.rows).takeWhile fun e => (k.fullTile e.1).isSome

theorem Core.drainable_of_running {k : Core} {o : Op} (h : (k.stream o.strm).stopped = false) : k.drainable o = k.fullNow o := by
  unfold Core.drainable
  rw [h]
  rfl

theorem Core.fullNow_rank {k : Core} {o : Op} : ∀ e ∈ k.fullNow o, e.2 < o.drainMask.length := fun _ he =>
  List.snd_lt_of_mem_zipIdx (List.mem_of_mem_drop ((List.takeWhile_sublist _).mem he))

/-- The drain pipeline once its first OPDRN has drained arrays up to `rows`. -/
def Op.drainRest (o : Op) (rows : Nat) (os : List Op) : List Op := if o.drainMask.length ≤ rows then os else { o with rows := rows } :: os

/-- The state once the first OPDRN has made its writes. -/
def State.drained (s : State) (c : Nat) (acc : DrainAcc) (rest : List Op) : State :=
  (s.setCore c { acc.core with drainPipe := rest }).setXstat c acc.ov

/-- The work of an OPDRN on the arrays of a list. -/
def Core.drainWork (k : Core) (o : Op) (fault : Option Upset) (es : List (Nat × Nat)) : DrainAcc :=
  es.foldl (fun acc e => drainArray o fault acc e.1 e.2) { core := k }

theorem Core.Writes.drainWork {k : Core} {o : Op} {fault : Option Upset} {n : Nat} {es : List (Nat × Nat)} (hn : ∀ e ∈ es, e.2 < n) :
    k.Writes (k.drainWork o fault es).core (o.drainOutside n) :=
  List.foldlRecOn (motive := fun (acc : DrainAcc) => k.Writes acc.core (o.drainOutside n)) _ _ (.refl ..) fun _ ha e he =>
    ha.drainArray (hn e he)

theorem exec_opdrnComplete_of_full {s : State} {c : Nat} {fault : Option Upset} {ecc : List EccHit} {o : Op} {os : List Op}
    (hp : (s.core c).drainPipe = o :: os) (hs : ((s.core c).stream o.strm).stopped = false) (hn : (s.core c).fullNow o ≠ [])
    (hr : (((s.applyEcc ecc).core c).drainWork o fault ((s.core c).fullNow o)).refused = false)
    (hf : (((s.applyEcc ecc).core c).drainWork o fault ((s.core c).fullNow o)).failed = false) :
    let rows := o.rows + ((s.core c).fullNow o).length
    let t := (s.applyEcc ecc).drained c (((s.applyEcc ecc).core c).drainWork o fault ((s.core c).fullNow o)) (o.drainRest rows os)
    exec (.opdrnComplete c fault ecc) s =
      .next ((if o.drainMask.length ≤ rows then t.setInsnFlag c o.insn else t).runStream c) := by
  intro rows t
  show execOpdrnComplete c fault ecc s = _
  have mask : maskBits o.insn.imm.toNat 4 = o.drainMask := rfl
  simp only [Core.drainWork] at hr hf
  simp only [execOpdrnComplete, hp, Core.drainable_of_running hs, List.isEmpty_eq_false_iff.2 hn, Bool.false_eq_true, if_false,
    DrainAcc.stopped, hr, hf, hs, mask, Bool.or_self, decide_eq_true_eq]
  rfl

theorem State.drained_leaves (s : State) (c : Nat) (acc : DrainAcc) (rest : List Op) :
    let t := s.drained c acc rest
    t.core c = { acc.core with drainPipe := rest, xstat := acc.ov || acc.core.xstat } ∧ (∀ c', c' ≠ c → t.core c' = s.core c') ∧
      ∀ b a, t.memByte b a = s.memByte b a := by
  intro t
  obtain ⟨others, mem⟩ := (s.setCore c { acc.core with drainPipe := rest }).setXstat_leaves c acc.ov
  refine ⟨?_, fun c' hc => (others c' hc).trans ((s.core_setCore ..).trans (if_neg hc.symm)), fun b a => mem b a⟩
  show ((s.drained c acc rest).core c) = _
  rw [State.drained, State.core_setXstat, State.core_setCore_self]

/-- The flag of an instruction, set once it has ended. -/
theorem State.endFlag_leaves (s : State) (c : Nat) (i : Insn) (p : Prop) [Decidable p] :
    let t := if p then s.setInsnFlag c i else s
    t.core c = { s.core c with flags := if p ∧ i.fe = true then setBit (s.core c).flags i.flg.toNat true else (s.core c).flags } ∧
      (∀ c', c' ≠ c → t.core c' = s.core c') ∧ s.sameBytes t := by
  intro t
  obtain ⟨⟨-, others, -, -⟩, bytes, -⟩ := s.setInsnFlag_leaves c i
  by_cases hp : p
  · rw [show t = s.setInsnFlag c i from if_pos hp]
    refine ⟨?_, others, bytes⟩
    simp only [State.core_setInsnFlag, hp, true_and]
  · rw [show t = s from if_neg hp]
    simp only [hp, false_and, if_false]
    exact ⟨trivial, fun _ _ => trivial, fun _ _ => rfl, fun _ _ => rfl⟩

theorem opdrn_completes (s : State) (c : Nat) (fault : Option Upset) (ecc : List EccHit) (o : Op) (os : List Op)
    (hp : (s.core c).drainPipe = o :: os) (hs : ((s.core c).stream o.strm).stopped = false) :
    let d := opDesc o.insn.w1
    let s1 := s.applyEcc ecc
    let now := (s.core c).fullNow o
    let rows := o.rows + now.length
    let acc := (s1.core c).drainWork o fault now
    now ≠ [] → acc.refused = false → acc.failed = false →
    ∃ t, exec (.opdrnComplete c fault ecc) s = .next t ∧
      (t.core c).drainPipe = (if o.drainMask.length ≤ rows then os else { o with rows := rows } :: os) ∧
      (t.core c).flags = (if o.drainMask.length ≤ rows ∧ o.insn.fe = true then setBit (s1.core c).flags o.insn.flg.toNat true
        else (s1.core c).flags) ∧
      (∀ a, t.spByte c a = SMap.get 0 acc.core.sp a) ∧
      (∀ a, d.outside 16 (2 * o.drainMask.length * fmtBits d.fmt) a → t.spByte c a = s1.spByte c a) ∧
      (∀ c' a, c' ≠ c → t.spByte c' a = s1.spByte c' a) ∧ ∀ b a, t.memByte b a = s1.memByte b a := by
  intro d s1 now rows acc hn hr hf
  have work : (s1.core c).Writes acc.core (o.drainOutside o.drainMask.length) := .drainWork Core.fullNow_rank
  obtain ⟨core, others, mem⟩ := s1.drained_leaves c acc (o.drainRest rows os)
  obtain ⟨core', others', bytes'⟩ := (s1.drained c acc (o.drainRest rows os)).endFlag_leaves c o.insn (o.drainMask.length ≤ rows)
  have run := State.Streams.runStream (if o.drainMask.length ≤ rows then (s1.drained c acc (o.drainRest rows os)).setInsnFlag c o.insn
    else s1.drained c acc (o.drainRest rows os)) c
  obtain ⟨-, -, sp, flags, drain, -⟩ := Core.unstreamed_parts (run.core c)
  obtain ⟨sps, mems⟩ := run.sameBytes
  rw [core', core] at sp flags drain
  refine ⟨_, exec_opdrnComplete_of_full hp hs hn hr hf, drain, ?_, fun a => ?_, fun a ha => ?_, fun c' a hc => ?_, fun b a => ?_⟩
  · rw [flags, work.flags]
  · exact congrArg (SMap.get 0 · a) sp
  · exact (congrArg (SMap.get 0 · a) sp).trans (work.sp a ha)
  · exact (sps c' a).trans (congrArg (fun k : Core => SMap.get 0 k.sp a) ((others' c' hc).trans (others c' hc)))
  · exact (mems b a).trans ((bytes'.2 b a).trans (mem b a))

/-- Settles O15: OPSTR by `Core.endPasses_tile`, OPDRN by what the work of a drain writes (`Core.Writes.drainWork`). -/
theorem arrayCompletion : Obligations.ArrayCompletion := ⟨opstr_completes, opdrn_completes⟩

end Sys2Proof.Machine

/-! The vector unit's completion (04 R136, R137; 03 R68). -/

namespace Sys2Proof.Machine

/-! ### The writes of an instruction -/

/-- The bytes that an instruction of the vector unit leaves: those outside D's rows, of an elementwise instruction. -/
def Op.vecOutside (o : Op) (a : Nat) : Prop :=
  o.code ≠ oVstx ∧ isMx (opDesc o.insn.w1).fmt = false ∧
    (opDesc o.insn.w1).outside (opDesc o.insn.w1).rows (((opDesc o.insn.w1).cols * fmtBits (opDesc o.insn.w1).fmt + 7) / 8) a

theorem Core.Writes.genVec {k l : Core} {out : Nat → Prop} (h : k.Writes l out) (b : Bool) (x : Word) :
    k.Writes (if b then { l with genVec := x } else l) out := by
  split
  · exact h.trans ⟨fun st => by cases st <;> rfl, rfl, fun _ _ => rfl⟩
  · exact h

theorem Core.Writes.vecRow {k : Core} {acc : DrainAcc} {o : Op} {u : Option Upset} {r : Nat} (hr : r < (opDesc o.insn.w1).rows)
    (h : k.Writes acc.core o.vecOutside) : k.Writes (Machine.vecRow o u acc r).core o.vecOutside := by
  unfold Machine.vecRow
  split
  · exact h
  · dsimp only
    split
    · exact h
    · split
      · exact h
      · refine (h.trans (.storeElems fun b hb => ?_)).genVec _ _
        obtain ⟨-, -, outside⟩ := hb
        simp only [List.length_map, List.length_range]
        exact outside r hr

theorem Core.Writes.mxGroup {k : Core} {acc : DrainAcc} {o : Op} {u : Option Upset} {g : Nat} (hm : isMx (opDesc o.insn.w1).fmt = true)
    (h : k.Writes acc.core o.vecOutside) : k.Writes (Machine.mxGroup o u acc g).core o.vecOutside := by
  have inside : ∀ b, ¬ o.vecOutside b := fun b ⟨_, plain, _⟩ => by simp [hm] at plain
  unfold Machine.mxGroup
  split
  · exact h
  · dsimp only
    split
    · exact h
    · split
      · exact h
      · refine (List.foldlRecOn (motive := fun (l : Core) => k.Writes l o.vecOutside) _ _ h fun l hl r _ => ?_).trans
          (.storeElems fun b hb => absurd hb (inside b))
        exact hl.trans (.storeElems fun b hb => absurd hb (inside b))

theorem vecWork_vstx {k : Core} {o : Op} (h : o.code = oVstx) (u : Option Upset) : vecWork k o u =
    if k.hitsProtected o.opA.toNat 8 then { core := k, refused := true }
    else { core := k.spWrite o.opA.toNat (leBytes 8 o.opB.toNat) o.tagB } := if_pos h

theorem Core.Writes.vecWork (k : Core) (o : Op) (u : Option Upset) : k.Writes (Machine.vecWork k o u).core o.vecOutside := by
  by_cases hx : o.code = oVstx
  · rw [vecWork_vstx hx]
    split
    · exact .refl ..
    · exact ⟨fun st => by cases st <;> rfl, rfl, fun a ⟨plain, _⟩ => absurd hx plain⟩
  · unfold Machine.vecWork
    dsimp only
    rw [if_neg hx]
    split
    · next hm =>
      exact List.foldlRecOn (motive := fun (acc : DrainAcc) => k.Writes acc.core o.vecOutside) _ _ (.refl ..) fun _ ha _ _ => ha.mxGroup hm
    · exact List.foldlRecOn (motive := fun (acc : DrainAcc) => k.Writes acc.core o.vecOutside) _ _ (.refl ..) fun _ ha r hr =>
        ha.vecRow (List.mem_range.1 hr)

/-! ### VSTX -/

theorem getElem_leBytes {n j : Nat} (v : Nat) (h : j < (leBytes n v).length) : (leBytes n v)[j] = BitVec.ofNat 8 (v / 256 ^ j) := by
  induction n generalizing v j with
  | zero => exact absurd h (Nat.not_lt_zero _)
  | succ n ih =>
    cases j with
    | zero => simp [leBytes]
    | succ j =>
      simp only [leBytes, List.getElem_cons_succ]
      rw [ih, Nat.div_div_eq_div_mul, Nat.pow_succ, Nat.mul_comm]

theorem ofNat_byte (w : Word) (j : Nat) : BitVec.ofNat 8 (w.toNat / 256 ^ j) = (w >>> (8 * j)).setWidth 8 := by
  refine BitVec.eq_of_toNat_eq ?_
  rw [BitVec.toNat_ofNat, BitVec.toNat_setWidth, BitVec.toNat_ushiftRight, Nat.shiftRight_eq_div_pow, Nat.pow_mul]

/-- The eight bytes of a word in scratchpad. -/
theorem Core.spWrite_word (k : Core) (a : Nat) (w : Word) (p : Bool) (b : Nat) : SMap.get 0 (k.spWrite a (leBytes 8 w.toNat) p).sp b =
    if a ≤ b ∧ b < a + 8 then (w >>> (8 * (b - a))).setWidth 8 else SMap.get 0 k.sp b := by
  rw [Core.spWrite, SMap.get_setList]
  by_cases h : a ≤ b ∧ b < a + 8
  · rw [dif_pos (by rw [length_leBytes]; exact h), if_pos h, getElem_leBytes, ofNat_byte]
  · rw [dif_neg (by rw [length_leBytes]; exact h), if_neg h]

theorem vecWork_vstx_sp {k : Core} {o : Op} {u : Option Upset} (h : o.code = oVstx) (hr : (vecWork k o u).refused = false) :
    (vecWork k o u).core = k.spWrite o.opA.toNat (leBytes 8 o.opB.toNat) o.tagB := by
  rw [vecWork_vstx h] at hr ⊢
  split
  · next hits => simp [hits] at hr
  · rfl

/-! ### The completion -/

theorem exec_vectorComplete_of_done {s : State} {c : Nat} {fault : Option Upset} {ecc : List EccHit} {o : Op} {os : List Op}
    (hp : (s.core c).vecPipe = o :: os) (hr : (vecWork ((s.applyEcc ecc).core c) o fault).refused = false)
    (hf : (vecWork ((s.applyEcc ecc).core c) o fault).failed = false) :
    let acc := vecWork ((s.applyEcc ecc).core c) o fault
    exec (.vectorComplete c fault ecc) s =
      .next ((((s.applyEcc ecc).setCore c { acc.core with vecPipe := os }).setXstat c acc.ov).count .core c 32 (vecBeats o)) := by
  intro acc
  show execVectorComplete c fault ecc s = _
  simp only [execVectorComplete, hp, hr, hf, Bool.false_eq_true, if_false]
  rfl

/-- Settles O17: what the vector unit's work writes (`Core.Writes.vecWork`), and the word of VSTX (`Core.spWrite_word`). -/
theorem vectorCompletion : Obligations.VectorCompletion := by
  intro s c fault ecc o os hp s1 d acc hr hf
  have work : (s1.core c).Writes acc.core o.vecOutside := .vecWork ..
  obtain ⟨others, mem⟩ := (s1.setCore c { acc.core with vecPipe := os }).setXstat_leaves c acc.ov
  have core : ((((s1.setCore c { acc.core with vecPipe := os }).setXstat c acc.ov).count .core c 32 (vecBeats o)).core c) =
      { acc.core with vecPipe := os, xstat := acc.ov || acc.core.xstat } := by
    rw [State.core_count, State.core_setXstat, State.core_setCore_self]
  refine ⟨_, exec_vectorComplete_of_done hp hr hf, ?_, fun a => ?_, fun hx => ?_, fun hx hm a ha => ?_, ?_, fun st n => ?_,
    fun c' a hc => ?_, mem⟩
  · rw [core]
  · rw [State.spByte, core]
  · funext a
    rw [State.spByte, core]
    show SMap.get 0 acc.core.sp a = _
    rw [show acc.core = _ from vecWork_vstx_sp hx hr, Core.spWrite_word]
    rfl
  · rw [State.spByte, core]
    exact work.sp a ⟨hx, hm, ha⟩
  · rw [core]
    exact work.flags
  · rw [core, ← work.stream st]
    cases st <;> rfl
  · exact congrArg (fun k : Core => SMap.get 0 k.sp a) ((others c' hc).trans ((State.core_setCore ..).trans (if_neg hc.symm)))

end Sys2Proof.Machine

/-! Bias changes, the interface version, the loss scale's register and the unmasking of vectors (06 R198; 11 R323, R325, R344). -/

namespace Sys2Proof.Machine

/-! ### A write of BSN_BIAS -/

/-- A basin after a write of BSN_BIAS (11 R323). -/
def Basin.writeBias (w : Word) (v : Basin) : Basin :=
  let first := bits w.toNat 63 32
  let n := bits w.toNat 31 8
  let v := { v with biasPage := first, biasPages := n, biasToHost := bit w.toNat 1 }
  if !bit w.toNat 0 then v
  else if v.biasRun.isSome then { v with biasResult := 1 }
  else if n = 0 ∨ v.desc.baPages < first + n then { v with biasResult := 2 }
  else { v with biasResult := 0, biasRun := some (first, n, bit w.toNat 1) }

theorem exec_biasChange_of_bound {s : State} {b : Nat} (hr : s.hostReaches = true) (hb : (s.basin b).phase ≠ .free) (w : Word) :
    exec (.biasChange b w) s = .next (s.updBasin b (Basin.writeBias w)) :=
  congrArg Host.Outcome.next ((State.fromHost_of_reaches hr _).trans (if_neg hb))

/-- The register takes the fields of the write whatever becomes of the request, and memory stays. -/
theorem Basin.writeBias_fields (w : Word) (v : Basin) :
    (v.writeBias w).biasPage = bits w.toNat 63 32 ∧ (v.writeBias w).biasPages = bits w.toNat 31 8 ∧ (v.writeBias w).mem = v.mem := by
  unfold Basin.writeBias
  dsimp only
  split
  · exact ⟨rfl, rfl, rfl⟩
  · split
    · exact ⟨rfl, rfl, rfl⟩
    · split
      · exact ⟨rfl, rfl, rfl⟩
      · exact ⟨rfl, rfl, rfl⟩

/-- A request with no change under way, over pages that the basin has, starts. -/
theorem Basin.writeBias_starts {w : Word} {v : Basin} (hgo : w.getLsbD 0 = true) (hidle : v.biasRun = none)
    (hn : bits w.toNat 31 8 ≠ 0) (hfit : bits w.toNat 63 32 + bits w.toNat 31 8 ≤ v.desc.baPages) :
    (v.writeBias w).biasRun = some (bits w.toNat 63 32, bits w.toNat 31 8, w.getLsbD 1) ∧ (v.writeBias w).biasResult = 0 := by
  have go : bit w.toNat 0 = true := hgo
  have toHost : bit w.toNat 1 = w.getLsbD 1 := rfl
  simp [Basin.writeBias, go, toHost, hidle, hn, Nat.not_lt.2 hfit]

/-- A request while a change is under way is refused, and the change goes on. -/
theorem Basin.writeBias_busy {w : Word} {v : Basin} (hgo : w.getLsbD 0 = true) (hrun : v.biasRun.isSome = true) :
    (v.writeBias w).biasRun = v.biasRun ∧ (v.writeBias w).biasResult = 1 := by
  have go : bit w.toNat 0 = true := hgo
  simp [Basin.writeBias, go, hrun]

theorem biasChange_runs (s : State) (b : Nat) (w : Word) (hr : s.hostReaches = true) (hb : (s.basin b).phase ≠ .free) :
    ∃ t, exec (.biasChange b w) s = .next t ∧ t.cores = s.cores ∧ s.sameBytes t ∧
      (t.basin b).biasPage = w.toNat / 2 ^ 32 ∧ (t.basin b).biasPages = w.toNat / 2 ^ 8 % 2 ^ 24 ∧
      (w.getLsbD 0 = true → (s.basin b).biasRun = none → w.toNat / 2 ^ 8 % 2 ^ 24 ≠ 0 →
        w.toNat / 2 ^ 32 + w.toNat / 2 ^ 8 % 2 ^ 24 ≤ (s.basin b).desc.baPages →
        (t.basin b).biasRun = some (w.toNat / 2 ^ 32, w.toNat / 2 ^ 8 % 2 ^ 24, w.getLsbD 1) ∧ (t.basin b).biasResult = 0) ∧
      (w.getLsbD 0 = true → (s.basin b).biasRun.isSome = true →
        (t.basin b).biasRun = (s.basin b).biasRun ∧ (t.basin b).biasResult = 1) := by
  have first : bits w.toNat 63 32 = w.toNat / 2 ^ 32 := by
    have := w.isLt
    simp only [bits, Nat.shiftRight_eq_div_pow]
    omega
  have count : bits w.toNat 31 8 = w.toNat / 2 ^ 8 % 2 ^ 24 := by simp only [bits, Nat.shiftRight_eq_div_pow]
  obtain ⟨page, pages, -⟩ := Basin.writeBias_fields w (s.basin b)
  have mem : ∀ v, (Basin.writeBias w v).mem = v.mem := fun v => let ⟨_, _, mem⟩ := Basin.writeBias_fields w v; mem
  refine ⟨_, exec_biasChange_of_bound hr hb w, rfl, ((State.SameData.refl s).updBasin mem).sameBytes, ?_⟩
  rw [State.basin_updBasin_self, ← first, ← count]
  exact ⟨page, pages, Basin.writeBias_starts, Basin.writeBias_busy⟩

/-! ### The end of a bias change -/

/-- Pages `first` to `first + n - 1` of a basin turned to one bias. -/
def State.turnBias (s : State) (b first n : Nat) (toHost : Bool) : State :=
  (List.range n).foldl (fun s i => s.updPage b (first + i) fun g => { g with hostBias := toHost }) s

theorem exec_biasChangeDone_of_run {s : State} {b first n : Nat} {toHost : Bool} (h : (s.basin b).biasRun = some (first, n, toHost)) :
    exec (.biasChangeDone b) s = .next ((s.turnBias b first n toHost).updBasin b fun v => { v with biasRun := none }) := by
  show execBiasChangeDone b s = _
  rw [execBiasChangeDone, h]
  rfl

theorem State.turnBias_succ (s : State) (b first n : Nat) (toHost : Bool) : s.turnBias b first (n + 1) toHost =
    (s.turnBias b first n toHost).updPage b (first + n) fun g => { g with hostBias := toHost } := by
  rw [turnBias, List.range_succ, List.foldl_concat, turnBias]

/-- A page after an update of a page of the same basin. -/
theorem State.page_updPage (s : State) (b p q : Nat) (f : Page → Page) :
    ((s.updPage b p f).basin b).page q = if p = q then f ((s.basin b).page p) else (s.basin b).page q := by
  rw [State.updPage, State.basin_updBasin_self, Basin.page, SMap.get_set]
  rfl

/-- Exactly the pages of the change turn. -/
theorem State.page_turnBias (s : State) (b first n : Nat) (toHost : Bool) (p : Nat) :
    ((s.turnBias b first n toHost).basin b).page p =
      if first ≤ p ∧ p < first + n then { (s.basin b).page p with hostBias := toHost } else (s.basin b).page p := by
  induction n with
  | zero => rw [if_neg (by omega)]; rfl
  | succ n ih =>
    rw [State.turnBias_succ, State.page_updPage]
    by_cases hp : first + n = p
    · subst hp
      rw [if_pos rfl, if_pos (by omega), ih, if_neg (by omega)]
    · rw [if_neg hp, ih]
      exact if_congr (by omega) rfl rfl

theorem State.turnBias_cores (s : State) (b first n : Nat) (toHost : Bool) : (s.turnBias b first n toHost).cores = s.cores :=
  List.foldlRecOn (motive := fun t : State => t.cores = s.cores) _ _ rfl fun _ h _ _ => h

theorem State.turnBias_sameData (s : State) (b first n : Nat) (toHost : Bool) : s.SameData (s.turnBias b first n toHost) :=
  List.foldlRecOn _ _ (.refl s) fun _ h _ _ => h.updBasin fun _ => rfl

theorem biasChangeDone_turns (s : State) (b first n : Nat) (toHost : Bool) (h : (s.basin b).biasRun = some (first, n, toHost)) :
    ∃ t, exec (.biasChangeDone b) s = .next t ∧ (t.basin b).biasRun = none ∧ s.sameBytes t ∧ t.cores = s.cores ∧
      (∀ p, first ≤ p → p < first + n → ((t.basin b).page p).hostBias = toHost) ∧
      (∀ p, p < first ∨ first + n ≤ p → (t.basin b).page p = (s.basin b).page p) := by
  have bytes := (s.turnBias_sameData b first n toHost).updBasin (b := b) (f := fun v => { v with biasRun := none }) fun _ => rfl
  refine ⟨_, exec_biasChangeDone_of_run h, ?_, bytes.sameBytes, s.turnBias_cores b first n toHost, ?_⟩
  · rw [State.basin_updBasin_self]
  · rw [State.basin_updBasin_self]
    refine ⟨fun p hlo hhi => ?_, fun p hout => ?_⟩
    · exact congrArg Page.hostBias ((s.page_turnBias b first n toHost p).trans (if_pos ⟨hlo, hhi⟩))
    · exact (s.page_turnBias b first n toHost p).trans (if_neg (by omega))

/-! ### IF_DECLARE -/

/-- A link that changes with PF0's notice of it: the notice leaves it as it became, and every basin and core. -/
theorem State.notify_link_keeps (s : State) (l : Link) :
    (State.notify { s with link := l } .pf0 6).link = l ∧ (State.notify { s with link := l } .pf0 6).basins = s.basins ∧
      (State.notify { s with link := l } .pf0 6).cores = s.cores := by
  obtain ⟨link, basins, cores, -⟩ := State.notify_pf0_keeps { s with link := l } 6
  exact ⟨link, basins, cores⟩

theorem ifDeclare_attaches (s : State) (w : BitVec 32) (hr : s.hostReaches = true) :
    ∃ t, exec (.ifDeclare w) s = .next t ∧ t.basins = s.basins ∧ t.cores = s.cores ∧
      (w.toNat / 2 ^ 16 = s.link.devMajor → t.link.attach = 1 ∧
        t.link.enabledMinor = min (w.toNat % 2 ^ 16) s.link.devMinor) ∧
      (w.toNat / 2 ^ 16 ≠ s.link.devMajor → s.anyBound = true → t.link.attach = s.link.attach ∧ t.link.lastRefused = true) ∧
      (w.toNat / 2 ^ 16 ≠ s.link.devMajor → s.anyBound = false → t.link.attach = 2) := by
  have major : bits w.toNat 31 16 = w.toNat / 2 ^ 16 := by
    have := w.isLt
    simp only [bits, Nat.shiftRight_eq_div_pow]
    omega
  have run : exec (.ifDeclare w) s = .next _ := congrArg Host.Outcome.next (State.fromHost_of_reaches hr _)
  rw [major] at run
  by_cases hm : w.toNat / 2 ^ 16 = s.link.devMajor
  · rw [if_pos hm] at run
    exact ⟨_, run, rfl, rfl, fun _ => ⟨rfl, rfl⟩, fun h => absurd hm h, fun h => absurd hm h⟩
  · rw [if_neg hm] at run
    by_cases hbound : s.anyBound = true
    · rw [if_pos hbound] at run
      obtain ⟨link, basins, cores⟩ := s.notify_link_keeps { s.link with lastRefused := true }
      refine ⟨_, run, basins, cores, fun h => absurd h hm, fun _ _ => ?_, fun _ h => by simp [hbound] at h⟩
      rw [link]
      exact ⟨rfl, rfl⟩
    · rw [if_neg hbound] at run
      obtain ⟨link, basins, cores⟩ := s.notify_link_keeps { s.link with attach := 2 }
      refine ⟨_, run, basins, cores, fun h => absurd h hm, fun _ h => absurd h hbound, fun _ _ => ?_⟩
      rw [link]

/-! ### BSN_LSCALE -/

theorem Basin.quiet_iff (v : Basin) : v.quiet = true ↔ v.phase = .idle ∨ v.phase = .parked := by
  simp [Basin.quiet]

theorem bsnLscaleWrite_writes_quiet (s : State) (b : Nat) (w : BitVec 32) (hr : s.hostReaches = true) :
    ∃ t, exec (.bsnLscaleWrite b w) s = .next t ∧ t.cores = s.cores ∧ (∀ b', b' ≠ b → t.basin b' = s.basin b') ∧
      ((s.basin b).phase = .idle ∨ (s.basin b).phase = .parked →
        (t.basin b).train = { (s.basin b).train with lsExp := min 24 (w.toNat % 32) }) ∧
      ((s.basin b).phase ≠ .idle → (s.basin b).phase ≠ .parked → t = s) := by
  have run : exec (.bsnLscaleWrite b w) s = .next _ := congrArg Host.Outcome.next (State.fromHost_of_reaches hr _)
  by_cases hq : (s.basin b).quiet = true
  · have quiet := (Basin.quiet_iff _).1 hq
    rw [if_pos hq] at run
    refine ⟨_, run, rfl, fun b' hb => ?_, fun _ => ?_, fun hidle hparked => absurd quiet (not_or.2 ⟨hidle, hparked⟩)⟩
    · rw [State.basin_updBasin, if_neg hb.symm]
    · rw [State.basin_updBasin_self]
      rfl
  · rw [if_neg hq] at run
    exact ⟨_, run, rfl, fun _ _ => rfl, fun h => absurd ((Basin.quiet_iff _).2 h) hq, fun _ _ => rfl⟩

/-! ### MSIX_UNMASK -/

@[simp] theorem State.msixOf_setMsix_pf0 (s : State) (v : Nat) (e : MsixEntry) : (s.setMsix .pf0 v e).msixOf .pf0 v = e :=
  SMap.get_set_self ..

theorem msixUnmask_sends (s : State) (v : Nat) (hr : s.hostReaches = true) (hv : v < 64) :
    ∃ t, exec (.msixUnmask .pf0 v) s = .next t ∧ (t.msixOf .pf0 v).masked = false ∧ (t.msixOf .pf0 v).pending = false ∧
      t.basins = s.basins ∧ t.cores = s.cores ∧
      t.outbox = s.outbox ++ (if (s.msixOf .pf0 v).pending then
        [.msix .pf0 v (s.msixOf .pf0 v).addr (s.msixOf .pf0 v).data] else []) := by
  have run : exec (.msixUnmask .pf0 v) s = .next _ :=
    congrArg Host.Outcome.next ((State.fromHost_of_reaches hr _).trans (if_neg (by simp [hv])))
  have entry := s.msixOf_setMsix_pf0 v { s.msixOf .pf0 v with masked := false, pending := false }
  by_cases hp : (s.msixOf .pf0 v).pending = true
  · rw [if_pos hp] at run ⊢
    exact ⟨_, run, congrArg MsixEntry.masked entry, congrArg MsixEntry.pending entry, rfl, rfl, rfl⟩
  · rw [if_neg hp] at run ⊢
    exact ⟨_, run, congrArg MsixEntry.masked entry, congrArg MsixEntry.pending entry, rfl, rfl, (List.append_nil _).symm⟩

/-- Settles O38: each command's clause is its own lemma, the bias change's by what a run of page updates leaves (`State.page_turnBias`). -/
theorem hostControl : Obligations.HostControl :=
  ⟨biasChange_runs, biasChangeDone_turns, ifDeclare_attaches, bsnLscaleWrite_writes_quiet, msixUnmask_sends⟩

end Sys2Proof.Machine

/-! What stops and reports leave of the clocks, and of the place at which every basin's run stands (02 R50; 07 R204, R207; 13 R380). -/

namespace Sys2Proof.Machine

/-! ### The relation -/

/-- The lattice times and the power state, but for the domains that a bind, a test or a lane group's MODE switches. -/
def clockOf (t0 t1 : Nat) (p : Power) : Nat × Nat × Power := (t0, t1, { p with clusterOn := 0, quarryOn := false, ethOn := 0 })

/-- The clocks of a device. -/
def State.clock (s : State) : Nat × Nat × Power := clockOf s.time0 s.time1 s.power

/-- What a stop leaves of a basin: its rectangle, its segment, its checkpoint count and its restarts; no sluice begins, and it does
not start to run. -/
structure Basin.Quiets (v w : Basin) : Prop where
  desc : w.desc = v.desc
  seg : w.seg = v.seg
  ckptSeq : w.ckptSeq = v.ckptSeq
  restarts : w.restarts = v.restarts
  sluice : v.sluice = none → w.sluice = none
  phase : v.phase ≠ .running → w.phase ≠ .running

/-- A state that comes from another by stops, tests and reports. -/
structure State.Quiets (s t : State) : Prop where
  clock : t.clock = s.clock
  basin : ∀ b, (s.basin b).Quiets (t.basin b)

/-- The parts of a state that the relation speaks of. -/
def State.quietParts (s : State) : (Nat × Nat × Power) × SMap Basin := (s.clock, s.basins)

theorem Basin.Quiets.refl (v : Basin) : v.Quiets v := ⟨rfl, rfl, rfl, rfl, id, id⟩

theorem Basin.Quiets.trans {u v w : Basin} (h : u.Quiets v) (g : v.Quiets w) : u.Quiets w where
  desc := g.desc.trans h.desc
  seg := g.seg.trans h.seg
  ckptSeq := g.ckptSeq.trans h.ckptSeq
  restarts := g.restarts.trans h.restarts
  sluice := g.sluice ∘ h.sluice
  phase := g.phase ∘ h.phase

/-- A basin that comes to rest in a phase in which it does not run. -/
theorem Basin.Quiets.enter (v : Basin) {w : Basin} (hp : w.phase ≠ .running)
    (h : (w.desc, w.seg, w.ckptSeq, w.restarts) = (v.desc, v.seg, v.ckptSeq, v.restarts)) (hs : w.sluice = none) : v.Quiets w := by
  simp only [Prod.mk.injEq] at h
  obtain ⟨hd, hg, hc, hr⟩ := h
  exact ⟨hd, hg, hc, hr, fun _ => hs, fun _ => hp⟩

namespace State.Quiets

variable {s t u : State} {b : Nat}

theorem of_same (e : t.quietParts = s.quietParts) : s.Quiets t := by
  simp only [State.quietParts, Prod.mk.injEq] at e
  obtain ⟨hc, hb⟩ := e
  refine ⟨hc, fun b => ?_⟩
  simp only [State.basin, hb, Basin.Quiets.refl]

theorem refl (s : State) : s.Quiets s := of_same rfl

theorem trans (h : s.Quiets t) (g : t.Quiets u) : s.Quiets u := ⟨g.clock.trans h.clock, fun b => (h.basin b).trans (g.basin b)⟩

theorem same (h : s.Quiets t) (e : u.quietParts = t.quietParts) : s.Quiets u := h.trans (of_same e)

/-! ### Updates of the state -/

theorem foldl {α : Type} {f : State → α → State} {l : List α} (h : s.Quiets t) (hf : ∀ t a, s.Quiets t → s.Quiets (f t a)) :
    s.Quiets (l.foldl f t) := List.foldlRecOn l f h fun t h a _ => hf t a h

theorem updBasin {f : Basin → Basin} (h : s.Quiets t) (hf : ∀ v, Basin.Quiets v (f v)) : s.Quiets (t.updBasin b f) := by
  refine h.trans ⟨rfl, fun b' => ?_⟩
  rw [State.basin_updBasin]
  split
  · next e => subst e; exact hf _
  · exact .refl _

/-- An update of a basin that changes none of the parts that the relation speaks of. -/
theorem updSame {f : Basin → Basin} (h : s.Quiets t) (hf : ∀ v, (((f v).desc, (f v).seg, (f v).ckptSeq, (f v).restarts, (f v).sluice,
    (f v).phase) = (v.desc, v.seg, v.ckptSeq, v.restarts, v.sluice, v.phase))) : s.Quiets (t.updBasin b f) := by
  refine h.updBasin fun v => ?_
  have e := hf v
  simp only [Prod.mk.injEq] at e
  obtain ⟨hd, hg, hc, hr, hs, hp⟩ := e
  exact ⟨hd, hg, hc, hr, fun h => hs.trans h, fun h => hp ▸ h⟩

theorem updCore {c : Nat} {f : Core → Core} (h : s.Quiets t) : s.Quiets (t.updCore c f) := h.same rfl

theorem updCores {cs : List Nat} {f : Nat → Core → Core} (h : s.Quiets t) : s.Quiets (t.updCores cs f) := h.foldl fun _ _ h => h.updCore

/-! ### Stops, reports and halts -/

theorem notify {fn : HostFn} {v : Nat} (h : s.Quiets t) : s.Quiets (t.notify fn v) := by
  unfold State.notify
  dsimp only
  split
  · cases fn with
    | pf0 => exact h.same rfl
    | vf b => exact h.updSame (f := fun x => { x with msix := _ }) fun _ => rfl
  · exact h.same rfl

theorem markEvent {i : Nat} (h : s.Quiets t) : s.Quiets (t.markEvent b i) := h.updSame fun _ => rfl

theorem setEvent {i : Nat} (h : s.Quiets t) : s.Quiets (t.setEvent b i) := .notify (.notify (.markEvent h))

theorem report {r : Report} (h : s.Quiets t) : s.Quiets (t.report r) := by
  unfold State.report
  dsimp only
  split
  · split
    · exact h.same rfl
    · exact h.same rfl
  · unfold State.postReport
    split
    · exact .notify (h.same rfl)
    · exact h.same rfl

theorem stopCores (h : s.Quiets t) : s.Quiets (t.stopCores b) := h.updCores

theorem switchQuarry {on : Bool} (h : s.Quiets t) : s.Quiets (t.switchQuarry on) := by
  unfold State.switchQuarry
  split
  · exact h
  · exact h.same rfl

theorem startTest (h : s.Quiets t) : s.Quiets (t.startTest b) := by
  have on : s.Quiets (State.switchQuarry { t with rel := { t.rel with testing := (t.rel.testing ++ t.liveCores b).dedup } } true) :=
    .switchQuarry (h.same rfl)
  unfold State.startTest
  dsimp only
  split
  · exact on.updSame fun _ => rfl
  · exact on

theorem takeRebind (h : s.Quiets t) : s.Quiets (t.takeRebind b) := by
  unfold State.takeRebind
  split
  · exact h.updBasin fun _ => ⟨rfl, rfl, rfl, rfl, id, nofun⟩
  · exact h

theorem restTest (h : s.Quiets t) : s.Quiets (t.restTest b) := by
  unfold State.restTest
  split
  · exact h
  · split
    · exact h.startTest
    · exact h.takeRebind

theorem enterParked (h : s.Quiets t) : s.Quiets (t.enterParked b) :=
  .restTest (.setEvent (h.updBasin fun v => .enter v nofun rfl rfl))

theorem beginUnbind (h : s.Quiets t) : s.Quiets (t.beginUnbind b) :=
  .updBasin (.stopCores (h.same rfl)) fun v => .enter v nofun rfl rfl

theorem enterFence {o : Option Nat} {kind c : Nat} (h : s.Quiets t) : s.Quiets (t.enterFence o kind c) :=
  .report (h.same rfl)

theorem applyFences (h : s.Quiets t) : s.Quiets (t.applyFences b) := by
  have fenced : s.Quiets ((t.basin b).fencePending.foldl (fun s f => s.enterFence (some b) f.1 f.2)
      (t.updBasin b fun x => { x with fencePending := [] })) :=
    .foldl (h.updSame fun _ => rfl) fun _ _ g => g.enterFence
  unfold State.applyFences
  dsimp only
  split
  · exact fenced.beginUnbind
  · exact .enterParked (.markEvent (.updSame fenced.updCores fun _ => rfl))

theorem settle (h : s.Quiets t) : s.Quiets (t.settle b) := by
  unfold State.settle
  split
  · exact h.restTest
  · exact h.applyFences

theorem haltBasin {cause : Nat} (h : s.Quiets t) : s.Quiets (t.haltBasin b cause) :=
  .settle (.setEvent (.updBasin h.stopCores fun v => .enter v nofun rfl rfl))

theorem respond {cause detail : Nat} (h : s.Quiets t) : s.Quiets (t.respond b cause detail) := by
  have event : s.Quiets (t.tierEvent b cause detail) := by
    unfold State.tierEvent
    split
    · exact h.markEvent
    · split
      · exact h.markEvent
      · exact h
  unfold State.respond
  split
  · dsimp only
    split
    · unfold State.beginRestart
      dsimp only
      split
      · exact event.haltBasin
      · exact .updBasin event.stopCores fun v => .enter v nofun rfl rfl
    · exact event.haltBasin
  · exact h

theorem haltWith {c : Nat} {r : HaltRec} (h : s.Quiets t) : s.Quiets (t.haltWith c r) := by
  unfold State.haltWith
  dsimp only
  split
  · exact h.updCore.respond
  · exact h.updCore

theorem fenceCore {kind c : Nat} (h : s.Quiets t) : s.Quiets (t.fenceCore kind c) := by
  unfold State.fenceCore
  split
  · exact h
  · split
    · exact h.enterFence
    · dsimp only
      split
      · exact .applyFences (h.updSame fun _ => rfl)
      · exact h.updSame fun _ => rfl

theorem charge {kind index event addr detail act : Nat} {o : Option Nat} (h : s.Quiets t) :
    s.Quiets (t.charge kind index event addr detail act o) := by
  have reported : ∀ r, s.Quiets ((t.addCharge kind index).report r) := fun r => .report (h.same rfl)
  unfold State.charge
  dsimp only
  split
  · unfold State.fenceUnit
    split
    · exact (reported _).fenceCore
    · exact (reported _).fenceCore
    · exact (reported _).fenceCore.fenceCore
    · exact reported _
  · exact reported _

theorem applyEcc {es : List EccHit} (h : s.Quiets t) : s.Quiets (t.applyEcc es) := by
  induction es generalizing t with
  | nil => exact h
  | cons e es ih =>
    unfold State.applyEcc
    dsimp only
    split
    · exact ih h.updCore.charge
    · exact ih (h.same rfl)

end State.Quiets
end Sys2Proof.Machine

/-! One lattice cycle leaves the clocks to its end (07 R204, R233, R235; 13 R380). -/

namespace Sys2Proof.Machine

/-! ### The clocks of a state -/

@[simp] theorem State.clock_mk (x0 x1 x2 x3 x4 x5 x6 x7 x8 x9 x10 x11 x12 x13 x14 x15 x16 x17 x18 x19
    x20 x21 x22 x23 x24 x25 x26 x27 x28 x29 x30 x31 x32 x33 x34 x35 x36 x37) :
    (State.mk x0 x1 x2 x3 x4 x5 x6 x7 x8 x9 x10 x11 x12 x13 x14 x15 x16 x17 x18 x19
      x20 x21 x22 x23 x24 x25 x26 x27 x28 x29 x30 x31 x32 x33 x34 x35 x36 x37).clock = clockOf x9 x10 x6 := rfl

@[simp] theorem State.clock_fold (s : State) : clockOf s.time0 s.time1 s.power = s.clock := rfl

@[simp] theorem clock_ite (c : Prop) [Decidable c] (s t : State) : (if c then s else t).clock = if c then s.clock else t.clock :=
  apply_ite ..

@[simp] theorem clock_ite_fst {α : Type} (c : Prop) [Decidable c] (p q : State × α) :
    (if c then p else q).1.clock = if c then p.1.clock else q.1.clock := by
  split
  · rfl
  · rfl

@[simp] theorem foldl_clock {α : Type} (f : State → α → State) (h : ∀ s a, (f s a).clock = s.clock) (l : List α) (s : State) :
    (l.foldl f s).clock = s.clock :=
  List.foldlRecOn (motive := fun t => t.clock = s.clock) l f rfl fun t ht a _ => (h t a).trans ht

/-- The state that an operation answers with a value, under a name of its own. -/
theorem clock_of_eq {α : Type} {s t : State} {p : State × α} {a : α} (h : p = (t, a)) (hp : p.1.clock = s.clock) : t.clock = s.clock := by
  subst h
  exact hp

@[simp] theorem State.updBasin_clock (s : State) (b : Nat) (f : Basin → Basin) : (s.updBasin b f).clock = s.clock := rfl
@[simp] theorem State.setCore_clock (s : State) (c : Nat) (k : Core) : (s.setCore c k).clock = s.clock := rfl
@[simp] theorem State.updCore_clock (s : State) (c : Nat) (f : Core → Core) : (s.updCore c f).clock = s.clock := rfl
@[simp] theorem State.updPort_clock (s : State) (n : Nat) (f : Stack → Stack) : (s.updPort n f).clock = s.clock := rfl
@[simp] theorem State.count_clock (s : State) (g : CntGroup) (n i k : Nat) : (s.count g n i k).clock = s.clock := rfl
@[simp] theorem State.updBarge_clock (s : State) (c i : Nat) (f : Barge → Barge) : (s.updBarge c i f).clock = s.clock := rfl
@[simp] theorem State.updAdder_clock (s : State) (k : Nat) (f : Adder → Adder) : (s.updAdder k f).clock = s.clock := rfl
@[simp] theorem State.engineAdd_clock (s : State) (b l n : Nat) : (s.engineAdd b l n).clock = s.clock := rfl

@[simp] theorem State.report_clock (s : State) (r : Report) : (s.report r).clock = s.clock := (State.Quiets.refl s).report.clock

@[simp] theorem State.notify_clock (s : State) (fn : HostFn) (v : Nat) : (s.notify fn v).clock = s.clock :=
  (State.Quiets.refl s).notify.clock

@[simp] theorem State.haltBasin_clock (s : State) (b cause : Nat) : (s.haltBasin b cause).clock = s.clock :=
  (State.Quiets.refl s).haltBasin.clock

@[simp] theorem State.haltWith_clock (s : State) (c : Nat) (r : HaltRec) : (s.haltWith c r).clock = s.clock :=
  (State.Quiets.refl s).haltWith.clock

@[simp] theorem State.fenceCore_clock (s : State) (kind c : Nat) : (s.fenceCore kind c).clock = s.clock :=
  (State.Quiets.refl s).fenceCore.clock

@[simp] theorem State.charge_clock (s : State) (kind index event addr detail act : Nat) (b : Option Nat) :
    (s.charge kind index event addr detail act b).clock = s.clock := (State.Quiets.refl s).charge.clock

@[simp] theorem State.applyEcc_clock (s : State) (es : List EccHit) : (s.applyEcc es).clock = s.clock :=
  (State.Quiets.refl s).applyEcc.clock

/-! ### Units, seam and transit -/

@[simp] theorem State.setReqs_clock (s : State) (u : Nat) (l : List PortReq) : (s.setReqs u l).clock = s.clock := by
  unfold State.setReqs
  split
  · rfl
  · rfl

@[simp] theorem State.sendReturn_clock (s : State) (u : Nat) (f : Flit) : (s.sendReturn u f).clock = s.clock := by
  unfold State.sendReturn
  dsimp only
  split
  · rfl
  · rfl

@[simp] theorem State.releaseTiles_clock (s : State) (u b l : Nat) : (s.releaseTiles u b l).clock = s.clock := by
  unfold State.releaseTiles
  split
  · rfl
  · dsimp only
    split
    · rfl
    · rfl

@[simp] theorem State.levelCheck_clock (s : State) (b j : Nat) : (s.levelCheck b j).clock = s.clock := by
  unfold State.levelCheck State.tpNotify State.updQueue
  dsimp only
  split
  · rfl
  · split
    · split
      · rfl
      · split
        · rfl
        · simp
    · rfl

@[simp] theorem State.tpPush_clock (s : State) (b n : Nat) (i : Item) : (s.tpPush b n i).clock = s.clock := by
  unfold State.tpPush State.updQueue State.markEvent
  dsimp only
  split
  · split
    · rfl
    · simp
  · simp

@[simp] theorem State.putArrive_clock (s : State) (u : Nat) (f : Flit) : (s.putArrive u f).clock = s.clock := by
  unfold State.putArrive State.dropReqs State.updReq
  split
  · rfl
  · split
    · simp
    · dsimp only
      split
      · split
        · split
          · simp
          · simp
        · split
          · simp
          · simp
      · rw [foldl_clock _ fun t i => State.tpPush_clock ..]
        split
        · simp
        · simp

theorem State.seamPoison_clock (s : State) (y : Nat) (east : Bool) (b : Nat) : (s.seamPoison y east b).clock = s.clock := by
  simp [State.seamPoison]

theorem State.seamSuspend_clock (s : State) (f : Flit) : (s.seamSuspend f).clock = s.clock := by
  unfold State.seamSuspend
  refine foldl_clock _ (fun t c => ?_) _ _
  dsimp only
  split
  · rfl
  · rfl

@[simp] theorem State.seamSend_clock (s : State) (env : SlotEnv) (y : Nat) (east : Bool) (t : Nat) (f : Flit) :
    (s.seamSend env y east t f).1.clock = s.clock := by
  unfold State.seamSend
  split
  · rfl
  · split
    · exact State.seamPoison_clock ..
    · exact State.seamSuspend_clock ..

@[simp] theorem State.seamResend_clock (s : State) (env : SlotEnv) : (s.seamResend env).clock = s.clock := by
  unfold State.seamResend
  dsimp only
  refine (foldl_clock _ (fun t e => ?_) _ _).trans rfl
  split
  · split
    · exact State.seamPoison_clock ..
    · exact State.seamPoison_clock ..
    · rfl
  · rfl

@[simp] theorem State.linkCheck_clock (s : State) (env : SlotEnv) (r : Nat) (f : Flit) : (s.linkCheck env r f).1.clock = s.clock := by
  unfold State.linkCheck
  dsimp only
  split
  · simp
  · rfl

@[simp] theorem State.unitArrive_clock (s : State) (env : SlotEnv) (r u : Nat) (f : Flit) : (s.unitArrive env r u f).clock = s.clock := by
  have checked := s.linkCheck_clock env r f
  unfold State.unitArrive
  dsimp only
  generalize s.linkCheck env r f = p at checked
  obtain ⟨t, f⟩ := p
  refine Eq.trans ?_ checked
  dsimp only
  split
  · split
    · rfl
    · rfl
  · split
    · split
      · split
        · rfl
        · simp
      · rfl
    · split
      · rfl
      · simp

@[simp] theorem State.engineLanes_clock (s : State) (b : Nat) : (s.engineLanes b).clock = s.clock := by
  have lane : ∀ (s : State) (l : Nat) (lr : LaneRec) (m : Image) (g : SegRec), (s.engineLane b l lr m g).clock = s.clock := by
    intro s l lr m g
    unfold State.engineLane
    split
    · simp only [clock_ite, State.engineAdd_clock, State.sendReturn_clock, ite_self]
    · rfl
  unfold State.engineLanes
  dsimp only
  split
  · split
    · refine foldl_clock _ (fun t l => ?_) _ _
      split
      · split
        · exact lane ..
        · rfl
      · rfl
    · rfl
  · rfl

@[simp] theorem State.sendTransit_clock (s : State) (b r t : Nat) (f : Flit) : (s.sendTransit b r t f).clock = s.clock := by
  unfold State.sendTransit
  split
  · rfl
  · rfl

theorem State.transitOne_clock (s : State) (env : SlotEnv) (r o : Nat) : (s.transitOne env r o).clock = s.clock := by
  unfold State.transitOne
  split
  · rfl
  · split
    · rfl
    · dsimp only
      split
      · rfl
      · split
        · split
          · simp
          · rfl
        · split
          · rfl
          · split
            · split
              · simp
              · rfl
            · split
              · rfl
              · split
                · simp
                · rfl

@[simp] theorem State.transitStep_clock (s : State) (env : SlotEnv) : (s.transitStep env).clock = s.clock :=
  foldl_clock _ (fun _ _ => foldl_clock _ (fun _ _ => State.transitOne_clock ..) _ _) _ _

/-! ### Adders -/

@[simp] theorem State.overrun_clock (s : State) (b l detail : Nat) : (s.overrun b l detail).clock = s.clock :=
  foldl_clock _ (fun _ _ => State.haltWith_clock ..) _ _

@[simp] theorem State.adderResidue_clock (s : State) (b r lane slot : Nat) : (s.adderResidue b r lane slot).clock = s.clock := by
  unfold State.adderResidue
  dsimp only
  split
  · simp [State.haltBoth]
  · simp [State.haltBoth]

@[simp] theorem State.runAdder_clock (s : State) (env : SlotEnv) (r n t slot : Nat) : (s.runAdder env r n t slot).clock = s.clock := by
  unfold State.runAdder
  dsimp only
  split
  · split
    · simp only [clock_ite, State.adderResidue_clock, State.updAdder_clock, State.count_clock, ite_self]
    · rfl
  · rfl

theorem State.listAdder_clock (s : State) (b r t : Nat) (e : SlotRec) (lr : LaneRec) (op src : Nat) :
    (s.listAdder b r t e lr op src).clock = s.clock := by
  unfold State.listAdder
  dsimp only
  split
  · rfl
  · rfl

theorem State.feedAdder_clock (s : State) (b r l src : Nat) (f : Flit) : (s.feedAdder b r l src f).clock = s.clock := by
  unfold State.feedAdder
  split
  · rfl
  · split
    · simp
    · rfl

theorem State.entryLists_clock (s : State) (b r t : Nat) (e : SlotRec) (live : Bool) (fs : List (Nat × Flit)) :
    (s.entryLists b r t e live fs).clock = s.clock := by
  unfold State.entryLists
  split
  · rfl
  · dsimp only
    split
    · simp [State.listAdder_clock]
    · split
      · simp [State.listAdder_clock, State.feedAdder_clock]
      · simp [State.listAdder_clock]

theorem State.emitAdder_clock (s : State) (b r t : Nat) (e : SlotRec) : (s.emitAdder b r t e).1.clock = s.clock := by
  unfold State.emitAdder
  dsimp only
  split
  · split
    · simp
    · simp
  · simp

@[simp] theorem State.entryAdder_clock (s : State) (env : SlotEnv) (b r t slot : Nat) (e : SlotRec) (live : Bool)
    (fs : List (Nat × Flit)) : (s.entryAdder env b r t slot e live fs).1.clock = s.clock := by
  have ran : ((List.range 16).foldl (fun s n => s.runAdder env r n t slot) (s.entryLists b r t e live fs)).clock = s.clock := by
    simp [State.entryLists_clock]
  unfold State.entryAdder
  dsimp only
  generalize (List.range 16).foldl (fun s n => s.runAdder env r n t slot) (s.entryLists b r t e live fs) = u at ran
  split
  · split
    · next h => exact (clock_of_eq h (State.emitAdder_clock ..)).trans ran
    · next h => exact (clock_of_eq h (State.emitAdder_clock ..)).trans ran
  · exact ran

/-! ### Sources, links and landing -/

theorem State.launchTake_clock (s : State) (b c : Nat) (g : Barge) (f : Flit) : (s.launchTake b c g f).clock = s.clock := by
  simp [State.launchTake]

theorem State.sourceTake_clock {s t : State} {b r l code n : Nat} {lr : LaneRec} {f : Flit}
    (h : s.sourceTake b r l code n lr = some (t, f)) : t.clock = s.clock := by
  unfold State.sourceTake at h
  split at h
  · obtain ⟨e, -, he⟩ := Option.map_eq_some_iff.1 h
    cases he
    exact State.launchTake_clock ..
  · split at h
    · split at h
      · obtain ⟨e, -, he⟩ := Option.map_eq_some_iff.1 h
        cases he
        simp
      · cases h
    · obtain ⟨e, -, he⟩ := Option.map_eq_some_iff.1 h
      cases he
      rfl

theorem State.source_clock (s : State) (b r l code t : Nat) (cu : Bool) : (s.source b r l code t cu).1.clock = s.clock := by
  unfold State.source
  dsimp only
  split
  · split
    · rfl
    · next due _ =>
        by_cases hd : (if cu then decide (due < t) else decide (due ≤ t)) = true
        · rw [if_pos hd]
          split
          · next h => simp [State.sourceTake_clock h]
          · simp
        · rw [if_neg hd]
  · rfl

@[simp] theorem State.sendLink_clock (s : State) (env : SlotEnv) (d : Desc) (r side t : Nat) (f : Flit) :
    (s.sendLink env d r side t f).clock = s.clock := by
  unfold State.sendLink
  split
  · split
    · rfl
    · dsimp only
      split
      · simp
      · rfl
  · rfl

@[simp] theorem State.landCore_clock (s : State) (b r : Nat) (f : Flit) : (s.landCore b r f).clock = s.clock := by
  unfold State.landCore
  dsimp only
  split
  · rfl
  · split
    · rfl
    · split
      · split
        · simp [State.haltBoth, State.setXstat, State.setFlag]
        · simp [State.haltBoth, State.setXstat]
      · simp [State.haltBoth, State.setXstat]

@[simp] theorem State.landBarge_clock (s : State) (r : Nat) (f : Flit) : (s.landBarge r f).clock = s.clock := by
  unfold State.landBarge
  dsimp only
  split
  · rfl
  · split
    · rfl
    · simp [State.haltAt]

@[simp] theorem State.land_clock (s : State) (env : SlotEnv) (b r : Nat) (f : Flit) : (s.land env b r f).clock = s.clock := by
  have checked := s.linkCheck_clock env r f
  unfold State.land
  dsimp only
  generalize s.linkCheck env r f = p at checked
  obtain ⟨t, f⟩ := p
  refine Eq.trans ?_ checked
  dsimp only
  split
  · split
    · simp
    · simp
    · simp
    · simp
    · split
      · simp
      · rfl
    · split
      · simp
      · rfl
    · rfl
  · rfl

/-! ### Routers and cycles -/

theorem State.entrySources_clock (s : State) (b r t : Nat) (e : SlotRec) (live : Bool) :
    (s.entrySources b r t e live).1.clock = s.clock := by
  unfold State.entrySources
  refine List.foldlRecOn (motive := fun p : State × List (Nat × Flit) => p.1.clock = s.clock) _ _ rfl fun p hp c _ => ?_
  split
  · split
    · next h => exact (clock_of_eq h (State.source_clock ..)).trans hp
    · next h => exact (clock_of_eq h (State.source_clock ..)).trans hp
  · exact hp

theorem State.entryOutputs_clock (s : State) (env : SlotEnv) (b r t : Nat) (e : SlotRec) (fs : List (Nat × Flit)) :
    (s.entryOutputs env b r t e fs).clock = s.clock := by
  have mesh : (e.mesh.foldl (fun u o => match supplied fs o.2 with
      | some f => u.sendLink env (s.basin b).desc r o.1 t f
      | none => u) s).clock = s.clock := by
    refine foldl_clock _ (fun u o => ?_) _ _
    split
    · simp
    · rfl
  have outL : ∀ u : State, u.clock = s.clock →
      (match supplied fs e.outL with | some f => u.land env b r f | none => u).clock = s.clock := by
    intro u h
    split
    · simp [h]
    · exact h
  have outX : ∀ u : State, u.clock = s.clock → (match supplied fs e.outX, attached r with
      | some f, some n => (u.count .router r 0 1).unitArrive env r n f
      | _, _ => u).clock = s.clock := by
    intro u h
    split
    · simp [h]
    · exact h
  have tx : ∀ u : State, u.clock = s.clock →
      (match supplied fs e.tx with | some f => u.sendTransit b r t f | none => u).clock = s.clock := by
    intro u h
    split
    · simp [h]
    · exact h
  exact tx _ (outX _ (outL _ mesh))

theorem State.runRouter_clock (s : State) (env : SlotEnv) (b : Nat) (m : Image) (g : SegRec) (r : Nat) :
    (s.runRouter env b m g r).clock = s.clock := by
  unfold State.runRouter
  dsimp only
  split
  · rfl
  · rw [State.entryOutputs_clock, State.entryAdder_clock, State.entrySources_clock]

@[simp] theorem State.runBasinSlots_clock (s : State) (env : SlotEnv) (b : Nat) : (s.runBasinSlots env b).clock = s.clock := by
  unfold State.runBasinSlots
  dsimp only
  split
  · split
    · refine (foldl_clock _ (fun _ _ => State.runRouter_clock ..) _ _).trans ?_
      split
      · rfl
      · rfl
    · rfl
  · rfl

theorem State.cycleCc_clock (s : State) (b c : Nat) (new : List (SpPort × Nat)) : (s.cycleCc b c new).clock = s.clock := by
  simp [State.cycleCc]

@[simp] theorem State.cycleBasin_clock (s : State) (env : SlotEnv) (b : Nat) : (s.cycleBasin env b).clock = s.clock := by
  unfold State.cycleBasin
  split
  · exact foldl_clock _ (fun _ _ => (State.cycleCc_clock ..).trans (State.cycleCc_clock ..)) _ _
  · rfl

end Sys2Proof.Machine

namespace Sys2Proof.Machine

/-! ### The lattice times -/

/-- A lattice cycle before the lattice times advance. -/
def State.slotMoves (s : State) (env : SlotEnv) : State :=
  let u := s.releaseStep.applyEcc env.ecc
  let bs := u.basins.map (·.1)
  let u := bs.foldl (fun s b => (s.engineLanes b).runBasinSlots env b) (u.seamResend env)
  (bs.foldl (fun s b => s.cycleBasin env b) (u.transitStep env)).dropUsed

theorem latticeSlot_runs {s : State} (env : SlotEnv) (h : s.power.clocksStopped = false) :
    exec (.latticeSlot env) s = .next (s.slotMoves env).advanceTime :=
  congrArg Host.Outcome.next (if_neg (by simp [h]))

theorem State.slotMoves_clock (s : State) (env : SlotEnv) : (s.slotMoves env).clock = s.releaseStep.clock := by
  have dropped : ∀ u : State, u.dropUsed.clock = u.clock := fun _ => rfl
  simp [State.slotMoves, dropped]

theorem State.seamResend_idle {s : State} (env : SlotEnv) (h : s.seamTaken = []) : s.seamResend env = s := by
  cases s
  cases h
  rfl

/-- A cycle in a device without basins, in which nothing moves. -/
theorem State.slotMoves_idle {s : State} (hb : s.basins = []) (ht : s.transit = []) (hs : s.seamTaken = []) :
    (s.slotMoves {}).basins = s.basins ∧ (s.slotMoves {}).cores = s.cores := by
  obtain ⟨u, hu⟩ : ∃ u, u = s.releaseStep := ⟨_, rfl⟩
  have parts : u.basins = s.basins ∧ u.cores = s.cores ∧ u.transit = s.transit ∧ u.seamTaken = s.seamTaken := by
    subst hu
    unfold State.releaseStep
    split
    · split
      · exact ⟨rfl, rfl, rfl, rfl⟩
      · exact ⟨rfl, rfl, rfl, rfl⟩
    · exact ⟨rfl, rfl, rfl, rfl⟩
  obtain ⟨basins, cores, transit, seam⟩ := parts
  have resent : u.seamResend {} = u := State.seamResend_idle _ (seam.trans hs)
  have moved : u.transitStep {} = u := by simp [State.transitStep, transit, ht]
  have run : s.slotMoves {} = u.dropUsed := by
    simp [State.slotMoves, ← hu, State.applyEcc, basins, hb, resent, moved]
  rw [run]
  exact ⟨basins, cores⟩

theorem State.countLc_parts (s : State) (die step t : Nat) : ((s.countLc die step t).time0, (s.countLc die step t).time1,
    (s.countLc die step t).power, (s.countLc die step t).basins, (s.countLc die step t).cores) =
      (s.time0, s.time1, s.power, s.basins, s.cores) := by
  unfold State.countLc
  dsimp only
  split
  · rfl
  · rfl

/-- The lattice times advance in the dies that run, and no basin and no core changes. -/
theorem State.advanceTime_parts (s : State) :
    s.advanceTime.time0 = (if s.pace.1 then (s.time0 + 1) % 2 ^ 64 else s.time0) ∧
    s.advanceTime.time1 = (if s.pace.2.1 then (s.time1 + 1) % 2 ^ 64 else s.time1) ∧
    s.advanceTime.basins = s.basins ∧ s.advanceTime.cores = s.cores := by
  have counted := fun (s : State) die step t => s.countLc_parts die step t
  simp only [Prod.mk.injEq] at counted
  unfold State.advanceTime
  dsimp only
  split <;> split <;> simp [counted]

/-- Which dies run follows from the clocks alone. -/
theorem State.pace_of_clock {s t : State} (h : t.clock = s.clock) : t.pace = s.pace := by
  have of : ∀ u : State, u.pace = State.pace { time0 := u.clock.1, time1 := u.clock.2.1, power := u.clock.2.2 } := fun _ => rfl
  rw [of t, of s, h]

theorem State.releaseStep_times (s : State) : s.releaseStep.time0 = s.time0 ∧ s.releaseStep.time1 = s.time1 := by
  unfold State.releaseStep
  split
  · split
    · exact ⟨rfl, rfl⟩
    · exact ⟨rfl, rfl⟩
  · exact ⟨rfl, rfl⟩

/-- At one step both dies run, but for the pause in which die 1 comes to agree with die 0 modulo 16. -/
theorem State.pace_of_eq {s : State} (h : s.power.step0 = s.power.step1) : s.pace = (true, decide (s.time0 % 16 = s.time1 % 16), 0) :=
  if_pos h

/-- At two steps the faster die runs. -/
theorem State.pace_faster (s : State) : (s.power.step0 < s.power.step1 → s.pace.1 = true) ∧
    (s.power.step1 < s.power.step0 → s.pace.2.1 = true) := by
  unfold State.pace
  dsimp only
  split
  · omega
  · split
    · exact ⟨fun _ => rfl, fun _ => rfl⟩
    · exact ⟨fun h => decide_eq_true h, fun h => decide_eq_true h⟩

/-- Settles O22: the cycle leaves the clocks to its end (`State.slotMoves_clock`), where they advance as its pace says. -/
theorem latticeTime : Obligations.LatticeTime := by
  intro s env
  refine ⟨fun h => congrArg Host.Outcome.next (if_pos h), fun h => ?_⟩
  obtain ⟨times0, times1⟩ := s.releaseStep_times
  have clock := s.slotMoves_clock env
  have pace := State.pace_of_clock clock
  have own0 : (s.slotMoves env).time0 = s.time0 := (congrArg (·.1) clock).trans times0
  have own1 : (s.slotMoves env).time1 = s.time1 := (congrArg (·.2.1) clock).trans times1
  obtain ⟨adv0, adv1, basins, cores⟩ := (s.slotMoves env).advanceTime_parts
  rw [pace, own0] at adv0
  rw [pace, own1] at adv1
  refine ⟨_, latticeSlot_runs env h, adv0, adv1, fun hs ht => ?_, fun hs ht => ?_, fun hs => ?_, fun hs => ?_,
    fun hb ht hseam _ he => ?_⟩
  · rw [adv0, adv1, State.pace_of_eq hs, times0, times1]
    simp [ht]
  · rw [adv0, adv1, State.pace_of_eq hs, times0, times1]
    simp [ht]
  · rw [adv0, if_pos (s.releaseStep.pace_faster.1 hs)]
  · rw [adv1, if_pos (s.releaseStep.pace_faster.2 hs)]
  · subst he
    obtain ⟨hbasins, hcores⟩ := State.slotMoves_idle hb ht hseam
    exact ⟨cores.trans hcores, basins.trans hbasins⟩

end Sys2Proof.Machine

/-! Clock steps and the reference clock (07 R234, R235; 13 R374, R376, R380 to R383). -/

namespace Sys2Proof.Machine

/-! ### Requests for steps -/

/-- A request slows die 0 at once, and otherwise starts a rise where no latch is set. -/
theorem Power.request0_eq (p : Power) (l : Bool) (t : Nat) : p.request0 l t = { p with
    step0 := max p.step0 t, up0 := if t < p.step0 ∧ l = false then some t else none,
    slowAcc := if p.step0 < t then 0 else p.slowAcc } := by
  unfold Power.request0
  rcases lt_trichotomy p.step0 t with h | h | h
  · simp [h, h.le, h.not_gt]
  · simp [h]
  · cases l
    · simp [h, h.le, h.not_gt]
    · simp [h.le, h.not_gt]

theorem Power.request1_eq (p : Power) (l : Bool) (t : Nat) : p.request1 l t = { p with
    step1 := max p.step1 t, up1 := if t < p.step1 ∧ l = false then some t else none,
    slowAcc := if p.step1 < t then 0 else p.slowAcc } := by
  unfold Power.request1
  rcases lt_trichotomy p.step1 t with h | h | h
  · simp [h, h.le, h.not_gt]
  · simp [h]
  · cases l
    · simp [h, h.le, h.not_gt]
    · simp [h.le, h.not_gt]

/-- What a request for both dies leaves of the steps. -/
theorem State.requestSteps_power (s : State) (a b : Nat) :
    (s.requestSteps a b).power.step0 = max s.power.step0 a ∧ (s.requestSteps a b).power.step1 = max s.power.step1 b ∧
    (s.requestSteps a b).power.heldStep = none ∧
    (s.requestSteps a b).power.up0 = (if a < s.power.step0 ∧ s.latched = false then some a else none) ∧
    (s.requestSteps a b).power.up1 = (if b < s.power.step1 ∧ s.latched = false then some b else none) := by
  unfold State.requestSteps
  rw [Power.request0_eq, Power.request1_eq]
  exact ⟨rfl, rfl, rfl, rfl, rfl⟩

/-- The manager's request changes the steps, the rises in progress and the held request alone. -/
theorem State.chooseSteps_keeps (s : State) (a b : Nat) :
    (s.chooseSteps a b).basins = s.basins ∧ (s.chooseSteps a b).cores = s.cores ∧
    (s.chooseSteps a b).power.gate = s.power.gate ∧ (s.chooseSteps a b).power.ilim = s.power.ilim ∧
    (s.chooseSteps a b).power.emerg = s.power.emerg ∧ (s.chooseSteps a b).power.trip = s.power.trip := by
  have request : ∀ a b, (s.requestSteps a b).basins = s.basins ∧ (s.requestSteps a b).cores = s.cores ∧
      (s.requestSteps a b).power.gate = s.power.gate ∧ (s.requestSteps a b).power.ilim = s.power.ilim ∧
      (s.requestSteps a b).power.emerg = s.power.emerg ∧ (s.requestSteps a b).power.trip = s.power.trip := by
    intro a b
    unfold State.requestSteps
    rw [Power.request0_eq, Power.request1_eq]
    exact ⟨rfl, rfl, rfl, rfl, rfl, rfl⟩
  unfold State.chooseSteps
  dsimp only
  split
  · exact request a b
  · split
    · exact request _ _
    · exact ⟨rfl, rfl, rfl, rfl, rfl, rfl⟩

theorem powerManagerEval_steps (s : State) (w0 w1 : Nat) (lim : FwLimits) (hready : s.mgmt.phase = .ready) (hgap : s.mgmt.gap = false)
    (hrun : s.power.clocksStopped = false) :
    let p := s.power.tighten lim
    let t0 := p.target w0 p.step0 p.tj0
    let t1 := p.target w1 p.step1 p.tj1
    let hot := p.throttle ≤ p.tj0 ∨ p.throttle ≤ p.tj1 ∨ s.launchHeld = true
    ∃ t, exec (.powerManagerEval (w0, w1) lim) s = .next t ∧ t.basins = s.basins ∧ t.cores = s.cores ∧ t.power.gate = s.power.gate ∧
      (∀ v, lim.ilim = some v → 40 ≤ t.power.ilim ∧ t.power.ilim ≤ 72 ∧ (40 ≤ v → v ≤ 72 → t.power.ilim = v)) ∧
      (∀ v, lim.emerg = some v → 90 ≤ t.power.emerg ∧ t.power.emerg ≤ 105 ∧ (90 ≤ v → v ≤ 105 → t.power.emerg = v)) ∧
      (∀ v, lim.trip = some v → 100 ≤ t.power.trip ∧ t.power.trip ≤ 115 ∧ (100 ≤ v → v ≤ 115 → t.power.trip = v)) ∧
      (s.oneStep = false ∨ t0 = t1 →
        t.power.step0 = max s.power.step0 t0 ∧ t.power.step1 = max s.power.step1 t1 ∧ t.power.heldStep = none ∧
        t.power.up0 = (if t0 < s.power.step0 ∧ s.latched = false then some t0 else none) ∧
        t.power.up1 = (if t1 < s.power.step1 ∧ s.latched = false then some t1 else none)) ∧
      (s.oneStep = true → t0 ≠ t1 → hot →
        t.power.step0 = max s.power.step0 (max t0 t1) ∧ t.power.step1 = max s.power.step1 (max t0 t1)) ∧
      (s.oneStep = true → t0 ≠ t1 → ¬hot → t.power = { p with heldStep := some (t0, t1) }) := by
  intro p t0 t1 hot
  let u : State := { s with power := p }
  have run : exec (.powerManagerEval (w0, w1) lim) s = .next (u.chooseSteps t0 t1) :=
    congrArg Host.Outcome.next (if_neg (by simp [hready, hgap, hrun]))
  obtain ⟨basins, cores, gate, ilim, emerg, trip⟩ := u.chooseSteps_keeps t0 t1
  have one : u.oneStep = s.oneStep := rfl
  have held : u.launchHeld = s.launchHeld := rfl
  refine ⟨_, run, basins, cores, gate, fun v hv => ?_, fun v hv => ?_, fun v hv => ?_, fun h => ?_, fun h1 hne hh => ?_,
    fun h1 hne hh => ?_⟩
  · have set : p.ilim = max 40 (min 72 v) := by simp only [p, Power.tighten, hv]
    rw [ilim, show u.power.ilim = _ from set]
    omega
  · have set : p.emerg = max 90 (min 105 v) := by simp only [p, Power.tighten, hv]
    rw [emerg, show u.power.emerg = _ from set]
    omega
  · have set : p.trip = max 100 (min 115 v) := by simp only [p, Power.tighten, hv]
    rw [trip, show u.power.trip = _ from set]
    omega
  · have chosen : u.chooseSteps t0 t1 = u.requestSteps t0 t1 := if_pos (by simpa [one] using h)
    rw [chosen]
    exact u.requestSteps_power t0 t1
  · have chosen : u.chooseSteps t0 t1 = u.requestSteps (max t0 t1) (max t0 t1) :=
      (if_neg (by simp [one, h1, hne])).trans (if_pos hh)
    obtain ⟨step0, step1, -⟩ := u.requestSteps_power (max t0 t1) (max t0 t1)
    rw [chosen]
    exact ⟨step0, step1⟩
  · have chosen : u.chooseSteps t0 t1 = { u with power := { u.power with heldStep := some (t0, t1) } } :=
      (if_neg (by simp [one, h1, hne])).trans (if_neg hh)
    rw [chosen]

/-! ### The end of a rise -/

theorem clockStepUpDone_alone (s : State) (hrun : s.power.clocksStopped = false) (hone : s.oneStep = false) :
    (∃ t, exec (.clockStepUpDone 0) s = .next t ∧ t.power.step0 = s.power.up0.getD s.power.step0 ∧ t.power.up0 = none ∧
      t.power.step1 = s.power.step1 ∧ t.power.up1 = s.power.up1 ∧ t.cores = s.cores) ∧
    (∃ t, exec (.clockStepUpDone 1) s = .next t ∧ t.power.step1 = s.power.up1.getD s.power.step1 ∧ t.power.up1 = none ∧
      t.power.step0 = s.power.step0 ∧ t.power.up0 = s.power.up0 ∧ t.cores = s.cores) := by
  have run : ∀ die, exec (.clockStepUpDone die) s =
      .next { s with power := s.power.raised (decide (die = 0)) (decide (die = 1)) } := fun die =>
    congrArg Host.Outcome.next ((if_neg (by simp [hrun])).trans (if_pos (by simp [hone])))
  exact ⟨⟨_, run 0, rfl, rfl, rfl, rfl, rfl⟩, ⟨_, run 1, rfl, rfl, rfl, rfl, rfl⟩⟩

theorem clockStepUpDone_together (s : State) (die : Nat) (hrun : s.power.clocksStopped = false) (hone : s.oneStep = true) :
    let a := s.power.up0.getD s.power.step0
    let b := s.power.up1.getD s.power.step1
    ∃ t, exec (.clockStepUpDone die) s = .next t ∧ t.cores = s.cores ∧ t.basins = s.basins ∧
      ((if die = 0 then s.power.up0 else s.power.up1).isSome = true → a = b →
        t.power.step0 = a ∧ t.power.step1 = b ∧ t.power.up0 = none ∧ t.power.up1 = none) ∧
      ((if die = 0 then s.power.up0 else s.power.up1).isSome = false ∨ a ≠ b → t = s) := by
  intro a b
  have run : exec (.clockStepUpDone die) s = .next (if (if die = 0 then s.power.up0 else s.power.up1).isSome ∧ a = b
      then { s with power := s.power.raised true true } else s) :=
    congrArg Host.Outcome.next ((if_neg (by simp [hrun])).trans (if_neg (by simp [hone])))
  by_cases h : (if die = 0 then s.power.up0 else s.power.up1).isSome = true ∧ a = b
  · rw [if_pos h] at run
    exact ⟨_, run, rfl, rfl, fun _ _ => ⟨rfl, rfl, rfl, rfl⟩, fun hn => by grind⟩
  · rw [if_neg h] at run
    exact ⟨_, run, rfl, rfl, fun h1 h2 => absurd ⟨h1, h2⟩ h, fun _ => rfl⟩

/-! ### Reunion -/

theorem dieStepReunion_agrees (s : State) (hstep : s.power.step0 = s.power.step1) (hmod : s.time0 % 16 = s.time1 % 16)
    (hfree : ∀ e ∈ s.basins, s.keepsTime e.2 = false) :
    ∃ t, exec .dieStepReunion s = .next t ∧ t.time0 = s.time0 ∧ t.time1 = s.time0 ∧ t.cores = s.cores ∧ t.power = s.power := by
  by_cases ht : s.time0 = s.time1
  · exact ⟨s, congrArg Host.Outcome.next (if_neg (by simp [ht])), rfl, ht.symm, rfl, rfl⟩
  · exact ⟨s.takeTime, congrArg Host.Outcome.next (if_pos (by simpa [hstep, hmod, ht] using hfree)), rfl, rfl, rfl, rfl⟩

/-! ### The reference -/

/-- The power latch is set with its cause; beside it, a first cause is counted and sent. -/
theorem State.latch_power (s : State) (i : Nat) :
    (s.latch false i).power = { s.power with causes := setBit s.power.causes i true, powerLatch := true } ∧
    (s.latch false i).basins = s.basins ∧ (s.latch false i).cores = s.cores := by
  have sent : ∀ (u : State) (m : Msg), ((u.notify .pf0 3).emit m).power = u.power ∧ ((u.notify .pf0 3).emit m).basins = u.basins ∧
      ((u.notify .pf0 3).emit m).cores = u.cores := by
    intro u m
    unfold State.notify
    dsimp only
    split
    · exact ⟨rfl, rfl, rfl⟩
    · exact ⟨rfl, rfl, rfl⟩
  by_cases h : s.power.powerLatch = true
  · have run : s.latch false i = { s with power := { s.power with causes := setBit s.power.causes i true } } := if_pos h
    rw [run]
    refine ⟨?_, rfl, rfl⟩
    rw [← h]
  · have run : s.latch false i = _ := if_neg h
    rw [run]
    exact sent _ _

theorem refclkLost_holds (s : State) (hphase : s.mgmt.phase ≠ .inReset) (hlost : s.power.refLost = false) :
    ∃ t, exec .refclkLost s = .next t ∧ t.power.refLost = true ∧ t.power.holdover = true ∧ t.power.pllLock = false ∧
      t.power.powerLatch = true ∧ t.power.causes.getLsbD 5 = true ∧ t.basins = s.basins ∧ t.cores = s.cores := by
  have run : exec .refclkLost s =
      .next (State.latch { s with power := { s.power with holdover := true, refLost := true, pllLock := false } } false 5) :=
    congrArg Host.Outcome.next (if_neg (by simp [hphase, hlost]))
  obtain ⟨power, basins, cores⟩ :=
    State.latch_power { s with power := { s.power with holdover := true, refLost := true, pllLock := false } } 5
  refine ⟨_, run, ?_, ?_, ?_, ?_, ?_, basins, cores⟩
  · rw [power]
  · rw [power]
  · rw [power]
  · rw [power]
  · rw [power]
    exact event_bit _ (by decide)

/-- What the clocks of a state say of its power state. -/
theorem State.power_of_clock {s : State} {t0 t1 : Nat} {p : Power} (h : s.clock = clockOf t0 t1 p) :
    s.power.clocksStopped = p.clocksStopped ∧ s.power.refStop = p.refStop ∧ s.power.refLost = p.refLost ∧
    s.power.holdover = p.holdover ∧ s.power.pllLock = p.pllLock ∧ s.power.faultN = p.faultN :=
  ⟨congrArg (·.2.2.clocksStopped) h, congrArg (·.2.2.refStop) h, congrArg (·.2.2.refLost) h, congrArg (·.2.2.holdover) h,
    congrArg (·.2.2.pllLock) h, congrArg (·.2.2.faultN) h⟩

/-- A basin that halts does not run. -/
theorem State.haltBasin_phase (s : State) (b cause : Nat) : ((s.haltBasin b cause).basin b).phase ≠ .running := by
  have rests : ∀ u : State, (u.basin b).phase ≠ .running → (((u.setEvent b 2).settle b).basin b).phase ≠ .running := fun u h =>
    ((((State.Quiets.refl u).setEvent).settle).basin b).phase h
  refine rests _ ?_
  rw [State.basin_updBasin_self]
  exact nofun

theorem State.Quiets.haltForClocks {s t : State} (h : s.Quiets t) (b : Nat) : s.Quiets (t.haltForClocks b) := by
  unfold State.haltForClocks
  split
  · exact h.haltBasin
  · exact h.haltBasin
  · exact h

theorem State.haltForClocks_phase (s : State) (b : Nat) : ((s.haltForClocks b).basin b).phase ≠ .running := by
  unfold State.haltForClocks
  split
  · exact s.haltBasin_phase b 0
  · exact s.haltBasin_phase b 0
  · next h _ => exact h

/-- When the clocks stop, no basin of a list goes on running. -/
theorem State.haltForClocks_list (l : List Nat) (s : State) :
    s.Quiets (l.foldl State.haltForClocks s) ∧ ∀ b ∈ l, ((l.foldl State.haltForClocks s).basin b).phase ≠ .running := by
  induction l generalizing s with
  | nil => exact ⟨.refl s, nofun⟩
  | cons a l ih =>
    obtain ⟨quiets, stopped⟩ := ih (s.haltForClocks a)
    refine ⟨((State.Quiets.refl s).haltForClocks a).trans quiets, fun b hb => ?_⟩
    rcases List.mem_cons.1 hb with rfl | hb
    · exact (quiets.basin _).phase (s.haltForClocks_phase _)
    · exact stopped b hb

theorem refclkHoldoverExpiry_stops (s : State) (hlost : s.power.refLost = true) (hstop : s.power.refStop = false) :
    ∃ t, exec .refclkHoldoverExpiry s = .next t ∧ t.power.clocksStopped = true ∧ t.power.refStop = true ∧
      t.power.faultN = true ∧ t.power.holdover = false ∧ ∀ b, (t.basin b).phase ≠ .running := by
  let u : State := { s with power := { s.power with clocksStopped := true, refStop := true, faultN := true, holdover := false } }
  have run : exec .refclkHoldoverExpiry s = .next ((u.basins.map (·.1)).foldl State.haltForClocks u) :=
    congrArg Host.Outcome.next (if_pos (by simp [hlost, hstop]))
  obtain ⟨quiets, stopped⟩ := State.haltForClocks_list (u.basins.map (·.1)) u
  obtain ⟨clocks, ref, -, holdover, -, fault⟩ := State.power_of_clock quiets.clock
  refine ⟨_, run, clocks, ref, fault, holdover, fun b => ?_⟩
  by_cases hb : b ∈ u.basins.map (·.1)
  · exact stopped b hb
  · have unlisted : u.basin b = {} := SMap.get_unlisted _ _ _ fun e he hn => hb (List.mem_map.2 ⟨e, he, hn⟩)
    exact (quiets.basin b).phase (by rw [unlisted]; exact nofun)

@[simp] theorem State.requestRetrain_clock (s : State) (n : Nat) : (s.requestRetrain n).clock = s.clock := by
  simp [State.requestRetrain]

@[simp] theorem State.restTest_clock (s : State) (b : Nat) : (s.restTest b).clock = s.clock := (State.Quiets.refl s).restTest.clock

theorem State.testUnbound_clock (s : State) : s.testUnbound.clock = s.clock := by
  have clusters : ∀ (u : State) (cs : List Nat), (u.switchClusters true cs).clock = u.clock := by
    refine fun u cs => foldl_clock _ (fun t c => ?_) _ _
    split
    · rfl
    · rfl
  have quarry : ∀ u : State, (u.switchQuarry true).clock = u.clock := fun u => (State.Quiets.refl u).switchQuarry.clock
  unfold State.testUnbound
  split
  · rfl
  · dsimp only
    split
    · rfl
    · simp [clusters, quarry]

/-- A restart of the clocks leaves them as it sets them. -/
theorem State.restartClocks_clock (s : State) : s.restartClocks.clock =
    clockOf s.time0 s.time1 { s.power with refStop := false, clocksStopped := s.power.tripped, faultN := decide (600 < s.power.vin) } := by
  unfold State.restartClocks
  dsimp only
  rw [State.testUnbound_clock, foldl_clock, foldl_clock, foldl_clock]
  · rfl
  · intro u n
    split
    · exact State.requestRetrain_clock ..
    · exact State.requestRetrain_clock ..
    · exact State.requestRetrain_clock ..
    · rfl
  · intro u n
    split
    · rfl
    · rfl
  · intro u e
    split
    · exact State.restTest_clock ..
    · rfl

theorem refclkReturn_restarts (s : State) (hlost : s.power.refLost = true) :
    ∃ t, exec .refclkReturn s = .next t ∧ t.power.refLost = false ∧ t.power.holdover = false ∧ t.power.pllLock = true ∧
      (s.power.refStop = true → s.power.tripped = false → t.power.clocksStopped = false ∧ t.power.refStop = false) ∧
      (s.power.refStop = false → t.basins = s.basins ∧ t.cores = s.cores ∧
        t.power.clocksStopped = s.power.clocksStopped) := by
  let u : State := { s with power := { s.power with holdover := false, refLost := false, pllLock := true } }
  have run : exec .refclkReturn s = .next (if u.power.refStop then u.restartClocks else u) :=
    congrArg Host.Outcome.next (if_pos hlost)
  by_cases h : s.power.refStop = true
  · rw [if_pos (show u.power.refStop = true from h)] at run
    obtain ⟨clocks, ref, lost, holdover, pll, -⟩ := State.power_of_clock u.restartClocks_clock
    exact ⟨_, run, lost, holdover, pll, fun _ ht => ⟨clocks.trans ht, ref⟩, fun hn => by simp [h] at hn⟩
  · rw [if_neg (show ¬ u.power.refStop = true from h)] at run
    exact ⟨_, run, rfl, rfl, rfl, fun h' => absurd h' h, fun _ => ⟨rfl, rfl, rfl⟩⟩

/-- Settles O47: each command's clause is its own lemma; a stop of the clocks and their restart go by what stops and tests leave of
the clocks and of the phases (`State.Quiets`). -/
theorem clocks : Obligations.Clocks :=
  ⟨powerManagerEval_steps, clockStepUpDone_alone, clockStepUpDone_together, dieStepReunion_agrees, refclkLost_holds,
    refclkHoldoverExpiry_stops, refclkReturn_restarts⟩

end Sys2Proof.Machine

/-! What the tier engine's work on pages, moves, rings and logs leaves of the device (09 R274 to R284, R481, R482). -/

namespace Sys2Proof.Machine

/-! ### What stands still -/

/-- A basin but for its pages, the frames of its rings and its log, its moves and the poison of its memory. -/
def Basin.still (v : Basin) : Basin := { v with pages := [], tp := [], logFrames := [], rawMoves := [], pushing := [], memPoison := [] }

/-- The part of a state that the tier engine's work leaves: the clocks, the cores, the requests at the units, and of each basin all but
what it works on. -/
structure Still where
  clock : Nat × Nat × Power
  cores : SMap Core
  stageReqs : List PortReq
  reqs : Nat → List PortReq
  basins : Nat → Basin

def State.still (s : State) : Still :=
  { clock := (s.time0, s.time1, s.power), cores := s.cores, stageReqs := s.stageReqs, reqs := fun u => (s.port u).reqs
    basins := fun b => (s.basin b).still }

theorem State.cores_of_still {s t : State} (h : t.still = s.still) : t.cores = s.cores := congrArg Still.cores h

theorem State.core_of_still {s t : State} (h : t.still = s.still) (c : Nat) : t.core c = s.core c :=
  (congrArg (fun m : SMap Core => SMap.get {} m c) (State.cores_of_still h) :)

theorem State.basin_of_still {s t : State} (h : t.still = s.still) (b : Nat) : (t.basin b).still = (s.basin b).still :=
  congrFun (congrArg Still.basins h) b

theorem State.memByte_of_still {s t : State} (h : t.still = s.still) (b a : Nat) : t.memByte b a = s.memByte b a :=
  (congrArg (fun v : Basin => SMap.get 0 v.mem a) (State.basin_of_still h b) :)

theorem State.unitReqs_of_still {s t : State} (h : t.still = s.still) (u : Nat) : t.unitReqs u = s.unitReqs u := by
  have stage : t.stageReqs = s.stageReqs := congrArg Still.stageReqs h
  have ports : (t.port u).reqs = (s.port u).reqs := congrFun (congrArg Still.reqs h) u
  unfold State.unitReqs
  rw [stage, ports]

/-- What stands still is quiet. -/
theorem State.Quiets.of_still {s t : State} (h : t.still = s.still) : s.Quiets t := by
  refine ⟨(congrArg (fun x : Still => clockOf x.clock.1 x.clock.2.1 x.clock.2.2) h :), fun b => ?_⟩
  have e := State.basin_of_still h b
  have phase : (t.basin b).phase = (s.basin b).phase := (congrArg Basin.phase e :)
  have sluice : (t.basin b).sluice = (s.basin b).sluice := (congrArg Basin.sluice e :)
  exact ⟨(congrArg Basin.desc e :), (congrArg Basin.seg e :), (congrArg Basin.ckptSeq e :), (congrArg Basin.restarts e :),
    fun hs => sluice.trans hs, fun hp => phase ▸ hp⟩

@[simp] theorem foldl_still {α : Type} (f : State → α → State) (h : ∀ s a, (f s a).still = s.still) (l : List α) (s : State) :
    (l.foldl f s).still = s.still :=
  List.foldlRecOn (motive := fun t => t.still = s.still) l f rfl fun t ht a _ => (h t a).trans ht

/-- An update of a basin that changes only what the tier engine works on. -/
theorem State.updBasin_still {s : State} {b : Nat} {f : Basin → Basin} (h : ∀ v, (f v).still = v.still) :
    (s.updBasin b f).still = s.still := by
  have basins : (fun c => ((s.updBasin b f).basin c).still) = fun c => (s.basin c).still := by
    funext c
    rw [State.basin_updBasin]
    split
    · next e => rw [h, e]
    · rfl
  simp only [State.still, basins]
  rfl

theorem State.updBasin_still_of {s t : State} {b : Nat} {f : Basin → Basin} (h : t.still = s.still)
    (hf : ∀ v, (f v).still = v.still) : (t.updBasin b f).still = s.still := (State.updBasin_still hf).trans h

/-- An update of a port that leaves its requests. -/
theorem State.updPort_still {s : State} {n : Nat} {f : Stack → Stack} (h : ∀ p, (f p).reqs = p.reqs) :
    (s.updPort n f).still = s.still := by
  have reqs : (fun u => ((s.updPort n f).port u).reqs) = fun u => (s.port u).reqs := by
    funext u
    rw [State.port_updPort]
    split
    · next e => rw [h, e]
    · rfl
  simp only [State.still, reqs]
  rfl

@[simp] theorem State.count_still (s : State) (g : CntGroup) (n i k : Nat) : (s.count g n i k).still = s.still := rfl
@[simp] theorem State.emit_still (s : State) (m : Msg) : (s.emit m).still = s.still := rfl

@[simp] theorem State.updPage_still (s : State) (b p : Nat) (f : Page → Page) : (s.updPage b p f).still = s.still :=
  State.updBasin_still fun _ => rfl

@[simp] theorem State.updQueue_still (s : State) (b j : Nat) (f : TpQueue → TpQueue) : (s.updQueue b j f).still = s.still :=
  State.updBasin_still fun _ => rfl

/-- A change of the tier engine's own registers and queue of moves. -/
theorem State.tier_still (s : State) (x : Tier) : State.still { s with tier := x } = s.still := rfl

/-! ### Moves of pages -/

@[simp] theorem State.zeroFill_still (s : State) (b p : Nat) : (s.zeroFill b p).still = s.still := by
  unfold State.zeroFill
  dsimp only
  split
  · simp
  · simp

theorem State.takeMap_still {s t : State} {b p : Nat} (h : s.takeMap b p = some t) : t.still = s.still := by
  unfold State.takeMap at h
  split at h
  · cases h
    rfl
  · obtain ⟨e, -, rfl⟩ := Option.map_eq_some_iff.1 h
    simp

@[simp] theorem State.askMove_still (s : State) (b p : Nat) : (s.askMove b p).still = s.still := by
  unfold State.askMove State.tierMsg
  dsimp only
  split
  · rfl
  · split
    · simp
    · split
      · simp
      · rfl

@[simp] theorem State.addMove_still (s : State) (b p : Nat) (c : MoveCause) (f : Page → Page) :
    (s.addMove b p c f).still = s.still := by
  unfold State.addMove
  split
  · rfl
  · next u h => rw [State.askMove_still, State.tier_still, State.updPage_still, State.takeMap_still h]

theorem State.supply_still {s t : State} {b p : Nat} (h : s.supply b p = .waits t) : t.still = s.still := by
  unfold State.supply at h
  dsimp only at h
  split at h
  · split at h
    · cases h
    · split at h
      · cases h
        rfl
      · cases h
  · split at h
    · cases h
    · split at h
      · cases h
        rfl
      · split at h
        · cases h
          split
          · rfl
          · exact State.addMove_still ..
        · split at h
          · cases h
            rfl
          · cases h

@[simp] theorem State.returnTo_still (s : State) (b p f : Nat) (c : MoveCause) : (s.returnTo b p f c).still = s.still :=
  State.addMove_still ..

@[simp] theorem State.retryMove_still (s : State) (b p : Nat) : (s.retryMove b p).still = s.still := by
  unfold State.retryMove
  dsimp only
  split
  · rfl
  · split
    · split
      · simp
      · next h => exact State.supply_still h
      · rfl
    · simp

@[simp] theorem State.tryReturn_still (s : State) (b p : Nat) : (s.tryReturn b p).1.still = s.still := by
  unfold State.tryReturn
  dsimp only
  split
  · split
    · simp
    · next h => simp [State.supply_still h]
    · simp
  · rfl

@[simp] theorem State.touch_still (s : State) (b p : Nat) : (s.touch b p).still = s.still := State.updPage_still ..

@[simp] theorem State.prepPage_still (s : State) (b p : Nat) : (s.prepPage b p).1.still = s.still := by
  unfold State.prepPage
  dsimp only
  split
  · rfl
  · split
    · split
      · rfl
      · split
        · rfl
        · split
          · split
            · next h => simp [State.takeMap_still h]
            · simp
          · next h => simp [State.supply_still h]
          · rfl
    · split
      · split
        · split
          · next h => simp [State.takeMap_still h]
          · simp
        · next h => simp [State.supply_still h]
        · rfl
      · exact State.tryReturn_still ..

@[simp] theorem State.prepPages_still (s : State) (b : Nat) (ps : List Nat) : (s.prepPages b ps).1.still = s.still := by
  induction ps generalizing s with
  | nil => rfl
  | cons p ps ih =>
    have one := s.prepPage_still b p
    unfold State.prepPages
    split
    · next h =>
        rw [h] at one
        exact (ih _).trans one
    · exact one

/-! ### Rings, logs and buffers -/

theorem takeFrames_still {b n : Nat} {s t : State} {l : List Nat} (h : takeFrames b n s l = .waits t) : t.still = s.still := by
  induction n generalizing s l with
  | zero => cases h
  | succ n ih =>
    unfold takeFrames at h
    split at h
    · exact (ih h).trans (State.updBasin_still fun _ => rfl)
    · next hs =>
        cases h
        exact State.supply_still hs
    · cases h

@[simp] theorem State.setDepth_still (s : State) (b j d : Nat) : (s.setDepth b j d).still = s.still := by
  unfold State.setDepth
  dsimp only
  split
  · simp
  · split
    · simp
    · next h =>
        have took := (takeFrames_still h).trans (State.updQueue_still ..)
        exact (State.updQueue_still ..).trans (State.updBasin_still_of took fun _ => rfl)
    · simp

@[simp] theorem State.retryDepths_still (s : State) (b : Nat) : (s.retryDepths b).still = s.still := by
  unfold State.retryDepths
  refine foldl_still _ (fun t e => ?_) _ _
  split
  · simp
  · rfl

@[simp] theorem State.drainGroup_still (s : State) (n : Nat) : (s.drainGroup n).still = s.still := by
  unfold State.drainGroup
  dsimp only
  split
  · rfl
  · refine (foldl_still _ (fun t p => ?_) _ _).trans rfl
    unfold State.pausePrio
    dsimp only
    split
    · rfl
    · split
      · split
        · rfl
        · rfl
      · split
        · rfl
        · rfl

@[simp] theorem State.startPushes_still (s : State) (b : Nat) : (s.startPushes b).still = s.still := by
  unfold State.startPushes
  refine foldl_still _ (fun t p => ?_) _ _
  dsimp only
  split
  · split
    · rfl
    · exact State.updBasin_still fun _ => rfl
  · split
    · exact State.updBasin_still_of (State.addMove_still ..) fun _ => rfl
    · rfl

@[simp] theorem State.rawMove_still (s : State) (f : Nat) (c : MoveCause) : (s.rawMove f c).still = s.still := by
  unfold State.rawMove State.addRaw
  split
  · split
    · rfl
    · exact State.updBasin_still_of (State.tier_still ..) fun _ => rfl
  · rfl

@[simp] theorem State.drain_still (s : State) (n : Nat) : (s.drain n).still = s.still := by
  unfold State.drain
  dsimp only
  rw [foldl_still, foldl_still]
  · exact fun t f => t.rawMove_still f _
  · refine fun t e => foldl_still _ (fun t q => ?_) _ _
    split
    · rfl
    · split
      · rfl
      · split
        · simp
        · split
          · split
            · rfl
            · simp
          · rfl

@[simp] theorem State.fenceMoves_still (s : State) (f : Nat) : (s.fenceMoves f).still = s.still := by
  unfold State.fenceMoves
  rw [foldl_still, State.rawMove_still]
  refine fun t e => foldl_still _ (fun t q => ?_) _ _
  dsimp only
  split
  · rfl
  · split
    · split
      · simp
      · rfl
    · split
      · split
        · simp
        · rfl
      · rfl

end Sys2Proof.Machine

/-! What reads of memory leave of the device (09 R265, R266, R271, R287; 16 R448). -/

namespace Sys2Proof.Machine

/-! ### Reports and counts -/

/-- A change of the reliability engine's registers. -/
theorem State.rel_still (s : State) (x : Rel) : State.still { s with rel := x } = s.still := rfl

@[simp] theorem State.addCharge_still (s : State) (kind index : Nat) : (s.addCharge kind index).still = s.still := State.rel_still ..

@[simp] theorem State.notify_pf0_still (s : State) (v : Nat) : (s.notify .pf0 v).still = s.still := by
  unfold State.notify
  dsimp only
  split
  · rfl
  · rfl

@[simp] theorem State.report_still (s : State) (r : Report) : (s.report r).still = s.still := by
  unfold State.report
  dsimp only
  split
  · split
    · rfl
    · rfl
  · unfold State.postReport
    split
    · exact State.notify_pf0_still ..
    · rfl

@[simp] theorem State.countIo_still (s : State) (b : Nat) (w : Bool) (o : Option Nat) (blks : List Nat) :
    (s.countIo b w o blks).still = s.still := by
  unfold State.countIo
  refine foldl_still _ (fun t j => ?_) _ _
  dsimp only
  split
  · split
    · split
      · simp only [State.count_still]
      · simp only [State.count_still]
    · simp only [State.count_still]
  · split
    · simp only [State.count_still]
    · rfl

@[simp] theorem State.countOpen_still (s : State) (b ba n : Nat) : (s.countOpen b ba n).still = s.still := by
  have rest : ∀ (s : State) (f : Option Nat) (k : Nat),
      (match f with | some f => s.count .memp (stackOf f) 1 k | none => s).still = s.still := by
    intro s f k
    cases f with
    | none => rfl
    | some f => exact State.count_still ..
  unfold State.countOpen
  refine foldl_still _ (fun t j => ?_) _ _
  dsimp only
  split
  · rfl
  · split
    · split
      · exact (rest ..).trans (State.countIo_still ..)
      · exact rest ..
    · split
      · exact State.countIo_still ..
      · exact rest ..

@[simp] theorem State.resolveBias_still (s : State) (b p : Nat) (w : Bool) : (s.resolveBias b p w).still = s.still := by
  unfold State.resolveBias
  split
  · rfl
  · rfl

/-! ### Errors of stacks -/

@[simp] theorem State.requestRetrain_still (s : State) (n : Nat) : (s.requestRetrain n).still = s.still := by
  unfold State.requestRetrain
  dsimp only
  split
  · rfl
  · split
    · rfl
    · exact State.updPort_still fun _ => rfl

@[simp] theorem State.crcRetries_still (s : State) (n k : Nat) : (s.crcRetries n k).still = s.still := by
  have counted : ∀ f : Stack → Stack, (∀ p, (f p).reqs = p.reqs) → ((s.updPort n f).count .memp n 5 k).still = s.still :=
    fun f hf => (State.count_still ..).trans (State.updPort_still hf)
  unfold State.crcRetries
  dsimp only
  split
  · rfl
  · split
    · exact (State.requestRetrain_still ..).trans (counted _ fun _ => rfl)
    · exact counted _ fun _ => rfl

@[simp] theorem State.fenceFrame_still (s : State) (f : Nat) : (s.fenceFrame f).still = s.still := by
  unfold State.fenceFrame
  dsimp only
  split
  · rfl
  · rw [State.report_still, State.fenceMoves_still, State.rel_still]
    exact State.updPort_still fun _ => rfl

@[simp] theorem State.chargeFrame_still (s : State) (b : Option Nat) (f i detail : Nat) : (s.chargeFrame b f i detail).still = s.still := by
  have charged : ∀ r, ((((s.updPort (stackOf f) fun p => { p with uncorr := satAdd 16 p.uncorr 1 }).count .memp (stackOf f) 7 1).addCharge
      4 f).report r).still = s.still := by
    intro r
    rw [State.report_still, State.addCharge_still, State.count_still]
    exact State.updPort_still fun _ => rfl
  unfold State.chargeFrame
  dsimp only
  split
  · exact (State.fenceFrame_still ..).trans (charged _)
  · exact charged _

@[simp] theorem State.uncorrectable_still (s : State) (b blk : Nat) : (s.uncorrectable b blk).still = s.still := by
  have marked : (s.updBasin b fun v => { v with memPoison := SMap.set false v.memPoison blk true }).still = s.still :=
    State.updBasin_still fun _ => rfl
  unfold State.uncorrectable
  dsimp only
  split
  · exact marked
  · exact (State.chargeFrame_still ..).trans marked

/-- What a read does at the stack of one of its blocks. -/
theorem State.atBlock_still {s : State} {b : Nat} {o : Option Nat} {f : State → Nat → Nat → State}
    (hf : ∀ n j, (f s n j).still = s.still) :
    (match o with
      | some j => (match (s.basin b).blockFrame j with | some fr => f s (stackOf fr) j | none => s)
      | none => s).still = s.still := by
  split
  · split
    · exact hf ..
    · rfl
  · rfl

@[simp] theorem State.readErrors_still (s : State) (b : Nat) (blks : List Nat) (e : ReadEnv) :
    (s.readErrors b blks e).still = s.still := by
  unfold State.readErrors
  dsimp only
  rw [foldl_still, foldl_still, foldl_still]
  · exact fun t i => State.atBlock_still (f := fun s n _ => (s.updPort n fun p => { p with corr := satAdd 16 p.corr 1 }).count .memp n 6 1)
      fun n j => (State.count_still ..).trans (State.updPort_still fun _ => rfl)
  · exact fun t i => State.atBlock_still (f := fun s _ j => s.uncorrectable b j) fun n j => t.uncorrectable_still b j
  · exact fun t x => State.atBlock_still (f := fun s n _ => s.crcRetries n (min 2 x.2)) fun n j => t.crcRetries_still n _

/-! ### Reads by engines -/

@[simp] theorem State.askPages_still (s : State) (b : Nat) (blks : List Nat) (w : Bool) : (s.askPages b blks w).1.still = s.still := by
  unfold State.askPages
  dsimp only
  refine List.foldlRecOn (motive := fun p : State × Bool => p.1.still = s.still) _ _ rfl fun p hp a _ => ?_
  split
  · exact hp
  · split
    · exact hp
    · exact (State.updPage_still ..).trans hp

@[simp] theorem State.readReady_still (s : State) (b : Nat) (parts : List (Nat × Nat)) : (s.readReady b parts).1.still = s.still := by
  unfold State.readReady
  dsimp only
  rw [State.askPages_still, foldl_still]
  simp

@[simp] theorem State.useAnswers_still (s : State) (b : Nat) (blks : List Nat) : (s.useAnswers b blks).still = s.still := by
  unfold State.useAnswers
  refine foldl_still _ (fun t p => ?_) _ _
  split
  · simp
  · rfl

@[simp] theorem State.readMet_still (s : State) (b : Nat) (blks : List Nat) (e : ReadEnv) : (s.readMet b blks e).1.still = s.still := by
  unfold State.readMet
  dsimp only
  rw [State.countIo_still, State.readErrors_still, foldl_still]
  simp

end Sys2Proof.Machine

/-! What the effects of a sluice leave of the place at which a basin's run stands (02 R46, R49; 06 R184, R195; 12 R355). -/

namespace Sys2Proof.Machine

namespace State.Quiets

variable {s t u : State} {b : Nat}

/-- The tier engine's work is quiet. -/
theorem still (h : s.Quiets t) (e : u.still = t.still) : s.Quiets u := h.trans (.of_still e)

theorem updQueue {j : Nat} {f : TpQueue → TpQueue} (h : s.Quiets t) : s.Quiets (t.updQueue b j f) := h.updSame fun _ => rfl

theorem updPage {p : Nat} {f : Page → Page} (h : s.Quiets t) : s.Quiets (t.updPage b p f) := h.updSame fun _ => rfl

theorem count {g : CntGroup} {n i k : Nat} (h : s.Quiets t) : s.Quiets (t.count g n i k) := h.still (State.count_still ..)

theorem updGroup {n : Nat} {f : EthGroup → EthGroup} (h : s.Quiets t) : s.Quiets (t.updGroup n f) := h.same rfl

theorem updQp {n : Nat} {f : Qp → Qp} (h : s.Quiets t) : s.Quiets (t.updQp n f) := h.same rfl

theorem emit {m : Msg} (h : s.Quiets t) : s.Quiets (t.emit m) := h.same rfl

/-! ### The tier engine -/

theorem growLog {n : Nat} (h : s.Quiets t) : s.Quiets (growLog b n t) := by
  induction n generalizing t with
  | zero => exact h
  | succ n ih =>
    unfold Machine.growLog
    split
    · exact h
    · split
      · exact ih (h.updSame fun _ => rfl)
      · next e => exact h.still (State.supply_still e)
      · exact h.markEvent.haltBasin

theorem advanceTier (h : s.Quiets t) : s.Quiets t.advanceTier := by
  unfold State.advanceTier
  refine .foldl (.foldl (.foldl (.foldl (.foldl (.foldl (.foldl h ?retry) ?depths) ?logs) ?groups) ?pushes) ?drains) ?fences
  case retry => exact fun _ e h => h.foldl fun _ q h => h.still (State.retryMove_still ..)
  case depths => exact fun _ e h => h.still (State.retryDepths_still ..)
  case logs => exact fun _ e h => h.growLog
  case groups => exact fun _ n h => h.still (State.drainGroup_still ..)
  case pushes => exact fun _ e h => h.still (State.startPushes_still ..)
  case drains =>
    intro t n h
    split
    · exact h.still (State.drain_still ..)
    · exact h
  case fences => exact fun _ n h => h.foldl fun _ f h => h.still (State.fenceMoves_still ..)

theorem commitAll (h : s.Quiets t) : s.Quiets (t.commitAll b) := by
  unfold State.commitAll
  refine .advanceTier (.foldl (h.updSame fun _ => rfl) fun t e h => ?_)
  dsimp only
  split
  · split
    · exact h.updPage.count
    · exact h.still (State.addMove_still ..)
  · exact h

/-! ### The end of an interval -/

theorem tpNotify {j : Nat} (h : s.Quiets t) : s.Quiets (t.tpNotify b j) := by
  unfold State.tpNotify
  split
  · exact h
  · exact h.notify

theorem levelCheck {j : Nat} (h : s.Quiets t) : s.Quiets (t.levelCheck b j) := by
  unfold State.levelCheck
  dsimp only
  split
  · exact h
  · split
    · split
      · exact h
      · exact h.updQueue.tpNotify
    · exact h.updQueue

theorem releaseHeld (h : s.Quiets t) : s.Quiets (t.releaseHeld b) := by
  unfold State.releaseHeld
  refine .foldl (h.updSame fun _ => rfl) fun t j h => ?_
  split
  · exact h.levelCheck
  · exact h

theorem endInterval (h : s.Quiets t) : s.Quiets (t.endInterval b) := by
  unfold State.endInterval
  dsimp only
  split
  · exact h
  · exact h.foldl fun t q h => h.updQp

theorem settleAdders (h : s.Quiets t) : s.Quiets (t.settleAdders b) :=
  .foldl (h.same rfl) fun _ _ h => h.report

/-! ### Collectives -/

theorem sendOne {g qpn : Nat} (h : s.Quiets t) : s.Quiets (t.sendOne g qpn) := by
  unfold State.sendOne
  dsimp only
  split
  · exact h
  · split
    · exact h.updQp.updGroup.count.count.updGroup.emit
    · exact h.updQp.updGroup.count.count.emit

theorem flushAll (h : s.Quiets t) : s.Quiets t.flushAll := by
  have serve : ∀ (n : Nat) {t : State}, s.Quiets t → s.Quiets (serveGo n t) := by
    intro n
    induction n with
    | zero => exact fun h => h
    | succ n ih =>
      intro t h
      unfold serveGo
      split
      · exact h
      · exact ih h.sendOne
  exact serve _ h

theorem sendPayload {qpn : Nat} {bs : List (Byte × Bool)} (h : s.Quiets t) : s.Quiets (t.sendPayload b qpn bs) := by
  unfold State.sendPayload
  dsimp only
  split
  · exact h
  · split
    · split
      · exact h.updQp.updQp
      · exact h.updQp.updQp.markEvent.haltBasin
    · exact h.updQp.updQp.flushAll

theorem sendMessage {qpn : Nat} {bs : List (Byte × Bool)} (h : s.Quiets t) : s.Quiets (t.sendMessage b qpn bs) :=
  h.foldl fun _ _ h => h.sendPayload

theorem collRead {ba n : Nat} (h : s.Quiets t) : s.Quiets (t.collRead b ba n).1 := by
  have ready := h.still (t.readReady_still b [(ba, n)])
  unfold State.collRead
  split
  · next e =>
      rw [e] at ready
      exact ready
  · next u e =>
      rw [e] at ready
      exact .still (.same (ready.still (State.useAnswers_still ..)) rfl) (State.readMet_still ..)

theorem collOwn {ba n : Nat} {need : Bool} (h : s.Quiets t) : s.Quiets (t.collOwn b ba n need).1 := by
  unfold State.collOwn
  split
  · exact h.collRead
  · exact h

theorem channelFails {c : Coll} {n : Nat} (h : s.Quiets t) : s.Quiets (t.channelFails b c n) := by
  have charged : s.Quiets ((List.range n).foldl (fun s _ => s.charge 9 (s.qset (t.basin b).desc.qset).home 0x0D c.entry 0 0 (some b)) t) :=
    h.foldl fun _ _ h => h.charge
  unfold State.channelFails
  dsimp only
  split
  · exact charged.same rfl
  · exact charged

theorem collGo {e n : Nat} (h : s.Quiets t) : s.Quiets (collGo b e n t) := by
  induction n generalizing t with
  | zero => exact h
  | succ n ih =>
    have own : ∀ {ba k : Nat} {need : Bool} {u : State} {o : Option (List (Byte × Bool))},
        t.collOwn b ba k need = (u, o) → s.Quiets u := by
      intro ba k need u o ho
      have g := h.collOwn (b := b) (ba := ba) (n := k) (need := need)
      rw [ho] at g
      exact g
    unfold Machine.collGo
    dsimp only
    split
    · next c r _ _ =>
      generalize (if c.layer.isSome then 32 else 0) = trailer
      split
      · exact h
      · split
        · split
          · next ho => exact own ho
          · next ho => exact ih (.sendMessage ((own ho).updSame fun _ => rfl))
        · split
          · split
            · exact h
            · split
              · next ho => exact own ho
              · next ho =>
                  refine ih (.channelFails (.updSame ?_ fun _ => rfl))
                  split
                  · exact (own ho).same rfl
                  · exact own ho
          · exact h
    · exact h

theorem runColls (h : s.Quiets t) : s.Quiets (t.runColls b) := by
  unfold State.runColls
  refine h.foldl fun t c h => ?_
  split
  · split
    · exact h
    · exact h.collGo
  · exact h

theorem trigger {o : Bool} {n : Nat} (h : s.Quiets t) : s.Quiets (t.trigger b o n) := by
  unfold State.trigger
  refine h.foldl fun t e h => ?_
  unfold State.startColl
  dsimp only
  split
  · exact .runColls (h.updSame fun _ => rfl)
  · exact h

/-! ### Offload -/

theorem startOffload {n : Nat} (h : s.Quiets t) : s.Quiets (t.startOffload b n) := by
  unfold State.startOffload
  refine .still ?_ (State.startPushes_still ..)
  exact h.updSame fun _ => rfl

theorem stopPush {p : Nat} (h : s.Quiets t) : s.Quiets (t.stopPush b p) := by
  unfold State.stopPush
  dsimp only
  split
  · exact .advanceTier (.updPage (.updSame (h.same rfl) fun _ => rfl))
  · exact .updSame (h.same rfl) fun _ => rfl

theorem startPrefetch {n : Nat} (h : s.Quiets t) : s.Quiets (t.startPrefetch b n) := by
  unfold State.startPrefetch
  refine h.foldl fun t p h => ?_
  have guarded := (h.stopPush (b := b) (p := p)).updPage (b := b) (p := p) (f := fun g => if g = {} then g else { g with guarded := true })
  dsimp only
  split
  · split
    · exact guarded.still (State.returnTo_still ..)
    · next e => exact (guarded.still (State.supply_still e)).updPage
    · exact guarded.updPage
  · exact guarded

/-! ### Closing and checkpoint sluices -/

theorem closeStep (h : s.Quiets t) : s.Quiets (t.closeStep b) := by
  unfold State.closeStep
  dsimp only
  split
  · exact .updSame (.same h.updCores rfl) fun _ => rfl
  · exact .updSame (h.same rfl) fun _ => rfl

theorem atCheckpoint (h : s.Quiets t) : s.Quiets (t.atCheckpoint b) := by
  unfold State.atCheckpoint
  dsimp only
  split
  · exact h.applyFences
  · split
    · exact h.startTest
    · split
      · exact h.stopCores.enterParked
      · exact h

end State.Quiets
end Sys2Proof.Machine

/-! The completion of a sluice (02 R46, R51; 04 R117; 07 R216, R230 to R232; log 48, 70, 85). -/

namespace Sys2Proof.Machine

/-! ### Times -/

theorem up16_spec (t : Nat) : up16 t % 16 = 0 ∧ t ≤ up16 t ∧ up16 t < t + 16 := by
  unfold up16 ceilDiv
  omega

/-! ### Streams and flags after a sluice -/

theorem Stream.pass_wait {t : Stream} {n : Nat} {ck fe : Bool} {flg : Nat} (h : t.wait = .sluice n ck fe flg) : t.pass.wait = .none := by
  unfold Stream.pass
  rw [h]
  exact Stream.retire_wait ..

theorem Stream.pass_pass (t : Stream) : t.pass.pass = t.pass := by
  cases h : t.wait with
  | sluice n ck fe flg => rw [Stream.pass, Stream.pass_wait h]
  | _ => simp only [Stream.pass, h]

theorem Core.pass_pass (k : Core) : k.pass.pass = k.pass := by simp only [Core.pass, Stream.pass_pass]

/-- The flags that a stream's sluice names. -/
def Stream.sluiceMask (t : Stream) : BitVec 32 := t.sluiceFlag 0

theorem Stream.sluiceFlag_eq (t : Stream) (flags : BitVec 32) : t.sluiceFlag flags = flags ||| t.sluiceMask := by
  unfold Stream.sluiceMask Stream.sluiceFlag
  split
  · simp [setBit]
  · simp

theorem Core.sluiceFlags_eq (k : Core) (flags : BitVec 32) : k.sluiceFlags flags = flags ||| (k.a.sluiceMask ||| k.x.sluiceMask) := by
  rw [Core.sluiceFlags, Stream.sluiceFlag_eq, Stream.sluiceFlag_eq, BitVec.or_assoc]

theorem Core.sluiceFlags_sluiceFlags (k : Core) (flags : BitVec 32) : k.sluiceFlags (k.sluiceFlags flags) = k.sluiceFlags flags := by
  rw [Core.sluiceFlags_eq, Core.sluiceFlags_eq, BitVec.or_assoc, BitVec.or_self]

theorem Core.sluiceFlags_bit {k : Core} {st : Strm} {n flg : Nat} {ck : Bool} (h : (k.stream st).wait = .sluice n ck true flg)
    (hf : flg < 32) (flags : BitVec 32) : (k.sluiceFlags flags).getLsbD flg = true := by
  have own : (k.stream st).sluiceMask.getLsbD flg = true := by
    rw [Stream.sluiceMask, Stream.sluiceFlag, h]
    simp [setBit_getLsbD, hf]
  rw [Core.sluiceFlags_eq, BitVec.getLsbD_or, BitVec.getLsbD_or]
  cases st with
  | a => simp [show k.a.sluiceMask.getLsbD flg = true from own]
  | x => simp [show k.x.sluiceMask.getLsbD flg = true from own]

/-! ### Cores that an update does not name -/

theorem State.core_updCores_of_not_mem {s : State} {cs : List Nat} {f : Nat → Core → Core} {c : Nat} (h : c ∉ cs) :
    (s.updCores cs f).core c = s.core c := by
  refine List.foldlRecOn (motive := fun t : State => t.core c = s.core c) cs _ rfl fun t ht a ha => ?_
  have other : a ≠ c := fun e => h (e ▸ ha)
  rw [State.core_updCore, if_neg other, ht]

theorem State.liveCores_updCores {s : State} {cs : List Nat} {f : Nat → Core → Core} (hf : ∀ c k, (f c k).fenced = k.fenced) (b : Nat) :
    (s.updCores cs f).liveCores b = s.liveCores b := by
  have fenced : ∀ c, ((s.updCores cs f).core c).fenced = (s.core c).fenced := by
    intro c
    refine List.foldlRecOn (motive := fun t : State => (t.core c).fenced = (s.core c).fenced) cs _ rfl fun t ht a _ => ?_
    rw [State.core_updCore]
    split
    · next e => subst e; exact (hf ..).trans ht
    · exact ht
  simp only [State.liveCores, State.basin_updCores, fenced]

/-! ### The stages of a completed sluice -/

/-- A device whose basin has passed a sluice: the streams go on, and the next segment is entered. -/
def State.passed (s : State) (b : Nat) (g : SegRec) (q : Sluice) : State :=
  (s.updCores (s.liveCores b) fun _ k => k.pass).updBasin b fun v =>
    ({ v with sluice := none, sluices := v.sluices + 1 }.clearRan q.n).enterSegment g.next (v.desc.nextStart q.tLast)

/-- What ends a step at its closing sluice (06 R195). -/
def State.closed (s : State) (b : Nat) (q : Sluice) : State :=
  if (s.basin b).closes q.n then ((s.count .basin b 1 1).closeStep b).updBasin b Basin.endGuard else s.count .basin b 1 1

theorem State.closed_quiets (s : State) (b : Nat) (q : Sluice) : s.Quiets (s.closed b q) := by
  unfold State.closed
  split
  · exact (State.Quiets.refl s).count.closeStep.updSame fun _ => rfl
  · exact (State.Quiets.refl s).count

/-- The point at which a basin's run stands after a sluice (07 R232; 02 R46, R51). -/
structure Basin.AfterSluice (v : Basin) (g : SegRec) (q : Sluice) (w : Basin) : Prop where
  sluice : w.sluice = none
  seg : w.seg = { cur := g.next, start := v.desc.nextStart q.tLast, start1 := v.desc.nextStart q.tLast }
  ckpt : q.ck = true → w.ckptSeq = (v.ckptSeq + 1) % 2 ^ 32 ∧ w.restarts = 0

theorem Basin.AfterSluice.quiets {v w w' : Basin} {g : SegRec} {q : Sluice} (h : v.AfterSluice g q w) (k : w.Quiets w') :
    v.AfterSluice g q w' where
  sluice := k.sluice h.sluice
  seg := k.seg.trans h.seg
  ckpt hq := ⟨k.ckptSeq.trans (h.ckpt hq).1, k.restarts.trans (h.ckpt hq).2⟩

/-- A checkpoint counts itself and ends the count of restarts; the rest of its work is quiet (02 R46, R51). -/
theorem State.checkpoint_quiets (s : State) (b n next : Nat) : ∃ w : Basin, w.Quiets ((s.checkpoint b n next).basin b) ∧
    w.sluice = (s.basin b).sluice ∧ w.seg = (s.basin b).seg ∧ w.ckptSeq = ((s.basin b).ckptSeq + 1) % 2 ^ 32 ∧ w.restarts = 0 := by
  unfold State.checkpoint
  dsimp only
  refine ⟨_, (State.Quiets.refl _).commitAll.releaseHeld.endInterval.settleAdders.count.basin b, ?_⟩
  rw [State.basin_updBasin_self, State.basin_updCores]
  exact ⟨rfl, rfl, rfl, rfl⟩

theorem State.passed_liveCores (s : State) (b : Nat) (g : SegRec) (q : Sluice) : (s.passed b g q).liveCores b = s.liveCores b := by
  have cores : ∀ c, (s.passed b g q).core c = (s.updCores (s.liveCores b) fun _ k => k.pass).core c := fun _ => rfl
  have desc : ((s.passed b g q).basin b).desc = ((s.updCores (s.liveCores b) fun _ k => k.pass).basin b).desc := by
    rw [State.passed, State.basin_updBasin_self]
    generalize (s.updCores (s.liveCores b) fun _ k => k.pass).basin b = v
    rfl
  refine Eq.trans ?_ (State.liveCores_updCores (s := s) (cs := s.liveCores b) (f := fun _ k => k.pass) (fun _ _ => rfl) b)
  simp only [State.liveCores] at cores desc ⊢
  simp only [cores, desc]

theorem State.passed_basin (s : State) (b : Nat) (g : SegRec) (q : Sluice) :
    ((s.passed b g q).basin b).sluice = none ∧ ((s.passed b g q).basin b).seg =
      { cur := g.next, start := (s.basin b).desc.nextStart q.tLast, start1 := (s.basin b).desc.nextStart q.tLast } ∧
    ((s.passed b g q).basin b).ckptSeq = (s.basin b).ckptSeq := by
  rw [State.passed, State.basin_updBasin_self, State.basin_updCores]
  exact ⟨rfl, rfl, rfl⟩

theorem State.passed_phase (s : State) (b : Nat) (g : SegRec) (q : Sluice) :
    ((s.passed b g q).basin b).phase = (s.basin b).phase := by
  rw [State.passed, State.basin_updBasin_self, State.basin_updCores]
  rfl

theorem State.passed_basin_of_ne {s : State} {b b' : Nat} {g : SegRec} {q : Sluice} (h : b' ≠ b) :
    (s.passed b g q).basin b' = s.basin b' := by
  rw [State.passed, State.basin_updBasin, if_neg h.symm, State.basin_updCores]

theorem State.passed_core {s : State} {b c : Nat} {g : SegRec} {q : Sluice} (h : c ∈ s.liveCores b) :
    (s.passed b g q).core c = (s.core c).pass := State.core_updCores_of_idem (f := fun _ k => k.pass) Core.pass_pass h

theorem State.passed_core_of_not_mem {s : State} {b c : Nat} {g : SegRec} {q : Sluice} (h : c ∉ s.liveCores b) :
    (s.passed b g q).core c = s.core c := State.core_updCores_of_not_mem h

theorem State.SameData.passed {s t : State} {b : Nat} {g : SegRec} {q : Sluice} (h : s.SameData t) : s.SameData (t.passed b g q) :=
  .updBasin (h.updCores fun _ _ => rfl) fun _ => rfl

/-- What follows a checkpoint, or takes its place, once the sluice is passed (04 R117). -/
def State.afterCheckpoint (s u : State) (b : Nat) (q : Sluice) : State :=
  (((u.updCores (u.liveCores b) fun c k => { k with flags := (s.core c).sluiceFlags k.flags }).trigger b true q.n).startOffload b
    q.n).startPrefetch b q.n

theorem State.afterCheckpoint_quiets (s u : State) (b : Nat) (q : Sluice) : u.Quiets (s.afterCheckpoint u b q) :=
  (State.Quiets.refl u).updCores.trigger.startOffload.startPrefetch

theorem State.completeSluice_of_ck {s : State} {b : Nat} {g : SegRec} {q : Sluice} (h : q.ck = true) : s.completeSluice b g q =
    (s.afterCheckpoint (((s.closed b q).passed b g q).checkpoint b q.n g.next) b q).atCheckpoint b := by
  unfold State.completeSluice
  simp only [if_pos h]
  rfl

theorem State.completeSluice_of_not_ck {s : State} {b : Nat} {g : SegRec} {q : Sluice} (h : ¬ q.ck = true) :
    s.completeSluice b g q = s.afterCheckpoint ((s.closed b q).passed b g q) b q := by
  unfold State.completeSluice
  simp only [if_neg h]
  rfl

theorem State.completeSluice_after (s : State) (b : Nat) (g : SegRec) (q : Sluice) :
    (s.basin b).AfterSluice g q ((s.completeSluice b g q).basin b) := by
  have closed := (s.closed_quiets b q).basin b
  obtain ⟨sluice, seg, seq⟩ := (s.closed b q).passed_basin b g q
  rw [closed.desc] at seg
  rw [closed.ckptSeq] at seq
  by_cases ck : q.ck = true
  · rw [State.completeSluice_of_ck ck]
    obtain ⟨w, quiet, sluice', seg', seq', restarts⟩ := ((s.closed b q).passed b g q).checkpoint_quiets b q.n g.next
    have after : (s.basin b).AfterSluice g q w :=
      ⟨sluice'.trans sluice, seg'.trans seg, fun _ => ⟨by rw [seq', seq], restarts⟩⟩
    exact after.quiets (quiet.trans ((s.afterCheckpoint_quiets _ b q).atCheckpoint.basin b))
  · rw [State.completeSluice_of_not_ck ck]
    have after : (s.basin b).AfterSluice g q (((s.closed b q).passed b g q).basin b) := ⟨sluice, seg, fun h => absurd h ck⟩
    exact after.quiets ((s.afterCheckpoint_quiets _ b q).basin b)

/-! ### A sluice that nothing joins -/

theorem State.afterCheckpoint_of_alone {s u : State} {b : Nat} (q : Sluice) (hc : (u.basin b).collTable = [])
    (hb : (u.basin b).blocks = []) (hp : (u.basin b).pushing = []) : s.afterCheckpoint u b q =
      (u.updCores (u.liveCores b) fun c k => { k with flags := (s.core c).sluiceFlags k.flags }).updBasin b fun v => v := by
  obtain ⟨w, hw⟩ : ∃ w, w = u.updCores (u.liveCores b) fun c k => { k with flags := (s.core c).sluiceFlags k.flags } := ⟨_, rfl⟩
  have basin : w.basin b = u.basin b := by rw [hw, State.basin_updCores]
  have none : ∀ v : Basin, v.blocks = [] → v.offloaded = [] := by
    intro v h
    unfold Basin.offloaded
    rw [h]
    split
    · rfl
    · rfl
  have colls : w.trigger b true q.n = w := by
    rw [State.trigger, Basin.triggered, basin, hc]
    rfl
  have pushes : w.startOffload b q.n = w.updBasin b fun v => v := by
    have same : (w.updBasin b fun v => v).basin b = u.basin b := by rw [State.basin_updBasin_self, basin]
    rw [State.startOffload, basin, none _ hb]
    simp only [List.filter_nil, List.flatMap_nil, List.append_nil]
    rw [State.startPushes, same, hp]
    rfl
  have pulls : (w.updBasin b fun v => v).startPrefetch b q.n = w.updBasin b fun v => v := by
    rw [State.startPrefetch, State.basin_updBasin_self, basin, none _ hb]
    rfl
  rw [State.afterCheckpoint, ← hw, colls, pushes, pulls]

/-- Where nothing joins a sluice, its completion passes it, with its flags, and does no more. -/
theorem State.completeSluice_of_alone {s : State} {b : Nat} {g : SegRec} {q : Sluice} (hl : (s.basin b).validLayers = [])
    (hck : ¬ q.ck = true) (hc : (s.basin b).collTable = []) (hb : (s.basin b).blocks = []) (hp : (s.basin b).pushing = []) :
    s.completeSluice b g q = (((s.count .basin b 1 1).passed b g q).updCores (s.liveCores b)
      fun c k => { k with flags := (s.core c).sluiceFlags k.flags }).updBasin b fun v => v := by
  have open_ : (s.basin b).closes q.n = false := by simp [Basin.closes, hl]
  have closed : s.closed b q = s.count .basin b 1 1 := by
    rw [State.closed, open_]
    rfl
  have basin : ((s.count .basin b 1 1).passed b g q).basin b = (({ s.basin b with
      sluice := none, sluices := (s.basin b).sluices + 1 } : Basin).clearRan q.n).enterSegment g.next
        ((s.basin b).desc.nextStart q.tLast) := by
    rw [State.passed, State.basin_updBasin_self, State.basin_updCores]
    rfl
  have live : ((s.count .basin b 1 1).passed b g q).liveCores b = s.liveCores b := State.passed_liveCores ..
  rw [State.completeSluice_of_not_ck hck, closed, State.afterCheckpoint_of_alone q, live]
  · rw [basin]; exact hc
  · rw [basin]; exact hb
  · rw [basin]; exact hp

/-- What a sluice that nothing joins leaves, and what it does to the streams that wait at it (04 R117; 07 R230). -/
theorem completeSluice_frame {s t : State} {b : Nat} {g : SegRec} {q : Sluice}
    (h : t = (((s.count .basin b 1 1).passed b g q).updCores (s.liveCores b)
      fun c k => { k with flags := (s.core c).sluiceFlags k.flags }).updBasin b fun v => v) (hrun : (s.basin b).phase = .running) :
    (t.basin b).phase = .running ∧ (∀ b', b' ≠ b → t.basin b' = s.basin b') ∧ s.sameBytes t ∧
      (∀ c, c ∉ s.liveCores b → t.core c = s.core c) ∧
      ∀ c ∈ s.liveCores b, ∀ st n ck fe flg, ((s.core c).stream st).wait = .sluice n ck fe flg →
        ((t.core c).stream st).wait = .none ∧ (fe = true → flg < 32 → (t.core c).flags.getLsbD flg = true) := by
  have phase := (s.count .basin b 1 1).passed_phase b g q
  have others : ∀ b', b' ≠ b → ((s.count .basin b 1 1).passed b g q).basin b' = s.basin b' := fun _ h => State.passed_basin_of_ne h
  have core : ∀ c ∈ s.liveCores b, ((s.count .basin b 1 1).passed b g q).core c = (s.core c).pass := fun _ h => State.passed_core h
  have rest : ∀ c, c ∉ s.liveCores b → ((s.count .basin b 1 1).passed b g q).core c = s.core c :=
    fun _ h => State.passed_core_of_not_mem h
  have data : s.SameData ((s.count .basin b 1 1).passed b g q) :=
    .passed (.same (.refl s) rfl)
  generalize (s.count .basin b 1 1).passed b g q = p at h phase others core rest data
  have flagged : ∀ c ∈ s.liveCores b, t.core c = { (s.core c).pass with flags := (s.core c).sluiceFlags (s.core c).flags } := by
    intro c hc
    have run : t.core c = (p.updCores (s.liveCores b) fun c k => { k with flags := (s.core c).sluiceFlags k.flags }).core c := h ▸ rfl
    rw [run, State.core_updCores_of_idem (fun k => by simp only [Core.sluiceFlags_sluiceFlags]) hc, core c hc]
    rfl
  refine ⟨?_, fun b' hb => ?_, ?_, fun c hc => ?_, fun c hc st n ck fe flg hw => ?_⟩
  · rw [h, State.basin_updBasin_self, State.basin_updCores, phase]
    exact hrun
  · rw [h, State.basin_updBasin, if_neg hb.symm, State.basin_updCores, others b' hb]
  · rw [h]
    refine State.SameData.sameBytes (.updBasin (data.updCores fun _ _ => ?_) fun _ => ?_)
    · rfl
    · rfl
  · rw [h]
    exact (State.core_updCores_of_not_mem hc).trans (rest c hc)
  · rw [flagged c hc]
    refine ⟨?_, fun hfe hf => ?_⟩
    · cases st with
      | a => exact Stream.pass_wait hw
      | x => exact Stream.pass_wait hw
    · subst hfe
      exact Core.sluiceFlags_bit hw hf _

theorem sluice_completes (s : State) (b : Nat) (q : Sluice) (g : SegRec) (hq : (s.basin b).sluice = some q)
    (hg : (s.basin b).segRec = some g) (hrun : (s.basin b).phase = .running) (hdone : s.sluiceDone b q = true)
    (hpass : (s.basin b).closes q.n = true → s.passActive b = false) :
    ∃ t, exec (.sluiceComplete b) s = .next t ∧ (t.basin b).sluice = none ∧
      (t.basin b).seg.cur = g.next ∧ (t.basin b).seg.started = false ∧
      (t.basin b).seg.start % 16 = 0 ∧ q.tLast + (s.basin b).desc.sluiceBound - 4 ≤ (t.basin b).seg.start ∧
      (t.basin b).seg.start < q.tLast + (s.basin b).desc.sluiceBound - 4 + 16 ∧
      (q.ck = true → (t.basin b).ckptSeq = ((s.basin b).ckptSeq + 1) % 2 ^ 32 ∧ (t.basin b).restarts = 0) ∧
      ((s.basin b).validLayers = [] → q.ck = false → (s.basin b).collTable = [] → (s.basin b).blocks = [] →
        (s.basin b).pushing = [] →
        (t.basin b).phase = .running ∧ (∀ b', b' ≠ b → t.basin b' = s.basin b') ∧ s.sameBytes t ∧
        (∀ c, c ∉ s.liveCores b → t.core c = s.core c) ∧
        ∀ c ∈ s.liveCores b, ∀ st n ck fe flg, ((s.core c).stream st).wait = .sluice n ck fe flg →
          ((t.core c).stream st).wait = .none ∧ (fe = true → flg < 32 → (t.core c).flags.getLsbD flg = true)) := by
  have free : (!((s.basin b).closes q.n && s.passActive b)) = true := by
    cases hc : (s.basin b).closes q.n with
    | true => simp [hpass hc]
    | false => rfl
  have run : exec (.sluiceComplete b) s = .next (s.completeSluice b g q) := by
    show execSluiceComplete b s = _
    simp only [execSluiceComplete, hq, hg]
    exact congrArg Host.Outcome.next (if_pos ⟨hrun, hdone, free⟩)
  obtain ⟨sluice, seg, ckpt⟩ := s.completeSluice_after b g q
  obtain ⟨aligned, after, soon⟩ := up16_spec (q.tLast + (s.basin b).desc.sluiceBound - 4)
  refine ⟨_, run, sluice, ?_, ?_, ?_, ?_, ?_, ckpt, fun hl hck hc hb hp => ?_⟩
  · rw [seg]
  · rw [seg]
  · rw [seg]
    exact aligned
  · rw [seg]
    exact after
  · rw [seg]
    exact soon
  · exact completeSluice_frame (State.completeSluice_of_alone hl (by simp [hck]) hc hb hp) hrun

/-! ### Segments and overtime -/

/-- When a segment whose start is named starts (07 R232; log 48). -/
theorem late_start (t start : Nat) :
    (t ≤ start → (if t ≤ start then start else up16 t) = start) ∧
    (start < t → (if t ≤ start then start else up16 t) % 16 = 0 ∧ t ≤ (if t ≤ start then start else up16 t) ∧
      (if t ≤ start then start else up16 t) < t + 16) := by
  refine ⟨fun h => if_pos h, fun h => ?_⟩
  rw [if_neg (Nat.not_le.2 h)]
  exact up16_spec t

theorem segment_starts (s : State) (b : Nat) (hrun : (s.basin b).phase = .running) (htest : (s.basin b).testPause = false)
    (hnot : (s.basin b).seg.started = false) (hseg : (s.basin b).segRec.isSome = true) :
    ∃ t, exec (.segmentStart b) s = .next t ∧ (t.basin b).seg.started = true ∧ (t.basin b).seg.cur = (s.basin b).seg.cur ∧
      (s.time0 ≤ (s.basin b).seg.start → (t.basin b).seg.start = (s.basin b).seg.start) ∧
      ((s.basin b).seg.start < s.time0 → (t.basin b).seg.start % 16 = 0 ∧ s.time0 ≤ (t.basin b).seg.start ∧
        (t.basin b).seg.start < s.time0 + 16) ∧
      (s.time1 ≤ (s.basin b).seg.start1 → (t.basin b).seg.start1 = (s.basin b).seg.start1) ∧
      ((s.basin b).seg.start1 < s.time1 → (t.basin b).seg.start1 % 16 = 0 ∧ s.time1 ≤ (t.basin b).seg.start1 ∧
        (t.basin b).seg.start1 < s.time1 + 16) ∧
      (∀ b', b' ≠ b → t.basin b' = s.basin b') ∧ t.cores = s.cores := by
  have starts : (s.basin b).phase = .running ∧ (!(s.basin b).testPause) = true ∧ (!(s.basin b).seg.started) = true ∧
      (s.basin b).segRec.isSome = true := ⟨hrun, by simp [htest], by simp [hnot], hseg⟩
  obtain ⟨intime0, late0⟩ := late_start s.time0 (s.basin b).seg.start
  obtain ⟨intime1, late1⟩ := late_start s.time1 (s.basin b).seg.start1
  refine ⟨_, congrArg Host.Outcome.next (if_pos starts), ?_, ?_, ?_, ?_, ?_, ?_, fun b' hb => ?_, rfl⟩
  · rw [State.basin_updBasin_self]
  · rw [State.basin_updBasin_self]
  · rw [State.basin_updBasin_self]
    exact intime0
  · rw [State.basin_updBasin_self]
    exact late0
  · rw [State.basin_updBasin_self]
    exact intime1
  · rw [State.basin_updBasin_self]
    exact late1
  · rw [State.basin_updBasin, if_neg hb.symm]

theorem overtime_starts (s : State) (b : Nat) (g : SegRec) (hg : (s.basin b).segRec = some g) (hfree : (s.basin b).phase ≠ .free)
    (hstarted : (s.basin b).seg.started = true) (hover : (s.basin b).seg.overtime = false)
    (htime : (s.basin b).segStart + g.nframes * g.frame ≤ s.basinTime b) (howe : s.owing b ≠ []) :
    ∃ t, exec (.overtimeStart b) s = .next t ∧ (t.basin b).seg = { (s.basin b).seg with overtime := true } ∧
      (∀ b', b' ≠ b → t.basin b' = s.basin b') ∧ t.cores = s.cores := by
  have run : exec (.overtimeStart b) s = .next (s.updBasin b fun v => { v with seg := { v.seg with overtime := true } }) := by
    show execOvertimeStart b s = _
    simp only [execOvertimeStart, hg]
    exact congrArg Host.Outcome.next (if_pos ⟨hfree, hstarted, by simp [hover], htime, howe⟩)
  refine ⟨_, run, ?_, fun b' hb => ?_, rfl⟩
  · rw [State.basin_updBasin_self]
  · rw [State.basin_updBasin, if_neg hb.symm]

/-- Settles O19: a completed sluice passes, and what joins it is quiet; late segments start at the next multiple of 16. -/
theorem sluicesComplete : Obligations.SluicesComplete := ⟨sluice_completes, segment_starts, overtime_starts⟩

end Sys2Proof.Machine

/-! Units and their requests (07 R210, R219, R220; 08 R243). -/

namespace Sys2Proof.Machine

/-! ### Requests at a unit -/

@[simp] theorem State.unitReqs_setReqs (s : State) (u : Nat) (l : List PortReq) : (s.setReqs u l).unitReqs u = l := by
  unfold State.unitReqs State.setReqs
  split
  · rfl
  · rw [State.port_updPort_self]

theorem State.unitReqs_updReq (s : State) (u : Nat) (r : PortReq) (f : PortReq → PortReq) :
    (s.updReq u r f).unitReqs u = (s.unitReqs u).map fun q => if q = r then f q else q := State.unitReqs_setReqs ..

theorem State.dropReqs_same {s : State} {u : Nat} {r q : PortReq} (h : q ∈ (s.dropReqs u r).unitReqs u) : q.same r = false := by
  rw [State.dropReqs, State.unitReqs_setReqs] at h
  simpa using (List.mem_filter.1 h).2

theorem PortReq.same_self (r : PortReq) : r.same r = true := by simp [PortReq.same]

/-- The requests of a unit are changed, and the device but for its ports stays. -/
theorem State.setReqs_eq (s : State) (u : Nat) (l : List PortReq) :
    s.setReqs u l = { s with stageReqs := (s.setReqs u l).stageReqs, ports := (s.setReqs u l).ports } := by
  unfold State.setReqs
  split
  · rfl
  · rfl

/-! ### What cores and memories hold -/

/-- The cores of a device, and the bytes of its memories. -/
def State.coresMem (s : State) : SMap Core × (Nat → SMap Byte) := (s.cores, fun b => (s.basin b).mem)

theorem State.cores_of_coresMem {s t : State} (h : t.coresMem = s.coresMem) : t.cores = s.cores := congrArg Prod.fst h

theorem State.memByte_of_coresMem {s t : State} (h : t.coresMem = s.coresMem) (b a : Nat) : t.memByte b a = s.memByte b a :=
  (congrArg (fun p : SMap Core × (Nat → SMap Byte) => SMap.get 0 (p.2 b) a) h :)

theorem State.coresMem_of_still {s t : State} (h : t.still = s.still) : t.coresMem = s.coresMem :=
  (congrArg (fun x : Still => (x.cores, fun b => (x.basins b).mem)) h :)

@[simp] theorem State.count_coresMem (s : State) (g : CntGroup) (n i k : Nat) : (s.count g n i k).coresMem = s.coresMem := rfl

@[simp] theorem foldl_coresMem {α : Type} (f : State → α → State) (h : ∀ s a, (f s a).coresMem = s.coresMem) (l : List α) (s : State) :
    (l.foldl f s).coresMem = s.coresMem :=
  List.foldlRecOn (motive := fun t => t.coresMem = s.coresMem) l f rfl fun t ht a _ => (h t a).trans ht

@[simp] theorem State.setReqs_coresMem (s : State) (u : Nat) (l : List PortReq) : (s.setReqs u l).coresMem = s.coresMem := by
  rw [State.setReqs_eq]
  rfl

@[simp] theorem State.sendReturn_coresMem (s : State) (u : Nat) (f : Flit) : (s.sendReturn u f).coresMem = s.coresMem := by
  unfold State.sendReturn
  dsimp only
  split
  · rfl
  · rfl

theorem State.updBasin_coresMem {s : State} {b : Nat} {f : Basin → Basin} (h : ∀ v, (f v).mem = v.mem) :
    (s.updBasin b f).coresMem = s.coresMem := by
  have mem : (fun c => ((s.updBasin b f).basin c).mem) = fun c => (s.basin c).mem := by
    funext c
    rw [State.basin_updBasin]
    split
    · next e => rw [h, e]
    · rfl
  simp only [State.coresMem, mem]
  rfl

@[simp] theorem State.updQueue_coresMem (s : State) (b j : Nat) (f : TpQueue → TpQueue) : (s.updQueue b j f).coresMem = s.coresMem :=
  State.updBasin_coresMem fun _ => rfl

@[simp] theorem State.tpNotify_coresMem (s : State) (b j : Nat) : (s.tpNotify b j).coresMem = s.coresMem := by
  unfold State.tpNotify
  split
  · rfl
  · unfold State.notify
    dsimp only
    split
    · exact State.updBasin_coresMem (f := fun x => { x with msix := _ }) fun _ => rfl
    · rfl

@[simp] theorem State.levelCheck_coresMem (s : State) (b j : Nat) : (s.levelCheck b j).coresMem = s.coresMem := by
  unfold State.levelCheck
  dsimp only
  split
  · rfl
  · split
    · split
      · rfl
      · simp
    · simp

/-! ### Counts change the counters alone -/

/-- A device but for its counters. -/
def State.countless (s : State) : State := { s with pmc := {} }

@[simp] theorem State.count_countless (s : State) (g : CntGroup) (n i k : Nat) : (s.count g n i k).countless = s.countless := rfl

@[simp] theorem foldl_countless {α : Type} (f : State → α → State) (h : ∀ s a, (f s a).countless = s.countless) (l : List α) (s : State) :
    (l.foldl f s).countless = s.countless :=
  List.foldlRecOn (motive := fun t => t.countless = s.countless) l f rfl fun t ht a _ => (h t a).trans ht

@[simp] theorem State.countIo_countless (s : State) (b : Nat) (w : Bool) (o : Option Nat) (blks : List Nat) :
    (s.countIo b w o blks).countless = s.countless := by
  unfold State.countIo
  refine foldl_countless _ (fun t j => ?_) _ _
  dsimp only
  split
  · split
    · split
      · simp only [State.count_countless]
      · simp only [State.count_countless]
    · simp only [State.count_countless]
  · split
    · simp only [State.count_countless]
    · rfl

@[simp] theorem State.countResumes_countless (s : State) (rs : List PortReq) (n : Nat) : (s.countResumes rs n).countless = s.countless := by
  unfold State.countResumes
  exact foldl_countless _ (fun _ _ => State.count_countless ..) _ _

theorem State.still_of_countless {s t : State} (h : t.countless = s.countless) : t.still = s.still := (congrArg State.still h :)

/-! ### The merge buffer -/

@[simp] theorem State.readTiles_still (s : State) (u b : Nat) (g : Barge) : (s.readTiles u b g).still = s.still := State.count_still ..

@[simp] theorem State.holdTile_still (s : State) (u : Nat) (t : MergeTile) : (s.holdTile u t).still = s.still := by
  refine State.updPort_still fun p => ?_
  split
  · rfl
  · split
    · rfl
    · rfl

@[simp] theorem State.mergeFirst_still (s : State) (u : Nat) (r : PortReq) (g : Barge) : (s.mergeFirst u r g).still = s.still := by
  unfold State.mergeFirst
  split
  · dsimp only
    rw [foldl_still, State.readTiles_still]
    intro t a
    split
    · rfl
    · simp
  · rfl

/-! ### Requests are taken -/

/-- A request that is taken joins those of its transfer. -/
theorem length_asked_take {l : List PortReq} {r : PortReq} (hn : l.Nodup) (hr : r ∈ l) (ht : r.taken = false) :
    ((l.map fun q => if q = r then { q with taken := true } else q).filter fun q => q.taken && q.same r).length =
      (l.filter fun q => q.taken && q.same r).length + 1 := by
  have others : ∀ {l : List PortReq}, r ∉ l → (l.map fun q => if q = r then { q with taken := true } else q) = l := by
    intro l h
    refine (List.map_congr_left fun q hq => if_neg ?_).trans (List.map_id l)
    exact fun e => h (e ▸ hq)
  induction l with
  | nil => cases hr
  | cons q l ih =>
    obtain ⟨hq, hl⟩ := List.nodup_cons.1 hn
    by_cases e : q = r
    · subst e
      have own : ({ q with taken := true } : PortReq).same q = true := q.same_self
      rw [List.map_cons, others hq, if_pos rfl]
      simp [ht, own]
    · have rest := ih hl ((List.mem_cons.1 hr).resolve_left (Ne.symm e))
      rw [List.map_cons, if_neg e, List.filter_cons, List.filter_cons]
      split
      · simp only [List.length_cons, rest]
      · exact rest

end Sys2Proof.Machine

/-! Requests, held tiles and returns of a unit (07 R219, R220; 11 R337). -/

namespace Sys2Proof.Machine

/-! ### A unit takes its next request -/

/-- Whether a port need not wait for a place in its merge buffer, nor for the last member of a merged read. -/
def State.takesNow (s : State) (u : Nat) (r : PortReq) : Prop :=
  r.write = true ∨ u = 12 ∨ (s.basin r.basin).membersOf r.lane = 1 ∨
    (s.unitReqs u).Nodup ∧ u < 12 ∧ (s.asked u r).length + 1 < (s.basin r.basin).membersOf r.lane ∧
      (s.asked u r = [] → (s.port u).mergeFull = false)

theorem State.not_mergeWaits {s : State} {u : Nat} {r : PortReq} (h : s.takesNow u r) :
    ¬ (!r.write && decide (u < 12) && decide (1 < (s.basin r.basin).membersOf r.lane) && (s.asked u r).isEmpty &&
      (s.port u).mergeFull) = true := by
  simp only [Bool.and_eq_true, not_and, decide_eq_true_eq, Bool.not_eq_true', List.isEmpty_iff]
  rintro ⟨⟨⟨hw, hu⟩, hn⟩, ha⟩
  rcases h with h | h | h | ⟨-, -, -, h⟩
  · simp [h] at hw
  · omega
  · omega
  · simp [h ha]

/-- What a unit does with the request that it takes: its pages start to return, and a first read fills the merge buffer. -/
theorem mempRequest_takes (s : State) (u : Nat) (r : PortReq) (g : Barge) (hc : s.power.clocksStopped = false)
    (hr : (s.unitReqs u).find? (fun q => !q.taken && !s.power.clocksStopped) = some r) (hg : s.barge r.core r.barge = some g)
    (h : s.takesNow u r) :
    ∃ t, exec (.mempRequest u) s = .next t ∧
      t.unitReqs u = (s.unitReqs u).map (fun q => if q = r then { q with taken := true } else q) ∧ t.cores = s.cores ∧
      ∀ b a, t.memByte b a = s.memByte b a := by
  obtain ⟨p, hp⟩ : ∃ p, p = s.updReq u r fun q => { q with taken := true } := ⟨_, rfl⟩
  obtain ⟨v, hv⟩ : ∃ v, v = g.pages.foldl (fun s p => (s.tryReturn r.basin p).1.touch r.basin p) p := ⟨_, rfl⟩
  have reqs : p.unitReqs u = (s.unitReqs u).map fun q => if q = r then { q with taken := true } else q := by
    rw [hp, State.unitReqs_updReq]
  have held : p.coresMem = s.coresMem := by rw [hp, State.updReq, State.setReqs_coresMem]
  have barge : p.barge r.core r.barge = some g := by
    have cores := State.cores_of_coresMem held
    rw [← hg, State.barge, State.barge, State.core, State.core, cores]
  have still : v.still = p.still := by
    rw [hv, foldl_still]
    simp
  have left : ∃ t, exec (.mempRequest u) s = .next t ∧ t.still = p.still := by
    refine ⟨_, rfl, ?_⟩
    show State.still (match (s.unitReqs u).find? fun r => !r.taken && !s.power.clocksStopped with | none => _ | some r => _) = _
    rw [hr]
    dsimp only
    rw [if_neg (State.not_mergeWaits h), ← hp, barge]
    dsimp only
    rw [← hv]
    by_cases hw : (r.write || decide (u = 12)) = true
    · rw [if_pos hw]
      exact still
    · rw [if_neg hw]
      by_cases hn : (s.basin r.basin).membersOf r.lane = 1
      · rw [if_pos hn]
        exact (State.readTiles_still ..).trans still
      · have short : (v.asked u r).length < (s.basin r.basin).membersOf r.lane := by
          rcases h with h | h | h | ⟨nodup, -, more, -⟩
          · simp [h] at hw
          · simp [h] at hw
          · exact absurd h hn
          · have taken := length_asked_take nodup (List.mem_of_find?_eq_some hr) (by simpa [hc] using List.find?_some hr)
            rw [State.asked, State.unitReqs_of_still still u, reqs, taken]
            exact more
        rw [if_neg hn, if_neg short.ne]
        split
        · exact (State.mergeFirst_still ..).trans still
        · exact still
  obtain ⟨t, run, same⟩ := left
  have mem := (State.coresMem_of_still same).trans held
  exact ⟨t, run, (State.unitReqs_of_still same u).trans reqs, State.cores_of_coresMem mem, State.memByte_of_coresMem mem⟩

/-! ### Held tiles -/

theorem mergeWindowExpiry_releases (s : State) (n i : Nat) (m : MergeTile) (hm : (s.port n).merge[i]? = some m) (hs : m.sending = false)
    (ht : m.ends ≤ (if n < 6 then s.time0 else s.time1)) :
    ∃ t, exec (.mergeWindowExpiry n i) s = .next t ∧ t.port n = { s.port n with merge := (s.port n).merge.eraseIdx i } ∧
      { t with ports := s.ports } = s ∧ ∀ n', n' ≠ n → t.port n' = s.port n' := by
  have ends : ¬ (m.sending || decide ((if n < 6 then s.time0 else s.time1) < m.ends)) = true := by
    simpa [hs] using ht
  have run : exec (.mergeWindowExpiry n i) s = .next (s.updPort n fun p => { p with merge := p.merge.eraseIdx i }) := by
    show execMergeWindowExpiry n i s = _
    simp only [execMergeWindowExpiry, hm]
    exact congrArg Host.Outcome.next (if_neg ends)
  refine ⟨_, run, State.port_updPort_self .., rfl, fun n' hn => ?_⟩
  rw [State.port_updPort, if_neg hn.symm]

/-! ### Returns -/

/-- A lane with slots of its own at a unit takes the unit's flits there, in order. -/
theorem foldl_sendReturn_ext {u : Nat} {fs : List Flit} {s : State} (h : ∀ f ∈ fs, (s.basin f.basin).hasExt u f.lane = true) :
    fs.foldl (fun s f => s.sendReturn u f) s = { s with extQ := s.extQ ++ fs.map fun f => { key := u, flit := f } } := by
  induction fs generalizing s with
  | nil => simp
  | cons f fs ih =>
    obtain ⟨hf, hfs⟩ := List.forall_mem_cons.1 h
    have one : s.sendReturn u f = { s with extQ := s.extQ ++ [{ key := u, flit := f }] } := by
      unfold State.sendReturn
      exact if_pos hf
    rw [List.foldl_cons, one, ih (s := { s with extQ := s.extQ ++ [{ key := u, flit := f }] }) hfs, List.map_cons]
    simp only [List.append_assoc, List.singleton_append]

theorem dataFlits_of {b l start total : Nat} {bs : List (Byte × Bool)} {f : Flit} (h : f ∈ dataFlits b l start total bs) :
    f.basin = b ∧ f.lane = l := by
  obtain ⟨e, -, rfl⟩ := List.mem_map.1 h
  exact ⟨rfl, rfl⟩

theorem Barge.size_le_flits (g : Barge) : g.size ≤ 128 * g.flits := by
  unfold Barge.flits ceilDiv
  omega

/-- A port that can read a whole return, and may send it, sends all of it. -/
theorem State.portRead_whole {s : State} {u : Nat} {r : PortReq} {g : Barge} (h0 : r.readied = 0)
    (ha : s.readable r.basin g (sliceRows g.memRowsOf 0 g.size) = g.size) (hc : (s.port u).accepts g.size = g.size) :
    ∃ (p : State) (l : List PortReq), p.countless = s.countless ∧ s.portRead u r g {} =
      (((dataFlits r.basin r.lane 0 g.flits ((s.basin r.basin).readParts (sliceRows g.memRowsOf 0 g.size) [])).foldl
        (fun s f => s.sendReturn u f) (p.updPort u fun p => { p with window := p.window + g.size })).setReqs u l).dropReqs u r := by
  have n : min (128 * g.flits) g.size = g.size := Nat.min_eq_right g.size_le_flits
  have none : ∀ blks, s.readErrors r.basin blks {} = s := fun _ => rfl
  unfold State.portRead
  simp only [h0, Nat.mul_zero, Nat.sub_zero, ha, hc, decide_true, Bool.and_self, if_true, n, none]
  generalize hp : State.countIo _ _ _ _ _ = p
  have counted : p.countless = s.countless := by rw [← hp, State.countIo_countless, State.countResumes_countless]
  have basin : (p.updPort u fun p => { p with window := p.window + g.size }).basin r.basin = s.basin r.basin :=
    (congrArg (fun t : State => t.basin r.basin) counted :)
  refine ⟨p, ?reqs, counted, ?sent⟩
  case sent =>
    rw [basin]
    rfl

theorem mempReadData_sends (s : State) (u : Nat) (r : PortReq) (g : Barge) (hu : u < 12) (hc : s.power.clocksStopped = false)
    (hr : s.nextReturn u = some (r, g)) (hx : (s.basin r.basin).hasExt u r.lane = true) (h0 : r.readied = 0)
    (ha : s.readable r.basin g (sliceRows g.memRowsOf 0 g.size) = g.size) (hw : (s.port u).accepts g.size = g.size) :
    ∃ t, exec (.mempReadData u {}) s = .next t ∧
      t.extQ = s.extQ ++ (dataFlits r.basin r.lane 0 g.flits ((s.basin r.basin).readParts (sliceRows g.memRowsOf 0 g.size) [])).map
        (fun f => { key := u, flit := f }) ∧
      (∀ q ∈ (t.port u).reqs, q.same r = false) ∧ t.cores = s.cores ∧ ∀ b a, t.memByte b a = s.memByte b a := by
  have run : exec (.mempReadData u {}) s = .next (s.portRead u r g {}) := by
    show execMempReadData u {} s = _
    simp only [execMempReadData, hr, hc, Bool.false_eq_true, if_false, hu.ne]
  obtain ⟨p, l, counted, sent⟩ := State.portRead_whole h0 ha hw
  obtain ⟨fs, hfs⟩ : ∃ fs, fs = dataFlits r.basin r.lane 0 g.flits
    ((s.basin r.basin).readParts (sliceRows g.memRowsOf 0 g.size) []) := ⟨_, rfl⟩
  have own : ∀ f ∈ fs, ((p.updPort u fun p => { p with window := p.window + g.size }).basin f.basin).hasExt u f.lane = true := by
    intro f hf
    obtain ⟨basin, lane⟩ := dataFlits_of (hfs ▸ hf)
    have same : (p.updPort u fun p => { p with window := p.window + g.size }).basin r.basin = s.basin r.basin :=
      (congrArg (fun t : State => t.basin r.basin) counted :)
    rw [basin, lane, same, hx]
  have queue : p.extQ = s.extQ := (congrArg State.extQ counted :)
  have parts : p.coresMem = s.coresMem := (congrArg State.coresMem counted :)
  rw [← hfs, foldl_sendReturn_ext own] at sent
  have held : (s.portRead u r g {}).coresMem = s.coresMem := by
    rw [sent, State.dropReqs, State.setReqs_coresMem, State.setReqs_coresMem]
    exact parts
  refine ⟨_, run, ?_, fun q hq => ?_, State.cores_of_coresMem held, State.memByte_of_coresMem held⟩
  · rw [sent, State.dropReqs, State.setReqs_eq, State.setReqs_eq, hfs, ← queue]
    rfl
  · have left : ∀ q ∈ (s.portRead u r g {}).unitReqs u, q.same r = false := by
      rw [sent]
      exact fun _ h => State.dropReqs_same h
    rw [State.unitReqs, if_neg hu.ne] at left
    exact left q hq

/-- The towpath stage answers a read from its queue (11 R337). -/
theorem mempReadData_stage (s : State) (r : PortReq) (g : Barge) (env : ReadEnv) (hc : s.power.clocksStopped = false)
    (hr : s.nextReturn 12 = some (r, g)) (hq : g.size / 64 ≤ (s.queue r.basin g.queue).items.length) :
    ∃ t, exec (.mempReadData 12 env) s = .next t ∧ (∀ q ∈ t.stageReqs, q.same r = false) ∧ t.cores = s.cores ∧
      ∀ b a, t.memByte b a = s.memByte b a := by
  have run : exec (.mempReadData 12 env) s = .next (s.stageRead r g) := by
    show execMempReadData 12 env s = _
    simp only [execMempReadData, hr, hc, Bool.false_eq_true, if_false, if_true]
  obtain ⟨p, hp, sent⟩ : ∃ p : State, p.coresMem = s.coresMem ∧ s.stageRead r g = p.dropReqs 12 r := by
    refine ⟨_, ?_, if_neg (Nat.not_lt.2 hq)⟩
    rw [foldl_coresMem _ fun t f => t.sendReturn_coresMem 12 f, State.tpTake, State.levelCheck_coresMem, State.updQueue_coresMem]
  have held : (s.stageRead r g).coresMem = s.coresMem := by rw [sent, State.dropReqs, State.setReqs_coresMem, hp]
  refine ⟨_, run, fun q hq => ?_, State.cores_of_coresMem held, State.memByte_of_coresMem held⟩
  exact State.dropReqs_same (u := 12) (s := p) (sent ▸ hq)

/-! ### Grants of the towpath stage -/

theorem mempWriteGrant_stage (s : State) (env : ReadEnv) (r : PortReq) (g : Barge)
    (hr : s.stageReqs.find? (fun q => q.taken && q.write && !q.granted && !s.power.clocksStopped) = some r)
    (hg : s.barge r.core r.barge = some g) (hq : s.reserved r.basin g.queue + g.size / 64 ≤ (s.queue r.basin (16 + g.queue)).room) :
    ∃ t, exec (.mempWriteGrant ⟨12, env⟩) s = .next t ∧
      t.stageReqs = s.stageReqs.map (fun q => if q = r then { q with granted := true } else q) ∧ t.cores = s.cores ∧ t.basins = s.basins := by
  have run : exec (.mempWriteGrant ⟨12, env⟩) s =
      .next ((s.updReq 12 r fun q => { q with granted := true }).sendReturn 12 (grantFlit r)) := by
    show execMempWriteGrant ⟨12, env⟩ s = _
    have room : s.grantTp r g = (s.updReq 12 r fun q => { q with granted := true }).sendReturn 12 (grantFlit r) :=
      if_neg (Nat.not_lt.2 hq)
    simp only [execMempWriteGrant, State.unitReqs, if_true, hr, hg, room]
  have sent : ∀ t : State, (t.sendReturn 12 (grantFlit r)).stageReqs = t.stageReqs ∧ (t.sendReturn 12 (grantFlit r)).cores = t.cores ∧
      (t.sendReturn 12 (grantFlit r)).basins = t.basins := by
    intro t
    unfold State.sendReturn
    dsimp only
    split
    · exact ⟨rfl, rfl, rfl⟩
    · exact ⟨rfl, rfl, rfl⟩
  obtain ⟨reqs, cores, basins⟩ := sent (s.updReq 12 r fun q => { q with granted := true })
  exact ⟨_, run, reqs, cores, basins⟩

end Sys2Proof.Machine

/-! The grant of a write at a memory port (08 R240, R243; 09 R264; log 49). -/

namespace Sys2Proof.Machine

/-! ### Bytes and barges -/

/-- The bytes of memories and scratchpads, and whether a barge is written. -/
def State.grantView (s : State) (c id : Nat) : (Nat → SMap Byte) × (Nat → SMap Byte) × Option Bool :=
  (fun b => (s.basin b).mem, fun c => (s.core c).sp, (s.barge c id).map Barge.written)

theorem State.grantView_of_coresMem {s t : State} (h : t.coresMem = s.coresMem) (c id : Nat) : t.grantView c id = s.grantView c id :=
  (congrArg (fun p : SMap Core × (Nat → SMap Byte) => (p.2, fun c => (SMap.get {} p.1 c).sp,
    ((SMap.get {} p.1 c).barges.find? fun g => decide (g.id = id)).map Barge.written)) h :)

theorem foldl_grantView {α : Type} {f : State → α → State} {c id : Nat} (h : ∀ s a, (f s a).grantView c id = s.grantView c id)
    (l : List α) (s : State) : (l.foldl f s).grantView c id = s.grantView c id :=
  List.foldlRecOn (motive := fun t : State => t.grantView c id = s.grantView c id) l f rfl fun t ht a _ => (h t a).trans ht

/-- A barge after an update that keeps every barge's number. -/
theorem State.barge_updBarge {s : State} {c i : Nat} {f : Barge → Barge} (hf : ∀ g, (f g).id = g.id) (c' j : Nat) :
    (s.updBarge c i f).barge c' j = if c = c' then (s.barge c j).map fun g => if g.id = i then f g else g else s.barge c' j := by
  unfold State.barge State.updBarge
  rw [State.core_updCore]
  split
  · rw [List.find?_map]
    have same : ((fun g : Barge => decide (g.id = j)) ∘ fun g => if g.id = i then f g else g) = fun g => decide (g.id = j) := by
      funext g
      simp only [Function.comp_apply, apply_ite Barge.id, hf, ite_self]
    rw [same]
  · rfl

theorem State.updBarge_written {s : State} {c : Nat} {g : Barge} {f : Barge → Barge}
    (hf : ∀ g, (f g).id = g.id ∧ (f g).written = true) (hg : s.barge c g.id = some g) :
    ((s.updBarge c g.id f).barge c g.id).map Barge.written = some true := by
  rw [State.barge_updBarge fun g => (hf g).1, if_pos rfl, hg]
  simp [(hf g).2]

theorem State.updBarge_grantView {s : State} {c i : Nat} {f : Barge → Barge} (hf : ∀ g, (f g).id = g.id ∧ (f g).written = g.written)
    (c' j : Nat) : (s.updBarge c i f).grantView c' j = s.grantView c' j := by
  have sp : (fun d => ((s.updBarge c i f).core d).sp) = fun d => (s.core d).sp := by
    funext d
    rw [State.updBarge, State.core_updCore]
    split
    · next e => rw [e]
    · rfl
  have written : ((s.updBarge c i f).barge c' j).map Barge.written = (s.barge c' j).map Barge.written := by
    rw [State.barge_updBarge fun g => (hf g).1]
    split
    · next e =>
        have same : (Barge.written ∘ fun g => if g.id = i then f g else g) = Barge.written := by
          funext g
          simp only [Function.comp_apply, apply_ite Barge.written, (hf g).2, ite_self]
        rw [Option.map_map, same, e]
    · rfl
  simp only [State.grantView, sp, written]
  rfl

theorem State.askBarge_grantView (s : State) (b c : Nat) (g : Barge) (p : Nat) (lines : List Nat) (w : Bool) (c' j : Nat) :
    (s.askBarge b c g p lines w).grantView c' j = s.grantView c' j := by
  have asked : (s.updBarge c g.id fun h => { h with hostAsks := h.hostAsks ++ [p] }).grantView c' j = s.grantView c' j := by
    refine State.updBarge_grantView (fun _ => ?_) c' j
    exact ⟨rfl, rfl⟩
  unfold State.askBarge
  dsimp only
  split
  · rfl
  · split
    · exact asked
    · exact (State.grantView_of_coresMem (State.coresMem_of_still (State.resolveBias_still ..)) c' j).trans asked

/-! ### Writes of memory -/

@[simp] theorem State.clearWriteFails_still (s : State) (b : Nat) (blks : List Nat) : (s.clearWriteFails b blks).still = s.still := by
  unfold State.clearWriteFails
  refine foldl_still _ (fun t j => ?_) _ _
  split
  · split
    · rfl
    · exact State.updPort_still fun _ => rfl
  · rfl

/-- A write of memory stores its bytes, and beside them what the tier engine and the ports note of it. -/
theorem State.writeMem_stores (s : State) (b ba : Nat) (bs : List Byte) (bad : List Nat) :
    ∃ (u : State) (f : Basin → Basin), u.still = s.still ∧ (∀ v, (f v).mem = (v.writeMem ba bs bad).mem) ∧
      s.writeMem b ba bs bad = (u.updBasin b f).dropMerged b ba bs.length := by
  refine ⟨_, _, ?_, fun v => ?_, rfl⟩
  · rw [State.clearWriteFails_still, foldl_still, State.countOpen_still]
    simp
  · dsimp only
    split
    · rfl
    · rfl

theorem State.writeMem_cores (s : State) (b ba : Nat) (bs : List Byte) (bad : List Nat) : (s.writeMem b ba bs bad).cores = s.cores := by
  obtain ⟨u, f, still, -, run⟩ := s.writeMem_stores b ba bs bad
  rw [run, ← State.cores_of_still still]
  rfl

theorem State.writeMem_memByte (s : State) (b ba : Nat) (bs : List Byte) (bad : List Nat) (b' a : Nat) :
    (s.writeMem b ba bs bad).memByte b' a =
      if b = b' then (if h : ba ≤ a ∧ a < ba + bs.length then bs[a - ba]'(by omega) else s.memByte b a) else s.memByte b' a := by
  obtain ⟨u, f, still, mem, run⟩ := s.writeMem_stores b ba bs bad
  have stored : (s.writeMem b ba bs bad).memByte b' a = (u.updBasin b f).memByte b' a := by
    rw [run]
    rfl
  rw [stored, State.memByte, State.basin_updBasin]
  split
  · rw [mem, Basin.writeMem_get, ← State.memByte_of_still still]
    rfl
  · exact State.memByte_of_still still b' a

theorem State.writeBytes_memByte_outside {s : State} {b ba : Nat} {bs : List (Byte × Bool)} {b' a : Nat}
    (h : b = b' → a < ba ∨ ba + bs.length ≤ a) : (s.writeBytes b ba bs).memByte b' a = s.memByte b' a := by
  rw [State.writeBytes, State.writeMem_memByte]
  split
  · next e =>
      subst e
      have out := h rfl
      exact dif_neg (by rw [List.length_map]; omega)
  · rfl

/-- A run of bytes stands in memory after it is written. -/
theorem State.writeBytes_memByte_inside {s : State} {b ba : Nat} {bs : List (Byte × Bool)} {j : Nat} (h : j < bs.length) :
    some ((s.writeBytes b ba bs).memByte b (ba + j)) = (bs[j]?).map (·.1) := by
  rw [State.writeBytes, State.writeMem_memByte, if_pos rfl, dif_pos (by rw [List.length_map]; omega)]
  simp [h]

theorem State.writeRuns_cores (s : State) (b : Nat) (l : List (Nat × List (Byte × Bool))) :
    (l.foldl (fun s r => s.writeBytes b r.1 r.2) s).cores = s.cores :=
  List.foldlRecOn (motive := fun t : State => t.cores = s.cores) l _ rfl fun t ht _ _ => (t.writeMem_cores ..).trans ht

theorem State.writeRuns_memByte {s : State} {b b' a : Nat} {l : List (Nat × List (Byte × Bool))}
    (h : b = b' → ∀ p ∈ l, a < p.1 ∨ p.1 + p.2.length ≤ a) :
    (l.foldl (fun s r => s.writeBytes b r.1 r.2) s).memByte b' a = s.memByte b' a :=
  List.foldlRecOn (motive := fun t : State => t.memByte b' a = s.memByte b' a) l _ rfl fun _ ht p hp =>
    (State.writeBytes_memByte_outside fun e => h e p hp).trans ht

/-! ### The rows of a PUT -/

/-- The next row of a stream of bytes. -/
def takeRow (acc : List (Nat × List (Byte × Bool)) × List (Byte × Bool)) (p : Nat × Nat) :
    List (Nat × List (Byte × Bool)) × List (Byte × Bool) :=
  (acc.1 ++ [(p.1, acc.2.take p.2)], acc.2.drop p.2)

/-- The rows of a PUT's stream, joined where they are contiguous (08 R243). -/
def Barge.runs (g : Barge) (k : Core) : List (Nat × List (Byte × Bool)) :=
  joinRuns (g.memRowsOf.foldl takeRow ([], g.sourceBytes k)).1

/-- An address lies outside runs of bytes. -/
def outside (a : Nat) (l : List (Nat × List (Byte × Bool))) : Prop := ∀ p ∈ l, a < p.1 ∨ p.1 + p.2.length ≤ a

theorem outside_joinRuns {a : Nat} {l : List (Nat × List (Byte × Bool))} (h : outside a l) : outside a (joinRuns l) := by
  induction l with
  | nil => exact h
  | cons x l ih =>
    obtain ⟨hx, hl⟩ := List.forall_mem_cons.1 h
    have rest := ih hl
    unfold joinRuns
    split
    · next c cs more e =>
        rw [e] at rest
        obtain ⟨hc, hm⟩ := List.forall_mem_cons.1 rest
        change a < c ∨ c + cs.length ≤ a at hc
        split
        · refine List.forall_mem_cons.2 ⟨?_, hm⟩
          simp only [List.length_append]
          omega
        · exact List.forall_mem_cons.2 ⟨hx, List.forall_mem_cons.2 ⟨hc, hm⟩⟩
    · exact List.forall_mem_cons.2 ⟨hx, nofun⟩

theorem outside_takeRows {a : Nat} {ps : List (Nat × Nat)} {acc : List (Nat × List (Byte × Bool)) × List (Byte × Bool)}
    (h : ∀ p ∈ ps, a < p.1 ∨ p.1 + p.2 ≤ a) (hacc : outside a acc.1) : outside a (ps.foldl takeRow acc).1 := by
  induction ps generalizing acc with
  | nil => exact hacc
  | cons p ps ih =>
    obtain ⟨hp, hps⟩ := List.forall_mem_cons.1 h
    refine ih hps fun x hx => ?_
    rcases List.mem_append.1 hx with hx | hx
    · exact hacc x hx
    · cases List.mem_singleton.1 hx
      simp only [List.length_take]
      omega

theorem Barge.outside_runs {g : Barge} {a : Nat} (h : ∀ p ∈ g.memRowsOf, a < p.1 ∨ p.1 + p.2 ≤ a) (k : Core) : outside a (g.runs k) :=
  outside_joinRuns (outside_takeRows h nofun)

theorem Barge.runs_single {g : Barge} {k : Core} {ba n : Nat} (h : g.memRowsOf = [(ba, n)]) (hn : (g.sourceBytes k).length = n) :
    g.runs k = [(ba, g.sourceBytes k)] := by
  have all : (g.sourceBytes k).take n = g.sourceBytes k := List.take_of_length_le hn.le
  simp [Barge.runs, h, takeRow, joinRuns, all]

/-! ### The effect of a PUT -/

theorem Basin.inspect_mem (v : Basin) (layer : Option Nat) (fmt : Nat) (bs : List Byte) (p sat : Bool) :
    (v.inspect layer fmt bs p sat).mem = v.mem := by
  cases layer with
  | none => rfl
  | some n => rfl

/-- A PUT's effect: its runs are written, and its barge is marked so (08 R240). -/
theorem State.putEffect_eq (s : State) (b c : Nat) (g : Barge) :
    s.putEffect b c g = ((((g.runs (s.core c)).foldl (fun s r => s.writeBytes b r.1 r.2) s).updBasin b fun v =>
      v.inspect g.grad (opDesc g.desc).fmt ((g.sourceBytes (s.core c)).map (·.1)) ((g.sourceBytes (s.core c)).any (·.2)) false).updBarge c
        g.id fun h => { h with written := true, poisoned := h.poisoned || (g.sourceBytes (s.core c)).any (·.2) }) := rfl

theorem State.putEffect_memByte (s : State) (b c : Nat) (g : Barge) (b' a : Nat) :
    (s.putEffect b c g).memByte b' a = ((g.runs (s.core c)).foldl (fun s r => s.writeBytes b r.1 r.2) s).memByte b' a := by
  rw [State.putEffect_eq]
  exact State.memByte_of_coresMem (State.updBasin_coresMem fun v => v.inspect_mem ..) b' a

theorem State.putEffect_spByte (s : State) (b c : Nat) (g : Barge) (c' a : Nat) : (s.putEffect b c g).spByte c' a = s.spByte c' a := by
  have core : ((g.runs (s.core c)).foldl (fun s r => s.writeBytes b r.1 r.2) s).core c' = s.core c' :=
    (congrArg (fun m : SMap Core => SMap.get {} m c') (s.writeRuns_cores ..) :)
  rw [State.putEffect_eq, State.spByte, State.updBarge, State.core_updCore]
  split
  · next e =>
      subst e
      exact (congrArg (fun k : Core => SMap.get 0 k.sp a) core :)
  · exact (congrArg (fun k : Core => SMap.get 0 k.sp a) core :)

theorem State.putEffect_written {s : State} {c : Nat} {g : Barge} (b : Nat) (hg : s.barge c g.id = some g) :
    ((s.putEffect b c g).barge c g.id).map Barge.written = some true := by
  have core : ((g.runs (s.core c)).foldl (fun s r => s.writeBytes b r.1 r.2) s).core c = s.core c :=
    (congrArg (fun m : SMap Core => SMap.get {} m c) (s.writeRuns_cores ..) :)
  rw [State.putEffect_eq]
  refine State.updBarge_written (fun _ => ?_) ?_
  · exact ⟨rfl, rfl⟩
  · exact (congrArg (fun k : Core => k.barges.find? fun h => decide (h.id = g.id)) core :).trans hg

/-! ### The grant -/

theorem State.barge_id {s : State} {c id : Nat} {g : Barge} (h : s.barge c id = some g) : g.id = id := by
  simpa using List.find?_some h

/-- A write that nothing holds up takes effect, and what follows it leaves its bytes. -/
theorem State.grantMem_view {s s2 : State} {u : Nat} {r : PortReq} {g : Barge} (env : ReadEnv) (hst : (s.port u).stalled = false)
    (hbuf : (s.port u).wbuf + g.size ≤ 0x40000) (hacc : g.size ≤ (s.port u).accepts g.size)
    (hprep : s.prepPages r.basin g.pages = (s2, .ready)) (hblk : s2.writeBlocked u r.basin g = false) (c id : Nat) :
    ∃ p : State, p.still = s.still ∧ (s.grantMem u r g env).grantView c id = (p.putEffect r.basin r.core g).grantView c id := by
  have prepared : s2.still = s.still := by
    have h := s.prepPages_still r.basin g.pages
    rwa [hprep] at h
  have counted : (if g.suspended then s2.countResumes [r] 1 else s2).still = s2.still := by
    split
    · exact State.still_of_countless (State.countResumes_countless ..)
    · rfl
  have free : ¬ (0x40000 < (s.port u).wbuf + g.size ∨ (s.port u).accepts g.size < g.size) := by omega
  unfold State.grantMem
  dsimp only
  rw [if_neg (by simp [hst]), if_neg free, hprep]
  dsimp only
  rw [if_neg (by simp [hblk])]
  generalize (if g.suspended then s2.countResumes [r] 1 else s2) = v at counted
  refine ⟨v.readErrors r.basin (g.memRowsOf.flatMap fun p => partialBlocks p.1 p.2) env, ?_, ?_⟩
  · rw [State.readErrors_still, counted, prepared]
  · generalize (v.readErrors r.basin (g.memRowsOf.flatMap fun p => partialBlocks p.1 p.2) env).putEffect r.basin r.core g = w
    rw [State.grantView_of_coresMem (State.sendReturn_coresMem ..), State.updReq, State.grantView_of_coresMem (State.setReqs_coresMem ..)]
    refine (State.updBarge_grantView (fun _ => ?_) c id).trans ?_
    · exact ⟨rfl, rfl⟩
    · rw [foldl_grantView fun t p => t.askBarge_grantView ..]
      exact State.grantView_of_coresMem (State.coresMem_of_still (State.countIo_still ..)) c id

theorem mempWriteGrant_memory (s s2 : State) (u : Nat) (env : ReadEnv) (r : PortReq) (g : Barge) (hu : u < 12)
    (hr : (s.unitReqs u).find? (fun q => q.taken && q.write && !q.granted && !s.power.clocksStopped) = some r)
    (hg : s.barge r.core r.barge = some g) (hst : (s.port u).stalled = false) (hbuf : (s.port u).wbuf + g.size ≤ 0x40000)
    (hacc : g.size ≤ (s.port u).accepts g.size) (hprep : s.prepPages r.basin g.pages = (s2, .ready))
    (hblk : s2.writeBlocked u r.basin g = false) :
    ∃ t, exec (.mempWriteGrant ⟨u, env⟩) s = .next t ∧
      (∀ a, (∀ p ∈ g.memRowsOf, a < p.1 ∨ p.1 + p.2 ≤ a) → t.memByte r.basin a = s.memByte r.basin a) ∧
      (∀ ba n, g.memRowsOf = [(ba, n)] → (g.sourceBytes (s.core r.core)).length = n →
        ∀ j, j < n → some (t.memByte r.basin (ba + j)) = ((g.sourceBytes (s.core r.core))[j]?).map (·.1)) ∧
      (∀ b a, b ≠ r.basin → t.memByte b a = s.memByte b a) ∧ (∀ c a, t.spByte c a = s.spByte c a) ∧
      (t.barge r.core r.barge).map Barge.written = some true := by
  have run : exec (.mempWriteGrant ⟨u, env⟩) s = .next (s.grantMem u r g env) := by
    show execMempWriteGrant ⟨u, env⟩ s = _
    simp only [execMempWriteGrant, hr, hg, hu.ne, if_false]
  obtain ⟨p, still, view⟩ := State.grantMem_view env hst hbuf hacc hprep hblk r.core r.barge
  simp only [State.grantView, Prod.mk.injEq] at view
  obtain ⟨mem, sp, written⟩ := view
  have core : p.core r.core = s.core r.core := State.core_of_still still r.core
  have memByte : ∀ b a, (s.grantMem u r g env).memByte b a = ((g.runs (s.core r.core)).foldl
      (fun s r' => s.writeBytes r.basin r'.1 r'.2) p).memByte b a := by
    intro b a
    rw [← core, ← State.putEffect_memByte]
    exact congrArg (fun m => SMap.get 0 m a) (congrFun mem b)
  refine ⟨_, run, fun a ha => ?_, fun ba n hrow hn j hj => ?_, fun b a hb => ?_, fun c a => ?_, ?_⟩
  · rw [memByte, State.writeRuns_memByte fun _ => Barge.outside_runs ha _]
    exact State.memByte_of_still still ..
  · rw [memByte, Barge.runs_single hrow hn]
    exact State.writeBytes_memByte_inside (hn ▸ hj)
  · rw [memByte, State.writeRuns_memByte fun e => absurd e.symm hb]
    exact State.memByte_of_still still ..
  · calc (s.grantMem u r g env).spByte c a = (p.putEffect r.basin r.core g).spByte c a :=
          congrArg (fun m => SMap.get 0 m a) (congrFun sp c)
      _ = p.spByte c a := State.putEffect_spByte ..
      _ = s.spByte c a := by rw [State.spByte, State.core_of_still still]; rfl
  · rw [written, ← State.barge_id hg]
    refine State.putEffect_written r.basin ?_
    rw [State.barge, core, ← hg, ← State.barge_id hg]
    rfl

/-- Settles O23: each clause is a lemma of its unit; what a port does beside the bytes leaves `State.still` or `State.coresMem`. -/
theorem memoryPorts : Obligations.MemoryPorts :=
  ⟨mempRequest_takes, mergeWindowExpiry_releases, mempReadData_sends, mempReadData_stage,
    fun s s2 u env r g hu _ => mempWriteGrant_memory s s2 u env r g hu, fun s env r g _ => mempWriteGrant_stage s env r g⟩

end Sys2Proof.Machine

/-! Power-on reset (00 R13). -/

namespace Sys2Proof.Machine

/-- Settles O57: every field of the reset state is its default, and the limits of the power state hold of the defaults. -/
theorem resetValues : Obligations.ResetValues := by
  have legal : State.reset.powerLegal := by
    simp [State.powerLegal, State.reset]
  exact ⟨rfl, fun _ => ⟨rfl, rfl⟩, fun _ => rfl, rfl, rfl, rfl, rfl, rfl, rfl, rfl, rfl, rfl, rfl, rfl, rfl, rfl, rfl, rfl, rfl, rfl,
    rfl, rfl, rfl, rfl, rfl, rfl, rfl, rfl, legal⟩

end Sys2Proof.Machine

/-! HBM stacks: re-sends, retraining, failure, draining and retirement (09 R265, R271 to R273, R289). -/

namespace Sys2Proof.Machine

/-! ### Ports -/

theorem State.port_updPort_of_ne {s : State} {n n' : Nat} {f : Stack → Stack} (h : n' ≠ n) : (s.updPort n f).port n' = s.port n' := by
  rw [State.port_updPort, if_neg h.symm]

/-- A stack whose retraining has begun (09 R271). -/
def Stack.retrain (p : Stack) : Stack :=
  { p with st := .retraining, before := p.st, retrains := satAdd 16 p.retrains 1, crcTimes := [] }

/-- A stack after `k` re-reads or re-sends at time `now` (09 R265). -/
def Stack.resent (p : Stack) (now k : Nat) : Stack :=
  { p with crcRetry := satAdd 16 p.crcRetry k
           crcTimes := (p.crcTimes.filter fun t => decide (now < t + 1000)) ++ List.replicate k now }

/-- A stack with `k` failures of a written block on record (09 R265). -/
def Stack.writeFailed (p : Stack) (block k : Nat) : Stack := { p with wfail := SMap.set 0 p.wfail block k }

/-- A stack on which TIER_STACK_CTRL has started something (09 R289). -/
def Stack.startHere (p : Stack) : Stack := { p with busyHere := true }

/-- The state after TIER_STACK_CTRL has started something on stack `n` (09 R289). -/
def State.startCtrl (s : State) (n : Nat) : State :=
  { s with tier := { s.tier with ctrlStack := n % 16, ctrlResult := 0, ctrlBusy := true } }

/-- A port after an update that keeps its state. -/
theorem State.st_updPort {s : State} {n : Nat} {f : Stack → Stack} (hf : ∀ p, (f p).st = p.st) (m : Nat) :
    ((s.updPort n f).port m).st = (s.port m).st := by
  rw [State.port_updPort]
  split
  · next e => rw [hf, e]
  · rfl

/-! ### Retraining and re-sends -/

/-- A stack can begin a retraining at once: none waits and none runs on its die (09 R271). -/
structure State.CanRetrain (s : State) (n : Nat) : Prop where
  here : (s.port n).gone = false
  idle : (s.port n).st ≠ .retraining
  noWait : s.tier.retrainWait = []
  dieIdle : ∀ i, i < 6 → (s.port (n / 6 * 6 + i)).st ≠ .retraining

/-- Only the states of the stacks and the list of those that wait tell whether a retraining can begin. -/
theorem State.CanRetrain.of_same {s u : State} {n : Nat} (h : s.CanRetrain n) (hst : ∀ m, (u.port m).st = (s.port m).st)
    (hwait : u.tier.retrainWait = s.tier.retrainWait) : u.CanRetrain n where
  here := by rw [Stack.gone, hst]; exact h.here
  idle := hst n ▸ h.idle
  noWait := hwait.trans h.noWait
  dieIdle i hi := hst _ ▸ h.dieIdle i hi

theorem State.requestRetrain_begins {s : State} {n : Nat} (h : s.CanRetrain n) : s.requestRetrain n = s.updPort n Stack.retrain := by
  have none : ((List.range 6).any fun i => decide ((s.port (n / 6 * 6 + i)).st = .retraining)) = false := by
    simpa using h.dieIdle
  have free : ¬ ((s.port n).st = .retraining ∨ (s.port n).gone = true ∨ s.tier.retrainWait.contains n = true) := by
    simp [h.idle, h.here, h.noWait]
  unfold State.requestRetrain
  dsimp only
  rw [if_neg free, none]
  rfl

/-- What a retraining that begins after an update of its port leaves of the ports. -/
theorem State.requestRetrain_updPort {s : State} {n : Nat} {f : Stack → Stack} (h : s.CanRetrain n) (hf : ∀ p, (f p).st = p.st) :
    ((s.updPort n f).requestRetrain n).port n = (f (s.port n)).retrain ∧
      (∀ m, m ≠ n → ((s.updPort n f).requestRetrain n).port m = s.port m) ∧
      ((s.updPort n f).requestRetrain n).tier = s.tier ∧ ((s.updPort n f).requestRetrain n).basins = s.basins := by
  rw [State.requestRetrain_begins (h.of_same (State.st_updPort hf) rfl)]
  refine ⟨?_, fun m hm => ?_, rfl, rfl⟩
  · rw [State.port_updPort_self, State.port_updPort_self]
  · rw [State.port_updPort_of_ne hm, State.port_updPort_of_ne hm]

/-- Re-sends that stay within 64 in a millisecond start no retraining. -/
theorem State.crcRetries_of_few {s : State} {n k : Nat}
    (h : ((s.port n).crcTimes.filter fun t => decide (s.usec < t + 1000)).length + k ≤ 64) :
    s.crcRetries n k = if k = 0 then s else (s.updPort n fun p => p.resent s.usec k).count .memp n 5 k := by
  unfold State.crcRetries
  split
  · rfl
  · refine if_neg ?_
    simp only [State.port_count, State.port_updPort_self, List.length_append, List.length_replicate]
    omega

/-- What such re-sends leave: all but counts and the port's own record of them. -/
theorem State.crcRetries_leaves {s : State} {n k : Nat}
    (h : ((s.port n).crcTimes.filter fun t => decide (s.usec < t + 1000)).length + k ≤ 64) :
    ((s.crcRetries n k).port n).st = (s.port n).st ∧ ((s.crcRetries n k).port n).busyHere = (s.port n).busyHere ∧
      ((s.crcRetries n k).port n).wfail = (s.port n).wfail ∧ (∀ m, m ≠ n → (s.crcRetries n k).port m = s.port m) ∧
      (s.crcRetries n k).basins = s.basins := by
  rw [State.crcRetries_of_few h]
  split
  · exact ⟨rfl, rfl, rfl, fun _ _ => rfl, rfl⟩
  · simp only [State.port_count, State.port_updPort_self]
    exact ⟨rfl, rfl, rfl, fun _ hm => State.port_updPort_of_ne hm, rfl⟩

/-- HBM_WRITE_CRC_FAIL on a stack that is there and does not retrain, for a block that has failed twice at most. -/
theorem exec_hbmWriteCrcFail {s : State} {n block : Nat} (hn : n < 12) (hb : stackOf (block / 32768) = n)
    (hgone : (s.port n).gone = false) (hst : (s.port n).st ≠ .retraining) (hk : SMap.get 0 (s.port n).wfail block ≤ 2) :
    exec (.hbmWriteCrcFail ⟨n, block⟩) s = .next (if SMap.get 0 (s.port n).wfail block < 2 then
      (s.updPort n fun p => p.writeFailed block (SMap.get 0 (s.port n).wfail block + 1)).crcRetries n 1
    else (s.updPort n fun p => p.writeFailed block 3).requestRetrain n) := by
  have not12 : ¬ 12 ≤ n := by omega
  have not3 : SMap.get 0 (s.port n).wfail block ≠ 3 := by omega
  have not4 : SMap.get 0 (s.port n).wfail block ≠ 4 := by omega
  show execHbmWriteCrcFail ⟨n, block⟩ s = _
  simp only [execHbmWriteCrcFail, hb, hgone, hst, not12, not3, not4, ne_eq, not_true_eq_false, Bool.false_eq_true, or_self, if_false]
  rfl

theorem hbmWriteCrcFail_resends (s : State) (n block : Nat) (hn : n < 12) (hb : stackOf (block / 32768) = n)
    (hgone : (s.port n).gone = false) (hst : (s.port n).st ≠ .retraining) (hk : SMap.get 0 (s.port n).wfail block < 2)
    (hfew : ((s.port n).crcTimes.filter fun t => decide (s.usec < t + 1000)).length < 64) :
    ∃ t, exec (.hbmWriteCrcFail ⟨n, block⟩) s = .next t ∧
      SMap.get 0 (t.port n).wfail block = SMap.get 0 (s.port n).wfail block + 1 ∧
      (t.port n).crcRetry = min (2 ^ 16 - 1) ((s.port n).crcRetry + 1) ∧ (t.port n).st = (s.port n).st ∧
      (∀ n', n' ≠ n → t.port n' = s.port n') ∧ t.basins = s.basins := by
  have few : (((s.updPort n fun p => p.writeFailed block (SMap.get 0 (s.port n).wfail block + 1)).port n).crcTimes.filter
      fun t => decide (s.usec < t + 1000)).length + 1 ≤ 64 := by
    rw [State.port_updPort_self]
    exact hfew
  refine ⟨_, (exec_hbmWriteCrcFail hn hb hgone hst (by omega)).trans (congrArg _ (if_pos hk)), ?_⟩
  obtain ⟨st, -, wfail, others, basins⟩ := State.crcRetries_leaves (s := s.updPort n _) few
  rw [State.port_updPort_self] at st wfail
  refine ⟨?_, ?_, st, fun n' h => (others n' h).trans (State.port_updPort_of_ne h), basins⟩
  · rw [wfail]
    exact SMap.get_set_self 0 (s.port n).wfail block (SMap.get 0 (s.port n).wfail block + 1)
  · rw [State.crcRetries_of_few (s := s.updPort n _) few, if_neg Nat.one_ne_zero, State.port_count, State.port_updPort_self,
      State.port_updPort_self]
    rfl

theorem hbmWriteCrcFail_retrains (s : State) (n block : Nat) (hn : n < 12) (hb : stackOf (block / 32768) = n)
    (hcan : s.CanRetrain n) (hk : SMap.get 0 (s.port n).wfail block = 2) :
    ∃ t, exec (.hbmWriteCrcFail ⟨n, block⟩) s = .next t ∧ (t.port n).st = .retraining ∧ (t.port n).before = (s.port n).st ∧
      SMap.get 0 (t.port n).wfail block = 3 ∧ (∀ n', n' ≠ n → t.port n' = s.port n') ∧ t.basins = s.basins := by
  refine ⟨_, (exec_hbmWriteCrcFail hn hb hcan.here hcan.idle hk.le).trans (congrArg _ (if_neg (by omega))), ?_⟩
  obtain ⟨port, others, -, basins⟩ := State.requestRetrain_updPort hcan (f := fun p => p.writeFailed block 3) fun _ => rfl
  rw [port]
  exact ⟨rfl, rfl, SMap.get_set_self 0 (s.port n).wfail block 3, others, basins⟩

/-- OP = RETRAIN where TIER_STACK_CTRL is free and the stack can retrain. -/
theorem State.ctrlRetrain_starts {s : State} {n : Nat} (hn : n < 12) (hcan : s.CanRetrain n) (hbusy : s.tier.ctrlBusy = false) :
    s.ctrlRetrain n = ((s.startCtrl n).updPort n Stack.startHere).requestRetrain n := by
  have can : ¬ (12 ≤ n ∨ (s.port n).gone = true ∨ (s.port n).st = .retraining) :=
    not_or.2 ⟨hn.not_ge, not_or.2 ⟨Bool.not_eq_true _ ▸ hcan.here, hcan.idle⟩⟩
  exact (if_neg (by simp [hbusy])).trans (if_neg can)

theorem exec_stackRetrain_ctrl {s : State} (hr : s.hostReaches = true) (n : Nat) :
    exec (.stackRetrain ⟨n, false⟩) s = .next (s.ctrlRetrain n) :=
  congrArg Host.Outcome.next (State.fromHost_of_reaches hr fun s => s.ctrlRetrain n)

theorem stackRetrain_ctrl_begins (s : State) (n : Nat) (hn : n < 12) (hcan : s.CanRetrain n) (hr : s.hostReaches = true)
    (hbusy : s.tier.ctrlBusy = false) :
    ∃ t, exec (.stackRetrain ⟨n, false⟩) s = .next t ∧ (t.port n).st = .retraining ∧ (t.port n).before = (s.port n).st ∧
      (t.port n).retrains = min (2 ^ 16 - 1) ((s.port n).retrains + 1) ∧ t.tier.ctrlBusy = true ∧ t.tier.ctrlStack = n ∧
      (∀ n', n' ≠ n → t.port n' = s.port n') := by
  obtain ⟨port, others, tier, -⟩ := State.requestRetrain_updPort (s := s.startCtrl n) (f := Stack.startHere)
    (hcan.of_same (fun _ => rfl) rfl) fun _ => rfl
  refine ⟨_, exec_stackRetrain_ctrl hr n, ?_⟩
  rw [State.ctrlRetrain_starts hn hcan hbusy, port, tier]
  exact ⟨rfl, rfl, rfl, rfl, Nat.mod_eq_of_lt (by omega), others⟩

theorem stackRetrain_firmware_begins (s : State) (n : Nat) (hn : n < 12) (hcan : s.CanRetrain n) :
    ∃ t, exec (.stackRetrain ⟨n, true⟩) s = .next t ∧ (t.port n).st = .retraining ∧ (t.port n).before = (s.port n).st ∧
      t.tier = s.tier ∧ (∀ n', n' ≠ n → t.port n' = s.port n') := by
  have run : exec (.stackRetrain ⟨n, true⟩) s = .next (s.requestRetrain n) :=
    congrArg Host.Outcome.next (if_neg (show ¬ 12 ≤ n by omega))
  refine ⟨_, run, ?_⟩
  rw [State.requestRetrain_begins hcan, State.port_updPort_self]
  exact ⟨rfl, rfl, rfl, fun n' h => State.port_updPort_of_ne h⟩

theorem stackRetrain_busy (s : State) (n : Nat) (hr : s.hostReaches = true) (hbusy : s.tier.ctrlBusy = true) :
    ∃ t, exec (.stackRetrain ⟨n, false⟩) s = .next t ∧ t.tier.ctrlResult = 1 ∧ t.ports = s.ports := by
  have busy : s.ctrlRetrain n = { s with tier := { s.tier with ctrlStack := n % 16, ctrlResult := 1 } } := if_pos hbusy
  refine ⟨_, exec_stackRetrain_ctrl hr n, ?_⟩
  rw [busy]
  exact ⟨rfl, rfl⟩

/-! ### The end of what TIER_STACK_CTRL started -/

@[simp] theorem State.endCtrl_basins (s : State) (n r : Nat) : (s.endCtrl n r).basins = s.basins := by
  unfold State.endCtrl
  split
  · rfl
  · rfl

@[simp] theorem State.endCtrl_rel (s : State) (n r : Nat) : (s.endCtrl n r).rel = s.rel := by
  unfold State.endCtrl
  split
  · rfl
  · rfl

@[simp] theorem State.endCtrl_whs (s : State) (n r : Nat) : (s.endCtrl n r).whs = s.whs := by
  unfold State.endCtrl
  split
  · rfl
  · rfl

@[simp] theorem State.endCtrl_st (s : State) (n r : Nat) : ((s.endCtrl n r).port n).st = (s.port n).st := by
  unfold State.endCtrl
  split
  · rw [State.port_updPort_self]
    rfl
  · rfl

theorem State.endCtrl_port_of_ne {s : State} {n n' : Nat} (r : Nat) (h : n' ≠ n) : (s.endCtrl n r).port n' = s.port n' := by
  unfold State.endCtrl
  split
  · exact State.port_updPort_of_ne h
  · rfl

theorem State.endCtrl_answers {s : State} {n : Nat} (r : Nat) (h : (s.port n).busyHere = true) :
    (s.endCtrl n r).tier.ctrlBusy = false ∧ (s.endCtrl n r).tier.ctrlResult = r := by
  rw [State.endCtrl, if_pos h]
  exact ⟨rfl, rfl⟩

@[simp] theorem State.endRetrain_st (s : State) (n r : Nat) : ((s.endRetrain n r).port n).st = (s.port n).st := State.endCtrl_st ..

theorem State.endRetrain_port_of_ne {s : State} {n n' : Nat} (r : Nat) (h : n' ≠ n) : (s.endRetrain n r).port n' = s.port n' :=
  State.endCtrl_port_of_ne r h

@[simp] theorem State.endRetrain_rel (s : State) (n r : Nat) : (s.endRetrain n r).rel = s.rel := State.endCtrl_rel ..

@[simp] theorem State.endRetrain_engine (s : State) (n r m : Nat) : (s.endRetrain n r).engine m = s.engine m :=
  (congrArg (fun w : SMap Whs => SMap.get {} w m) (State.endCtrl_whs ..) :)

/-! ### The end of a retraining -/

/-- A stack that takes its earlier state again: the blocks that waited are sent once more (09 R265, R271). -/
def Stack.resume (p : Stack) : Stack := { p with st := p.before, wfail := p.wfail.map fun e => (e.1, if e.2 = 3 then 4 else e.2) }

/-- How many blocks are sent once more after a retraining. -/
def Stack.late (p : Stack) : Nat := (p.wfail.filter fun e => decide (e.2 = 3) || decide (e.2 = 4)).length

theorem Stack.resume_late (p : Stack) : (p.resume.wfail.filter fun e => decide (e.2 = 4)).length = p.late := by
  have sent : ((fun e : Nat × Nat => decide (e.2 = 4)) ∘ fun e : Nat × Nat => (e.1, if e.2 = 3 then 4 else e.2)) =
      fun e : Nat × Nat => decide (e.2 = 3) || decide (e.2 = 4) := by
    funext e
    by_cases h : e.2 = 3
    · simp [h]
    · simp [h]
  rw [Stack.resume, List.filter_map, List.length_map, sent]
  rfl

/-- A stack whose retraining is done, before what waited for it goes on. -/
def State.resumed (s : State) (n : Nat) : State := (s.updPort n Stack.resume).crcRetries n (s.port n).late

theorem stackRetrainDone_restores (s : State) (n : Nat) (hst : (s.port n).st = .retraining)
    (hfew : ((s.port n).crcTimes.filter fun t => decide (s.usec < t + 1000)).length +
      ((s.port n).wfail.filter fun e => decide (e.2 = 3) || decide (e.2 = 4)).length ≤ 64) :
    ∃ t : State, exec (.stackRetrainDone n) s = .next ((t.nextRetrain n).advanceTier.wake) ∧ (t.port n).st = (s.port n).before ∧
      ((s.port n).before ≠ .draining → (s.port n).busyHere = true → t.tier.ctrlBusy = false ∧ t.tier.ctrlResult = 0) ∧
      t.basins = s.basins ∧ ∀ n', n' ≠ n → t.port n' = s.port n' := by
  obtain ⟨st, busy, others, basins⟩ : ((s.resumed n).port n).st = (s.port n).before ∧
      ((s.resumed n).port n).busyHere = (s.port n).busyHere ∧ (∀ m, m ≠ n → (s.resumed n).port m = s.port m) ∧
      (s.resumed n).basins = s.basins := by
    obtain ⟨st, busy, -, others, basins⟩ := State.crcRetries_leaves (s := s.updPort n Stack.resume) (n := n) (k := (s.port n).late)
      (by rw [State.port_updPort_self]; exact hfew)
    rw [State.port_updPort_self] at st busy
    exact ⟨st, busy, fun m hm => (others m hm).trans (State.port_updPort_of_ne hm), basins⟩
  have run : exec (.stackRetrainDone n) s = .next ((State.nextRetrain (if ((s.resumed n).port n).st = .draining then s.resumed n
      else (s.resumed n).endCtrl n 0) n).advanceTier.wake) := by
    show execStackRetrainDone n s = _
    unfold execStackRetrainDone State.resumed
    rw [if_pos hst, ← Stack.resume_late, ← State.port_updPort_self s n Stack.resume]
    rfl
  refine ⟨_, run, ?_⟩
  split
  · next h => exact ⟨st, fun hd => absurd (st.symm.trans h) hd, basins, others⟩
  · refine ⟨(State.endCtrl_st ..).trans st, fun _ hb => State.endCtrl_answers 0 (busy.trans hb), (State.endCtrl_basins ..).trans basins,
      fun n' h => (State.endCtrl_port_of_ne 0 h).trans (others n' h)⟩

/-! ### Failure of a stack -/

/-- What a failed request leaves of the ports: the state of each, and whether TIER_STACK_CTRL has started something on it. -/
def State.portStates (s : State) (n : Nat) : StackState × Bool := ((s.port n).st, (s.port n).busyHere)

theorem State.portStates_of_ports {s t : State} (h : t.ports = s.ports) : t.portStates = s.portStates :=
  (congrArg (fun (ps : SMap Stack) (m : Nat) => ((SMap.get {} ps m).st, (SMap.get {} ps m).busyHere)) h :)

theorem foldl_portStates {α : Type} {f : State → α → State} (h : ∀ s a, (f s a).portStates = s.portStates) (l : List α)
    (s : State) : (l.foldl f s).portStates = s.portStates :=
  List.foldlRecOn (motive := fun t : State => t.portStates = s.portStates) l f rfl fun t ht a _ => (h t a).trans ht

theorem State.dropReqs_portStates (s : State) (u : Nat) (r : PortReq) : (s.dropReqs u r).portStates = s.portStates := by
  funext n
  unfold State.dropReqs State.setReqs State.portStates
  split
  · rfl
  · rw [State.port_updPort]
    split
    · next e => rw [e]
    · rfl

theorem State.sendReturn_portStates (s : State) (u : Nat) (f : Flit) : (s.sendReturn u f).portStates = s.portStates := by
  unfold State.sendReturn
  dsimp only
  split
  · rfl
  · rfl

theorem State.failRead_portStates (s : State) (u : Nat) (r : PortReq) (g : Barge) (cause : Nat) :
    (s.failRead u r g cause).portStates = s.portStates := by
  unfold State.failRead
  dsimp only
  refine (foldl_portStates (fun _ _ => ?_) _ _).trans ?_
  · rfl
  · exact (State.dropReqs_portStates ..).trans (foldl_portStates (fun t f => t.sendReturn_portStates u f) _ _)

theorem State.failPage_portStates (s : State) (b p cause : Nat) : (s.failPage b p cause).portStates = s.portStates := by
  unfold State.failPage
  refine foldl_portStates (fun t c => foldl_portStates (fun t h => ?_) _ t) _ s
  split
  · rfl
  · split
    · rfl
    · split
      · split
        · rfl
        · rfl
      · split
        · split
          · exact State.failRead_portStates ..
          · rfl
        · rfl
      · rfl

theorem State.notify_pf0_ports (s : State) (v : Nat) : (s.notify .pf0 v).ports = s.ports := by
  unfold State.notify
  dsimp only
  split
  · rfl
  · rfl

theorem State.notify_pf0_rel (s : State) (v : Nat) : (s.notify .pf0 v).rel = s.rel := by
  unfold State.notify
  dsimp only
  split
  · rfl
  · rfl

theorem State.report_ports (s : State) (r : Report) : (s.report r).ports = s.ports := by
  unfold State.report
  dsimp only
  split
  · split
    · rfl
    · rfl
  · unfold State.postReport
    split
    · exact State.notify_pf0_ports ..
    · rfl

/-- A report's record heads the health log (14 R408, R410). -/
theorem State.report_log (s : State) (r : Report) :
    (s.report r).rel.log = { r with seq := s.rel.seq, time := s.powered } :: s.rel.log.take 4095 := by
  unfold State.report
  dsimp only
  split
  · split
    · rfl
    · rfl
  · unfold State.postReport
    split
    · rw [State.notify_pf0_rel]
      rfl
    · rfl

/-- A stack that has failed, before what its end lets go on: the requests in flight have failed, and it is reported (09 R273). -/
def State.stackLost (s : State) (n : Nat) : State :=
  ((s.pagesLost n).foldl (fun s e => s.failPage e.1 e.2 3) ((s.loseStack n).updPort n fun p =>
    { p with st := .failed, wfail := [], wbuf := 0 })).report { event := 0x11, kind := 5, index := n, detail := (s.pagesLost n).length }

theorem State.failStack_eq (s : State) (n : Nat) : s.failStack n = (((s.stackLost n).endRetrain n 4).nextRetrain n).advanceTier.wake := rfl

theorem State.loseStack_ports (s : State) (n : Nat) : (s.loseStack n).ports = s.ports := rfl

theorem State.stackLost_port (s : State) (n : Nat) :
    ((s.stackLost n).port n).st = .failed ∧ ((s.stackLost n).port n).busyHere = (s.port n).busyHere := by
  have pages : ∀ (l : List (Nat × Nat)) (t : State), (l.foldl (fun s e => s.failPage e.1 e.2 3) t).portStates = t.portStates := by
    refine fun l t => foldl_portStates (fun t e => ?_) l t
    exact State.failPage_portStates ..
  have reported : ∀ (t : State) (r : Report), (t.report r).portStates = t.portStates := fun t r =>
    State.portStates_of_ports (t.report_ports r)
  have lost : (s.loseStack n).port n = s.port n := by
    rw [State.port, State.loseStack_ports, State.port]
  have states : (s.stackLost n).portStates n = (.failed, (s.port n).busyHere) := by
    rw [State.stackLost, reported, pages, State.portStates, State.port_updPort_self, lost]
  exact Prod.mk.inj states

theorem stackRetrainTimeout_fails (s : State) (n : Nat) (hst : (s.port n).st = .retraining) :
    ∃ t : State, exec (.stackRetrainTimeout n) s = .next ((t.nextRetrain n).advanceTier.wake) ∧ (t.port n).st = .failed ∧
      ((s.port n).busyHere = true → t.tier.ctrlBusy = false ∧ t.tier.ctrlResult = 4) ∧
      ∃ r rs, t.rel.log = r :: rs ∧ r.event = 0x11 ∧ r.kind = 5 ∧ r.index = n := by
  have run : exec (.stackRetrainTimeout n) s = .next (((s.stackLost n).endRetrain n 4).nextRetrain n).advanceTier.wake :=
    congrArg Host.Outcome.next ((if_pos hst).trans (s.failStack_eq n))
  obtain ⟨failed, busy⟩ := s.stackLost_port n
  have log : ((s.stackLost n).endRetrain n 4).rel.log = (s.stackLost n).rel.log := congrArg Rel.log (State.endRetrain_rel ..)
  exact ⟨_, run, (State.endRetrain_st ..).trans failed, fun hb => State.endCtrl_answers 4 (busy.trans hb), _, _,
    log.trans (State.report_log ..), rfl, rfl, rfl⟩

/-! ### Retirement -/

/-- A stack in service that begins to drain on TIER_STACK_CTRL's behalf (09 R272). -/
def Stack.drainHere (p : Stack) : Stack :=
  if p.st = .retraining then { p with before := .draining, busyHere := true } else { p with st := .draining, busyHere := true }

/-- RETIRE of a stack in service, where TIER_STACK_CTRL is free. -/
theorem exec_stackRetire {s : State} {n : Nat} (hn : n < 12) (hr : s.hostReaches = true) (hst : (s.port n).st = .inService)
    (hbusy : s.tier.ctrlBusy = false) : exec (.stackRetire n) s = .next (if s.capacityWithout n < s.guarantees then
      { s with tier := { s.tier with ctrlStack := n % 16, ctrlResult := 2 } }
    else ((s.startCtrl n).updPort n Stack.drainHere).advanceTier) := by
  have can : ¬ (12 ≤ n ∨ (if (s.port n).st = .retraining then (s.port n).before else (s.port n).st) ≠ .inService) :=
    not_or.2 ⟨hn.not_ge, by simp [hst]⟩
  show Host.Outcome.next (s.fromHost fun s => s.ctrlRetire n) = _
  rw [State.fromHost_of_reaches hr]
  exact congrArg _ ((if_neg (by simp [hbusy])).trans (if_neg can))

theorem stackRetire_drains (s : State) (n : Nat) (hn : n < 12) (hr : s.hostReaches = true) (hst : (s.port n).st = .inService)
    (hbusy : s.tier.ctrlBusy = false) (hroom : s.guarantees ≤ s.capacityWithout n) :
    ∃ t : State, exec (.stackRetire n) s = .next t.advanceTier ∧ (t.port n).st = .draining ∧ t.tier.ctrlBusy = true ∧
      t.basins = s.basins := by
  have idle : ¬ ((s.startCtrl n).port n).st = .retraining := fun h => nomatch hst.symm.trans h
  refine ⟨_, (exec_stackRetire hn hr hst hbusy).trans (congrArg _ (if_neg hroom.not_gt)), ?_, rfl, rfl⟩
  rw [State.port_updPort_self, Stack.drainHere, if_neg idle]

theorem stackRetire_refuses (s : State) (n : Nat) (hn : n < 12) (hr : s.hostReaches = true) (hst : (s.port n).st = .inService)
    (hbusy : s.tier.ctrlBusy = false) (hroom : s.capacityWithout n < s.guarantees) :
    ∃ t, exec (.stackRetire n) s = .next t ∧ t.tier.ctrlResult = 2 ∧ t.ports = s.ports :=
  ⟨_, (exec_stackRetire hn hr hst hbusy).trans (congrArg _ (if_pos hroom)), rfl, rfl⟩

theorem stackDrained_drains (s : State) (n : Nat) (hst : (s.port n).st = .draining) (hfree : ∀ f ∈ s.usedFrames, stackOf f ≠ n) :
    ∃ t, exec (.stackDrained n) s = .next t ∧ (t.port n).st = .drained ∧
      ((s.port n).busyHere = true → t.tier.ctrlBusy = false ∧ t.tier.ctrlResult = 0) ∧ t.basins = s.basins := by
  have empty : (s.usedFrames.any fun f => decide (stackOf f = n)) = false := by simpa using hfree
  have run : exec (.stackDrained n) s = .next ((s.updPort n fun p => { p with st := .drained }).endCtrl n 0) :=
    congrArg Host.Outcome.next (if_pos ⟨hst, by rw [empty]; rfl⟩)
  refine ⟨_, run, ?_, fun hb => State.endCtrl_answers 0 ?_, State.endCtrl_basins ..⟩
  · rw [State.endCtrl_st, State.port_updPort_self]
  · rw [State.port_updPort_self]
    exact hb

/-- An engine after an update that keeps its state. -/
theorem State.st_updEngine {s : State} {n : Nat} {f : Whs → Whs} (hf : ∀ e, (f e).st = e.st) (m : Nat) :
    ((s.updEngine n f).engine m).st = (s.engine m).st := by
  rw [State.engine_updEngine]
  split
  · next e => rw [hf, e]
  · rfl

/-- Chunks move from engine to engine: no port, no domain and no engine's state changes (10 R292). -/
theorem State.moveChunks_leaves (s : State) (n : Nat) :
    (∀ m, (s.moveChunks n).port m = s.port m) ∧ (s.moveChunks n).power = s.power ∧
      ∀ m, ((s.moveChunks n).engine m).st = (s.engine m).st := by
  refine List.foldlRecOn (motive := fun t : State => (∀ m, t.port m = s.port m) ∧ t.power = s.power ∧
    ∀ m, (t.engine m).st = (s.engine m).st) _ _ ⟨fun _ => rfl, rfl, fun m => ?_⟩ fun t ⟨ports, power, st⟩ k _ =>
      ⟨ports, power, fun m => ?_⟩
  · refine State.st_updEngine (fun _ => ?_) m
    rfl
  · refine (State.st_updEngine (fun _ => ?_) m).trans (st m)
    rfl

/-- A drained stack has left service: what waited for it there has ended (09 R272, R289). -/
def State.retired (s : State) (n : Nat) : State := (s.updPort n fun p => { p with st := .retired }).endRetrain n 3

theorem State.retired_port (s : State) (n : Nat) :
    ((s.retired n).port n).st = .retired ∧ ∀ n', n' ≠ n → (s.retired n).port n' = s.port n' := by
  refine ⟨(State.endRetrain_st ..).trans ?_, fun n' h => (State.endRetrain_port_of_ne 3 h).trans (State.port_updPort_of_ne h)⟩
  rw [State.port_updPort_self]

/-- Stack `n`'s domain and its Whetstone engine are switched off (09 R272; 10 R313). -/
def State.switchOff (s : State) (n : Nat) : State :=
  (State.count { s with power := { s.power with mempOn := setBit s.power.mempOn n false } } .device 0 9 1).updEngine n fun e =>
    if e.st = .active then { e with st := .off } else e

@[simp] theorem State.switchOff_port (s : State) (n m : Nat) : (s.switchOff n).port m = s.port m := rfl

theorem State.switchOff_mempOn (s : State) (n : Nat) : (s.switchOff n).power.mempOn = setBit s.power.mempOn n false := rfl

theorem State.switchOff_engine {s : State} {n : Nat} (h : (s.engine n).st = .active) : ((s.switchOff n).engine n).st = .off := by
  rw [State.switchOff, State.engine_updEngine_self, State.engine_count]
  exact congrArg Whs.st (if_pos h)

theorem stackRetired_switches_off (s : State) (n : Nat) (hst : (s.port n).st = .drained) (hnamed : s.portNamed n = false) (hn : n < 12) :
    ∃ t, exec (.stackRetired n) s = .next t ∧ (t.port n).st = .retired ∧ t.power.mempOn.getLsbD n = false ∧
      ((s.engine n).st = .active → (t.engine n).st = .off) ∧ ∀ n', n' ≠ n → t.port n' = s.port n' := by
  have run : exec (.stackRetired n) s = .next (((s.retired n).switchOff n).moveChunks n) := by
    show execStackRetired n s = _
    rw [execStackRetired, if_pos ⟨hst, by rw [hnamed]; rfl⟩]
    rfl
  obtain ⟨ports, power, engines⟩ := ((s.retired n).switchOff n).moveChunks_leaves n
  obtain ⟨retired, others⟩ := s.retired_port n
  refine ⟨_, run, ?_, ?_, fun hactive => ?_, fun n' h => ?_⟩
  · rw [ports, State.switchOff_port]
    exact retired
  · rw [power, State.switchOff_mempOn, setBit_getLsbD]
    simp [hn]
  · have engine : (s.retired n).engine n = s.engine n := State.endRetrain_engine ..
    rw [engines]
    exact State.switchOff_engine (engine ▸ hactive)
  · rw [ports, State.switchOff_port]
    exact others n' h

/-- Settles O24: each command takes its stack from one state to the next. -/
theorem stackStates : Obligations.StackStates := by
  refine ⟨fun s n block hn hb hgone hst => ⟨fun hk hfew => hbmWriteCrcFail_resends s n block hn hb hgone hst hk hfew,
      fun hk hwait hdie => hbmWriteCrcFail_retrains s n block hn hb ⟨hgone, hst, hwait, hdie⟩ hk⟩,
    fun s n hn hgone hst hwait hdie => ?_, stackRetrain_busy, stackRetrainDone_restores, stackRetrainTimeout_fails,
    fun s n hn hr hst hbusy => ⟨stackRetire_drains s n hn hr hst hbusy, stackRetire_refuses s n hn hr hst hbusy⟩, stackDrained_drains,
    stackRetired_switches_off⟩
  have can : s.CanRetrain n := ⟨hgone, hst, hwait, hdie⟩
  exact ⟨stackRetrain_ctrl_begins s n hn can, stackRetrain_firmware_begins s n hn can⟩

end Sys2Proof.Machine

/-! Weir levels and the patrol scrubber (09 R265 to R270). -/

namespace Sys2Proof.Machine

/-! ### Levels of a stack -/

theorem Tier.levelDown_le (t : Tier) (temp l : Nat) : t.levelDown temp l ≤ l := by
  induction l with
  | zero => exact le_rfl
  | succ l ih =>
    unfold Tier.levelDown
    split
    · exact le_rfl
    · split
      · omega
      · exact ih.trans l.le_succ

/-- At or above all four thresholds a stack is called to level 4. -/
theorem Tier.levelUp_hot {t : Tier} {temp : Nat} (h : ∀ i, i < 4 → t.threshold (i + 1) ≤ temp) : t.levelUp temp = 4 := by
  rw [Tier.levelUp, List.filter_eq_self.2 fun i hi => by simpa using h i (List.mem_range.1 hi)]
  rfl

/-- Below all four thresholds a stack is called to no level. -/
theorem Tier.levelUp_cool {t : Tier} {temp : Nat} (h : ∀ i, i < 4 → temp < t.threshold (i + 1)) : t.levelUp temp = 0 := by
  rw [Tier.levelUp, List.filter_eq_nil_iff.2 fun i hi => by simpa using h i (List.mem_range.1 hi)]
  rfl

theorem Tier.nextLevel_hot {t : Tier} {l temp : Nat} (hl : l ≤ 4) (h : ∀ i, i < 4 → t.threshold (i + 1) ≤ temp) :
    t.nextLevel l temp = 4 := by
  have down := (t.levelDown_le temp l).trans hl
  rw [Tier.nextLevel, Tier.levelUp_hot h, max_eq_left down, ite_self]

theorem Tier.nextLevel_cool {t : Tier} {l temp : Nat} (hf : temp ≠ 0xFF) (h : ∀ i, i < 4 → temp < t.threshold (i + 1)) :
    t.nextLevel l temp = t.levelDown temp l := by
  rw [Tier.nextLevel, if_neg hf, Tier.levelUp_cool h, Nat.zero_max]

/-! ### Readings -/

/-- The thermal latch is set after a cause of it occurs; ports and cores stay (13 R378). -/
theorem State.latch_thermal (s : State) (bit : Nat) :
    (s.latch true bit).power.thermalLatch = true ∧ (s.latch true bit).ports = s.ports ∧ (s.latch true bit).cores = s.cores := by
  unfold State.latch
  simp only [↓reduceIte]
  split
  · next h => exact ⟨h, rfl, rfl⟩
  · rw [State.emit_power, State.notify_pf0_power, State.emit_ports, State.emit_cores]
    exact ⟨rfl, State.notify_pf0_ports .., (State.cores_of_still (State.notify_pf0_still _ 3)).trans rfl⟩

/-- The state after a reading, before the accesses that waited go on (09 R269, R270). -/
def State.weirRead (s : State) (n temp : Nat) : State :=
  let l := s.tier.nextLevel (s.port n).level temp
  let t := s.updPort n fun p => { p with temp := temp, level := l }
  if l = 4 then t.latch true 6 else t

theorem State.weirRead_leaves (s : State) (n temp : Nat) :
    (s.weirRead n temp).port n = { s.port n with temp := temp, level := s.tier.nextLevel (s.port n).level temp } ∧
      (∀ m, m ≠ n → (s.weirRead n temp).port m = s.port m) ∧ (s.weirRead n temp).cores = s.cores ∧
      (s.tier.nextLevel (s.port n).level temp = 4 → (s.weirRead n temp).power.thermalLatch = true) := by
  unfold State.weirRead
  dsimp only
  split
  · next h =>
      generalize hu : (s.updPort n fun p => { p with temp := temp, level := s.tier.nextLevel (s.port n).level temp }) = u
      obtain ⟨latched, ports, cores⟩ := u.latch_thermal 6
      have port : ∀ m, (u.latch true 6).port m = u.port m := fun m => (congrArg (fun ps : SMap Stack => SMap.get {} ps m) ports :)
      subst hu
      exact ⟨(port n).trans (State.port_updPort_self ..), fun m hm => (port m).trans (State.port_updPort_of_ne hm), cores,
        fun _ => latched⟩
  · next h => exact ⟨State.port_updPort_self .., fun m hm => State.port_updPort_of_ne hm, rfl, fun e => absurd e h⟩

theorem exec_weirReading {s : State} {n temp : Nat} (hn : n < 12) (hst : (s.port n).st ≠ .retired) :
    exec (.weirReading n temp) s =
      .next (if ((s.weirRead n temp).port n).level = 4 then s.weirRead n temp else (s.weirRead n temp).wake) := by
  have level : ((s.weirRead n temp).port n).level = s.tier.nextLevel (s.port n).level temp :=
    congrArg Stack.level (s.weirRead_leaves n temp).1
  have there : ¬ (12 ≤ n ∨ (s.port n).st = .retired) := not_or.2 ⟨hn.not_ge, hst⟩
  show execWeirReading n temp s = _
  rw [level, execWeirReading, if_neg there, State.weirRead]
  dsimp only
  split
  · rfl
  · rfl

theorem weirReading_sets_level (s : State) (n temp : Nat) (hn : n < 12) (hst : (s.port n).st ≠ .retired) (hl : (s.port n).level ≤ 4) :
    let th := fun i => bits s.tier.weirTh.toNat (8 * i - 1) (8 * i - 8)
    ∃ t : State, exec (.weirReading n temp) s = .next (if (t.port n).level = 4 then t else t.wake) ∧ (t.port n).temp = temp ∧
      (temp = 0xFF → (t.port n).level = 4) ∧ (th 1 ≤ temp → th 2 ≤ temp → th 3 ≤ temp → th 4 ≤ temp → (t.port n).level = 4) ∧
      (temp ≠ 0xFF → (s.port n).level = 0 → temp < th 1 → temp < th 2 → temp < th 3 → temp < th 4 → (t.port n).level = 0) ∧
      (temp ≠ 0xFF → (s.port n).level = 1 → temp < th 1 → temp < th 2 → temp < th 3 → temp < th 4 →
        (t.port n).level = if th 1 ≤ temp + 3 then 1 else 0) ∧
      ((t.port n).level = 4 → t.power.thermalLatch = true) ∧ (∀ n', n' ≠ n → t.port n' = s.port n') ∧ t.cores = s.cores := by
  obtain ⟨port, others, cores, latched⟩ := s.weirRead_leaves n temp
  have cool : ∀ l, temp ≠ 0xFF → (s.port n).level = l → temp < s.tier.threshold 1 → temp < s.tier.threshold 2 →
      temp < s.tier.threshold 3 → temp < s.tier.threshold 4 → s.tier.nextLevel (s.port n).level temp = s.tier.levelDown temp l := by
    intro l hf hl h1 h2 h3 h4
    rw [hl]
    exact Tier.nextLevel_cool hf fun i hi => by interval_cases i <;> assumption
  refine ⟨_, exec_weirReading hn hst, ?_⟩
  rw [port]
  refine ⟨rfl, fun hf => if_pos hf, fun h1 h2 h3 h4 => ?_, cool 0, cool 1, latched, others, cores⟩
  exact Tier.nextLevel_hot hl fun i hi => by interval_cases i <;> assumption

/-! ### Scrubbing -/

/-- A block of a page's frame is served by that frame (09 R273, R274). -/
theorem Basin.blockFrame_of_mem {v : Basin} {p f j : Nat} (h : j ∈ v.frameBlocks p f) : v.blockFrame j = some f := by
  obtain ⟨i, hi, hj⟩ := List.mem_flatMap.1 h
  obtain ⟨hrange, hin⟩ := List.mem_filter.1 hi
  obtain ⟨k, hk, rfl⟩ := List.mem_map.1 hj
  obtain ⟨written, frame⟩ := Bool.and_eq_true_iff.1 hin
  rw [List.mem_range, pageTiles] at hrange
  rw [List.mem_range] at hk
  have tile : (128 * (p * pageTiles + i) + k) / 128 = p * pageTiles + i := by omega
  have page : (128 * (p * pageTiles + i) + k) / 32768 = p := by rw [pageTiles]; omega
  have place : (p * pageTiles + i) % pageTiles = i := by rw [pageTiles]; omega
  rw [Basin.blockFrame, tile, page, place, if_pos written]
  exact of_decide_eq_true frame

/-- All but the ports and the performance counters. -/
def State.besidePorts (s : State) : State := { s with ports := [], pmc := {} }

/-- From `s` to `t` the scrubber has corrected `k` blocks at stack `n`: they are counted there, and nothing else changes but
performance counters (09 R266, R268). -/
structure State.Corrected (s t : State) (n k : Nat) : Prop where
  corr : (t.port n).corr = min (2 ^ 16 - 1) ((s.port n).corr + k)
  others : ∀ m, m ≠ n → t.port m = s.port m
  beside : t.besidePorts = s.besidePorts

namespace State.Corrected

variable {s t u : State} {n j k : Nat}

theorem basins (h : s.Corrected t n k) : t.basins = s.basins := (congrArg State.basins h.beside :)

theorem cores (h : s.Corrected t n k) : t.cores = s.cores := (congrArg State.cores h.beside :)

/-- Counts of reads change nothing here. -/
theorem of_countless (h : t.countless = s.countless) (hc : (s.port n).corr < 2 ^ 16) : s.Corrected t n 0 := by
  have port : ∀ m, t.port m = s.port m := fun m => (congrArg (fun v : State => SMap.get {} v.ports m) h :)
  refine ⟨?_, fun m _ => port m, (congrArg State.besidePorts h :)⟩
  rw [port]
  omega

theorem trans (h : s.Corrected t n j) (g : t.Corrected u n k) : s.Corrected u n (j + k) where
  corr := by
    rw [g.corr, h.corr]
    omega
  others m hm := (g.others m hm).trans (h.others m hm)
  beside := g.beside.trans h.beside

/-- Corrections that are counted at once. -/
theorem counted (s : State) (n k : Nat) :
    s.Corrected ((s.updPort n fun p => { p with corr := satAdd 16 p.corr k }).count .memp n 6 k) n k where
  corr := by
    rw [State.port_count, State.port_updPort_self]
    rfl
  others m hm := by rw [State.port_count, State.port_updPort_of_ne hm]
  beside := rfl

end State.Corrected

/-- The corrected blocks of a frame are counted at its stack, one after another. -/
theorem State.readErrors_corrects {s : State} {b f : Nat} {blks cs : List Nat} (hc : (s.port (stackOf f)).corr < 2 ^ 16)
    (hb : ∀ j ∈ blks, (s.basin b).blockFrame j = some f) (hcs : ∀ i ∈ cs, i < blks.length) :
    s.Corrected (s.readErrors b blks { crc := [], corrected := cs, uncorrectable := [] }) (stackOf f) cs.length := by
  unfold State.readErrors
  simp only [List.foldl_nil]
  induction cs generalizing s with
  | nil => exact .of_countless rfl hc
  | cons i cs ih =>
    obtain ⟨hi, hcs⟩ := List.forall_mem_cons.1 hcs
    have here : blks[i]? = some blks[i] := List.getElem?_eq_getElem hi
    have first := State.Corrected.counted s (stackOf f) 1
    rw [List.foldl_cons, here]
    simp only [hb _ (List.getElem_mem hi)]
    rw [List.length_cons, Nat.add_comm]
    refine first.trans (ih ?_ (fun j hj => hb j hj) hcs)
    rw [first.corr]
    omega

/-- The corrected blocks of a raw frame are counted at its stack. -/
theorem State.rawErrors_corrects (s : State) (b f : Nat) (cs : List Nat) :
    s.Corrected (s.rawErrors b f 0 { crc := [], corrected := cs, uncorrectable := [] }) (stackOf f) cs.length := by
  unfold State.rawErrors
  exact .counted s (stackOf f) cs.length

@[simp] theorem State.countScrub_port (s : State) (k n m : Nat) : (s.countScrub k n).port m = s.port m := rfl

@[simp] theorem State.countScrub_countless (s : State) (k n : Nat) : (s.countScrub k n).countless = s.countless := by
  rw [State.countScrub, State.count_countless, State.count_countless]

@[simp] theorem State.countScrub_basin (s : State) (k n b : Nat) : (s.countScrub k n).basin b = s.basin b := rfl

section

variable {s : State} {f : Nat} {cs : List Nat} (hn : stackOf f < 12) (hst : (s.port (stackOf f)).stalled = false)
  (hclk : s.power.clocksStopped = false)

include hn hst hclk

theorem State.scrubber_goes : ¬ ((decide (12 ≤ stackOf f) || (s.port (stackOf f)).stalled || s.power.clocksStopped) = true) := by
  simp [hst, hclk, hn]

/-- The scrubber reads a page's frame, so far as it holds written data. -/
theorem exec_patrolScrub_page {e : Nat × Nat} (he : s.frameOwner f = some e) (hne : (s.basin e.1).frameBlocks e.2 f ≠ []) :
    exec (.patrolScrub f [] cs []) s = .next ((s.countScrub (stackOf f) (64 * ((s.basin e.1).frameBlocks e.2 f).length)).readErrors e.1
      ((s.basin e.1).frameBlocks e.2 f) ⟨[], cs, []⟩) := by
  show execPatrolScrub f [] cs [] s = _
  unfold execPatrolScrub
  dsimp only
  rw [if_neg (State.scrubber_goes hn hst hclk), he]
  exact congrArg _ (if_neg (by simpa using hne))

/-- The scrubber reads a frame of a receive log or a towpath ring. -/
theorem exec_patrolScrub_raw {b : Nat} (he : s.frameOwner f = none) (hb : s.rawOwner f = some b) :
    exec (.patrolScrub f [] cs []) s = .next ((s.countScrub (stackOf f) pageBytes).rawErrors b f 0 ⟨[], cs, []⟩) := by
  show execPatrolScrub f [] cs [] s = _
  unfold execPatrolScrub
  dsimp only
  rw [if_neg (State.scrubber_goes hn hst hclk), he, hb]

end

theorem patrolScrub_corrects {s : State} {f : Nat} {cs : List Nat} (hn : stackOf f < 12) (hst : (s.port (stackOf f)).stalled = false)
    (hclk : s.power.clocksStopped = false) (hc : (s.port (stackOf f)).corr < 2 ^ 16)
    (hf : (∃ e, s.frameOwner f = some e ∧ (s.basin e.1).frameBlocks e.2 f ≠ [] ∧
        ∀ i ∈ cs, i < ((s.basin e.1).frameBlocks e.2 f).length) ∨ s.frameOwner f = none ∧ (s.rawOwner f).isSome = true) :
    ∃ t, exec (.patrolScrub f [] cs []) s = .next t ∧ s.Corrected t (stackOf f) cs.length := by
  have scrubbed : ∀ k, s.Corrected (s.countScrub (stackOf f) k) (stackOf f) 0 := fun k => .of_countless (s.countScrub_countless ..) hc
  have hc' : ∀ k, ((s.countScrub (stackOf f) k).port (stackOf f)).corr < 2 ^ 16 := fun k => by rwa [State.countScrub_port]
  rw [← Nat.zero_add cs.length]
  obtain ⟨e, he, hne, hcs⟩ | ⟨he, hr⟩ := hf
  · exact ⟨_, exec_patrolScrub_page hn hst hclk he hne,
      (scrubbed _).trans (State.readErrors_corrects (hc' _) (fun j hj => by
        rw [State.countScrub_basin]
        exact Basin.blockFrame_of_mem hj) hcs)⟩
  · obtain ⟨b, hb⟩ := Option.isSome_iff_exists.1 hr
    exact ⟨_, exec_patrolScrub_raw hn hst hclk he hb, (scrubbed _).trans (State.rawErrors_corrects ..)⟩

/-- Settles O25: a reading by the level that it calls for, the scrubber by the corrections it counts. -/
theorem weirAndScrub : Obligations.WeirAndScrub := by
  refine ⟨weirReading_sets_level, fun s f cs hn hst hclk hc hf => ?_⟩
  obtain ⟨t, run, corrected⟩ := patrolScrub_corrects hn hst hclk hc hf
  exact ⟨t, run, corrected.corr, corrected.basins, corrected.cores, corrected.others⟩

end Sys2Proof.Machine

/-! Moves of pages: copies of tiles, evictions, homing and the ends of waits for a frame (09 R274 to R284, R481, R482). -/

namespace Sys2Proof.Machine

/-! ### Moves -/

/-- A page that has a tile map, or for which one is free, takes no other page's (09 R274). -/
theorem State.takeMap_of_room {s : State} {b p : Nat} (h : ((s.basin b).page p).hasMap = true ∨ s.mapsUsed < 32768) :
    s.takeMap b p = some s := if_pos (by simpa using h)

/-- The requests for a move's next tile mark its page as asked for, and leave the queue of moves (09 R279, R285). -/
theorem State.askMove_leaves (s : State) (b p : Nat) :
    (s.askMove b p).tier = s.tier ∧ ∃ a, ((s.askMove b p).basin b).page p = { (s.basin b).page p with asked := a } := by
  have asked : ∀ (l n : Nat) (w : Bool), (((s.tierMsg b p l n w).updPage b p fun g => { g with asked := true }).basin b).page p =
      { (s.basin b).page p with asked := true } := by
    intro l n w
    rw [State.page_updPage, if_pos rfl]
    rfl
  unfold State.askMove
  dsimp only
  split
  · exact ⟨rfl, _, rfl⟩
  · split
    · exact ⟨rfl, _, asked ..⟩
    · split
      · exact ⟨rfl, _, asked ..⟩
      · exact ⟨rfl, _, rfl⟩

/-- A move that finds a tile map joins the queue's end, and its page is marked for it (09 R279). -/
theorem State.addMove_leaves {s : State} {b p : Nat} {c : MoveCause} {f : Page → Page}
    (hmap : ((s.basin b).page p).hasMap = true ∨ s.mapsUsed < 32768) (hc : c ≠ .fence) :
    (s.addMove b p c f).tier.moves = s.tier.moves ++ [{ basin := b, page := p, cause := c }] ∧
      ∃ a, ((s.addMove b p c f).basin b).page p = { f ((s.basin b).page p) with moved := 0, asked := a } := by
  have moved : ((s.updPage b p fun g => { f g with moved := 0 }).basin b).page p = { f ((s.basin b).page p) with moved := 0 } := by
    rw [State.page_updPage, if_pos rfl]
  unfold State.addMove
  rw [State.takeMap_of_room hmap]
  dsimp only
  rw [if_neg hc]
  obtain ⟨tier, a, page⟩ := State.askMove_leaves { s.updPage b p fun g => { f g with moved := 0 } with
    tier := { s.tier with moves := s.tier.moves ++ [{ basin := b, page := p, cause := c }] } } b p
  exact ⟨congrArg Tier.moves tier, a, page.trans (congrArg (fun g : Page => { g with asked := a }) moved)⟩

theorem State.addMove_memByte (s : State) (b p : Nat) (c : MoveCause) (f : Page → Page) (b' a : Nat) :
    (s.addMove b p c f).memByte b' a = s.memByte b' a := State.memByte_of_still (State.addMove_still ..) b' a

/-! ### Evictions and homing -/

theorem reclaim_evicts (s : State) (v : Nat × Nat) (h : Nat) (hfree : s.freeFrames < s.owed) (hgap : s.mgmt.gap = false)
    (hnone : s.tier.moves.any (fun m => decide (m.cause = .eviction)) = false)
    (hv : s.victim (fun _ w => decide (w.desc.guarantee < w.held)) = some v) (hh : s.hostFree = some h)
    (hmap : ((s.basin v.1).page v.2).hasMap = true ∨ s.mapsUsed < 32768) :
    ∃ t, exec .reclaim s = .next t ∧
      t.tier.moves = s.tier.moves ++ [{ basin := v.1, page := v.2, cause := .eviction }] ∧
      ((t.basin v.1).page v.2).toHost = some h ∧ ((t.basin v.1).page v.2).moved = 0 ∧
      (∀ b a, t.memByte b a = s.memByte b a) ∧ t.cores = s.cores := by
  have run : exec .reclaim s = .next (s.evict v h) := by
    show execReclaim s = _
    rw [execReclaim, if_pos ⟨hfree, by simp [hgap], by simp [hnone]⟩, hv, hh]
  obtain ⟨moves, a, page⟩ := State.addMove_leaves (f := fun g => { g with toHost := some h }) hmap
    (show MoveCause.eviction ≠ .fence by decide)
  refine ⟨_, run, moves, ?_, ?_, State.addMove_memByte _ _ _ _ _, State.cores_of_still (State.addMove_still ..)⟩
  · exact congrArg Page.toHost page
  · exact congrArg Page.moved page

theorem homingMove_moves_home (s : State) (b p f : Nat) (hst : ((s.basin b).page p).st = .hbm) (hd : s.displaced b p = true)
    (hfree : s.freeOn (s.homes (s.basin b) p).2 ≠ 0) (hl : s.laterDisplaced b p = false) (hs : s.supply b p = .frame f)
    (hmap : ((s.basin b).page p).hasMap = true ∨ s.mapsUsed < 32768) :
    ∃ t, exec (.homingMove b p) s = .next t ∧
      t.tier.moves = s.tier.moves ++ [{ basin := b, page := p, cause := .homing }] ∧
      ((t.basin b).page p).toFrame = some (s.frameOn (s.homes (s.basin b) p).2) ∧
      ∀ b a, t.memByte b a = s.memByte b a := by
  have run : exec (.homingMove b p) s = .next (s.addMove b p .homing fun g =>
      { g with toFrame := some (s.frameOn (s.homes (s.basin b) p).2) }) := by
    show execHomingMove b p s = _
    rw [execHomingMove, if_pos ⟨hst, hd, hfree, by simp [hl]⟩, hs]
  obtain ⟨moves, a, page⟩ := State.addMove_leaves (f := fun g => { g with toFrame := some (s.frameOn (s.homes (s.basin b) p).2) }) hmap
    (show MoveCause.homing ≠ .fence by decide)
  refine ⟨_, run, moves, ?_, State.addMove_memByte _ _ _ _ _⟩
  exact congrArg Page.toFrame page

/-! ### The end of a wait for a frame -/

theorem frameWaitDone_returns (s : State) (b p f : Nat) (hs : s.supply b p = .frame f)
    (hmap : ((s.basin b).page p).hasMap = true ∨ s.mapsUsed < 32768) (hw : ((s.basin b).page p).want = .ret) :
    ∃ t : State, exec (.frameWaitDone b p) s = .next t.wake ∧
      t.tier.moves = s.tier.moves ++ [{ basin := b, page := p, cause := .ret }] ∧
      ((t.basin b).page p).toFrame = some f ∧ ((t.basin b).page p).want = .none ∧
      ∀ b a, t.memByte b a = s.memByte b a := by
  have run : exec (.frameWaitDone b p) s = .next (s.returnTo b p f .ret).wake := by
    show execFrameWaitDone b p s = _
    simp only [execFrameWaitDone, hw, hs]
  obtain ⟨moves, a, page⟩ := State.addMove_leaves (f := fun g => { g with toFrame := some f, want := .none }) hmap
    (show MoveCause.ret ≠ .fence by decide)
  refine ⟨_, run, moves, ?_, ?_, State.addMove_memByte _ _ _ _ _⟩
  · exact congrArg Page.toFrame page
  · exact congrArg Page.want page

/-- A page without any frame takes the one that is supplied (09 R278, R481). -/
theorem State.prepPage_takes {s : State} {b p f : Nat} (hs : s.supply b p = .frame f)
    (hmap : ((s.basin b).page p).hasMap = true ∨ s.mapsUsed < 32768) (hfull : (s.basin b).storeFull p = false)
    (hprot : ((s.basin b).protected p && (s.basin b).inInterval) = false) (hframe : ((s.basin b).page p).frame = none)
    (hhost : ((s.basin b).page p).hostFrame = none) (hto : ((s.basin b).page p).toFrame = none) :
    (s.prepPage b p).1 = s.updPage b p fun g => { g with
      frame := some f, want := .none, act := g.act || (!(s.basin b).desc.offloadClass && (s.basin b).activation p &&
        decide (((s.basin b).page p).st = .unwritten)) } := by
  simp only [State.prepPage, hfull, hprot, hframe, hhost, hto, hs, State.takeMap_of_room hmap, Bool.false_eq_true, if_false,
    Option.isNone_none, Bool.and_self, if_true]

theorem frameWaitDone_takes_frame (s : State) (b p f : Nat) (hs : s.supply b p = .frame f)
    (hmap : ((s.basin b).page p).hasMap = true ∨ s.mapsUsed < 32768) (hw : ((s.basin b).page p).want = .frame)
    (hfull : (s.basin b).storeFull p = false) (hprot : ((s.basin b).protected p && (s.basin b).inInterval) = false)
    (hframe : ((s.basin b).page p).frame = none) (hhost : ((s.basin b).page p).hostFrame = none)
    (hto : ((s.basin b).page p).toFrame = none) :
    ∃ t : State, exec (.frameWaitDone b p) s = .next t.wake ∧ ((t.basin b).page p).frame = some f ∧
      ((t.basin b).page p).want = .none ∧ ∀ b a, t.memByte b a = s.memByte b a := by
  have run : exec (.frameWaitDone b p) s = .next (s.prepPage b p).1.wake := by
    show execFrameWaitDone b p s = _
    simp only [execFrameWaitDone, hw]
  refine ⟨_, run, ?_, ?_, State.memByte_of_still (State.prepPage_still ..)⟩
  · rw [State.prepPage_takes hs hmap hfull hprot hframe hhost hto, State.page_updPage, if_pos rfl]
  · rw [State.prepPage_takes hs hmap hfull hprot hframe hhost hto, State.page_updPage, if_pos rfl]

/-! ### Copies of tiles -/

/-- All but the ports, the performance counters and what the device sends: what the traffic of a copy leaves. -/
def State.besideTraffic (s : State) : State := { s with ports := [], pmc := {}, outbox := [] }

theorem State.basin_of_traffic {s t : State} (h : t.besideTraffic = s.besideTraffic) (b : Nat) : t.basin b = s.basin b :=
  (congrArg (fun v : State => SMap.get {} v.basins b) h :)

theorem State.tier_of_traffic {s t : State} (h : t.besideTraffic = s.besideTraffic) : t.tier = s.tier := (congrArg State.tier h :)

theorem State.resolveBias_traffic (s : State) (b p : Nat) (w : Bool) : (s.resolveBias b p w).besideTraffic = s.besideTraffic := by
  unfold State.resolveBias
  split
  · rfl
  · rfl

theorem State.countIo_traffic (s : State) (b : Nat) (w : Bool) (o : Option Nat) (blks : List Nat) :
    (s.countIo b w o blks).besideTraffic = s.besideTraffic := (congrArg State.besideTraffic (State.countIo_countless s b w o blks) :)

theorem State.dropMerged_traffic (s : State) (b ba n : Nat) : (s.dropMerged b ba n).besideTraffic = s.besideTraffic := rfl

/-- The traffic of the copy of tile `i` of a page whose reads meet no error, up to the switch of its mapping (09 R267, R279, R280). -/
def State.readTile (s : State) (b p i : Nat) : State :=
  let src := span 64 ((p * pageTiles + i) * tileBytes) tileBytes
  let read := ((s.resolveBias b p false).readErrors b src {}).countIo b false none src
  ((read.poisonRead b src {}).count .tier 0 0 1).dropMerged b ((p * pageTiles + i) * tileBytes) tileBytes

theorem State.readErrors_none (s : State) (b : Nat) (blks : List Nat) : s.readErrors b blks {} = s := rfl

theorem State.poisonRead_none (s : State) (b : Nat) (blks : List Nat) : s.poisonRead b blks {} = s := rfl

theorem State.readTile_traffic (s : State) (b p i : Nat) : (s.readTile b p i).besideTraffic = s.besideTraffic := by
  rw [State.readTile, State.dropMerged_traffic, State.readErrors_none, State.poisonRead_none]
  exact (State.countIo_traffic ..).trans (State.resolveBias_traffic s b p false)

/-- The state after tile `i` of a page has been copied and the move has advanced to tile `next` (09 R279). -/
def State.switchTile (s : State) (b p i next : Nat) : State :=
  ((s.readTile b p i).updPage b p fun g => { g with moved := next, got := false }).countIo b true none
    (span 64 ((p * pageTiles + i) * tileBytes) tileBytes)

theorem State.switchTile_leaves (s : State) (b p i next : Nat) :
    ((s.switchTile b p i next).basin b).page p = { (s.basin b).page p with moved := next, got := false } ∧
      (s.switchTile b p i next).tier = s.tier ∧ (s.switchTile b p i next).cores = s.cores ∧
      ∀ b' a, (s.switchTile b p i next).memByte b' a = s.memByte b' a := by
  have read := s.readTile_traffic b p i
  have still : ((s.readTile b p i).updPage b p fun g => { g with moved := next, got := false }).still = (s.readTile b p i).still :=
    State.updPage_still ..
  have written : (s.switchTile b p i next).besideTraffic =
      ((s.readTile b p i).updPage b p fun g => { g with moved := next, got := false }).besideTraffic := State.countIo_traffic ..
  generalize s.switchTile b p i next = t at written ⊢
  generalize s.readTile b p i = u at read written still
  refine ⟨?_, (State.tier_of_traffic written).trans (show u.tier = s.tier from State.tier_of_traffic read), ?_, fun b' a => ?_⟩
  · rw [State.basin_of_traffic written, State.page_updPage, if_pos rfl, State.basin_of_traffic read]
  · exact ((congrArg State.cores written :) : t.cores = u.cores).trans (congrArg State.cores read :)
  · rw [State.memByte, State.basin_of_traffic written]
    refine (State.memByte_of_still still b' a).trans ?_
    rw [State.memByte, State.basin_of_traffic read]
    rfl

theorem exec_tileCopyDone {s : State} {i : Nat} {m : Move} (hm : s.tier.moves[i]? = some m) (hi : i < 8) (hraw : m.raw = false)
    (hclk : s.power.clocksStopped = false) (hasked : ((s.basin m.basin).page m.page).asked = false)
    (hpause : ((s.basin m.basin).page m.page).moveStacks.any (fun n => (s.port n).paused) = false) :
    let g := (s.basin m.basin).page m.page
    let next := nextTile g (decide (m.cause = .commit)) pageTiles (g.moved + 1)
    exec (.tileCopyDone i {}) s = .next (State.wake (if pageTiles ≤ next then (s.switchTile m.basin m.page g.moved next).endMove i m
      else (s.switchTile m.basin m.page g.moved next).askMove m.basin m.page)) := by
  have goes : ¬ ((decide (8 ≤ i) || s.power.clocksStopped) = true) := by simp [hclk, hi]
  show execTileCopyDone i {} s = _
  unfold execTileCopyDone
  dsimp only
  rw [hm]
  dsimp only
  rw [if_neg goes, if_neg (by simp [hraw]), hasked, hpause]
  rfl

theorem tileCopyDone_switches (s : State) (i : Nat) (m : Move) (hm : s.tier.moves[i]? = some m) (hi : i < 8) (hraw : m.raw = false)
    (hclk : s.power.clocksStopped = false) :
    let g := (s.basin m.basin).page m.page
    g.asked = false → g.moveStacks.any (fun n => (s.port n).paused) = false →
    let next := nextTile g (decide (m.cause = .commit)) pageTiles (g.moved + 1)
    ∃ t : State, (next < pageTiles → exec (.tileCopyDone i {}) s = .next ((t.askMove m.basin m.page).wake)) ∧
      (pageTiles ≤ next → exec (.tileCopyDone i {}) s = .next ((t.endMove i m).wake)) ∧
      (t.basin m.basin).page m.page = { g with moved := next, got := false } ∧
      t.tier.moves = s.tier.moves ∧ t.cores = s.cores ∧ ∀ b a, t.memByte b a = s.memByte b a := by
  intro g hasked hpause next
  have run := exec_tileCopyDone hm hi hraw hclk hasked hpause
  obtain ⟨page, tier, cores, mem⟩ := s.switchTile_leaves m.basin m.page g.moved next
  refine ⟨s.switchTile m.basin m.page g.moved next, fun h => ?_, fun h => ?_, page, congrArg Tier.moves tier, cores, mem⟩
  · rw [run, if_neg h.not_ge]
  · rw [run, if_pos h]

/-- Settles O26: a copy by the tile that it switches, every other clause by the move or the frame that its page takes. -/
theorem pageMoves : Obligations.PageMoves :=
  ⟨tileCopyDone_switches, reclaim_evicts, homingMove_moves_home, fun s b p f hs hmap =>
    ⟨frameWaitDone_returns s b p f hs hmap, frameWaitDone_takes_frame s b p f hs hmap⟩⟩

end Sys2Proof.Machine

/-! Requests to the host tier: the host's answers, errors and time-outs (08 R253; 09 R287, R288). -/

namespace Sys2Proof.Machine

/-! ### The host's data -/

theorem State.sameBytes.symm {s t : State} (h : s.sameBytes t) : t.sameBytes s :=
  let ⟨sp, mem⟩ := h
  ⟨fun c a => (sp c a).symm, fun b a => (mem b a).symm⟩

/-- Poisoned blocks read as poison (09 R267). -/
theorem Basin.memPoison_poison (v : Basin) (blks : List Nat) {j : Nat} (h : j ∈ blks) :
    SMap.get false (v.poison blks).memPoison j = true := by
  rw [Basin.poison, SMap.get_foldl_mark, decide_eq_true h, Bool.true_or]

@[simp] theorem Basin.page_poison (v : Basin) (blks : List Nat) (p : Nat) : (v.poison blks).page p = v.page p := rfl

/-- A barge after an update of its own. -/
theorem State.barge_updBarge_self {s : State} {c id : Nat} {f : Barge → Barge} {g : Barge} (hf : ∀ g, (f g).id = g.id)
    (hg : s.barge c id = some g) : (s.updBarge c id f).barge c id = some (f g) := by
  rw [State.barge_updBarge hf, if_pos rfl, hg, Option.map_some, if_pos (State.barge_id hg)]

/-- A barge after an update of another. -/
theorem State.barge_updBarge_other {s : State} {c id c' id' : Nat} {f : Barge → Barge} {g : Barge} (hf : ∀ g, (f g).id = g.id)
    (hg : s.barge c id = some g) (h : ¬ (c' = c ∧ id' = id)) : (s.updBarge c' id' f).barge c id = some g := by
  rw [State.barge_updBarge hf]
  split
  · next e =>
      have other : g.id ≠ id' := fun hid => h ⟨e, hid.symm.trans (State.barge_id hg)⟩
      rw [e, hg, Option.map_some, if_neg other]
  · exact hg

/-- A barge to which the host has returned page `p` (09 R287). -/
def Barge.answered (g : Barge) (p : Nat) : Barge :=
  { g with hostAsks := g.hostAsks.filter (fun q => decide (q ≠ p)), hostOk := g.hostOk ++ [p] }

/-- What the host's data for page `p` does: no byte changes, and the engine or the barge that asked has the page (09 R287). -/
def State.Answered (s : State) (b p : Nat) (who : TierWho) (t : State) : Prop :=
  t.sameBytes s ∧
    (who = .engine → t.cores = s.cores ∧ (t.basin b).page p = { (s.basin b).page p with asked := false, got := true }) ∧
    (∀ c id g, who = .barge c id → s.barge c id = some g →
      t.barge c id = some (g.answered p) ∧ (t.basin b).page p = (s.basin b).page p)

theorem State.SameData.hostDone {s t : State} (h : s.SameData t) (b p : Nat) (who : TierWho) : s.SameData (t.hostDone b p who) := by
  cases who with
  | engine =>
    rw [State.hostDone, State.updPage]
    exact h.updBasin fun _ => rfl
  | barge c id =>
    rw [State.hostDone, State.updBarge]
    exact h.updCore fun _ => rfl

/-- A request ends with data in a state that differs from `s` in poison only. -/
theorem State.hostDone_answers {s u : State} {b p : Nat} (who : TierWho) (hdata : s.SameData u) (hcores : u.cores = s.cores)
    (hpage : (u.basin b).page p = (s.basin b).page p) : s.Answered b p who (u.hostDone b p who) := by
  have bytes := (hdata.hostDone b p who).sameBytes.symm
  cases who with
  | engine =>
    refine ⟨bytes, fun _ => ⟨hcores, ?_⟩, fun _ _ _ h => nomatch h⟩
    rw [State.hostDone, State.page_updPage, if_pos rfl, hpage]
  | barge c id =>
    refine ⟨bytes, fun h => (nomatch h), fun c' id' g hwho hg => ?_⟩
    cases hwho
    have found : u.barge c id = some g := by
      rw [State.barge, State.core, hcores]
      exact hg
    refine ⟨?_, hpage⟩
    exact State.barge_updBarge_self (f := fun g => g.answered p) (fun _ => rfl) found

theorem State.hostDone_memPoison (s : State) (b p : Nat) (who : TierWho) :
    ((s.hostDone b p who).basin b).memPoison = (s.basin b).memPoison := by
  cases who with
  | engine => rw [State.hostDone, State.updPage, State.basin_updBasin_self]
  | barge c id => rfl

section

variable {s : State} {b p : Nat} {who : TierWho} (ha : s.hostAsked b p who = true) (hr : s.hostReaches = true)

include ha hr

theorem exec_hostTierResponse_data :
    exec (.hostTierResponse b ⟨p, who⟩ .data) s = .next (s.hostDone b p who).wake := by
  show Host.Outcome.next (s.fromHost _) = _
  rw [State.fromHost_of_reaches hr]
  exact congrArg _ (if_neg (by simp [ha]))

theorem exec_hostTierResponse_poisoned (ls : List Nat) : exec (.hostTierResponse b ⟨p, who⟩ (.poisoned ls)) s =
    .next ((s.updBasin b fun v => v.poison (pageLines p ls)).hostDone b p who).wake := by
  show Host.Outcome.next (s.fromHost _) = _
  rw [State.fromHost_of_reaches hr]
  exact congrArg _ (if_neg (by simp [ha]))

theorem exec_hostTierResponse_error (lost : List Nat) :
    exec (.hostTierResponse b ⟨p, who⟩ (.error lost)) s = .next (s.failHost b p who 1 lost).wake := by
  show Host.Outcome.next (s.fromHost _) = _
  rw [State.fromHost_of_reaches hr]
  exact congrArg _ (if_neg (by simp [ha]))

theorem hostTierResponse_data_answers :
    ∃ t : State, exec (.hostTierResponse b ⟨p, who⟩ .data) s = .next t.wake ∧ s.Answered b p who t ∧
      (t.basin b).memPoison = (s.basin b).memPoison :=
  ⟨_, exec_hostTierResponse_data ha hr, State.hostDone_answers who (.refl s) rfl rfl, State.hostDone_memPoison ..⟩

theorem hostTierResponse_poisoned_answers (ls : List Nat) :
    ∃ t : State, exec (.hostTierResponse b ⟨p, who⟩ (.poisoned ls)) s = .next t.wake ∧ s.Answered b p who t ∧
      ∀ i ∈ ls, SMap.get false (t.basin b).memPoison (p * 32768 + i % 32768) = true := by
  refine ⟨_, exec_hostTierResponse_poisoned ha hr ls, State.hostDone_answers who ((State.SameData.refl s).updBasin fun _ => rfl) rfl ?_,
    fun i hi => ?_⟩
  · rw [State.basin_updBasin_self, Basin.page_poison]
  · rw [State.hostDone_memPoison, State.basin_updBasin_self]
    exact Basin.memPoison_poison _ _ (List.mem_map_of_mem hi)

end

/-! ### Failed requests of an engine -/

theorem State.counter_count (s : State) (g : CntGroup) (n i k : Nat) :
    (s.count g n i k).counter g n i = (s.counter g n i + k) % 2 ^ 64 := by
  simp only [State.counter, State.count, SMap.upd, SMap.get_set_self]

theorem exec_hostTierTimeout {s : State} {b p : Nat} {who : TierWho} (ha : s.hostAsked b p who = true) (lost : List Nat) :
    exec (.hostTierTimeout b ⟨p, who⟩ lost) s = .next (s.failHost b p who 2 lost).wake := congrArg _ (if_pos ha)

/-- The lines of a page that the host no longer returns (09 R288). -/
def State.lostLines (s : State) (b p : Nat) (lost : List Nat) : List Nat :=
  pageLines p (lost.filter fun i => (s.basin b).blockOnHost (p * 32768 + i % 32768))

/-- An engine's request has failed: the lost lines are poison, and the page waits for no answer (09 R287, R288). -/
def State.lostAnswer (s : State) (b p : Nat) (lost : List Nat) : State :=
  ((s.count .tier 0 7 1).updBasin b fun v => v.poison (s.lostLines b p lost)).updPage b p fun g => { g with asked := false }

/-- An engine's failed request for a page that stands on the host tier alone and does not move: whatever the cause, the page is
rescued. -/
theorem State.failHost_engine {s : State} {b p : Nat} (hfresh : ((s.basin b).page p).fresh = none)
    (hframe : ((s.basin b).page p).toFrame = none) (hhost : ((s.basin b).page p).toHost = none)
    (hon : ((s.basin b).page p).hostFrame.isSome = true) (cause : Nat) (lost : List Nat) :
    s.failHost b p .engine cause lost = ((s.lostAnswer b p lost).rescue b p).advanceTier := by
  unfold State.failHost State.rescuePage
  dsimp only
  rw [State.basin_count, hfresh, hframe, hhost]
  exact (if_neg Bool.false_ne_true).trans ((if_neg Bool.false_ne_true).trans ((if_neg Bool.false_ne_true).trans (if_pos hon)))

theorem hostTier_engine_rescues (s : State) (b p f : Nat) (lost : List Nat) (ha : s.hostAsked b p .engine = true)
    (hfresh : ((s.basin b).page p).fresh = none) (hframe : ((s.basin b).page p).toFrame = none)
    (hhost : ((s.basin b).page p).toHost = none) (hon : ((s.basin b).page p).hostFrame.isSome = true)
    (hs : (s.lostAnswer b p lost).supply b p = .frame f) :
    ∃ t : State, exec (.hostTierTimeout b ⟨p, .engine⟩ lost) s = .next t.advanceTier.wake ∧
      (s.hostReaches = true → exec (.hostTierResponse b ⟨p, .engine⟩ (.error lost)) s = .next t.advanceTier.wake) ∧
      (t.basin b).page p = { (s.basin b).page p with asked := false, frame := some f, hostFrame := none, want := .none } ∧
      (∀ i ∈ lost, (s.basin b).blockOnHost (p * 32768 + i % 32768) = true →
        SMap.get false (t.basin b).memPoison (p * 32768 + i % 32768) = true) ∧
      t.counter .tier 0 7 = (s.counter .tier 0 7 + 1) % 2 ^ 64 := by
  have failed := fun cause => State.failHost_engine hfresh hframe hhost hon cause lost
  have rescued : (s.lostAnswer b p lost).rescue b p = (s.lostAnswer b p lost).updPage b p fun g =>
      { g with frame := some f, hostFrame := none, want := .none } := by
    rw [State.rescue, hs]
  have page : ((s.lostAnswer b p lost).basin b).page p = { (s.basin b).page p with asked := false } := by
    rw [State.lostAnswer, State.page_updPage, if_pos rfl, State.basin_updBasin_self, State.basin_count, Basin.page_poison]
  refine ⟨(s.lostAnswer b p lost).rescue b p, (exec_hostTierTimeout ha lost).trans (by rw [failed]),
    fun hr => (exec_hostTierResponse_error ha hr lost).trans (by rw [failed]), ?_, fun i hi hb => ?_, ?_⟩
  · rw [rescued, State.page_updPage, if_pos rfl, page]
  · have line : p * 32768 + i % 32768 ∈ s.lostLines b p lost :=
      List.mem_map.2 ⟨i, List.mem_filter.2 ⟨hi, hb⟩, rfl⟩
    rw [rescued, State.updPage, State.basin_updBasin_self, State.lostAnswer, State.updPage, State.basin_updBasin_self,
      State.basin_updBasin_self]
    exact Basin.memPoison_poison _ _ line
  · rw [rescued, State.counter, State.updPage_pmc, State.lostAnswer, State.updPage_pmc, State.updBasin_pmc]
    exact State.counter_count ..

/-! ### Failed requests of a barge -/

/-- The request of a read that all its members have asked for is among those that fail with it (08 R253). -/
theorem State.readOf_spec {s : State} {c id u : Nat} {r : PortReq} (h : s.readOf c id = some (u, r)) :
    r ∈ s.asked u r ∧ r.core = c ∧ r.barge = id := by
  obtain ⟨u', -, hu⟩ := List.exists_of_findSome?_eq_some h
  obtain ⟨r', hr, he⟩ := Option.map_eq_some_iff.1 hu
  cases he
  have ok := List.find?_some hr
  simp only [Bool.and_eq_true, decide_eq_true_eq] at ok
  obtain ⟨⟨⟨⟨taken, -⟩, hc⟩, hid⟩, -⟩ := ok
  exact ⟨List.mem_filter.2 ⟨List.mem_of_find?_eq_some hr, by rw [taken, PortReq.same_self]; rfl⟩, hc, hid⟩

/-- A barge whose request has failed (08 R253). -/
def Barge.fail (g : Barge) (cause at_ : Nat) : Barge := { g with failed := true, failCause := cause, failAt := at_, suspended := false }

/-- The mark of a failed barge: that it has FAILED, and its CAUSE. -/
def Barge.failMark (g : Barge) : Bool × Nat := (g.failed, g.failCause)

/-- A barge that has FAILED with a cause, or is still to be named, has FAILED with it in the end. -/
theorem State.foldl_fail {s : State} {c id cause at_ : Nat} {rs : List PortReq} {g : Barge} (hg : s.barge c id = some g)
    (h : g.failMark = (true, cause) ∨ ∃ q ∈ rs, q.core = c ∧ q.barge = id) :
    ((rs.foldl (fun s q => s.updBarge q.core q.barge fun h => h.fail cause at_) s).barge c id).map Barge.failMark = some (true, cause) := by
  induction rs generalizing s g with
  | nil =>
    obtain h | ⟨q, hq, -⟩ := h
    · rw [List.foldl_nil, hg, Option.map_some, h]
    · exact absurd hq List.not_mem_nil
  | cons q rs ih =>
    rw [List.foldl_cons]
    by_cases hq : q.core = c ∧ q.barge = id
    · obtain ⟨rfl, rfl⟩ := hq
      exact ih (State.barge_updBarge_self (fun _ => rfl) hg) (.inl rfl)
    · refine ih (State.barge_updBarge_other (fun _ => rfl) hg hq) (h.imp_right fun ⟨r, hr, hc, hid⟩ => ?_)
      obtain rfl | hr := List.mem_cons.1 hr
      · exact absurd ⟨hc, hid⟩ hq
      · exact ⟨r, hr, hc, hid⟩

/-- The barge whose read has failed is marked so, and no counter changes (08 R253). -/
theorem State.failRead_marks {s : State} {c id u : Nat} {r : PortReq} {g g' : Barge} (hg : s.barge c id = some g)
    (hr : s.readOf c id = some (u, r)) (cause : Nat) :
    ((s.failRead u r g' cause).barge c id).map Barge.failMark = some (true, cause) ∧ (s.failRead u r g' cause).pmc = s.pmc := by
  have cores : (s.poisonReturn u r g').cores = s.cores := State.cores_of_coresMem <| by
    rw [State.poisonReturn, State.dropReqs, State.setReqs_coresMem, foldl_coresMem _ fun t f => t.sendReturn_coresMem u f]
  have found : (s.poisonReturn u r g').barge c id = some g := by
    rw [State.barge, State.core, cores]
    exact hg
  have sent : ∀ (t : State) (f : Flit), (t.sendReturn u f).pmc = t.pmc := by
    intro t f
    unfold State.sendReturn
    dsimp only
    split
    · rfl
    · rfl
  have returned : (s.poisonReturn u r g').pmc = s.pmc := by
    rw [State.poisonReturn, State.dropReqs, State.setReqs_eq]
    exact List.foldlRecOn (motive := fun t : State => t.pmc = s.pmc) _ _ rfl fun t ht f _ => (sent t f).trans ht
  refine ⟨State.foldl_fail found (.inr ⟨r, State.readOf_spec hr⟩), ?_⟩
  exact List.foldlRecOn (motive := fun t : State => t.pmc = s.pmc) _ _ returned fun _ ht _ _ => ht

/-- The state in which a barge's request for page `p` has been counted as failed and is no longer under way (09 R287; 16 R448). -/
def State.withdrawn (s : State) (c id p : Nat) : State :=
  (s.count .tier 0 7 1).updBarge c id fun h => { h with hostAsks := h.hostAsks.filter fun q => decide (q ≠ p) }

theorem State.failHost_brg {s : State} {b p c id u : Nat} {r : PortReq} {g : Barge} (hg : s.barge c id = some g) (hk : g.kind = .brg)
    (hr : s.readOf c id = some (u, r)) (cause : Nat) (lost : List Nat) :
    s.failHost b p (.barge c id) cause lost = ((s.withdrawn c id p).failRead u r g cause).rescuePage b p lost := by
  have asked : (s.withdrawn c id p).readOf c g.id = some (u, r) := by
    rw [State.barge_id hg]
    exact hr
  have fails : (s.withdrawn c id p).failOne b c g p cause = (s.withdrawn c id p).failRead u r g cause := by
    rw [State.failOne, hk, asked]
  have counted : (s.count .tier 0 7 1).barge c id = some g := hg
  rw [← fails]
  unfold State.failHost
  dsimp only
  rw [counted]
  rfl

theorem hostTier_barge_fails (s : State) (b p c id u : Nat) (g : Barge) (r : PortReq) (lost : List Nat)
    (ha : s.hostAsked b p (.barge c id) = true) (hg : s.barge c id = some g) (hk : g.kind = .brg) (hr : s.readOf c id = some (u, r)) :
    (∃ t : State, exec (.hostTierTimeout b ⟨p, (.barge c id)⟩ lost) s = .next ((t.rescuePage b p lost).wake) ∧
      (t.barge c id).map (fun h => (h.failed, h.failCause)) = some (true, 2) ∧
      t.counter .tier 0 7 = (s.counter .tier 0 7 + 1) % 2 ^ 64) ∧
    (s.hostReaches = true →
      ∃ t : State, exec (.hostTierResponse b ⟨p, (.barge c id)⟩ (.error lost)) s = .next ((t.rescuePage b p lost).wake) ∧
        (t.barge c id).map (fun h => (h.failed, h.failCause)) = some (true, 1)) := by
  have found : ∃ h, (s.withdrawn c id p).barge c id = some h := by
    refine ⟨_, State.barge_updBarge_self (fun _ => ?_) (show (s.count .tier 0 7 1).barge c id = some g from hg)⟩
    rfl
  obtain ⟨h, hh⟩ := found
  have marks := State.failRead_marks (s := s.withdrawn c id p) (g' := g) hh hr
  refine ⟨⟨_, (exec_hostTierTimeout ha lost).trans (by rw [State.failHost_brg hg hk hr]), (marks 2).1, ?_⟩,
    fun hreach => ⟨_, (exec_hostTierResponse_error ha hreach lost).trans (by rw [State.failHost_brg hg hk hr]), (marks 1).1⟩⟩
  rw [State.counter, (marks 2).2]
  exact State.counter_count ..

/-- Settles O27: an answer by what it gives the one that asked, a failure by the page that is rescued and the barge that is marked. -/
theorem hostTierRequests : Obligations.HostTierRequests :=
  ⟨fun _ _ _ _ ha hr => ⟨hostTierResponse_data_answers ha hr, hostTierResponse_poisoned_answers ha hr⟩, hostTier_engine_rescues,
    hostTier_barge_fails⟩

end Sys2Proof.Machine

/-! What leaves the Whetstone engines as they are: reads of memory by an engine, and the stop of a basin (02 R50; 09 R265, R266; 10 R313). -/

namespace Sys2Proof.Machine

@[simp] theorem foldl_whs {α : Type} (f : State → α → State) (h : ∀ s a, (f s a).whs = s.whs) (l : List α) (s : State) :
    (l.foldl f s).whs = s.whs :=
  List.foldlRecOn (motive := fun t => t.whs = s.whs) l f rfl fun t ht a _ => (h t a).trans ht

theorem State.engine_of_whs {s t : State} (h : t.whs = s.whs) (n : Nat) : t.engine n = s.engine n :=
  (congrArg (fun w : SMap Whs => SMap.get {} w n) h :)

/-! ### Notices and reports -/

@[simp] theorem State.notify_whs (s : State) (fn : HostFn) (v : Nat) : (s.notify fn v).whs = s.whs := by
  unfold State.notify
  dsimp only
  split
  · cases fn with
    | pf0 => rfl
    | vf b => rfl
  · rfl

@[simp] theorem State.setEvent_whs (s : State) (b i : Nat) : (s.setEvent b i).whs = s.whs := by
  simp [State.setEvent, State.markEvent]

@[simp] theorem State.report_whs (s : State) (r : Report) : (s.report r).whs = s.whs := by
  unfold State.report
  dsimp only
  split
  · split
    · rfl
    · rfl
  · unfold State.postReport
    split
    · exact State.notify_whs ..
    · rfl

/-! ### The stop of a basin -/

@[simp] theorem State.updCores_whs (s : State) (cs : List Nat) (f : Nat → Core → Core) : (s.updCores cs f).whs = s.whs := by
  unfold State.updCores
  exact foldl_whs _ (fun t c => t.updCore_whs c (f c)) _ _

@[simp] theorem State.stopCores_whs (s : State) (b : Nat) : (s.stopCores b).whs = s.whs := State.updCores_whs ..

@[simp] theorem State.startTest_whs (s : State) (b : Nat) : (s.startTest b).whs = s.whs := by
  have quarry : ∀ u : State, (u.switchQuarry true).whs = u.whs := fun u => by
    unfold State.switchQuarry
    split
    · rfl
    · rfl
  unfold State.startTest
  dsimp only
  split
  · exact quarry _
  · exact quarry _

@[simp] theorem State.restTest_whs (s : State) (b : Nat) : (s.restTest b).whs = s.whs := by
  unfold State.restTest State.takeRebind
  split
  · rfl
  · split
    · exact s.startTest_whs b
    · split
      · rfl
      · rfl

@[simp] theorem State.enterFence_whs (s : State) (b : Option Nat) (kind c : Nat) : (s.enterFence b kind c).whs = s.whs :=
  State.report_whs ..

@[simp] theorem State.applyFences_whs (s : State) (b : Nat) : (s.applyFences b).whs = s.whs := by
  unfold State.applyFences
  dsimp only
  split
  · simp [State.beginUnbind, State.dropTest]
  · simp [State.enterParked, State.markEvent]

@[simp] theorem State.haltBasin_whs (s : State) (b cause : Nat) : (s.haltBasin b cause).whs = s.whs := by
  unfold State.haltBasin State.settle
  split
  · simp
  · simp

@[simp] theorem State.beginRestart_whs (s : State) (b cause : Nat) : (s.beginRestart b cause).whs = s.whs := by
  unfold State.beginRestart
  dsimp only
  split
  · exact s.haltBasin_whs b cause
  · exact s.stopCores_whs b

/-! ### Moves out of a fenced frame -/

theorem State.takeMap_whs {s t : State} {b p : Nat} (h : s.takeMap b p = some t) : t.whs = s.whs := by
  unfold State.takeMap at h
  split at h
  · cases h
    rfl
  · obtain ⟨e, -, rfl⟩ := Option.map_eq_some_iff.1 h
    unfold State.zeroFill
    dsimp only
    split
    · simp only [State.updPage_whs, State.count_whs]
    · simp only [State.updPage_whs, State.count_whs]

@[simp] theorem State.addMove_whs (s : State) (b p : Nat) (c : MoveCause) (f : Page → Page) : (s.addMove b p c f).whs = s.whs := by
  have ask : ∀ u : State, (u.askMove b p).whs = u.whs := fun u => by
    unfold State.askMove
    dsimp only
    split
    · rfl
    · split
      · rfl
      · split
        · rfl
        · rfl
  unfold State.addMove
  split
  · rfl
  · next u h =>
      have took : u.whs = s.whs := State.takeMap_whs h
      exact (ask _).trans took

@[simp] theorem State.rawMove_whs (s : State) (f : Nat) (c : MoveCause) : (s.rawMove f c).whs = s.whs := by
  unfold State.rawMove State.addRaw
  split
  · split
    · rfl
    · rfl
  · rfl

@[simp] theorem State.fenceMoves_whs (s : State) (f : Nat) : (s.fenceMoves f).whs = s.whs := by
  unfold State.fenceMoves
  rw [foldl_whs, State.rawMove_whs]
  refine fun t e => foldl_whs _ (fun u q => ?_) _ _
  dsimp only
  split
  · rfl
  · split
    · split
      · exact u.addMove_whs ..
      · rfl
    · split
      · split
        · exact u.addMove_whs ..
        · rfl
      · rfl

/-! ### Reads by an engine -/

@[simp] theorem State.chargeFrame_whs (s : State) (b : Option Nat) (f i detail : Nat) : (s.chargeFrame b f i detail).whs = s.whs := by
  have fence : ∀ u : State, (u.fenceFrame f).whs = u.whs := fun u => by
    unfold State.fenceFrame
    dsimp only
    split
    · rfl
    · rw [State.report_whs, State.fenceMoves_whs]
      rfl
  unfold State.chargeFrame
  dsimp only
  split
  · simp only [fence, State.report_whs, State.addCharge, State.count_whs, State.updPort_whs]
  · simp only [State.report_whs, State.addCharge, State.count_whs, State.updPort_whs]

@[simp] theorem State.uncorrectable_whs (s : State) (b blk : Nat) : (s.uncorrectable b blk).whs = s.whs := by
  unfold State.uncorrectable
  dsimp only
  split
  · rfl
  · exact State.chargeFrame_whs ..

@[simp] theorem State.crcRetries_whs (s : State) (n k : Nat) : (s.crcRetries n k).whs = s.whs := by
  have retrain : ∀ u : State, (u.requestRetrain n).whs = u.whs := fun u => by
    unfold State.requestRetrain
    dsimp only
    split
    · rfl
    · split
      · rfl
      · rfl
  unfold State.crcRetries
  dsimp only
  split
  · rfl
  · split
    · exact retrain _
    · rfl

/-- What a read does at the stack of one of its blocks. -/
theorem State.atBlock_whs {s : State} {b : Nat} {o : Option Nat} {f : State → Nat → Nat → State}
    (hf : ∀ n j, (f s n j).whs = s.whs) :
    (match o with
      | some j => (match (s.basin b).blockFrame j with | some fr => f s (stackOf fr) j | none => s)
      | none => s).whs = s.whs := by
  split
  · split
    · exact hf ..
    · rfl
  · rfl

@[simp] theorem State.readErrors_whs (s : State) (b : Nat) (blks : List Nat) (e : ReadEnv) : (s.readErrors b blks e).whs = s.whs := by
  unfold State.readErrors
  dsimp only
  rw [foldl_whs, foldl_whs, foldl_whs]
  · exact fun t i => State.atBlock_whs (f := fun s n _ => (s.updPort n fun p => { p with corr := satAdd 16 p.corr 1 }).count .memp n 6 1)
      fun n _ => (State.count_whs ..).trans (State.updPort_whs ..)
  · exact fun t i => State.atBlock_whs (f := fun s _ j => s.uncorrectable b j) fun _ j => t.uncorrectable_whs b j
  · exact fun t x => State.atBlock_whs (f := fun s n _ => s.crcRetries n (min 2 x.2)) fun n _ => t.crcRetries_whs n _

@[simp] theorem State.countIo_whs (s : State) (b : Nat) (w : Bool) (o : Option Nat) (blks : List Nat) :
    (s.countIo b w o blks).whs = s.whs := by
  unfold State.countIo
  refine foldl_whs _ (fun t j => ?_) _ _
  dsimp only
  split
  · split
    · split
      · simp only [State.count_whs]
      · simp only [State.count_whs]
    · simp only [State.count_whs]
  · split
    · simp only [State.count_whs]
    · rfl

@[simp] theorem State.useAnswers_whs (s : State) (b : Nat) (blks : List Nat) : (s.useAnswers b blks).whs = s.whs := by
  unfold State.useAnswers
  refine foldl_whs _ (fun t p => ?_) _ _
  split
  · rfl
  · rfl

@[simp] theorem State.readMet_whs (s : State) (b : Nat) (blks : List Nat) (e : ReadEnv) : (s.readMet b blks e).1.whs = s.whs := by
  unfold State.readMet
  dsimp only
  rw [State.countIo_whs, State.readErrors_whs, foldl_whs]
  refine fun t p => ?_
  unfold State.resolveBias
  split
  · rfl
  · rfl

end Sys2Proof.Machine

/-! Chunks at a Whetstone engine (10 R294, R299, R311, R312). -/

namespace Sys2Proof.Machine

/-! ### An engine takes a chunk -/

/-- To make the pages of a chunk's outputs ready changes nothing but the tier engine's work. -/
@[simp] theorem State.outputsReady_still (s : State) (k : Chunk) : (s.outputsReady k).1.still = s.still := by
  unfold State.outputsReady
  dsimp only
  split
  · rfl
  · have made := fun ps => s.prepPages_still k.basin ps
    split
    · next h => exact (congrArg (fun p => State.still p.1) h).symm.trans (made _)
    · next h => exact (congrArg (fun p => State.still p.1) h).symm.trans (made _)
    · rfl

section takes

variable {s s2 : State} {n : Nat} {k : Chunk} (h : s.takes n k s2)
include h

/-- A chunk that an engine takes is computed on the state in which its inputs and outputs are ready. -/
theorem State.takes.exec_whetstoneChunk (firstFails repeatFails : Bool) (fault : Option Upset) (env : ReadEnv) :
    exec (.whetstoneChunk n firstFails repeatFails ⟨fault, env⟩) s = .next (s2.computeAt n k firstFails repeatFails fault env) := by
  obtain ⟨active, clocks, next, running, s1, inputs, outputs⟩ := h
  show execWhetstoneChunk n firstFails repeatFails ⟨fault, env⟩ s = _
  simp [execWhetstoneChunk, active, clocks, next, running, inputs, outputs]

/-- A chunk whose results agree, and whose reads meet no error, runs on its inputs as memory holds them. -/
theorem State.takes.exec_runChunk (fault : Option Upset) :
    exec (.whetstoneChunk n false false ⟨fault, {}⟩) s =
      .next ((s2.chunkRead k).runChunk n k ((s2.chunkRead k).basin k.basin)) :=
  h.exec_whetstoneChunk false false fault {}

/-- To make pages ready and to read inputs changes no byte of memory. -/
theorem State.takes.chunkRead_memByte (b a : Nat) : (s2.chunkRead k).memByte b a = (s.finishPasses n).memByte b a := by
  obtain ⟨-, -, -, -, s1, inputs, outputs⟩ := h
  have asked : s1.still = (s.finishPasses n).still := by
    simpa [inputs] using (s.finishPasses n).readReady_still k.basin ((s.finishPasses n).chunkInputs k)
  have made : s2.still = s1.still := by
    simpa [outputs] using s1.outputsReady_still k
  have read : (s2.chunkRead k).still = s2.still := by
    rw [State.chunkRead, State.readMet_still, State.useAnswers_still]
  exact State.memByte_of_still (read.trans (made.trans asked)) b a

end takes

/-! ### A norm chunk -/

/-- A norm chunk with a sound gradient leaves its engine's queue, and its sums join the norms; no basin changes (10 R299). -/
theorem State.runChunk_norm (s : State) (n : Nat) {k : Chunk} {v : Basin} (hgrad : v.gradBad (v.whsLayer k.layer) k = false)
    (hnorm : k.norm = true) :
    (s.runChunk n k v).norms = s.norms ++ [v.chunkNorms (s.chunkCtx v k) k] ∧
      ((s.runChunk n k v).engine n).queue = (s.engine n).queue.erase k ∧ ((s.runChunk n k v).engine n).turn = k.basin ∧
      (s.runChunk n k v).basins = s.basins := by
  have taken : (s.takeChunk n k).engine n = { s.engine n with queue := (s.engine n).queue.erase k, turn := k.basin } := by
    rw [State.takeChunk, State.engine_updEngine_self]
  rw [State.runChunk, if_neg (by simp [hgrad]), if_pos hnorm]
  exact ⟨rfl, congrArg Whs.queue taken, congrArg Whs.turn taken, rfl⟩

theorem normChunk_adds {s s2 : State} {n : Nat} {k : Chunk} (fault : Option Upset) (h : s.takes n k s2) :
    let s3 := s2.chunkRead k
    let v := s3.basin k.basin
    v.gradBad (v.whsLayer k.layer) k = false → k.norm = true →
    ∃ t, exec (.whetstoneChunk n false false ⟨fault, {}⟩) s = .next t ∧
      t.norms = s3.norms ++ [v.chunkNorms (s3.chunkCtx v k) k] ∧
      (t.engine n).queue = (s3.engine n).queue.erase k ∧ (t.engine n).turn = k.basin ∧
      ∀ b a, t.memByte b a = (s.finishPasses n).memByte b a := by
  intro s3 v sound norm
  obtain ⟨norms, queue, turn, basins⟩ := s3.runChunk_norm n sound norm
  refine ⟨_, h.exec_runChunk fault, norms, queue, turn, fun b a => ?_⟩
  rw [← h.chunkRead_memByte b a, State.memByte, State.basin, basins]
  rfl

/-! ### A poisoned gradient -/

/-- The abort of a pass of a RUNNING basin below its RESTART_LIMIT: the basin counts it and restarts, and no other changes (10 R312). -/
theorem State.abortPass_restarts {s : State} {b : Nat} (cause : Nat) (hrun : (s.basin b).phase = .running)
    (hlimit : (s.basin b).restarts < (s.basin b).restartLimit) :
    (s.abortPass b cause).basin b = { s.basin b with
      whsAborts := satAdd 8 (s.basin b).whsAborts 1, whsAbortCause := cause, phase := .restarting, lastCause := 0, sluice := none } ∧
    ∀ b', b' ≠ b → (s.abortPass b cause).basin b' = s.basin b' := by
  let u := ((s.dropPasses b).updBasin b fun v => { v with whsAborts := satAdd 8 v.whsAborts 1, whsAbortCause := cause }).count .basin b 10 1
  have basin : ∀ b', u.basin b' = if b = b' then
      { s.basin b with whsAborts := satAdd 8 (s.basin b).whsAborts 1, whsAbortCause := cause } else s.basin b' := fun b' => by
    rw [State.basin_count, State.basin_updBasin]
    rfl
  have own := (basin b).trans (if_pos rfl)
  have run : s.abortPass b cause =
      (u.stopCores b).updBasin b fun x => { x with phase := .restarting, lastCause := 0, sluice := none } := by
    show (if (u.basin b).phase = .running then u.beginRestart b 0 else u) = _
    rw [if_pos (by rw [own]; exact hrun), State.beginRestart, if_neg (by rw [own]; exact Nat.not_le.2 hlimit)]
  rw [run]
  refine ⟨?_, fun b' hb => ?_⟩
  · rw [State.basin_updBasin_self, State.stopCores, State.basin_updCores, own]
  · rw [State.basin_updBasin, if_neg hb.symm, State.stopCores, State.basin_updCores]
    exact (basin b').trans (if_neg hb.symm)

theorem poisonedGradient_aborts {s s2 : State} {n : Nat} {k : Chunk} (fault : Option Upset) (h : s.takes n k s2) :
    let v := (s2.chunkRead k).basin k.basin
    v.gradBad (v.whsLayer k.layer) k = true → v.restarts < v.restartLimit → v.phase = .running →
    ∃ t, exec (.whetstoneChunk n false false ⟨fault, {}⟩) s = .next t ∧ (t.basin k.basin).phase = .restarting ∧
      (t.basin k.basin).whsAborts = min 255 (v.whsAborts + 1) ∧ (t.basin k.basin).whsAbortCause = 2 ∧
      ∀ b a, t.memByte b a = (s.finishPasses n).memByte b a := by
  intro v bad limit running
  obtain ⟨own, others⟩ := State.abortPass_restarts 2 running limit
  have run := h.exec_runChunk fault
  rw [State.runChunk, if_pos bad] at run
  refine ⟨_, run, by rw [own], by rw [own]; rfl, by rw [own], fun b a => ?_⟩
  rw [← h.chunkRead_memByte b a, State.memByte, State.memByte]
  by_cases hb : b = k.basin
  · rw [hb, own]
  · rw [others b hb]

/-! ### An update chunk -/

/-- A basin with a chunk's outputs counted (10 R314). -/
def Basin.countOut (v : Basin) (o : ChunkOut) : Basin :=
  { v with whsWcSat := satAdd 16 v.whsWcSat o.sat, whsPoison := satAdd 8 v.whsPoison (if o.poison then 1 else 0) }

/-- Engine `n` has written the outputs `o` of chunk `k`, of `m` elements (10 R300, R312, R314). -/
def State.wroteChunk (s : State) (n : Nat) (k : Chunk) (m : Nat) (o : ChunkOut) : State :=
  (((s.takeChunk n k).count .memp n 11 m).updBasin k.basin (·.countOut o)).updPass k.basin k.layer
    fun p => { p with newAmax := max p.newAmax o.amax }

theorem State.wroteChunk_memByte (s : State) (n : Nat) (k : Chunk) (m : Nat) (o : ChunkOut) (b a : Nat) :
    (s.wroteChunk n k m o).memByte b a = s.memByte b a :=
  State.memByte_of_coresMem (t := ((s.takeChunk n k).count .memp n 11 m).updBasin k.basin (·.countOut o))
    (State.updBasin_coresMem fun _ => rfl) b a

theorem State.wroteChunk_queue (s : State) (n : Nat) (k : Chunk) (m : Nat) (o : ChunkOut) :
    ((s.wroteChunk n k m o).engine n).queue = (s.engine n).queue.erase k := by
  have taken : (s.wroteChunk n k m o).whs = (s.takeChunk n k).whs := rfl
  rw [State.engine_of_whs taken, State.takeChunk, State.engine_updEngine_self]

theorem State.wroteChunk_wcSat (s : State) (n : Nat) (k : Chunk) (m : Nat) (o : ChunkOut) :
    ((s.wroteChunk n k m o).basin k.basin).whsWcSat = satAdd 16 (s.basin k.basin).whsWcSat o.sat :=
  congrArg Basin.whsWcSat (((s.takeChunk n k).count .memp n 11 m).basin_updBasin_self k.basin (·.countOut o))

/-- An update chunk whose outputs can be written ends with them. -/
theorem State.updateChunk_of_written {s s4 s5 : State} {n : Nat} {k : Chunk} {v : Basin} {p : LayerPass}
    (hopen : s.openPass k.basin k.layer = s4) (htouch : v.untouched (v.whsLayer k.layer) k.chunk = false)
    (hpass : s4.pass k.basin k.layer = some p)
    (hwrite : s4.engineWrite k.basin (v.computeChunk (s4.chunkCtx v k) k p).writes = (s5, true)) :
    s.updateChunk n k v = (s5.wroteChunk n k ((v.whsLayer k.layer).chunkElems k.chunk).2
      (v.computeChunk (s4.chunkCtx v k) k p)).endChunk k.basin k.layer k.chunk := by
  have touched : v.untouched (s4.chunkCtx v k).r k.chunk = false := htouch
  simp only [State.updateChunk, hopen, touched, hpass, hwrite]
  rfl

theorem updateChunk_writes {s s2 : State} {n : Nat} {k : Chunk} (fault : Option Upset) (h : s.takes n k s2) (s5 : State) (p : LayerPass) :
    let v := (s2.chunkRead k).basin k.basin
    v.gradBad (v.whsLayer k.layer) k = false → k.norm = false →
    let s4 := (s2.chunkRead k).openPass k.basin k.layer
    let c := s4.chunkCtx v k
    let o := v.computeChunk c k p
    v.untouched c.r k.chunk = false → s4.pass k.basin k.layer = some p → s4.engineWrite k.basin o.writes = (s5, true) →
    ∃ t : State, exec (.whetstoneChunk n false false ⟨fault, {}⟩) s = .next (t.endChunk k.basin k.layer k.chunk) ∧
      (∀ b a, t.memByte b a = s5.memByte b a) ∧ (t.engine n).queue = (s5.engine n).queue.erase k ∧
      (t.basin k.basin).whsWcSat = min (2 ^ 16 - 1) ((s5.basin k.basin).whsWcSat + o.sat) := by
  intro v sound norm s4 c o touched pass written
  have run := h.exec_runChunk fault
  rw [State.runChunk, if_neg (by rw [sound]; decide), if_neg (by rw [norm]; decide),
    State.updateChunk_of_written rfl touched pass written] at run
  exact ⟨_, run, s5.wroteChunk_memByte n k _ o, s5.wroteChunk_queue .., s5.wroteChunk_wcSat ..⟩

/-! ### A check that fails -/

/-- An engine but for its queue and its turn. -/
def Whs.besideQueue (e : Whs) : Whs := { e with turn := 0, queue := [] }

theorem Whs.parts_of_besideQueue {e f : Whs} (h : e.besideQueue = f.besideQueue) :
    e.st = f.st ∧ e.cause = f.cause ∧ e.retries = f.retries ∧ e.lastLayer = f.lastLayer :=
  ⟨(congrArg Whs.st h :), (congrArg Whs.cause h :), (congrArg Whs.retries h :), (congrArg Whs.lastLayer h :)⟩

theorem State.besideQueue_updEngine {s : State} {n : Nat} {f : Whs → Whs} (hf : ∀ e, (f e).besideQueue = e.besideQueue) (m : Nat) :
    ((s.updEngine n f).engine m).besideQueue = (s.engine m).besideQueue := by
  rw [State.engine_updEngine]
  split
  · next e => rw [hf, e]
  · rfl

theorem State.moveChunks_besideQueue (s : State) (n m : Nat) :
    ((s.moveChunks n).engine m).besideQueue = (s.engine m).besideQueue := by
  refine List.foldlRecOn (motive := fun t : State => (t.engine m).besideQueue = (s.engine m).besideQueue) _ _ ?_ fun t ht k _ => ?_
  · refine State.besideQueue_updEngine (fun _ => ?_) m
    rfl
  · refine (State.besideQueue_updEngine (fun _ => ?_) m).trans ht
    rfl

theorem State.dropPasses_besideQueue (s : State) (b m : Nat) :
    ((s.dropPasses b).engine m).besideQueue = (s.engine m).besideQueue := by
  unfold State.dropPasses State.engine
  rw [SMap.get_mapV _ _ _ _ rfl]
  rfl

theorem State.abortPass_besideQueue (s : State) (b cause m : Nat) :
    ((s.abortPass b cause).engine m).besideQueue = (s.engine m).besideQueue := by
  have stop : (s.abortPass b cause).whs = (s.dropPasses b).whs := by
    unfold State.abortPass
    dsimp only
    split
    · exact State.beginRestart_whs ..
    · rfl
  rw [State.engine_of_whs stop, State.dropPasses_besideQueue]

/-- A fenced engine keeps its counts and its last chunk (10 R313). -/
theorem State.fenceEngine_besideQueue (s : State) (n : Nat) (k : Chunk) (cause : Nat) :
    ((s.fenceEngine n k cause).engine n).besideQueue =
      Whs.besideQueue { s.engine n with st := .fenced, cause := cause } := by
  have aborts : ∀ (l : List Nat) (u : State),
      ((l.foldl (fun s b => s.abortPass b 1) u).engine n).besideQueue = (u.engine n).besideQueue := fun l u =>
    List.foldlRecOn (motive := fun t : State => (t.engine n).besideQueue = (u.engine n).besideQueue) l _ rfl
      fun t ht b _ => (t.abortPass_besideQueue b 1 n).trans ht
  unfold State.fenceEngine
  dsimp only
  rw [State.moveChunks_besideQueue, aborts, State.engine_of_whs (State.report_whs ..)]
  exact congrArg Whs.besideQueue ((State.engine_of_whs (State.report_whs ..) n).trans (State.engine_updEngine_self ..))

/-- A first check has failed: engine `n` counts the retry and notes the chunk (10 R311, R313). -/
def State.retried (s : State) (n : Nat) (k : Chunk) : State :=
  (s.updEngine n fun e => { e with
    retries := satAdd 16 e.retries 1, lastValid := true, lastBasin := k.basin, lastLayer := k.layer, lastChunk := k.chunk }).count
      .memp n 12 1

theorem State.retried_engine (s : State) (n : Nat) (k : Chunk) : (s.retried n k).engine n = { s.engine n with
    retries := satAdd 16 (s.engine n).retries 1, lastValid := true, lastBasin := k.basin, lastLayer := k.layer,
    lastChunk := k.chunk } := by
  rw [State.retried, State.engine_count, State.engine_updEngine_self]

/-- A chunk whose check fails, and fails again at the repeat, fences its engine, which has counted the retry (10 R311). -/
theorem State.computeAt_fences (s : State) (n : Nat) (k : Chunk) (fault : Option Upset) (env : ReadEnv) :
    ∃ (u : State) (cause : Nat), u.whs = s.whs ∧ s.computeAt n k true true fault env = (u.retried n k).fenceEngine n k cause ∧
      (fault = none → cause = 1) ∧ (cause = 1 ∨ cause = 2) := by
  unfold State.computeAt
  dsimp only
  rw [if_neg (by simp), if_pos (by simp)]
  refine ⟨_, _, ?_, rfl, fun none => ?_, (ite_eq_or_eq _ 2 1).symm⟩
  · rw [State.readMet_whs, State.useAnswers_whs]
  · simp [none]

theorem failedCheck_fences (s s2 : State) (n : Nat) (k : Chunk) (fault : Option Upset) (env : ReadEnv) (h : s.takes n k s2) :
    ∃ t, exec (.whetstoneChunk n true true ⟨fault, env⟩) s = .next t ∧ (t.engine n).st = .fenced ∧
      (fault = none → (t.engine n).cause = 1) ∧ ((t.engine n).cause = 1 ∨ (t.engine n).cause = 2) ∧
      (t.engine n).retries = min (2 ^ 16 - 1) ((s2.engine n).retries + 1) ∧ (t.engine n).lastLayer = k.layer := by
  obtain ⟨u, cause, whs, run, sound, known⟩ := s2.computeAt_fences n k fault env
  obtain ⟨st, causes, retries, layer⟩ := Whs.parts_of_besideQueue ((u.retried n k).fenceEngine_besideQueue n k cause)
  have counted := u.retried_engine n k
  rw [State.engine_of_whs whs] at counted
  refine ⟨_, (h.exec_whetstoneChunk true true fault env).trans (congrArg _ run), st, fun none => ?_, ?_, ?_, ?_⟩
  · rw [causes, sound none]
  · rw [causes]
    exact known
  · rw [retries, counted]
    rfl
  · rw [layer, counted]

/-! ### The trust ratio of a layer -/

/-- The pass of a layer whose rule reads no mixed gradient opens without a change of any basin (10 R303, R314). -/
theorem State.openPass_of_unmixed {s : State} {b n : Nat} (hk : ((s.basin b).whsLayer n).rule ≠ ruleKron)
    (ho : ((s.basin b).whsLayer n).rule ≠ ruleOrtho) : ∃ ps, s.openPass b n = { s with passes := ps } := by
  unfold State.openPass
  dsimp only
  split
  · exact ⟨_, rfl⟩
  · rw [if_neg (by simp [hk, ho])]
    exact ⟨_, rfl⟩

/-- The lead engine has formed the ratio `v` of a layer of basin `b`, and the layer's norms are spent (10 R299). -/
def State.formTrust (s : State) (b n : Nat) (v : FVal) : State :=
  { s with
    trust := s.trust ++ [(b, n, BitVec.ofNat 32 (fp32.encode v))]
    norms := s.norms.filter fun x => !(decide (x.basin = b) && decide (x.layer = n)) }

theorem State.formTrust_spends {s : State} {b n : Nat} {v : FVal} {x : NormSum} (h : x ∈ (s.formTrust b n v).norms) :
    ¬ (x.basin = b ∧ x.layer = n) := by
  have kept := (List.mem_filter.1 h).2
  rintro ⟨hb, hn⟩
  simp [hb, hn] at kept

theorem trustNorms_combine (s : State) (b n : Nat) :
    let r := (s.basin b).whsLayer n
    let ns := s.layerNorms b n r.chunks
    r.rule = ruleTrust → r.chunks ≠ 0 → ns.length = r.chunks →
    s.trust.any (fun t => decide (t.1 = b) && decide (t.2.1 = n)) = false →
    ∃ t, exec (.trustNormCombine b n) s = .next t ∧
      t.trust = s.trust ++ [(b, n, BitVec.ofNat 32 (fp32.encode (trustRatio (fp32.decode r.auxF) ns)))] ∧
      (∀ x ∈ t.norms, ¬ (x.basin = b ∧ x.layer = n)) ∧ t.basins = s.basins := by
  intro r ns rule chunks all fresh
  let u := s.formTrust b n (trustRatio (fp32.decode r.auxF) ns)
  have run : exec (.trustNormCombine b n) s =
      .next (if ns.any (·.poison) then (u.openPass b n).updPass b n fun p => { p with poison := true } else u) := by
    show execTrustNormCombine b n s = _
    exact congrArg _ (if_pos ⟨rule, chunks, all, by rw [fresh]; rfl⟩)
  have unmixed : ∀ m, ruleTrust ≠ m → ((u.basin b).whsLayer n).rule ≠ m := fun m => ne_of_eq_of_ne rule
  obtain ⟨ps, opened⟩ := State.openPass_of_unmixed (unmixed ruleKron (by decide)) (unmixed ruleOrtho (by decide))
  have spent : ∀ x ∈ u.norms, ¬ (x.basin = b ∧ x.layer = n) := fun _ => State.formTrust_spends
  refine ⟨_, run, ?_⟩
  split
  · rw [opened]
    exact ⟨rfl, spent, rfl⟩
  · exact ⟨rfl, spent, rfl⟩

/-- Settles O28: a chunk by the state on which its engine computes it, a fence by what no queue holds of an engine. -/
theorem whetstoneChunks : Obligations.WhetstoneChunks :=
  ⟨fun _ _ _ _ fault h => ⟨normChunk_adds fault h, poisonedGradient_aborts fault h, updateChunk_writes fault h⟩, failedCheck_fences,
    trustNorms_combine⟩

end Sys2Proof.Machine

/-! Writes of BSN_LAUNCH (07 R236; 11 R326, R329; 13 R386). -/

namespace Sys2Proof.Machine

/-! ### What a write of BSN_LAUNCH leaves -/

/-- A write of BSN_LAUNCH leaves the phase and the memory of its basin, and every other basin. -/
structure State.LaunchLeaves (b : Nat) (s t : State) : Prop where
  phase : (t.basin b).phase = (s.basin b).phase
  mem : (t.basin b).mem = (s.basin b).mem
  others : ∀ b', b' ≠ b → t.basin b' = s.basin b'

namespace State.LaunchLeaves

variable {b : Nat} {s t u : State}

theorem of_same (h : ∀ b', t.basin b' = s.basin b') : s.LaunchLeaves b t := ⟨by rw [h], by rw [h], fun b' _ => h b'⟩

theorem trans (h : s.LaunchLeaves b t) (g : t.LaunchLeaves b u) : s.LaunchLeaves b u where
  phase := g.phase.trans h.phase
  mem := g.mem.trans h.mem
  others b' hb := (g.others b' hb).trans (h.others b' hb)

theorem refl (s : State) : s.LaunchLeaves b s := of_same fun _ => rfl

theorem same (h : s.LaunchLeaves b t) (e : u.basins = t.basins) : s.LaunchLeaves b u :=
  h.trans (of_same fun _ => by rw [State.basin, State.basin, e])

theorem updBasin {f : Basin → Basin} (h : s.LaunchLeaves b t) (hp : ∀ v, (f v).phase = v.phase) (hm : ∀ v, (f v).mem = v.mem) :
    s.LaunchLeaves b (t.updBasin b f) where
  phase := by rw [State.basin_updBasin_self, hp, h.phase]
  mem := by rw [State.basin_updBasin_self, hm, h.mem]
  others b' hb := by rw [State.basin_updBasin, if_neg hb.symm, h.others b' hb]

theorem updCores {cs : List Nat} {f : Nat → Core → Core} (h : s.LaunchLeaves b t) : s.LaunchLeaves b (t.updCores cs f) :=
  h.trans (of_same fun b' => State.basin_updCores t cs f b')

theorem notify {v : Nat} (h : s.LaunchLeaves b t) : s.LaunchLeaves b (t.notify (.vf b) v) := by
  unfold State.notify
  dsimp only
  split
  · exact h.updBasin (f := fun x => { x with msix := _ }) (fun _ => rfl) fun _ => rfl
  · exact h.same rfl

theorem memByte (h : s.LaunchLeaves b t) (b' a : Nat) : t.memByte b' a = s.memByte b' a := by
  unfold State.memByte
  by_cases hb : b' = b
  · rw [hb, h.mem]
  · rw [h.others b' hb]

end State.LaunchLeaves

/-! ### The end of an operation -/

/-- A notice to a function changes no core. -/
theorem State.notify_cores (s : State) (fn : HostFn) (v : Nat) : (s.notify fn v).cores = s.cores := by
  unfold State.notify
  dsimp only
  split
  · cases fn <;> rfl
  · rfl

theorem State.basin_endLaunch (s : State) (b st : Nat) :
    ∃ m, (s.endLaunch b st).basin b = { s.basin b with launchStatus := st, msix := m } := by
  obtain ⟨m, hm⟩ := (s.updBasin b fun v => { v with launchStatus := st }).notify_vf_basin b 0
  rw [State.basin_updBasin_self] at hm
  exact ⟨m, hm⟩

theorem State.LaunchLeaves.endLaunch {s t : State} {b st : Nat} (h : s.LaunchLeaves b t) : s.LaunchLeaves b (t.endLaunch b st) := by
  unfold State.endLaunch
  exact .notify (h.updBasin (fun _ => rfl) fun _ => rfl)

/-- LAT_LOAD_STATUS after a refusal: the loader's case, or 0 for another ground (07 R236). -/
def refusalStatus : Option LoadCase → Word
  | some k => loadStatus k
  | none => 0

/-- A launch operation that is refused. -/
def State.refuseLaunch (s : State) (b st : Nat) (k : Option LoadCase) : State :=
  (s.updBasin b fun v => { v with latLoad := refusalStatus k }).endLaunch b st

theorem State.runLaunch_of_refused {s : State} {b st : Nat} {resume : Bool} {img : Option Image} {k : Option LoadCase}
    (h : s.launchRefusal b resume img = some (st, k)) : s.runLaunch b resume img = s.refuseLaunch b st k := by
  unfold State.runLaunch
  rw [h]
  cases k <;> rfl

theorem State.refuseLaunch_ends (s : State) (b st : Nat) (k : Option LoadCase) :
    ((s.refuseLaunch b st k).basin b).launchStatus = st ∧ (s.refuseLaunch b st k).cores = s.cores ∧
      ((s.refuseLaunch b st k).basin b).img = (s.basin b).img ∧
      ((s.refuseLaunch b st k).basin b).latLoad = refusalStatus k := by
  obtain ⟨m, hm⟩ := (s.updBasin b fun v => { v with latLoad := refusalStatus k }).basin_endLaunch b st
  rw [State.basin_updBasin_self] at hm
  unfold State.refuseLaunch
  rw [hm]
  exact ⟨rfl, State.notify_cores .., rfl, rfl⟩

/-! ### The load of an image -/

/-- A core with its part of an image, where the image has one. -/
def Core.loadPart (m : Image) (d : Desc) (c : Nat) (k : Core) : Core :=
  match imgCore m (d.coreIndex c) with
  | some p => k.loadImage p
  | none => k

theorem Core.loadPart_of_some {m : Image} {d : Desc} {c : Nat} {p : CoreImage} (h : imgCore m (d.coreIndex c) = some p) (k : Core) :
    k.loadPart m d c = k.loadImage p := by
  unfold Core.loadPart
  rw [h]

theorem Core.loadPart_loadPart (m : Image) (d : Desc) (c : Nat) (k : Core) : (k.loadPart m d c).loadPart m d c = k.loadPart m d c := by
  unfold Core.loadPart
  split <;> rfl

theorem State.loadImage_eq (s : State) (b : Nat) (m : Image) :
    s.loadImage b m = (s.updCores (s.liveCores b) (Core.loadPart m (s.basin b).desc)).updBasin b fun v =>
      { v with img := some m, latLoad := 0, measurement := digestVec (v.readMem (v.imageBa + 0x40) 48) } := rfl

theorem State.core_loadImage {s : State} {b c : Nat} {m : Image} (hc : c ∈ s.liveCores b) :
    (s.loadImage b m).core c = (s.core c).loadPart m (s.basin b).desc c := by
  rw [State.loadImage_eq, State.core_updBasin, State.core_updCores_of_idem (Core.loadPart_loadPart m _ c) hc]

theorem State.LaunchLeaves.loadImage (s : State) (b : Nat) (m : Image) : s.LaunchLeaves b (s.loadImage b m) := by
  rw [State.loadImage_eq]
  exact (refl s).updCores.updBasin (fun _ => rfl) fun _ => rfl

/-- The device with an image loaded: a resume that loads one takes its records too (11 R328). -/
def State.loadFor (s : State) (b : Nat) (resume : Bool) (m : Image) : State :=
  if resume then (s.loadImage b m).updBasin b fun v => { v with ckpt := v.ckpt.withImage m } else s.loadImage b m

theorem State.runLaunch_of_loads {s : State} {b : Nat} {resume : Bool} {m : Image}
    (h : s.launchRefusal b resume (some m) = none) (hl : (s.basin b).loads resume = true) :
    s.runLaunch b resume (some m) = s.loadFor b resume m := by
  unfold State.runLaunch
  rw [h, hl]
  rfl

/-- An operation that loads nothing waits for its start. -/
theorem State.runLaunch_of_not_loads {s : State} {b : Nat} {resume : Bool} {img : Option Image}
    (h : s.launchRefusal b resume img = none) (hl : (if (s.basin b).loads resume then img else none) = none) :
    s.runLaunch b resume img = s := by
  unfold State.runLaunch
  rw [h, hl]

theorem State.core_loadFor (s : State) (b : Nat) (resume : Bool) (m : Image) (c : Nat) :
    (s.loadFor b resume m).core c = (s.loadImage b m).core c := by
  cases resume <;> rfl

theorem State.basin_loadFor (s : State) (b : Nat) (resume : Bool) (m : Image) :
    ((s.loadFor b resume m).basin b).launchStatus = (s.basin b).launchStatus ∧ ((s.loadFor b resume m).basin b).img = some m ∧
      ((s.loadFor b resume m).basin b).latLoad = 0 := by
  have loaded : ((s.loadImage b m).basin b).launchStatus = (s.basin b).launchStatus ∧ ((s.loadImage b m).basin b).img = some m ∧
      ((s.loadImage b m).basin b).latLoad = 0 := by
    rw [State.loadImage_eq, State.basin_updBasin_self, State.basin_updCores]
    exact ⟨rfl, rfl, rfl⟩
  cases resume with
  | false => exact loaded
  | true =>
    rw [State.loadFor, if_pos rfl, State.basin_updBasin_self]
    exact loaded

theorem State.LaunchLeaves.loadFor (s : State) (b : Nat) (resume : Bool) (m : Image) : s.LaunchLeaves b (s.loadFor b resume m) := by
  unfold State.loadFor
  split
  · exact (loadImage s b m).updBasin (fun _ => rfl) fun _ => rfl
  · exact loadImage s b m

theorem State.LaunchLeaves.runLaunch (s : State) (b : Nat) (resume : Bool) (img : Option Image) :
    s.LaunchLeaves b (s.runLaunch b resume img) := by
  cases h : s.launchRefusal b resume img with
  | some e =>
    rw [State.runLaunch_of_refused h]
    exact .endLaunch ((refl s).updBasin (fun _ => rfl) fun _ => rfl)
  | none =>
    cases hl : (if (s.basin b).loads resume then img else none) with
    | none =>
      rw [State.runLaunch_of_not_loads h hl]
      exact .refl s
    | some m =>
      obtain ⟨loads, rfl⟩ := Option.ite_none_right_eq_some.1 hl
      rw [State.runLaunch_of_loads h loads]
      exact .loadFor ..

/-! ### The write -/

/-- A basin whose launch operation is BUSY (11 R329). -/
def State.beginLaunch (s : State) (b : Nat) (resume : Bool) : State :=
  s.updBasin b fun v => { v with launchOp := if resume then 2 else 1, launchStatus := 0x02 }

/-- A launch operation that a management gap holds (13 R386). -/
def State.holdLaunch (s : State) (b : Nat) (resume : Bool) (img : Option Image) : State :=
  { s with mgmt := { s.mgmt with held := s.mgmt.held ++ [if resume then .resume b img else .launch b img] } }

theorem exec_launch_or_resume {s : State} (hr : s.hostReaches = true) (b : Nat) (resume : Bool) (img : Option Image) :
    exec (if resume then .resume b img else .launch b img) s = .next (s.launchWrite b resume img) := by
  cases resume <;> exact congrArg Host.Outcome.next (State.fromHost_of_reaches hr _)

theorem State.launchWrite_of_busy {s : State} {b : Nat} (h : (s.basin b).launchStatus = 0x02) (resume : Bool) (img : Option Image) :
    s.launchWrite b resume img = s := if_pos (.inr h)

theorem State.launchWrite_of_ready {s : State} {b : Nat} (hp : (s.basin b).phase ≠ .free) (hs : (s.basin b).launchStatus ≠ 0x02)
    (resume : Bool) (img : Option Image) :
    s.launchWrite b resume img =
      if s.mgmt.gap then (s.beginLaunch b resume).holdLaunch b resume img else (s.beginLaunch b resume).runLaunch b resume img :=
  if_neg (not_or.2 ⟨hp, hs⟩)

theorem State.LaunchLeaves.beginLaunch (s : State) (b : Nat) (resume : Bool) : s.LaunchLeaves b (s.beginLaunch b resume) :=
  (refl s).updBasin (fun _ => rfl) fun _ => rfl

theorem State.LaunchLeaves.launchWrite {s : State} {b : Nat} (hp : (s.basin b).phase ≠ .free) (hs : (s.basin b).launchStatus ≠ 0x02)
    (resume : Bool) (img : Option Image) : s.LaunchLeaves b (s.launchWrite b resume img) := by
  rw [State.launchWrite_of_ready hp hs]
  split
  · exact (beginLaunch s b resume).same rfl
  · exact (beginLaunch s b resume).trans (.runLaunch ..)

theorem State.holdLaunch_holds (s : State) (b : Nat) (resume : Bool) (img : Option Image) :
    let t := (s.beginLaunch b resume).holdLaunch b resume img
    (t.basin b).launchStatus = 0x02 ∧ t.cores = s.cores ∧
      t.mgmt.held = s.mgmt.held ++ [if resume then .resume b img else .launch b img] := by
  have status : ((s.beginLaunch b resume).basin b).launchStatus = 0x02 := by rw [State.beginLaunch, State.basin_updBasin_self]
  exact ⟨status, rfl, rfl⟩

theorem State.refusedWrite_ends {s : State} {b st : Nat} {resume : Bool} {img : Option Image} {k : Option LoadCase}
    (h : (s.beginLaunch b resume).launchRefusal b resume img = some (st, k)) :
    let t := (s.beginLaunch b resume).runLaunch b resume img
    (t.basin b).launchStatus = st ∧ t.cores = s.cores ∧ (t.basin b).img = (s.basin b).img ∧
      (t.basin b).latLoad = refusalStatus k := by
  obtain ⟨status, cores, img, latLoad⟩ := (s.beginLaunch b resume).refuseLaunch_ends b st k
  rw [State.beginLaunch, State.basin_updBasin_self] at img
  intro t
  have run : t = (s.beginLaunch b resume).refuseLaunch b st k := State.runLaunch_of_refused h
  rw [run]
  exact ⟨status, cores, img, latLoad⟩

theorem State.loadedWrite_waits {s : State} {b : Nat} {resume : Bool} {m : Image}
    (h : (s.beginLaunch b resume).launchRefusal b resume (some m) = none) (hl : (s.basin b).loads resume = true) :
    let t := (s.beginLaunch b resume).runLaunch b resume (some m)
    (t.basin b).launchStatus = 0x02 ∧ (t.basin b).img = some m ∧ (t.basin b).latLoad = 0 ∧
      ∀ c ∈ s.liveCores b, ∀ p, imgCore m ((s.basin b).desc.coreIndex c) = some p → t.core c = (s.core c).loadImage p := by
  have busy : (s.beginLaunch b resume).basin b =
      { s.basin b with launchOp := if resume then 2 else 1, launchStatus := 0x02 } := State.basin_updBasin_self ..
  have loads : ((s.beginLaunch b resume).basin b).loads resume = true := by
    rw [busy]
    exact hl
  have live : (s.beginLaunch b resume).liveCores b = s.liveCores b := by
    unfold State.liveCores
    rw [busy]
    rfl
  obtain ⟨status, img, latLoad⟩ := (s.beginLaunch b resume).basin_loadFor b resume m
  rw [busy] at status
  intro t
  have run : t = (s.beginLaunch b resume).loadFor b resume m := State.runLaunch_of_loads h loads
  rw [run]
  refine ⟨status, img, latLoad, fun c hc p hp => ?_⟩
  rw [State.core_loadFor, State.core_loadImage (live.symm ▸ hc), busy]
  exact Core.loadPart_of_some hp _

/-- Settles O35: an operation that a gap holds, one that is refused and one that loads its image, each by its own lemma, and what every
write leaves by `State.LaunchLeaves`. -/
theorem launchWrites : Obligations.LaunchWrites := by
  intro s b resume img hr hp
  refine ⟨fun busy => ?_, fun ready => ⟨s.launchWrite b resume img, exec_launch_or_resume hr b resume img, ?_⟩⟩
  · exact (exec_launch_or_resume hr b resume img).trans (congrArg Host.Outcome.next (State.launchWrite_of_busy busy resume img))
  · have leaves := State.LaunchLeaves.launchWrite hp ready resume img
    refine ⟨leaves.phase, leaves.others, leaves.memByte, fun gap => ?_, fun st k gap refused => ?_, fun m gap passes loads his => ?_⟩
    · rw [State.launchWrite_of_ready hp ready, if_pos gap]
      exact s.holdLaunch_holds b resume img
    · rw [State.launchWrite_of_ready hp ready, if_neg (by simp [gap])]
      obtain ⟨status, cores, img, latLoad⟩ := State.refusedWrite_ends refused
      refine ⟨status, cores, img, latLoad.trans ?_⟩
      cases k <;> rfl
    · subst his
      rw [State.launchWrite_of_ready hp ready, if_neg (by simp [gap])]
      obtain ⟨status, img, latLoad, cores⟩ := State.loadedWrite_waits passes loads
      refine ⟨status, img, latLoad, fun c hc p hi => ?_⟩
      rw [cores c hc p hi]
      exact ⟨rfl, rfl, rfl, rfl, rfl, rfl, rfl⟩

end Sys2Proof.Machine

/-! A launch (03 R77; 11 R327): a core that lies in two basins, the list of which is not in order. -/

namespace Sys2Proof.Machine

/-- An image that gives core 0 of a cluster its program. -/
def oneCoreImage : Image :=
  { col := 0, row := 0, width := 1, height := 1, cores := [{ index := 0, base := 0, size := 0, entryA := 0x1000, entryX := 0x1008 }] }

/-- A device of two bound basins, both on the cluster of core 0, that lists basin 1 before basin 0. Basin 1 is IDLE with a launch that
is BUSY and can start, and the ring words of core 0 are invalid. In basin 0 a queue's depth waits. -/
def State.sharedUnordered : State :=
  { mgmt := { phase := .ready, pwrgood := true, vioOk := true, perst := false }, link := { up := true, attach := 1 }
    cores := [(0, { ring0 := 1 })]
    basins := [
      (1, { phase := .idle, desc := { width := 1, height := 1 }, img := some oneCoreImage, launchOp := 1, launchStatus := 0x02 }),
      (0, { phase := .idle, desc := { width := 1, height := 1 }, tp := [(0, { wantDepth := some 10 })] })] }

/-- The phase of basin `b` in the state that a command leaves. -/
def Outcome.phaseLeft (b : Nat) : Out State → Option BasinPhase
  | .next t => some (t.basin b).phase
  | _ => none

/-- What the launch's commit lets go on takes basin 0's depth and lists that basin anew, before basin 1 (`State.retryDepths`). From then
on core 0 lies in basin 0 (`State.basinOf`), which does not run and so does not respond to the core's halt. -/
theorem sharedUnordered_runs : Outcome.phaseLeft 1 (exec (.launchStart 1) State.sharedUnordered) = some .running := by
  decide +kernel

/-- No log lacks frames. -/
theorem sharedUnordered_logs (b : Nat) : (State.sharedUnordered.basin b).logShort = false := by
  simp only [State.basin, State.sharedUnordered, SMap.get_cons, SMap.get_nil]
  split
  · rfl
  · split <;> rfl

/-- Refutes O36: its second clause says that a basin whose core has invalid ring words does not run, for every `State`. Where two bound
basins share that core and their list is not in order, which is not the canonical form of a sparse map (`SMap.wf`), the launch's own work
on the other basin lists it anew, and the core's halt is given to that one: in `State.sharedUnordered` basin 1 goes on RUNNING. The
premise `s.basinOf c = some b` speaks of the list before the launch, and none asks for its order or for rectangles that are disjoint, as
every bind makes them (02 R30). -/
theorem not_launchStarts : ¬ Obligations.LaunchStarts := by
  intro h
  obtain ⟨-, halts, -⟩ := h State.sharedUnordered 1 oneCoreImage rfl (by decide +kernel) rfl sharedUnordered_logs
  obtain ⟨t, ht, stopped, -⟩ := halts 0 { index := 0, base := 0, size := 0, entryA := 0x1000, entryX := 0x1008 } rfl rfl
    (by decide +kernel) (by decide +kernel) (by decide +kernel)
  have runs := sharedUnordered_runs
  rw [ht] at runs
  exact stopped (Option.some.inj runs)

end Sys2Proof.Machine

/-! Host accesses to basin memory (09 R270, R271, R280, R287, R481; 11 R315, R321, R322). -/

namespace Sys2Proof.Machine

/-! ### The window that an access addresses -/

/-- The BA of an offset into a basin's memory window (11 R318, R321). -/
def State.windowBa (s : State) (b off : Nat) : Nat := (s.basin b).winBase * 0x200000 + off

theorem State.windowAt_eq (s : State) (b : Nat) {off : Nat} (ho : off < windowBytes) :
    s.windowAt (b * windowBytes + off) = (b, s.windowBa b off) := by
  have quotient : (b * windowBytes + off) / windowBytes = b := by
    rw [Nat.mul_comm, Nat.mul_add_div (by decide), Nat.div_eq_of_lt ho, Nat.add_zero]
  have offset : (b * windowBytes + off) % windowBytes = off := by
    rw [Nat.mul_comm, Nat.mul_add_mod, Nat.mod_eq_of_lt ho]
  unfold State.windowAt
  rw [quotient, offset]
  rfl

/-- The access of a host write to a BA. -/
def HostAcc.ofWrite (b ba : Nat) (bs : List Byte) (pz : Bool) (env : ReadEnv) : HostAcc :=
  { basin := b, ba := ba, write := true, data := bs, poison := pz, env := env }

section window

variable {s : State} {path : MemPath} {b off : Nat} (hr : s.hostReaches = true) (hp : s.pathOpen path = true) (hb : b < 64)
  (ho : off < windowBytes)

include hp hb in
theorem State.path_not_closed : ¬ (!s.pathOpen path || decide (64 ≤ b)) = true := by
  rw [hp]
  simpa using hb

include hr hp hb ho

theorem exec_hostMemRead (r : HostRead) :
    exec (.hostMemRead path (b * windowBytes + off) r) s =
      .next (if s.accessBad b (s.windowBa b off) r.len then (s.memError b).emit (.memData (List.replicate r.len 0) true)
        else s.hostArrives { basin := b, ba := s.windowBa b off, len := r.len, env := r.env }) := by
  show Host.Outcome.next (s.fromHost _) = _
  rw [State.fromHost_of_reaches hr, State.windowAt_eq s b ho]
  exact congrArg Host.Outcome.next (if_neg (State.path_not_closed hp hb))

theorem exec_hostMemWrite (data : List Byte) (w : HostWriteEvents) :
    exec (.hostMemWrite path (b * windowBytes + off) data w) s =
      .next (if s.accessBad b (s.windowBa b off) data.length then s.memError b
        else s.hostArrives (.ofWrite b (s.windowBa b off) data w.poison w.env)) := by
  show Host.Outcome.next (s.fromHost _) = _
  rw [State.fromHost_of_reaches hr, State.windowAt_eq s b ho]
  exact congrArg Host.Outcome.next (if_neg (State.path_not_closed hp hb))

end window

/-! ### Accesses that arrive -/

theorem State.hostArrives_of_queued {s : State} {a : HostAcc} (h : (s.hostQ.any fun q => decide (q.basin = a.basin)) = true) :
    s.hostArrives a = { s with hostQ := s.hostQ ++ [a] } := if_pos h

/-- No access of the basin waits. -/
theorem State.none_queued {s : State} {b : Nat} (h : ∀ q ∈ s.hostQ, q.basin ≠ b) :
    ¬ (s.hostQ.any fun q => decide (q.basin = b)) = true := by simpa using h

theorem State.hostArrives_of_served {s t : State} {a : HostAcc} (hq : ∀ q ∈ s.hostQ, q.basin ≠ a.basin)
    (h : s.hostAccess a = (t, true)) : s.hostArrives a = t := by
  unfold State.hostArrives
  rw [if_neg (State.none_queued hq), h]

theorem State.hostArrives_of_held {s t : State} {a : HostAcc} (hq : ∀ q ∈ s.hostQ, q.basin ≠ a.basin)
    (h : s.hostAccess a = (t, false)) : s.hostArrives a = { t with hostQ := t.hostQ ++ [a] } := by
  unfold State.hostArrives
  rw [if_neg (State.none_queued hq), h]

/-- A refused access is counted, and changes no basin and no core (11 R322, R325). -/
theorem State.memError_counts (s : State) (b : Nat) :
    (s.memError b).link.memErr = min (2 ^ 32 - 1) (s.link.memErr + 1) ∧ (s.memError b).link.memErrBasin = b ∧
      (s.memError b).basins = s.basins ∧ (s.memError b).cores = s.cores := ⟨rfl, rfl, rfl, rfl⟩

theorem State.sameBytes_of_coresMem {s t : State} (h : t.coresMem = s.coresMem) : s.sameBytes t := by
  refine ⟨fun c a => ?_, State.memByte_of_coresMem h⟩
  rw [State.spByte, State.spByte, State.core, State.core, State.cores_of_coresMem h]

theorem State.coresMem_of_same {s t : State} (hb : t.basins = s.basins) (hc : t.cores = s.cores) : t.coresMem = s.coresMem := by
  simp only [State.coresMem, State.basin, hb, hc]

/-! ### Reads -/

/-- Where every page that an access needs of the host tier is there, nothing is asked. -/
theorem State.askPages_of_there {s : State} {b : Nat} {blks : List Nat} {w : Bool} (h : (s.askPages b blks w).2 = true) :
    s.askPages b blks w = (s, true) := by
  refine Prod.ext ?_ h
  revert h
  unfold State.askPages
  dsimp only
  refine List.foldlRecOn (motive := fun p : State × Bool => p.2 = true → p.1 = s) _ _ (fun _ => rfl) fun p hp a _ => ?_
  split
  · exact hp
  · split <;> exact fun h => absurd h (by simp)

/-- What a read leaves of a device: all but its basins, the traffic and what it sends; and of the basins their memory with its poison.
What it has sent stays sent. -/
structure State.ReadLeaves (s t : State) : Prop where
  beside : { t.besideTraffic with basins := [] } = { s.besideTraffic with basins := [] }
  mem : ∀ b, (t.basin b).mem = (s.basin b).mem
  poison : ∀ b, (t.basin b).blockPoison = (s.basin b).blockPoison
  sent : ∃ l, t.outbox = s.outbox ++ l

namespace State.ReadLeaves

variable {s t u : State}

theorem refl (s : State) : s.ReadLeaves s := ⟨rfl, fun _ => rfl, fun _ => rfl, [], (List.append_nil _).symm⟩

theorem traffic (h : s.ReadLeaves t) (e : u.besideTraffic = t.besideTraffic) (hs : ∃ l, u.outbox = t.outbox ++ l) :
    s.ReadLeaves u where
  beside := by rw [e, h.beside]
  mem b := by rw [State.basin_of_traffic e, h.mem]
  poison b := by rw [State.basin_of_traffic e, h.poison]
  sent := by
    obtain ⟨l, hl⟩ := h.sent
    obtain ⟨l', hl'⟩ := hs
    exact ⟨l ++ l', by rw [hl', hl, List.append_assoc]⟩

theorem foldl {α : Type} {f : State → α → State} {l : List α} (h : s.ReadLeaves t) (hf : ∀ t a, s.ReadLeaves t → s.ReadLeaves (f t a)) :
    s.ReadLeaves (l.foldl f t) := List.foldlRecOn l f h fun t h a _ => hf t a h

/-- An update of a page that leaves the tiles it has lost. -/
theorem updPage {b p : Nat} {f : Page → Page} (h : s.ReadLeaves t) (hf : ∀ g, (f g).lostTiles = g.lostTiles) :
    s.ReadLeaves (t.updPage b p f) where
  beside := h.beside
  mem b' := by
    rw [← h.mem, State.updPage, State.basin_updBasin]
    split
    · next e => rw [← e]
    · rfl
  poison b' := by
    rw [← h.poison]
    by_cases e : b = b'
    · subst e
      have poison : ((t.updPage b p f).basin b).memPoison = (t.basin b).memPoison := by rw [State.updPage, State.basin_updBasin_self]
      funext blk
      unfold Basin.blockPoison Basin.tileLost
      rw [State.page_updPage, poison]
      split
      · next e => rw [hf, e]
      · rfl
    · rw [State.updPage, State.basin_updBasin, if_neg e]
  sent := h.sent

theorem touch {b p : Nat} (h : s.ReadLeaves t) : s.ReadLeaves (t.touch b p) := by
  refine h.updPage fun g => ?_
  split <;> rfl

theorem useAnswers {b : Nat} {blks : List Nat} (h : s.ReadLeaves t) : s.ReadLeaves (t.useAnswers b blks) := by
  refine h.foldl fun t p h => ?_
  split
  · exact h.updPage fun _ => rfl
  · exact h

theorem link (h : s.ReadLeaves t) : t.link = s.link := (congrArg State.link h.beside :)

theorem hostQ (h : s.ReadLeaves t) : t.hostQ = s.hostQ := (congrArg State.hostQ h.beside :)

theorem cores (h : s.ReadLeaves t) : t.cores = s.cores := (congrArg State.cores h.beside :)

theorem sameBytes (h : s.ReadLeaves t) : s.sameBytes t := State.sameBytes_of_coresMem (Prod.ext h.cores (funext h.mem))

theorem resolveBias {b p : Nat} {w : Bool} (h : s.ReadLeaves t) : s.ReadLeaves (t.resolveBias b p w) := by
  refine h.traffic (State.resolveBias_traffic ..) ?_
  unfold State.resolveBias
  split
  · exact ⟨_, rfl⟩
  · exact ⟨[], (List.append_nil _).symm⟩

theorem countIo {b : Nat} {w : Bool} {o : Option Nat} {blks : List Nat} (h : s.ReadLeaves t) : s.ReadLeaves (t.countIo b w o blks) :=
  h.traffic (State.countIo_traffic ..) ⟨[], (congrArg State.outbox (State.countIo_countless ..)).trans (List.append_nil _).symm⟩

/-- A read that meets no error (09 R265). -/
theorem readMet {b : Nat} {blks : List Nat} (h : s.ReadLeaves t) : s.ReadLeaves (t.readMet b blks {}).1 := by
  unfold State.readMet
  dsimp only
  rw [State.readErrors_none]
  exact (h.foldl fun _ _ h => h.resolveBias).countIo

end State.ReadLeaves

/-- The bytes of a read without blocks of its own that are poisoned. -/
theorem Basin.readParts_single (v : Basin) (ba n : Nat) : v.readParts [(ba, n)] [] = v.memBytes ba n := by
  have same : ((v.memBytes ba n).zipIdx.map fun x => (x.1.1, x.1.2 || ([] : List Nat).contains ((ba + x.2) / 64))) =
      (v.memBytes ba n).zipIdx.map Prod.fst := by simp
  unfold Basin.readParts
  rw [List.flatMap_cons, List.flatMap_nil, List.append_nil, same, List.zipIdx_map_fst]

theorem Basin.memBytes_eq (v : Basin) (ba n : Nat) :
    v.memBytes ba n = (List.range n).map fun i => (SMap.get 0 v.mem (ba + i), v.blockPoison ((ba + i) / 64)) := by
  unfold Basin.memBytes Basin.readMem
  rw [SMap.getList_eq_map]
  exact List.ext_getElem (by simp) fun i _ _ => by simp

/-- The units that bytes touch. -/
theorem mem_span {u a n j : Nat} (hu : 0 < u) : j ∈ span u a n ↔ ∃ i < n, (a + i) / u = j := by
  unfold span
  split
  · next h => simp [h]
  · next h =>
    have first : a / u ≤ (a + n - 1) / u := Nat.div_le_div_right (by omega)
    simp only [List.mem_map, List.mem_range]
    constructor
    · rintro ⟨k, hk, rfl⟩
      rcases Nat.eq_zero_or_pos k with rfl | pos
      · exact ⟨0, by omega, rfl⟩
      · have low : a < (a / u + k) * u := (Nat.div_lt_iff_lt_mul hu).1 (by omega)
        have high : (a / u + k) * u ≤ a + n - 1 := (Nat.le_div_iff_mul_le hu).1 (by omega)
        refine ⟨(a / u + k) * u - a, by omega, ?_⟩
        rw [Nat.add_sub_cancel' low.le, Nat.mul_div_cancel _ hu]
    · rintro ⟨i, hi, rfl⟩
      have low : a / u ≤ (a + i) / u := Nat.div_le_div_right (by omega)
      have high : (a + i) / u ≤ (a + n - 1) / u := Nat.div_le_div_right (by omega)
      exact ⟨(a + i) / u - a / u, by omega, by omega⟩

theorem Basin.memPoisoned_iff (v : Basin) (ba n : Nat) :
    v.memPoisoned ba n = true ↔ ∃ i < n, v.blockPoison ((ba + i) / 64) = true := by
  unfold Basin.memPoisoned
  simp only [List.any_eq_true, mem_span (show 0 < 64 by decide)]
  constructor
  · rintro ⟨_, ⟨i, hi, rfl⟩, bad⟩
    exact ⟨i, hi, bad⟩
  · rintro ⟨i, hi, bad⟩
    exact ⟨_, ⟨i, hi, rfl⟩, bad⟩

/-- A read's data and its poison, as host software receives them (09 R262, R267). -/
theorem Basin.memBytes_delivers (v : Basin) (ba n : Nat) :
    (v.memBytes ba n).map (·.1) = ((List.range n).map fun i => SMap.get 0 v.mem (ba + i)) ∧
      (v.memBytes ba n).any (·.2) = v.memPoisoned ba n := by
  rw [Basin.memBytes_eq, Bool.eq_iff_iff, Basin.memPoisoned_iff]
  exact ⟨by simp, by simp⟩

/-- The device at a host read that takes place: the answers it uses are used up, and the pages that it reads are touched (09 R283). -/
def State.readBegun (s : State) (b ba n : Nat) : State :=
  (span pageBytes ba n).foldl (fun s p => s.touch b p) (s.useAnswers b (span 64 ba n))

theorem State.hostRead_of_ready {s : State} {b ba n : Nat} {env : ReadEnv} (ha : (s.askPages b (span 64 ba n) false).2 = true)
    (hh : s.readHeld b ba n = false) :
    s.hostAccess { basin := b, ba := ba, len := n, env := env } =
      let r := (s.readBegun b ba n).readOut b ba n env
      ((r.1.count .cxl 0 0 n).emit (.memData (r.2.map (·.1)) (r.2.any (·.2))), true) := by
  show s.hostRead _ = _
  unfold State.hostRead
  dsimp only
  rw [State.askPages_of_there ha]
  dsimp only
  rw [if_neg (by simp [hh])]
  rfl

/-- What host software reads where nothing holds it up and no block's read fails. -/
theorem hostRead_answers {s : State} {b ba n : Nat} (ha : (s.askPages b (span 64 ba n) false).2 = true)
    (hh : s.readHeld b ba n = false) :
    ∃ t l, s.hostAccess { basin := b, ba := ba, len := n } = (t, true) ∧ s.sameBytes t ∧ t.cores = s.cores ∧
      t.outbox = s.outbox ++ l ++ [.memData ((List.range n).map fun i => s.memByte b (ba + i)) ((s.basin b).memPoisoned ba n)] ∧
      t.link = s.link ∧ t.hostQ = s.hostQ := by
  have begun : s.ReadLeaves (s.readBegun b ba n) := (State.ReadLeaves.refl s).useAnswers.foldl fun _ _ h => h.touch
  have met : s.ReadLeaves ((s.readBegun b ba n).readOut b ba n {}).1 := begun.readMet
  obtain ⟨l, sent⟩ := met.sent
  have read : ((s.readBegun b ba n).readOut b ba n {}).2 = (((s.readBegun b ba n).readOut b ba n {}).1.basin b).memBytes ba n :=
    Basin.readParts_single ..
  obtain ⟨data, poison⟩ := (((s.readBegun b ba n).readOut b ba n {}).1.basin b).memBytes_delivers ba n
  have clean : (((s.readBegun b ba n).readOut b ba n {}).1.basin b).memPoisoned ba n = (s.basin b).memPoisoned ba n := by
    unfold Basin.memPoisoned
    rw [met.poison]
  refine ⟨_, l, State.hostRead_of_ready ha hh, met.sameBytes, met.cores, ?_, met.link, met.hostQ⟩
  rw [read, data, poison, clean, met.mem, State.emit, State.count_outbox, sent]
  rfl

/-! ### Pages made ready for a write -/

theorem State.takeMap_hostQ {s t : State} {b p : Nat} (h : s.takeMap b p = some t) : t.hostQ = s.hostQ := by
  unfold State.takeMap at h
  split at h
  · cases h
    rfl
  · obtain ⟨e, -, rfl⟩ := Option.map_eq_some_iff.1 h
    unfold State.zeroFill
    dsimp only
    split <;> rfl

@[simp] theorem State.askMove_hostQ (s : State) (b p : Nat) : (s.askMove b p).hostQ = s.hostQ := by
  unfold State.askMove State.tierMsg
  dsimp only
  split
  · rfl
  · split
    · rfl
    · split <;> rfl

@[simp] theorem State.addMove_hostQ (s : State) (b p : Nat) (c : MoveCause) (f : Page → Page) : (s.addMove b p c f).hostQ = s.hostQ := by
  unfold State.addMove
  split
  · rfl
  · next u h =>
    have took : u.hostQ = s.hostQ := State.takeMap_hostQ h
    exact (State.askMove_hostQ ..).trans took

theorem State.supply_hostQ {s t : State} {b p : Nat} (h : s.supply b p = .waits t) : t.hostQ = s.hostQ := by
  unfold State.supply at h
  dsimp only at h
  split at h
  · split at h
    · cases h
    · split at h <;> cases h
      rfl
  · split at h
    · cases h
    · split at h
      · cases h
        rfl
      · split at h
        · cases h
          split
          · rfl
          · exact State.addMove_hostQ ..
        · split at h <;> cases h
          rfl

@[simp] theorem State.tryReturn_hostQ (s : State) (b p : Nat) : (s.tryReturn b p).1.hostQ = s.hostQ := by
  unfold State.tryReturn
  dsimp only
  split
  · split
    · exact State.addMove_hostQ ..
    · next h => exact (State.updPage_hostQ ..).trans (State.supply_hostQ h)
    · rfl
  · rfl

@[simp] theorem State.prepPage_hostQ (s : State) (b p : Nat) : (s.prepPage b p).1.hostQ = s.hostQ := by
  unfold State.prepPage
  dsimp only
  split
  · rfl
  · split
    · split
      · rfl
      · split
        · rfl
        · split
          · split
            · next h => exact (State.updPage_hostQ ..).trans (State.takeMap_hostQ h)
            · rfl
          · next h => exact (State.updPage_hostQ ..).trans (State.supply_hostQ h)
          · rfl
    · split
      · split
        · split
          · next h => exact (State.updPage_hostQ ..).trans (State.takeMap_hostQ h)
          · rfl
        · next h => exact (State.updPage_hostQ ..).trans (State.supply_hostQ h)
        · rfl
      · exact State.tryReturn_hostQ ..

/-- What does not change as a page is made ready: what the tier engine's work leaves, and the accesses that wait. -/
def State.prepLeaves (s : State) : Still × List HostAcc := (s.still, s.hostQ)

theorem State.hostPrep_leaves (s : State) (b p : Nat) : (s.hostPrep b p).1.prepLeaves = s.prepLeaves := by
  unfold State.hostPrep
  split
  · rfl
  · exact Prod.ext (State.prepPage_still ..) (State.prepPage_hostQ ..)

theorem State.updPage_prepLeaves (s : State) (b p : Nat) (f : Page → Page) : (s.updPage b p f).prepLeaves = s.prepLeaves :=
  Prod.ext (State.updPage_still ..) rfl

theorem State.hostPreps_leaves (s : State) (b : Nat) (ps : List Nat) : (s.hostPreps b ps).1.prepLeaves = s.prepLeaves := by
  induction ps generalizing s with
  | nil => rfl
  | cons p ps ih =>
    have prep := s.hostPrep_leaves b p
    unfold State.hostPreps
    split
    · next h => rw [ih, ← prep, h]
    · next h => rw [← prep, h]
    · next h =>
      split
      · rw [← prep, h]
      · rw [ih, State.updPage_prepLeaves, ← prep, h]

/-! ### Writes -/

/-- The device at a host write that takes place, before its bytes are stored (11 R323; 02 R48; 09 R262). -/
def State.writeBegun (s : State) (a : HostAcc) : State :=
  let s := (span pageBytes a.ba a.data.length).foldl (fun s p => s.resolveBias a.basin p true) s
  let s := s.readErrors a.basin (partialBlocks a.ba a.data.length) a.env
  s.updBasin a.basin fun v =>
    if v.hostDirty a.ba a.data.length then { v with hostWrites := v.hostWrites ++ [(a.ba, a.data.length)] } else v

/-- The device after a host write that takes place. -/
def State.writeServed (s : State) (a : HostAcc) : State :=
  let blks := span 64 a.ba a.data.length
  let s := (((s.writeBegun a).writeMem a.basin a.ba a.data (if a.poison then blks else [])).countIo a.basin true none blks).count .cxl 0 1
    a.data.length
  (s.askPages a.basin blks true).1

theorem State.hostAccess_of_writable {s s1 : State} {a : HostAcc} (hw : a.write = true)
    (hp : s.hostPreps a.basin (span pageBytes a.ba a.data.length) = (s1, .ready))
    (hh : s1.writeHeld a.basin a.ba a.data.length = false) : s.hostAccess a = (s1.writeServed a, true) := by
  refine (if_pos hw).trans ?_
  unfold State.hostWrite
  dsimp only
  rw [hp]
  dsimp only
  rw [if_neg (by simp [hh])]
  rfl

theorem State.hostAccess_of_unready {s s1 : State} {a : HostAcc} (hw : a.write = true)
    (hp : s.hostPreps a.basin (span pageBytes a.ba a.data.length) = (s1, .waits)) : s.hostAccess a = (s1, false) := by
  refine (if_pos hw).trans ?_
  unfold State.hostWrite
  dsimp only
  rw [hp]

theorem State.writeBegun_coresMem (s : State) (a : HostAcc) : (s.writeBegun a).coresMem = s.coresMem := by
  unfold State.writeBegun
  dsimp only
  rw [State.updBasin_coresMem, State.coresMem_of_still (State.readErrors_still ..)]
  · exact State.coresMem_of_still (foldl_still _ (fun t p => t.resolveBias_still a.basin p true) _ _)
  · intro v
    split <;> rfl

theorem State.writeServed_still (s : State) (a : HostAcc) :
    (s.writeServed a).still =
      ((s.writeBegun a).writeMem a.basin a.ba a.data (if a.poison then span 64 a.ba a.data.length else [])).still := by
  unfold State.writeServed
  dsimp only
  rw [State.askPages_still, State.count_still, State.countIo_still]

theorem State.writeServed_cores (s : State) (a : HostAcc) : (s.writeServed a).cores = s.cores := by
  rw [State.cores_of_still (s.writeServed_still a), State.writeMem_cores, State.cores_of_coresMem (s.writeBegun_coresMem a)]

/-- A host write stores its bytes and no other. -/
theorem State.writeServed_memByte (s : State) (a : HostAcc) (b' x : Nat) :
    (s.writeServed a).memByte b' x =
      if a.basin = b' then (if h : a.ba ≤ x ∧ x < a.ba + a.data.length then a.data[x - a.ba]'(by omega) else s.memByte a.basin x)
      else s.memByte b' x := by
  have begun := State.memByte_of_coresMem (s.writeBegun_coresMem a)
  rw [State.memByte_of_still (s.writeServed_still a), State.writeMem_memByte, begun, begun]

/-! ### The commands -/

section commands

variable {s : State} {path : MemPath} {b off : Nat} (hr : s.hostReaches = true) (hp : s.pathOpen path = true) (hb : b < 64)
  (ho : off < windowBytes)

include hr hp hb ho

theorem hostMemRead_answers {n : Nat} (hgood : s.accessBad b (s.windowBa b off) n = false) (hq : ∀ q ∈ s.hostQ, q.basin ≠ b)
    (ha : (s.askPages b (span 64 (s.windowBa b off) n) false).2 = true) (hh : s.readHeld b (s.windowBa b off) n = false) :
    ∃ t l, exec (.hostMemRead path (b * windowBytes + off) ⟨n, {}⟩) s = .next t ∧ s.sameBytes t ∧ t.cores = s.cores ∧
      t.outbox = s.outbox ++ l ++ [.memData ((List.range n).map fun i => s.memByte b (s.windowBa b off + i))
        ((s.basin b).memPoisoned (s.windowBa b off) n)] ∧ t.link = s.link ∧ t.hostQ = s.hostQ := by
  obtain ⟨t, l, access, leaves⟩ := hostRead_answers ha hh
  refine ⟨t, l, ?_, leaves⟩
  rw [exec_hostMemRead hr hp hb ho, hgood]
  exact congrArg Host.Outcome.next (State.hostArrives_of_served hq access)

theorem hostMemRead_queues {n : Nat} (env : ReadEnv) (hgood : s.accessBad b (s.windowBa b off) n = false)
    (hq : (s.hostQ.any fun q => decide (q.basin = b)) = true) :
    exec (.hostMemRead path (b * windowBytes + off) ⟨n, env⟩) s =
      .next { s with hostQ := s.hostQ ++ [{ basin := b, ba := s.windowBa b off, len := n, env := env }] } := by
  rw [exec_hostMemRead hr hp hb ho, hgood]
  exact congrArg Host.Outcome.next (State.hostArrives_of_queued hq)

theorem hostMemRead_refused {n : Nat} (env : ReadEnv) (hbad : s.accessBad b (s.windowBa b off) n = true) :
    ∃ t, exec (.hostMemRead path (b * windowBytes + off) ⟨n, env⟩) s = .next t ∧ s.sameBytes t ∧ t.cores = s.cores ∧
      t.outbox = s.outbox ++ [.memData (List.replicate n 0) true] ∧
      t.link.memErr = min (2 ^ 32 - 1) (s.link.memErr + 1) ∧ t.link.memErrBasin = b ∧ t.basins = s.basins := by
  obtain ⟨err, basin, basins, cores⟩ := s.memError_counts b
  rw [exec_hostMemRead hr hp hb ho, hbad]
  exact ⟨_, rfl, State.sameBytes_of_coresMem (State.coresMem_of_same basins cores), cores, rfl, err, basin, basins⟩

theorem hostMemWrite_stores {bs : List Byte} (pz : Bool) {s1 : State} (hgood : s.accessBad b (s.windowBa b off) bs.length = false)
    (hq : ∀ q ∈ s.hostQ, q.basin ≠ b) (hprep : s.hostPreps b (span 0x200000 (s.windowBa b off) bs.length) = (s1, .ready))
    (hh : s1.writeHeld b (s.windowBa b off) bs.length = false) :
    ∃ t, exec (.hostMemWrite path (b * windowBytes + off) bs ⟨pz, {}⟩) s = .next t ∧ t.cores = s.cores ∧
      (∀ i, i < bs.length → t.memByte b (s.windowBa b off + i) = bs.getD i 0) ∧
      (∀ a, a < s.windowBa b off ∨ s.windowBa b off + bs.length ≤ a → t.memByte b a = s.memByte b a) ∧
      (∀ b' a, b' ≠ b → t.memByte b' a = s.memByte b' a) := by
  have access : s.hostAccess (.ofWrite b (s.windowBa b off) bs pz {}) = (s1.writeServed (.ofWrite b (s.windowBa b off) bs pz {}), true) :=
    State.hostAccess_of_writable rfl hprep hh
  have ready : s1.still = s.still := by
    have leaves := s.hostPreps_leaves b (span 0x200000 (s.windowBa b off) bs.length)
    rw [hprep] at leaves
    exact congrArg Prod.fst leaves
  have stored : ∀ b' a, (s1.writeServed (.ofWrite b (s.windowBa b off) bs pz {})).memByte b' a =
      if b = b' then (if h : s.windowBa b off ≤ a ∧ a < s.windowBa b off + bs.length then bs[a - s.windowBa b off]'(by omega)
        else s.memByte b a) else s.memByte b' a := by
    intro b' a
    rw [State.writeServed_memByte, State.memByte_of_still ready, State.memByte_of_still ready]
    rfl
  refine ⟨s1.writeServed (.ofWrite b (s.windowBa b off) bs pz {}), ?_, ?_, fun i hi => ?_, fun a ha => ?_, fun b' a hb' => ?_⟩
  · rw [exec_hostMemWrite hr hp hb ho, hgood]
    exact congrArg Host.Outcome.next (State.hostArrives_of_served hq access)
  · rw [State.writeServed_cores, State.cores_of_still ready]
  · rw [stored, if_pos rfl, dif_pos ⟨by omega, by omega⟩]
    simp [hi]
  · rw [stored, if_pos rfl, dif_neg (by omega)]
  · rw [stored, if_neg hb'.symm]

theorem hostMemWrite_waits {bs : List Byte} (pz : Bool) {s1 : State} (env : ReadEnv)
    (hgood : s.accessBad b (s.windowBa b off) bs.length = false) (hq : ∀ q ∈ s.hostQ, q.basin ≠ b)
    (hprep : s.hostPreps b (span 0x200000 (s.windowBa b off) bs.length) = (s1, .waits)) :
    ∃ t, exec (.hostMemWrite path (b * windowBytes + off) bs ⟨pz, env⟩) s = .next t ∧ s.sameBytes t ∧
      t.hostQ = s.hostQ ++ [{ basin := b, ba := s.windowBa b off, write := true, data := bs, poison := pz, env := env }] := by
  have access : s.hostAccess (.ofWrite b (s.windowBa b off) bs pz env) = (s1, false) := State.hostAccess_of_unready rfl hprep
  have leaves := s.hostPreps_leaves b (span 0x200000 (s.windowBa b off) bs.length)
  rw [hprep] at leaves
  obtain ⟨still, hostQ⟩ := Prod.mk.inj leaves
  refine ⟨{ s1 with hostQ := s1.hostQ ++ [.ofWrite b (s.windowBa b off) bs pz env] }, ?_, ?_, ?_⟩
  · rw [exec_hostMemWrite hr hp hb ho, hgood]
    exact congrArg Host.Outcome.next (State.hostArrives_of_held hq access)
  · exact State.sameBytes_of_coresMem ((State.coresMem_of_same rfl rfl).trans (State.coresMem_of_still still))
  · exact congrArg (· ++ [_]) hostQ

theorem hostMemWrite_refused {bs : List Byte} (pz : Bool) (env : ReadEnv)
    (hbad : s.accessBad b (s.windowBa b off) bs.length = true) :
    ∃ t, exec (.hostMemWrite path (b * windowBytes + off) bs ⟨pz, env⟩) s = .next t ∧ s.sameBytes t ∧ t.cores = s.cores ∧
      t.link.memErr = min (2 ^ 32 - 1) (s.link.memErr + 1) ∧ t.link.memErrBasin = b := by
  obtain ⟨err, basin, basins, cores⟩ := s.memError_counts b
  rw [exec_hostMemWrite hr hp hb ho, hbad]
  exact ⟨_, rfl, State.sameBytes_of_coresMem (State.coresMem_of_same basins cores), cores, err, basin⟩

end commands

/-- Settles O37: reads by what `State.ReadLeaves` keeps, writes by the bytes that `State.writeServed_memByte` gives, and accesses that
wait by what a page made ready leaves (`State.hostPreps_leaves`). -/
theorem hostMemory : Obligations.HostMemory := by
  refine ⟨fun s path b off n hr hp hb ho => ?_, fun s path b off bs pz hr hp hb ho => ?_, fun s line hr => ?_⟩
  · exact ⟨hostMemRead_answers hr hp hb ho, fun env => hostMemRead_queues hr hp hb ho env,
      fun env => hostMemRead_refused hr hp hb ho env⟩
  · exact ⟨fun _ => hostMemWrite_stores hr hp hb ho pz, fun _ env => hostMemWrite_waits hr hp hb ho pz env,
      fun env => hostMemWrite_refused hr hp hb ho pz env⟩
  · exact congrArg Host.Outcome.next (State.fromHost_of_reaches hr _)

end Sys2Proof.Machine

/-! Nonces, the debug lock, the FIPS error state and the SPDM responder (11 R324; 15 R433, R434, R436, R438 to R441, R443). -/

namespace Sys2Proof.Machine

/-! ### Requests that reach the responder -/

/-- The responder answers while the device's cryptography is in order (15 R443). -/
theorem State.spdm_of_operational {s : State} (hf : s.sec.fips = .operational) (p : SpdmPort) (f : State → State) : s.spdm p f = f s :=
  if_neg fun h => h hf

/-- An SPDM request to PF0's mailbox is answered while the host reaches the device and its cryptography is in order (15 R440, R443). -/
theorem State.toSpdm_pf0 {s : State} (hr : s.hostReaches = true) (hf : s.sec.fips = .operational) (f : State → State) :
    s.toSpdm (.doe .pf0) f = f s :=
  (State.fromHost_of_reaches hr _).trans (State.spdm_of_operational hf _ f)

/-- The same for the messages that set up a session or its keys (11 R324). -/
theorem State.toSession_pf0 {s : State} (hr : s.hostReaches = true) (hf : s.sec.fips = .operational) (f : State → State) :
    s.toSession (.doe .pf0) f = f s := by
  simp only [State.hostReaches, Bool.and_eq_true, decide_eq_true_eq] at hr
  obtain ⟨⟨hup, -⟩, hphase⟩ := hr
  have reached : ¬ (s.mgmt.phase = .recovery ∨ (!s.link.up) = true ∨ (!s.fnOpen .pf0) = true) := by
    simp [hphase, hup, State.fnOpen]
  exact (if_neg reached).trans (State.spdm_of_operational hf _ f)

/-! ### Nonces, the debug lock and the FIPS error state -/

theorem newNonce_draws (s : State) (hr : s.hostReaches = true) (hf : s.sec.fips = .operational) :
    exec .newNonce s = .next { s with
      sec := { s.sec with nonce := some (Config.nonce s.sec.nonceCount), nonceCount := s.sec.nonceCount + 1 } } :=
  congrArg Host.Outcome.next ((State.fromHost_of_reaches hr _).trans (if_neg fun h => h hf))

theorem debugLock_ends_scope (s : State) (hr : s.hostReaches = true) :
    exec .debugLock s = .next { s with sec := { s.sec with scope := 0 } } :=
  congrArg Host.Outcome.next (State.fromHost_of_reaches hr _)

theorem fipsError_makes_insecure (s : State) (hp : s.mgmt.phase ≠ .inReset) (hf : s.sec.fips ≠ .error) :
    ∃ t, exec .fipsError s = .next t ∧ t.sec = { s.sec with fips := .error } ∧ t.basins = s.basins ∧ t.cores = s.cores ∧
      (s.link.up = true → s.link.ideKeys = true → t.link = { s.link with insecure := true, ideFail := true }) ∧
      (s.link.ideKeys = false → t.link = s.link) := by
  refine ⟨_, congrArg Host.Outcome.next (if_neg (not_or.2 ⟨hp, hf⟩)), ?_⟩
  by_cases hide : s.link.up = true ∧ s.link.ideKeys = true
  · rw [if_pos hide]
    obtain ⟨link, basins, cores, sec⟩ := State.notify_pf0_keeps
      { s with sec := { s.sec with fips := .error }, link := { s.link with insecure := true, ideFail := true } } 6
    exact ⟨sec, basins, cores, fun _ _ => link, fun h => absurd (hide.2.symm.trans h) (by decide)⟩
  · rw [if_neg hide]
    exact ⟨rfl, rfl, rfl, fun hup hkeys => absurd ⟨hup, hkeys⟩ hide, fun _ => rfl⟩

/-! ### The command key -/

/-- A command key that is set is not set again (15 R434; log 18). -/
theorem State.setKeyStatus_of_owned {s : State} (h : s.sec.cmdKey.isSome = true) (port : SpdmPort) (secured : Bool) (payload : List Byte) :
    s.setKeyStatus port secured payload = 1 := if_pos h

/-- The device with the command key of a request's payload (15 R434). -/
def State.withCmdKey (s : State) (payload : List Byte) : State :=
  { s with sec := { s.sec with cmdKey := some (digestVec (payload.drop 4)), lastCounter := 0 } }

/-- A SET_CMD_KEY in the session of PF0 stores its key where its status is 0, and the status is answered. -/
theorem exec_setCmdKey {s : State} (hr : s.hostReaches = true) (hf : s.sec.fips = .operational) (payload : List Byte) :
    exec (.setCmdKey (.doe .pf0) true Config.vendorId payload) s =
      let st := s.setKeyStatus (.doe .pf0) true payload
      .next (State.emit (if st = 0 then s.withCmdKey payload else s)
        (.spdmRsp (.doe .pf0) 0x7E [0x81, BitVec.ofNat 8 st, 0, 0])) := by
  have ours : ¬ (SpdmPort.doe .pf0 = .mctp ∨ Config.vendorId ≠ Config.vendorId) := by simp
  exact congrArg Host.Outcome.next ((State.toSpdm_pf0 hr hf _).trans (if_neg ours))

theorem setCmdKey_stores_first_key (s : State) (payload : List Byte) (hr : s.hostReaches = true) (hf : s.sec.fips = .operational) :
    ∃ t, exec (.setCmdKey (.doe .pf0) true Config.vendorId payload) s = .next t ∧
      let st := s.setKeyStatus (.doe .pf0) true payload
      t.outbox = s.outbox ++ [.spdmRsp (.doe .pf0) 0x7E [0x81, BitVec.ofNat 8 st, 0, 0]] ∧
      (st = 0 → t.sec = { s.sec with cmdKey := some (digestVec (payload.drop 4)), lastCounter := 0 }) ∧
      (st ≠ 0 → t.sec = s.sec) ∧ (s.sec.cmdKey.isSome = true → st = 1) ∧ t.basins = s.basins ∧ t.cores = s.cores := by
  refine ⟨_, exec_setCmdKey hr hf payload, ?_⟩
  have owned : s.sec.cmdKey.isSome = true → s.setKeyStatus (.doe .pf0) true payload = 1 := fun h => State.setKeyStatus_of_owned h ..
  by_cases hst : s.setKeyStatus (.doe .pf0) true payload = 0
  · rw [if_pos hst]
    exact ⟨rfl, fun _ => rfl, fun h => absurd hst h, owned, rfl, rfl⟩
  · rw [if_neg hst]
    exact ⟨rfl, fun h => absurd h hst, fun _ => rfl, owned, rfl, rfl⟩

/-- A request over MCTP, or another vendor's, is no request of this device (15 R433; 17 R471). -/
theorem setCmdKey_of_other_vendor (s : State) (port : SpdmPort) (vendor : BitVec 16) (payload : List Byte) (secured : Bool)
    (hp : ∀ f, s.toSpdm port f = f s) (hv : port = .mctp ∨ vendor ≠ Config.vendorId) :
    exec (.setCmdKey port secured vendor payload) s = .next { s with outbox := s.outbox ++ [.spdmError port] } :=
  congrArg Host.Outcome.next ((hp _).trans (if_pos hv))

/-! ### Measurements, certificates and the challenge -/

/-- What an answer that the alias key signs sends and leaves (15 R439, R441). -/
theorem State.spdmAnswer_leaves (s : State) (port : SpdmPort) (code : Nat) (known : List Byte) :
    (s.spdmAnswer port code known).outbox =
        s.outbox ++ [.spdmRsp port code (known ++ Config.spdmSigned s.aliasKey known s.freeCtr)] ∧
      (s.spdmAnswer port code known).sec = s.sec := ⟨rfl, rfl⟩

section answers

variable {s : State} {port : SpdmPort} (hp : ∀ f, s.toSpdm port f = f s)

include hp

theorem exec_getMeasurements_of_some {i : Nat} {m : List Byte} (hm : s.measurement port i = some m) :
    exec (.getMeasurements port i) s = .next (s.spdmAnswer port 0x60 m) := by
  show execGetMeasurements port i s = _
  rw [execGetMeasurements, hp, hm]

theorem exec_getMeasurements_of_none {i : Nat} (hm : s.measurement port i = none) :
    exec (.getMeasurements port i) s = .next { s with outbox := s.outbox ++ [.spdmError port] } := by
  show execGetMeasurements port i s = _
  rw [execGetMeasurements, hp, hm]
  rfl

theorem exec_getCertificate_of_slot0 :
    exec (.getCertificate port 0) s = .next (s.emit (.spdmRsp port 0x02
      (Config.vendorChain (publicKey deviceIdKey) ++ Config.aliasCert deviceIdKey (publicKey s.aliasKey) s.sec.tcbInfo))) :=
  congrArg Host.Outcome.next ((hp _).trans (if_pos rfl))

theorem exec_challenge (n : BitVec 256) : exec (.challenge port n) s = .next (s.spdmAnswer port 0x03 (vecBytes n)) :=
  congrArg Host.Outcome.next (hp _)

end answers

theorem spdm_answers_with_alias_key (s : State) (port : SpdmPort) (hp : ∀ f, s.toSpdm port f = f s) :
    (∀ i m, s.measurement port i = some m → ∃ t, exec (.getMeasurements port i) s = .next t ∧
      t.outbox = s.outbox ++ [.spdmRsp port 0x60 (m ++ Config.spdmSigned s.aliasKey m s.freeCtr)] ∧ t.sec = s.sec) ∧
    (∀ i, s.measurement port i = none →
      exec (.getMeasurements port i) s = .next { s with outbox := s.outbox ++ [.spdmError port] }) ∧
    (∃ t, exec (.getCertificate port 0) s = .next t ∧
      t.outbox = s.outbox ++ [.spdmRsp port 0x02
        (Config.vendorChain (publicKey deviceIdKey) ++ Config.aliasCert deviceIdKey (publicKey s.aliasKey) s.sec.tcbInfo)] ∧
      t.sec = s.sec) ∧
    ∀ n, ∃ t, exec (.challenge port n) s = .next t ∧
      t.outbox = s.outbox ++ [.spdmRsp port 0x03 (vecBytes n ++ Config.spdmSigned s.aliasKey (vecBytes n) s.freeCtr)] ∧
      t.sec = s.sec :=
  ⟨fun _ m hm => ⟨_, exec_getMeasurements_of_some hp hm, s.spdmAnswer_leaves port 0x60 m⟩,
    fun _ hm => exec_getMeasurements_of_none hp hm,
    ⟨_, exec_getCertificate_of_slot0 hp, rfl, rfl⟩,
    fun n => ⟨_, exec_challenge hp n, s.spdmAnswer_leaves port 0x03 (vecBytes n)⟩⟩

/-! ### The session -/

/-- PF0 is in its session where the session is open (15 R440). -/
theorem State.inSession_pf0 {s : State} (h : s.sec.sessionFn = some .pf0) : s.inSession (.doe .pf0) true = true := by
  simp [State.inSession, h]

theorem session_on_pf0 (s : State) (hr : s.hostReaches = true) (hf : s.sec.fips = .operational) :
    (∀ x, ∃ t, exec (.keyExchange (.doe .pf0) x) s = .next t ∧ t.sec.sessionFn = some .pf0 ∧
      t.sec.sessionKeys = s.sec.sessionKeys + 1 ∧ t.sec.cmdKey = s.sec.cmdKey) ∧
    (s.sec.sessionFn = some .pf0 →
      (∃ t, exec (.spdmKeyUpdate (.doe .pf0)) s = .next t ∧ t.sec = { s.sec with sessionKeys := s.sec.sessionKeys + 1 } ∧
        t.link = s.link) ∧
      exec (.ideKmKeyProg (.doe .pf0) true) s =
        .next { s with link := { s.link with ideKeys := true, insecure := false } }) := by
  have inside : s.sec.sessionFn = some .pf0 → s.inSession (.doe .pf0) true = true := State.inSession_pf0
  refine ⟨fun x => ?_, fun hs => ⟨?_, ?_⟩⟩
  · exact ⟨_, congrArg Host.Outcome.next ((State.toSession_pf0 hr hf _).trans (if_pos rfl)), rfl, rfl, rfl⟩
  · exact ⟨_, congrArg Host.Outcome.next ((State.toSession_pf0 hr hf _).trans (if_pos (inside hs))), rfl, rfl⟩
  · exact congrArg Host.Outcome.next ((State.toSession_pf0 hr hf _).trans (if_pos (inside hs)))

/-- Settles O52: each service's clause is its own lemma, by what reaches the responder (`State.toSpdm_pf0`, `State.toSession_pf0`). -/
theorem securityServices : Obligations.SecurityServices :=
  ⟨newNonce_draws, fun _ => rfl, debugLock_ends_scope, fipsError_makes_insecure, setCmdKey_stores_first_key, setCmdKey_of_other_vendor,
    spdm_answers_with_alias_key, session_on_pf0⟩

end Sys2Proof.Machine

/-! What the work behind the lane groups leaves of them: the tier engine's work on receive logs, the reads and the sends of collectives, and
the stops that they bring (09 R265, R266, R481, R482; 12 R353, R355, R356, R359). -/

namespace Sys2Proof.Machine

/-! ### The relation -/

/-- What it leaves of a basin: its memory, its receive log and which entries are in progress. -/
def Basin.carried (v : Basin) : SMap Byte × List (Nat × List (Byte × Bool)) × List Nat := (v.mem, v.rxLog, v.colls.map Coll.entry)

/-- A lane group but for its receive buffer, what it has sent and how many frames it has dropped. -/
def EthGroup.line (g : EthGroup) : EthGroup :=
  { g with dropped := 0, zynTx := [], zynNext := 0, rxBuf := [], pauseSent := 0, turn := 0 }

/-- The lane groups' lines. -/
def State.lines (s : State) : Nat → EthGroup := fun n => (s.group n).line

theorem State.lines_updGroup {s : State} {n : Nat} {f : EthGroup → EthGroup} (hf : ∀ g, (f g).line = g.line) :
    (s.updGroup n f).lines = s.lines := by
  funext n'
  simp only [State.lines, State.group_updGroup]
  split
  · next e => exact e ▸ hf _
  · rfl

@[simp] theorem State.lines_updQp (s : State) (n : Nat) (f : Qp → Qp) : (s.updQp n f).lines = s.lines := rfl

@[simp] theorem State.lines_count (s : State) (g : CntGroup) (n i k : Nat) : (s.count g n i k).lines = s.lines := rfl

/-- From `s` to `t` payloads may have been sent and logs filled: every byte, receive log and group's line is as it was, every queue pair
expects the same PSN and, where `idle` says that no collective sends, is the same, and what the device had put out it has not taken back. -/
structure State.Carries (idle : Prop) (s t : State) : Prop where
  sp : ∀ c, (t.core c).sp = (s.core c).sp
  basin : ∀ b, (t.basin b).carried = (s.basin b).carried
  lines : t.lines = s.lines
  rxNext : ∀ n, (t.qp n).rxNext = (s.qp n).rxNext
  qps : idle → t.qps = s.qps
  outbox : s.outbox <+: t.outbox

/-- The parts of a state that the relation speaks of. -/
def State.carriedParts (s : State) : SMap Basin × SMap Core × SMap EthGroup × SMap Qp × List Msg :=
  (s.basins, s.cores, s.eth, s.qps, s.outbox)

theorem SMap.get_congr {α : Type} {d : α} {m m' : SMap α} (h : m' = m) (k : Nat) : SMap.get d m' k = SMap.get d m k := h ▸ rfl

namespace State.Carries

variable {idle : Prop} {s t u : State} {b : Nat}

theorem of_same (e : t.carriedParts = s.carriedParts) : s.Carries idle t := by
  simp only [State.carriedParts, Prod.mk.injEq] at e
  obtain ⟨basins, cores, eth, qps, outbox⟩ := e
  exact ⟨fun c => congrArg Core.sp (SMap.get_congr cores c), fun b => congrArg Basin.carried (SMap.get_congr basins b),
    funext fun n => congrArg EthGroup.line (SMap.get_congr eth n), fun n => congrArg Qp.rxNext (SMap.get_congr qps n), fun _ => qps,
    outbox ▸ ⟨[], List.append_nil _⟩⟩

theorem refl (s : State) : s.Carries idle s := of_same rfl

theorem trans (h : s.Carries idle t) (g : t.Carries idle u) : s.Carries idle u where
  sp c := (g.sp c).trans (h.sp c)
  basin b := (g.basin b).trans (h.basin b)
  lines := g.lines.trans h.lines
  rxNext n := (g.rxNext n).trans (h.rxNext n)
  qps i := (g.qps i).trans (h.qps i)
  outbox := h.outbox.trans g.outbox

theorem same (h : s.Carries idle t) (e : u.carriedParts = t.carriedParts) : s.Carries idle u := h.trans (of_same e)

theorem mem (h : s.Carries idle t) (b : Nat) : (t.basin b).mem = (s.basin b).mem := congrArg (·.1) (h.basin b)

theorem rxLog (h : s.Carries idle t) (b : Nat) : (t.basin b).rxLog = (s.basin b).rxLog := congrArg (·.2.1) (h.basin b)

theorem entries (h : s.Carries idle t) (b : Nat) : (t.basin b).colls.map Coll.entry = (s.basin b).colls.map Coll.entry :=
  congrArg (·.2.2) (h.basin b)

theorem sameBytes (h : s.Carries idle t) : s.sameBytes t :=
  ⟨fun c a => (congrArg (fun m => SMap.get 0 m a) (h.sp c) :), fun b a => (congrArg (fun m => SMap.get 0 m a) (h.mem b) :)⟩

/-! ### Updates of the state -/

theorem foldl {α : Type} {f : State → α → State} {l : List α} (h : s.Carries idle t)
    (hf : ∀ t a, s.Carries idle t → s.Carries idle (f t a)) : s.Carries idle (l.foldl f t) :=
  List.foldlRecOn l f h fun t h a _ => hf t a h

theorem updBasin {f : Basin → Basin} (h : s.Carries idle t) (hf : ∀ v, (f v).carried = v.carried) :
    s.Carries idle (t.updBasin b f) := by
  refine h.trans ⟨fun _ => rfl, fun b' => ?_, rfl, fun _ => rfl, fun _ => rfl, ⟨[], List.append_nil _⟩⟩
  rw [State.basin_updBasin]
  split
  · next e => exact e ▸ hf _
  · rfl

theorem updCore {c : Nat} {f : Core → Core} (h : s.Carries idle t) (hf : ∀ k, (f k).sp = k.sp) : s.Carries idle (t.updCore c f) := by
  refine h.trans ⟨fun c' => ?_, fun _ => rfl, rfl, fun _ => rfl, fun _ => rfl, ⟨[], List.append_nil _⟩⟩
  rw [State.core_updCore]
  split
  · next e => exact e ▸ hf _
  · rfl

theorem updCores {cs : List Nat} {f : Nat → Core → Core} (h : s.Carries idle t) (hf : ∀ c k, (f c k).sp = k.sp) :
    s.Carries idle (t.updCores cs f) := h.foldl fun _ c h => h.updCore (hf c)

theorem updGroup {n : Nat} {f : EthGroup → EthGroup} (h : s.Carries idle t) (hf : ∀ g, (f g).line = g.line) :
    s.Carries idle (t.updGroup n f) :=
  h.trans ⟨fun _ => rfl, fun _ => rfl, State.lines_updGroup hf, fun _ => rfl, fun _ => rfl, ⟨[], List.append_nil _⟩⟩

/-- Sends change queue pairs, but not the PSNs that these expect. -/
theorem updQp {n : Nat} {f : Qp → Qp} (h : s.Carries False t) (hf : ∀ q, (f q).rxNext = q.rxNext) : s.Carries False (t.updQp n f) := by
  refine h.trans ⟨fun _ => rfl, fun _ => rfl, rfl, fun n' => ?_, nofun, ⟨[], List.append_nil _⟩⟩
  rw [State.qp_updQp]
  split
  · next e => exact e ▸ hf _
  · rfl

theorem emit {m : Msg} (h : s.Carries idle t) : s.Carries idle (t.emit m) :=
  h.trans ⟨fun _ => rfl, fun _ => rfl, rfl, fun _ => rfl, fun _ => rfl, ⟨[m], rfl⟩⟩

theorem updPort {n : Nat} {f : Stack → Stack} (h : s.Carries idle t) : s.Carries idle (t.updPort n f) := h.same rfl

theorem count {g : CntGroup} {n i k : Nat} (h : s.Carries idle t) : s.Carries idle (t.count g n i k) := h.same rfl

theorem tier {x : Tier} (h : s.Carries idle t) : s.Carries idle { t with tier := x } := h.same rfl

theorem updPage {p : Nat} {f : Page → Page} (h : s.Carries idle t) : s.Carries idle (t.updPage b p f) := h.updBasin fun _ => rfl

/-! ### Reports, stops and halts -/

theorem notify {fn : HostFn} {v : Nat} (h : s.Carries idle t) : s.Carries idle (t.notify fn v) := by
  unfold State.notify
  dsimp only
  split
  · cases fn with
    | pf0 => exact h.same rfl
    | vf b => exact h.updBasin (f := fun x => { x with msix := _ }) fun _ => rfl
  · exact h.emit

theorem markEvent {i : Nat} (h : s.Carries idle t) : s.Carries idle (t.markEvent b i) := h.updBasin fun _ => rfl

theorem setEvent {i : Nat} (h : s.Carries idle t) : s.Carries idle (t.setEvent b i) := h.markEvent.notify.notify

theorem report {r : Report} (h : s.Carries idle t) : s.Carries idle (t.report r) := by
  unfold State.report
  dsimp only
  split
  · split
    · exact h.same rfl
    · exact h.same rfl
  · unfold State.postReport
    split
    · refine .notify (.emit ?_)
      exact h.same rfl
    · exact h.same rfl

theorem addCharge {kind index : Nat} (h : s.Carries idle t) : s.Carries idle (t.addCharge kind index) := h.same rfl

theorem stopCores (h : s.Carries idle t) : s.Carries idle (t.stopCores b) := h.updCores fun _ _ => rfl

theorem startTest (h : s.Carries idle t) : s.Carries idle (t.startTest b) := by
  have on : s.Carries idle (State.switchQuarry
      { t with rel := { t.rel with testing := (t.rel.testing ++ t.liveCores b).dedup } } true) := by
    unfold State.switchQuarry
    split
    · exact h.same rfl
    · exact h.same rfl
  unfold State.startTest
  dsimp only
  split
  · exact on.updBasin fun _ => rfl
  · exact on

theorem restTest (h : s.Carries idle t) : s.Carries idle (t.restTest b) := by
  unfold State.restTest
  split
  · exact h
  · split
    · exact h.startTest
    · unfold State.takeRebind
      split
      · exact h.updBasin fun _ => rfl
      · exact h

theorem enterFence {o : Option Nat} {kind c : Nat} (h : s.Carries idle t) : s.Carries idle (t.enterFence o kind c) := by
  have stopped : s.Carries idle (t.updCore c fun k => { k.stop with fenced := true }) := h.updCore fun _ => rfl
  exact .report (stopped.same rfl)

theorem applyFences (h : s.Carries idle t) : s.Carries idle (t.applyFences b) := by
  have fenced : s.Carries idle ((t.basin b).fencePending.foldl (fun s f => s.enterFence (some b) f.1 f.2)
      (t.updBasin b fun x => { x with fencePending := [] })) :=
    .foldl (h.updBasin fun _ => rfl) fun _ _ g => g.enterFence
  unfold State.applyFences
  dsimp only
  split
  · unfold State.beginUnbind
    exact .updBasin (.stopCores (fenced.same rfl)) fun _ => rfl
  · unfold State.enterParked
    exact .restTest (.setEvent (.updBasin (.markEvent (.updBasin (.updCores fenced fun _ _ => rfl) fun _ => rfl)) fun _ => rfl))

theorem haltBasin {cause : Nat} (h : s.Carries idle t) : s.Carries idle (t.haltBasin b cause) := by
  have stopped : s.Carries idle (((t.stopCores b).updBasin b fun x =>
      { x with phase := .halted, lastCause := cause, sluice := none, parkReq := false, testPause := false }).setEvent b 2) :=
    .setEvent (.updBasin h.stopCores fun _ => rfl)
  unfold State.haltBasin State.settle
  split
  · exact stopped.restTest
  · exact stopped.applyFences

/-- A channel is charged and never fenced (14 R404). -/
theorem chargeChannel {index event addr detail act : Nat} {o : Option Nat} (h : s.Carries idle t) :
    s.Carries idle (t.charge 9 index event addr detail act o) := by
  unfold State.charge
  dsimp only
  split
  · exact h.addCharge.report
  · exact h.addCharge.report

/-! ### Moves of pages -/

theorem takeMap {p : Nat} (h : s.Carries idle t) (e : t.takeMap b p = some u) : s.Carries idle u := by
  unfold State.takeMap at e
  split at e
  · cases e
    exact h
  · obtain ⟨v, -, rfl⟩ := Option.map_eq_some_iff.1 e
    unfold State.zeroFill
    dsimp only
    split
    · exact h.count.count.updPage
    · exact h.count.updPage

theorem tierMsg {p line lines : Nat} {w : Bool} (h : s.Carries idle t) : s.Carries idle (t.tierMsg b p line lines w) := h.emit

theorem askMove {p : Nat} (h : s.Carries idle t) : s.Carries idle (t.askMove b p) := by
  unfold State.askMove
  dsimp only
  split
  · exact h
  · split
    · exact h.tierMsg.updPage
    · split
      · exact h.tierMsg.updPage
      · exact h

theorem addMove {p : Nat} {c : MoveCause} {f : Page → Page} (h : s.Carries idle t) : s.Carries idle (t.addMove b p c f) := by
  unfold State.addMove
  split
  · exact h
  · next e =>
      exact (h.takeMap e).updPage.tier.askMove

theorem supply {p : Nat} (h : s.Carries idle t) (e : t.supply b p = .waits u) : s.Carries idle u := by
  unfold State.supply at e
  dsimp only at e
  split at e
  · split at e
    · cases e
    · split at e
      · cases e
        exact h
      · cases e
  · split at e
    · cases e
    · split at e
      · cases e
        exact h
      · split at e
        · cases e
          split
          · exact h
          · exact h.addMove
        · split at e
          · cases e
            exact h
          · cases e

theorem tryReturn {p : Nat} (h : s.Carries idle t) : s.Carries idle (t.tryReturn b p).1 := by
  unfold State.tryReturn
  dsimp only
  split
  · split
    · exact h.addMove
    · next e =>
        dsimp only
        exact (h.supply e).updPage
    · dsimp only
      exact h.updPage
  · exact h

/-! ### Logs and receive buffers -/

theorem growLog {n : Nat} (h : s.Carries idle t) : s.Carries idle (growLog b n t) := by
  induction n generalizing t with
  | zero => exact h
  | succ n ih =>
    unfold Machine.growLog
    split
    · exact h
    · split
      · exact ih (h.updBasin fun _ => rfl)
      · next e => exact h.supply e
      · exact h.markEvent.haltBasin

theorem fillLog (h : s.Carries idle t) : s.Carries idle (t.fillLog b) := h.growLog

theorem pausePrio {n p : Nat} (h : s.Carries idle t) : s.Carries idle (t.pausePrio n p) := by
  unfold State.pausePrio
  dsimp only
  split
  · exact h
  · split
    · split
      · exact .emit (h.updGroup fun _ => rfl)
      · exact h
    · split
      · exact .emit (h.updGroup fun _ => rfl)
      · exact h

theorem drainGroup {n : Nat} (h : s.Carries idle t) : s.Carries idle (t.drainGroup n) := by
  unfold State.drainGroup
  split
  · exact h
  · exact .foldl (h.updGroup fun _ => rfl) fun _ _ h => h.pausePrio

/-! ### Reads by a collective engine -/

theorem rawMove {f : Nat} {c : MoveCause} (h : s.Carries idle t) : s.Carries idle (t.rawMove f c) := by
  unfold State.rawMove State.addRaw
  split
  · split
    · exact h
    · refine .updBasin ?_ fun _ => rfl
      exact h.same rfl
  · exact h

theorem fenceMoves {f : Nat} (h : s.Carries idle t) : s.Carries idle (t.fenceMoves f) := by
  unfold State.fenceMoves
  refine .foldl h.rawMove fun t e h => h.foldl fun t q h => ?_
  dsimp only
  split
  · exact h
  · split
    · split
      · exact h.addMove
      · exact h
    · split
      · split
        · exact h.addMove
        · exact h
      · exact h

theorem fenceFrame {f : Nat} (h : s.Carries idle t) : s.Carries idle (t.fenceFrame f) := by
  unfold State.fenceFrame
  dsimp only
  split
  · exact h
  · exact .report (.fenceMoves (h.same rfl))

theorem chargeFrame {o : Option Nat} {f i detail : Nat} (h : s.Carries idle t) : s.Carries idle (t.chargeFrame o f i detail) := by
  unfold State.chargeFrame
  dsimp only
  split
  · exact h.updPort.count.addCharge.report.fenceFrame
  · exact h.updPort.count.addCharge.report

theorem uncorrectable {blk : Nat} (h : s.Carries idle t) : s.Carries idle (t.uncorrectable b blk) := by
  unfold State.uncorrectable
  dsimp only
  split
  · exact h.updBasin fun _ => rfl
  · exact .chargeFrame (h.updBasin fun _ => rfl)

theorem crcRetries {n k : Nat} (h : s.Carries idle t) : s.Carries idle (t.crcRetries n k) := by
  have counted : ∀ f : Stack → Stack, s.Carries idle ((t.updPort n f).count .memp n 5 k) := fun _ => h.updPort.count
  unfold State.crcRetries
  dsimp only
  split
  · exact h
  · split
    · unfold State.requestRetrain
      dsimp only
      split
      · exact counted _
      · split
        · exact (counted _).tier
        · exact (counted _).updPort
    · exact counted _

theorem readErrors {blks : List Nat} {e : ReadEnv} (h : s.Carries idle t) : s.Carries idle (t.readErrors b blks e) := by
  have atBlock : ∀ {t : State} {o : Option Nat} {f : State → Nat → Nat → State},
      s.Carries idle t → (∀ n j, s.Carries idle (f t n j)) →
      s.Carries idle (match o with
        | some j => (match (t.basin b).blockFrame j with | some fr => f t (stackOf fr) j | none => t)
        | none => t) := by
    intro t o f h hf
    split
    · split
      · exact hf ..
      · exact h
    · exact h
  unfold State.readErrors
  dsimp only
  refine .foldl (.foldl (.foldl h ?corrected) ?poisoned) ?crc
  case corrected =>
    exact fun t i h => atBlock (f := fun s n _ => (s.updPort n fun p => { p with corr := satAdd 16 p.corr 1 }).count .memp n 6 1) h
      fun _ _ => h.updPort.count
  case poisoned => exact fun t i h => atBlock (f := fun s _ j => s.uncorrectable b j) h fun _ _ => h.uncorrectable
  case crc => exact fun t x h => atBlock (f := fun s n _ => s.crcRetries n (min 2 x.2)) h fun _ _ => h.crcRetries

theorem countIo {w : Bool} {o : Option Nat} {blks : List Nat} (h : s.Carries idle t) : s.Carries idle (t.countIo b w o blks) :=
  h.same (congrArg State.carriedParts (t.countIo_countless b w o blks) :)

theorem resolveBias {p : Nat} {w : Bool} (h : s.Carries idle t) : s.Carries idle (t.resolveBias b p w) := by
  unfold State.resolveBias
  split
  · exact h.emit
  · exact h

theorem readReady {parts : List (Nat × Nat)} (h : s.Carries idle t) : s.Carries idle (t.readReady b parts).1 := by
  have asked : ∀ {t : State} (blks : List Nat), s.Carries idle t → s.Carries idle (t.askPages b blks false).1 := by
    intro t blks h
    unfold State.askPages
    refine List.foldlRecOn (motive := fun p : State × Bool => s.Carries idle p.1) _ _ h fun p hp a _ => ?_
    dsimp only
    split
    · exact hp
    · split
      · exact hp
      · dsimp only
        exact hp.tierMsg.updPage
  exact asked _ (h.foldl fun _ _ h => h.tryReturn.updPage)

theorem useAnswers {blks : List Nat} (h : s.Carries idle t) : s.Carries idle (t.useAnswers b blks) := by
  refine h.foldl fun t p h => ?_
  split
  · exact h.updPage
  · exact h

theorem readMet {blks : List Nat} {e : ReadEnv} (h : s.Carries idle t) : s.Carries idle (t.readMet b blks e).1 := by
  have resolved : s.Carries idle ((blks.map (· / 32768)).dedup.foldl (fun s p => s.resolveBias b p false) t) :=
    h.foldl fun _ _ h => h.resolveBias
  unfold State.readMet
  dsimp only
  exact resolved.readErrors.countIo

theorem collRead {ba n : Nat} (h : s.Carries idle t) : s.Carries idle (t.collRead b ba n).1 := by
  have ready := h.readReady (b := b) (parts := [(ba, n)])
  unfold State.collRead
  split
  · next e =>
      rw [e] at ready
      exact ready
  · next e =>
      rw [e] at ready
      exact .readMet (ready.useAnswers.same rfl)

theorem collOwn {ba n : Nat} {need : Bool} (h : s.Carries idle t) : s.Carries idle (t.collOwn b ba n need).1 := by
  unfold State.collOwn
  split
  · exact h.collRead
  · exact h

/-! ### Sends -/

theorem sendOne {g qpn : Nat} (h : s.Carries False t) : s.Carries False (t.sendOne g qpn) := by
  unfold State.sendOne
  dsimp only
  split
  · exact h
  · have taken : ∀ rest, s.Carries False ((t.updQp qpn fun q => { q with heldTx := rest }).updGroup g fun e => { e with turn := qpn }) :=
      fun _ => .updGroup (h.updQp fun _ => rfl) fun _ => rfl
    split
    · exact .emit (.updGroup (taken _).count.count fun _ => rfl)
    · exact (taken _).count.count.emit

theorem flushAll (h : s.Carries False t) : s.Carries False t.flushAll := by
  have serve : ∀ (n : Nat) {t : State}, s.Carries False t → s.Carries False (serveGo n t) := by
    intro n
    induction n with
    | zero => exact fun h => h
    | succ n ih =>
      intro t h
      unfold serveGo
      split
      · exact h
      · exact ih h.sendOne
  exact serve _ h

theorem sendPayload {qpn : Nat} {bs : List (Byte × Bool)} (h : s.Carries False t) : s.Carries False (t.sendPayload b qpn bs) := by
  unfold State.sendPayload
  dsimp only
  split
  · exact h
  · have sent : s.Carries False (t.updQp qpn fun q => { q with sent := q.sent ++ [bs] }) := h.updQp fun _ => rfl
    split
    · split
      · exact sent.updQp fun _ => rfl
      · exact .haltBasin (.markEvent (sent.updQp fun _ => rfl))
    · exact .flushAll (sent.updQp fun _ => rfl)

theorem sendMessage {qpn : Nat} {bs : List (Byte × Bool)} (h : s.Carries False t) : s.Carries False (t.sendMessage b qpn bs) :=
  h.foldl fun _ _ h => h.sendPayload

/-! ### Collectives -/

theorem channelFails {c : Coll} {n : Nat} (h : s.Carries idle t) : s.Carries idle (t.channelFails b c n) := by
  have charged : s.Carries idle
      ((List.range n).foldl (fun s _ => s.charge 9 (s.qset (t.basin b).desc.qset).home 0x0D c.entry 0 0 (some b)) t) :=
    h.foldl fun _ _ h => h.chargeChannel
  unfold State.channelFails
  dsimp only
  split
  · exact charged.same rfl
  · exact charged

end State.Carries

/-- A collective that takes the place of those of its entry leaves the entries in progress. -/
theorem Basin.carried_setColl (v : Basin) (c : Coll) : (v.setColl c).carried = v.carried := by
  have entries : (v.setColl c).colls.map Coll.entry = v.colls.map Coll.entry := by
    simp only [Basin.setColl, List.map_map]
    refine List.map_congr_left fun d _ => ?_
    dsimp only [Function.comp]
    split
    · next e => exact e.symm
    · rfl
  exact congrArg (fun l => (v.mem, v.rxLog, l)) entries

namespace State.Carries

variable {s t u : State} {b : Nat}

theorem collGo {e n : Nat} (h : s.Carries False t) : s.Carries False (collGo b e n t) := by
  induction n generalizing t with
  | zero => exact h
  | succ n ih =>
    have own : ∀ {ba k : Nat} {need : Bool} {u : State} {o : Option (List (Byte × Bool))},
        t.collOwn b ba k need = (u, o) → s.Carries False u := by
      intro ba k need u o ho
      have g := h.collOwn (b := b) (ba := ba) (n := k) (need := need)
      rw [ho] at g
      exact g
    unfold Machine.collGo
    dsimp only
    split
    · next c r _ _ =>
      generalize (if c.layer.isSome then 32 else 0) = trailer
      split
      · exact h
      · split
        · split
          · next ho => exact own ho
          · next ho => exact ih (.sendMessage ((own ho).updBasin fun v => v.carried_setColl _))
        · split
          · split
            · exact h
            · split
              · next ho => exact own ho
              · next ho =>
                  refine ih (.channelFails (.updBasin ?_ fun v => v.carried_setColl _))
                  split
                  · exact (own ho).same rfl
                  · exact own ho
          · exact h
    · exact h

/-- Where nothing is to be sent, no collective is in progress. -/
theorem runColls {idle : Prop} (h : s.Carries idle t) (hc : idle → (t.basin b).colls = []) : s.Carries idle (t.runColls b) := by
  unfold State.runColls
  by_cases i : idle
  · rw [hc i]
    exact h
  · rw [eq_false i] at h ⊢
    refine h.foldl fun t c h => ?_
    split
    · split
      · exact h
      · exact h.collGo
    · exact h

end State.Carries
end Sys2Proof.Machine

/-! What a lane group's commands do to the groups, and what sends and arriving packets leave of their lines (12 R345 to R348, R350 to R353,
R358). -/

namespace Sys2Proof.Machine

/-! ### Sends -/

/-- All but the lane groups, the queue pairs, the performance counters and what the device sends. -/
def State.besideSends (s : State) : State := { s with eth := [], qps := [], pmc := {}, outbox := [] }

theorem State.basins_of_besideSends {s t : State} (h : t.besideSends = s.besideSends) : t.basins = s.basins :=
  (congrArg State.basins h :)

theorem State.cores_of_besideSends {s t : State} (h : t.besideSends = s.besideSends) : t.cores = s.cores := (congrArg State.cores h :)

@[simp] theorem State.updGroup_besideSends (s : State) (n : Nat) (f : EthGroup → EthGroup) :
    (s.updGroup n f).besideSends = s.besideSends := rfl

@[simp] theorem State.updQp_besideSends (s : State) (n : Nat) (f : Qp → Qp) : (s.updQp n f).besideSends = s.besideSends := rfl

@[simp] theorem State.count_besideSends (s : State) (g : CntGroup) (n i k : Nat) : (s.count g n i k).besideSends = s.besideSends := rfl

@[simp] theorem State.emit_besideSends (s : State) (m : Msg) : (s.emit m).besideSends = s.besideSends := rfl

theorem State.sendOne_besideSends (s : State) (g qpn : Nat) : (s.sendOne g qpn).besideSends = s.besideSends := by
  unfold State.sendOne
  dsimp only
  split
  · rfl
  · split
    · simp [State.emitFrame]
    · simp [State.emitPacket]

theorem State.flushAll_besideSends (s : State) : s.flushAll.besideSends = s.besideSends := by
  have serve : ∀ (n : Nat) (s : State), (serveGo n s).besideSends = s.besideSends := by
    intro n
    induction n with
    | zero => exact fun _ => rfl
    | succ n ih =>
      intro s
      unfold serveGo
      split
      · rfl
      · exact (ih _).trans (s.sendOne_besideSends ..)
  exact serve _ s

theorem State.flushAll_lines (s : State) : s.flushAll.lines = s.lines := (State.Carries.refl s).flushAll.lines

theorem State.line_of_lines {s t : State} (h : t.lines = s.lines) (n : Nat) : (t.group n).line = (s.group n).line := congrFun h n

/-! ### Changes of groups -/

/-- A change that is made again changes nothing: each group of a list takes it, and no other. -/
theorem State.group_foldl_updGroup {f : EthGroup → EthGroup} (hf : ∀ g, f (f g) = f g) (l : List Nat) (s : State) (n : Nat) :
    (l.foldl (fun s k => s.updGroup k f) s).group n = if n ∈ l then f (s.group n) else s.group n := by
  induction l generalizing s with
  | nil => rfl
  | cons a l ih =>
    rw [List.foldl_cons, ih, State.group_updGroup]
    by_cases ha : a = n
    · subst ha
      simp [hf]
    · simp [ha, Ne.symm ha]

theorem State.qps_foldl_updGroup (f : EthGroup → EthGroup) (l : List Nat) (s : State) :
    (l.foldl (fun s k => s.updGroup k f) s).qps = s.qps :=
  List.foldlRecOn (motive := fun t : State => t.qps = s.qps) l _ rfl fun _ h _ _ => h

theorem State.besideSends_foldl_updGroup (f : EthGroup → EthGroup) (l : List Nat) (s : State) :
    (l.foldl (fun s k => s.updGroup k f) s).besideSends = s.besideSends :=
  List.foldlRecOn (motive := fun t : State => t.besideSends = s.besideSends) l _ rfl fun _ h _ _ => h

theorem State.group_updGroup_of_ne {s : State} {n m : Nat} (h : m ≠ n) (f : EthGroup → EthGroup) :
    (s.updGroup n f).group m = s.group m := by
  rw [State.group_updGroup, if_neg h.symm]

/-- The groups of a port: the group and the other of its pair at most (12 R345). -/
theorem State.mem_portGroups (s : State) {n : Nat} (hn : n < 4) :
    n ∈ s.portGroups n ∧ ∀ m ∈ s.portGroups n, m = n ∨ m = n ^^^ 1 := by
  unfold State.portGroups
  split
  · interval_cases n <;> decide
  · simp

theorem State.ethDomain_leaves (s : State) (n : Nat) : (s.ethDomain n).eth = s.eth ∧ (s.ethDomain n).qps = s.qps := by
  unfold State.ethDomain
  dsimp only
  split
  · exact ⟨rfl, rfl⟩
  · exact ⟨rfl, rfl⟩

theorem State.setMode_leaves (s : State) {n : Nat} (hn : n < 4) (m : Nat) (pair : Bool) :
    (s.setMode n m pair).group n = { s.group n with mode := m, pair800 := pair }.down ∧
    (∀ k, k ≠ n → k ≠ n ^^^ 1 → (s.setMode n m pair).group k = s.group k) ∧ (s.setMode n m pair).qps = s.qps := by
  let u := s.updGroup n fun g => { g with mode := m, pair800 := pair }
  let l := s.portGroups n ++ u.portGroups n
  obtain ⟨eth, qps⟩ := (l.foldl (fun s k => s.updGroup k EthGroup.down) u).ethDomain_leaves n
  have group : ∀ k, (s.setMode n m pair).group k = if k ∈ l then (u.group k).down else u.group k := fun k =>
    (SMap.get_congr eth k).trans (State.group_foldl_updGroup (f := EthGroup.down) (fun _ => rfl) l u k)
  refine ⟨?_, fun k hk hk' => ?_, qps.trans (State.qps_foldl_updGroup _ l u)⟩
  · rw [group, if_pos (List.mem_append_left _ (s.mem_portGroups hn).1), State.group_updGroup_self]
  · have other : k ∉ l := fun h => by
      rcases List.mem_append.1 h with h | h
      · exact ((s.mem_portGroups hn).2 k h).elim hk hk'
      · exact ((u.mem_portGroups hn).2 k h).elim hk hk'
    rw [group, if_neg other, State.group_updGroup_of_ne hk]

/-- The start of a recalibration, which another group's may prevent. -/
theorem State.startRecal_leaves (s : State) (n : Nat) :
    (∃ busy, (s.startRecal n).group n = { s.group n with recalBusy := busy }) ∧
    (∀ m, m ≠ n → (s.startRecal n).group m = s.group m) ∧ (s.startRecal n).qps = s.qps := by
  unfold State.startRecal
  split
  · exact ⟨⟨_, rfl⟩, fun _ _ => rfl, rfl⟩
  · exact ⟨⟨true, State.group_updGroup_self ..⟩, fun _ h => State.group_updGroup_of_ne h _, rfl⟩

/-! ### ETH_GROUP_CTRL_WRITE and RECAL -/

/-- A group that takes XOFF, ECN_EN and PFC_EN of a write of ETH_GROUP_CTRL (12 R361). -/
def EthGroup.takeCtrl (g : EthGroup) (v : Nat) : EthGroup :=
  { g with xoff := bits v 23 16, ecnEn := bit v 13, pfcEn := BitVec.ofNat 8 (bits v 11 4) }

/-- The device after MODE and PAIR800 of a write of ETH_GROUP_CTRL have taken effect, where they do (12 R345). -/
def State.takeMode (s : State) (n v : Nat) : State :=
  let pair := bit v 3 && decide (n % 2 = 0)
  if (decide (bits v 1 0 ≠ (s.group n).mode) || decide (pair ≠ (s.group n).pair800)) && !s.groupBusy n then
    s.setMode n (bits v 1 0) pair
  else s

/-- Beside what the write sets, RECAL may start a recalibration, and no more. -/
theorem exec_ethGroupCtrlWrite {s : State} {n : Nat} (hr : s.hostReaches = true) (hn : n < 4) (w : BitVec 32) :
    let v := (s.updGroup n (·.takeCtrl w.toNat)).takeMode n w.toNat
    ∃ t, exec (.ethGroupCtrlWrite n w) s = .next t ∧ (∃ busy, t.group n = { v.group n with recalBusy := busy }) ∧
      (∀ m, m ≠ n → t.group m = v.group m) ∧ t.qps = v.qps := by
  intro v
  have mode : ((s.updGroup n (·.takeCtrl w.toNat)).group n).mode = (s.group n).mode ∧
      ((s.updGroup n (·.takeCtrl w.toNat)).group n).pair800 = (s.group n).pair800 := by
    rw [State.group_updGroup_self]
    exact ⟨rfl, rfl⟩
  have run : exec (.ethGroupCtrlWrite n w) s = .next (if bit w.toNat 12 then v.startRecal n else v) := by
    refine congrArg Host.Outcome.next ((State.fromHost_of_reaches hr _).trans ((if_neg (by omega)).trans ?_))
    simp only [v, State.takeMode, mode]
    rfl
  refine ⟨_, run, ?_⟩
  split
  · exact v.startRecal_leaves n
  · exact ⟨⟨_, rfl⟩, fun _ _ => rfl, rfl⟩

theorem State.takeMode_leaves (s : State) {n : Nat} (hn : n < 4) (v : Nat) :
    (∀ m, m ≠ n → m ≠ n ^^^ 1 → (s.takeMode n v).group m = s.group m) ∧ (s.takeMode n v).qps = s.qps ∧
    ((s.takeMode n v).group n).xoff = (s.group n).xoff ∧ ((s.takeMode n v).group n).ecnEn = (s.group n).ecnEn ∧
    ((s.takeMode n v).group n).pfcEn = (s.group n).pfcEn ∧
    (s.groupBusy n = true → (s.takeMode n v).group n = s.group n) ∧
    (s.groupBusy n = false → ((s.takeMode n v).group n).mode = bits v 1 0 ∧
      (bits v 1 0 ≠ (s.group n).mode → ((s.takeMode n v).group n).link = false)) := by
  unfold State.takeMode
  dsimp only
  split
  · next h =>
    obtain ⟨own, others, qps⟩ := s.setMode_leaves hn (bits v 1 0) (bit v 3 && decide (n % 2 = 0))
    have idle : s.groupBusy n = false := by simpa using (Bool.and_eq_true_iff.1 h).2
    rw [own]
    exact ⟨others, qps, rfl, rfl, rfl, fun hb => by simp [idle] at hb, fun _ => ⟨rfl, fun _ => rfl⟩⟩
  · next h =>
    refine ⟨fun _ _ _ => rfl, rfl, rfl, rfl, rfl, fun _ => rfl, fun hb => ?_⟩
    have same : bits v 1 0 = (s.group n).mode := by
      by_contra hm
      exact h (by simp [hb, hm])
    exact ⟨same.symm, fun hm => absurd same hm⟩

theorem bits_eq (v hi lo : Nat) : bits v hi lo = v / 2 ^ lo % 2 ^ (hi + 1 - lo) := by rw [bits, Nat.shiftRight_eq_div_pow]

theorem ethGroupCtrlWrite_sets (s : State) (n : Nat) (w : BitVec 32) (hr : s.hostReaches = true) (hn : n < 4) :
    ∃ t, exec (.ethGroupCtrlWrite n w) s = .next t ∧ (t.group n).xoff = w.toNat / 2 ^ 16 % 2 ^ 8 ∧
      (t.group n).ecnEn = w.getLsbD 13 ∧ (t.group n).pfcEn.toNat = w.toNat / 2 ^ 4 % 2 ^ 8 ∧ t.qps = s.qps ∧
      (s.groupBusy n = true → (t.group n).mode = (s.group n).mode ∧ (t.group n).link = (s.group n).link) ∧
      (s.groupBusy n = false → (t.group n).mode = w.toNat % 4 ∧
        (w.toNat % 4 ≠ (s.group n).mode → (t.group n).link = false)) ∧
      ∀ m, m ≠ n → m ≠ n ^^^ 1 → t.group m = s.group m := by
  let u := s.updGroup n (·.takeCtrl w.toNat)
  obtain ⟨others, qps, xoff, ecn, pfc, busy, idle⟩ := u.takeMode_leaves hn w.toNat
  obtain ⟨t, run, ⟨_, group⟩, rest, tqps⟩ := exec_ethGroupCtrlWrite hr hn w
  have taken : u.group n = (s.group n).takeCtrl w.toNat := State.group_updGroup_self ..
  rw [taken] at xoff ecn pfc busy idle
  have mode : bits w.toNat 1 0 = w.toNat % 4 := by simp [bits_eq]
  have pfcEn : (BitVec.ofNat 8 (bits w.toNat 11 4)).toNat = w.toNat / 2 ^ 4 % 2 ^ 8 := by simp [bits_eq]
  refine ⟨t, run, ?_⟩
  rw [group]
  refine ⟨xoff.trans (bits_eq ..), ecn, (congrArg BitVec.toNat pfc).trans pfcEn, tqps.trans qps, fun h => ?_, fun h => ?_,
    fun m hm hm' => ?_⟩
  · exact ⟨(congrArg EthGroup.mode (busy h) :), (congrArg EthGroup.link (busy h) :)⟩
  · rw [← mode]
    exact idle h
  · exact (rest m hm).trans ((others m hm hm').trans (State.group_updGroup_of_ne hm _))

theorem recal_starts (s : State) (n : Nat) (hr : s.hostReaches = true) (hn : n < 4) :
    ∃ t, exec (.recal n) s = .next t ∧ (∀ m, m ≠ n → t.group m = s.group m) ∧ t.qps = s.qps ∧
      ((∀ e ∈ s.eth, e.2.recalBusy = true → e.1 = n) → t.group n = { s.group n with recalBusy := true }) := by
  obtain ⟨-, others, qps⟩ := s.startRecal_leaves n
  refine ⟨_, congrArg Host.Outcome.next ((State.fromHost_of_reaches hr _).trans (if_neg (by omega))), others, qps, fun h => ?_⟩
  have alone : (s.eth.any fun e => decide (e.1 ≠ n) && e.2.recalBusy) = false := by
    simp only [List.any_eq_false, Bool.and_eq_true, decide_eq_true_eq, not_and]
    exact fun e he hne hb => hne (h e he hb)
  rw [State.startRecal, alone, if_neg Bool.false_ne_true]
  exact State.group_updGroup_self ..

/-! ### Links, pauses and dropped frames -/

/-- A group after a negotiation of its link's port (12 R346, R348). -/
def EthGroup.negotiate (g : EthGroup) (ok : Bool) : EthGroup :=
  if g.link then g
  else { g with link := ok, zynRx := 0, zynNext := 0, zynTx := [], zynReplays := 0, zynRetraining := false, zynRetrains := 0 }

theorem EthGroup.negotiate_leaves (g : EthGroup) (ok : Bool) :
    (g.negotiate ok).link = (g.link || ok) ∧ (g.negotiate ok).mode = g.mode := by
  unfold EthGroup.negotiate
  split
  · next h => simp [h]
  · next h => simp [h]

theorem EthGroup.negotiate_negotiate (g : EthGroup) (ok : Bool) : (g.negotiate ok).negotiate ok = g.negotiate ok := by
  cases hl : g.link <;> cases ok <;> simp [EthGroup.negotiate, hl]

theorem ethLinkNegotiation_links (s : State) (n : Nat) (ok : Bool) (hn : n < 4) (hm : (s.group n).mode = 1 ∨ (s.group n).mode = 2) :
    ∃ t, exec (.ethLinkNegotiation n ok) s = .next t ∧ (t.group n).link = ((s.group n).link || ok) ∧
      (t.group n).mode = (s.group n).mode ∧ t.basins = s.basins ∧ t.cores = s.cores := by
  let u := (s.portGroups n).foldl (fun s g => s.updGroup g (·.negotiate ok)) s
  have run : exec (.ethLinkNegotiation n ok) s = .next u.flushAll := congrArg Host.Outcome.next (if_pos ⟨hn, hm⟩)
  have own : u.group n = (s.group n).negotiate ok :=
    (State.group_foldl_updGroup (fun g => g.negotiate_negotiate ok) _ s n).trans (if_pos (s.mem_portGroups hn).1)
  have beside : u.flushAll.besideSends = s.besideSends := u.flushAll_besideSends.trans (State.besideSends_foldl_updGroup ..)
  have line := State.line_of_lines u.flushAll_lines n
  rw [own] at line
  obtain ⟨link, mode⟩ := (s.group n).negotiate_leaves ok
  exact ⟨_, run, (congrArg EthGroup.link line :).trans link, (congrArg EthGroup.mode line :).trans mode,
    State.basins_of_besideSends beside, State.cores_of_besideSends beside⟩

theorem ethLinkLoss_unlinks (s : State) (n : Nat) (hn : n < 4) :
    ∃ t, exec (.ethLinkLoss n) s = .next t ∧
      t.group n = { s.group n with link := false, zynRetraining := false, rxWait := [], rxBuf := [], pauseSent := 0, paused := 0 } ∧
      (∀ m, m ≠ n → t.group m = s.group m) ∧ t.qps = s.qps ∧ t.basins = s.basins :=
  ⟨_, congrArg Host.Outcome.next (if_pos hn), State.group_updGroup_self .., fun _ h => State.group_updGroup_of_ne h _, rfl, rfl⟩

/-- A command that reaches a group which recalibrates waits (12 R347). -/
theorem State.orWait_of_busy {s : State} {n : Nat} (h : (s.group n).recalBusy = true) (c : Instr) (f : State → State) :
    s.orWait n c f = s.updGroup n fun g => { g with rxWait := g.rxWait ++ [c] } := if_pos h

theorem State.orWait_of_idle {s : State} {n : Nat} (h : (s.group n).recalBusy = false) (c : Instr) (f : State → State) :
    s.orWait n c f = f s := if_neg (by simp [h])

theorem pauseFrameRx_pauses (s : State) (n prio : Nat) (pause : Bool) (hn : n < 4) (hp : prio < 8) (hm : (s.group n).mode = 1)
    (hl : (s.group n).link = true) (he : (s.group n).pfcEn.getLsbD prio = true) :
    ∃ t, exec (.pauseFrameRx n prio pause) s = .next t ∧ t.basins = s.basins ∧
      ((s.group n).recalBusy = false → (t.group n).paused.getLsbD prio = pause) ∧
      ((s.group n).recalBusy = true →
        t.group n = { s.group n with rxWait := (s.group n).rxWait ++ [.pauseFrameRx n prio pause] } ∧ t.outbox = s.outbox) := by
  refine ⟨_, congrArg Host.Outcome.next (if_pos ⟨hn, hm, hl, he⟩), ?_⟩
  cases hb : (s.group n).recalBusy with
  | true =>
    rw [State.orWait_of_busy hb]
    exact ⟨rfl, nofun, fun _ => ⟨State.group_updGroup_self .., rfl⟩⟩
  | false =>
    rw [State.orWait_of_idle hb]
    let u := s.updGroup n fun g => { g with paused := setBit g.paused prio pause }
    have line := State.line_of_lines u.flushAll_lines n
    rw [State.group_updGroup_self] at line
    refine ⟨State.basins_of_besideSends u.flushAll_besideSends, fun _ => ?_, nofun⟩
    have paused : (u.flushAll.group n).paused = setBit (s.group n).paused prio pause := congrArg EthGroup.paused line
    exact (congrArg (·.getLsbD prio) paused).trans ((setBit_getLsbD ..).trans (if_pos ⟨rfl, hp⟩))

theorem State.dropFrame_of_ethernet {s : State} {n : Nat} (h : (s.group n).mode = 1) :
    s.dropFrame n = s.updGroup n fun g => { g with dropped := satAdd 16 g.dropped 1 } := if_pos h

theorem frameDropped_counts (s : State) (n : Nat) (hn : n < 4) (hl : (s.group n).link = true) (hm : (s.group n).mode = 1) :
    ∃ t, exec (.frameDropped n) s = .next t ∧
      t.group n = { s.group n with dropped := min (2 ^ 16 - 1) ((s.group n).dropped + 1) } ∧ t.qps = s.qps := by
  refine ⟨_, congrArg Host.Outcome.next (if_pos ⟨hn, hl⟩), ?_⟩
  rw [State.dropFrame_of_ethernet hm]
  exact ⟨State.group_updGroup_self .., rfl⟩

end Sys2Proof.Machine

/-! The frames and packets that arrive at a lane group: what they leave of the lines, and the end of a recalibration (12 R347, R348, R350 to
R353, R358, R359). -/

namespace Sys2Proof.Machine

/-! ### What arrivals leave of the lines -/

theorem State.dropFrame_lines (s : State) (n : Nat) : (s.dropFrame n).lines = s.lines := by
  unfold State.dropFrame
  split
  · exact State.lines_updGroup fun _ => rfl
  · rfl

/-- A CE-marked packet is answered with a notification or not at all (12 R353). -/
theorem State.answerCe_cases (s : State) (g qpn : Nat) (ce : Bool) : s.answerCe g qpn ce = s ∨
    s.answerCe g qpn ce = (s.updQp qpn fun q => { q with cnpAt := some s.usec }).emit (.ethCnp qpn) :=
  (ite_eq_or_eq _ _ _).symm

theorem State.answerCe_unmarked (s : State) (g qpn : Nat) : s.answerCe g qpn false = s := by simp [State.answerCe]

theorem State.answerCe_leaves (s : State) (g qpn : Nat) (ce : Bool) : (s.answerCe g qpn ce).basins = s.basins ∧
    (s.answerCe g qpn ce).cores = s.cores ∧ ((s.answerCe g qpn ce).qp qpn).rxNext = (s.qp qpn).rxNext := by
  rcases s.answerCe_cases g qpn ce with e | e
  · rw [e]
    exact ⟨rfl, rfl, rfl⟩
  · rw [e, State.qp_emit, State.qp_updQp_self]
    exact ⟨rfl, rfl, rfl⟩

theorem State.answerCe_lines (s : State) (g qpn : Nat) (ce : Bool) : (s.answerCe g qpn ce).lines = s.lines := by
  rcases s.answerCe_cases g qpn ce with e | e
  · rw [e]
  · rw [e]
    rfl

/-- A basin whose receive log takes a payload (12 R359). -/
def Basin.logged (v : Basin) (qpn : Nat) (bs : List (Byte × Bool)) : Basin := { v with rxLog := v.rxLog ++ [(qpn, bs)] }

theorem State.acceptPayload_of_owner {s : State} {qpn b : Nat} (h : s.qsetOwner (qsetOf qpn) = some b) (g : Nat)
    (bs : List (Byte × Bool)) : s.acceptPayload g qpn bs =
      (((s.logPayload b qpn bs).updGroup g fun e =>
        { e with rxBuf := e.rxBuf ++ [(b, (s.qp qpn).prio, bs.length)] }).drainGroup g).runColls b := by
  simp only [State.acceptPayload, h]

theorem State.acceptPayload_of_none {s : State} {qpn : Nat} (h : s.qsetOwner (qsetOf qpn) = none) (g : Nat) (bs : List (Byte × Bool)) :
    s.acceptPayload g qpn bs = s := by simp only [State.acceptPayload, h]

/-- A payload enters the log of its basin, and what follows carries on. -/
theorem State.acceptPayload_carries {s : State} {qpn b : Nat} {idle : Prop} (h : s.qsetOwner (qsetOf qpn) = some b)
    (hc : idle → (s.basin b).colls = []) (g : Nat) (bs : List (Byte × Bool)) :
    (s.updBasin b (·.logged qpn bs)).Carries idle (s.acceptPayload g qpn bs) := by
  have logged : (s.updBasin b (·.logged qpn bs)).Carries idle (s.logPayload b qpn bs) := (State.Carries.refl _).fillLog
  rw [State.acceptPayload_of_owner h]
  have drained := State.Carries.drainGroup (n := g) (logged.updGroup (n := g)
    (f := fun e => { e with rxBuf := e.rxBuf ++ [(b, (s.qp qpn).prio, bs.length)] }) fun _ => rfl)
  refine drained.runColls fun i => ?_
  have entries := drained.entries b
  rw [State.basin_updBasin_self, show ((s.basin b).logged qpn bs).colls = [] from hc i] at entries
  exact List.map_eq_nil_iff.1 entries

theorem State.acceptPayload_lines (s : State) (g qpn : Nat) (bs : List (Byte × Bool)) : (s.acceptPayload g qpn bs).lines = s.lines := by
  cases h : s.qsetOwner (qsetOf qpn) with
  | none => rw [State.acceptPayload_of_none h]
  | some b => exact (State.acceptPayload_carries (idle := False) h nofun g bs).lines

theorem State.receivePacket_lines (s : State) (p : RdmaPkt) (imm : Option (BitVec 32)) : (s.receivePacket p imm).lines = s.lines := by
  have counted := ((s.count .eth p.group 1 p.payload.length).count .eth p.group 3 1).answerCe_lines p.group p.qpn p.ce
  unfold State.receivePacket
  dsimp only
  split
  · exact s.dropFrame_lines _
  · split
    · rfl
    · split
      · split
        · exact counted
        · exact (State.acceptPayload_lines ..).trans counted
      · split
        · exact counted
        · exact counted

theorem takeStriped_lines (qpn n : Nat) (s : State) : (takeStriped qpn n s).lines = s.lines := by
  induction n generalizing s with
  | zero => rfl
  | succ n ih =>
    unfold takeStriped
    dsimp only
    split
    · rfl
    · split
      · rfl
      · exact (ih _).trans (State.acceptPayload_lines ..)

/-- A Zynwin frame that is the next of its link (12 R348). -/
theorem State.receiveFrame_next {s : State} {f : ZynFrame} (hc : f.crcOk = true) (hs : f.seq = (s.group f.group).zynRx) :
    (s.receiveFrame f).lines = (s.updGroup f.group fun g => { g with zynRx := g.zynRx + 1 }).lines := by
  have fresh : ¬ (!f.crcOk || decide ((s.group f.group).zynRx < f.seq)) = true := by simp [hc, hs]
  have next : ¬ f.seq < (s.group f.group).zynRx := by omega
  unfold State.receiveFrame
  dsimp only
  rw [if_neg fresh, if_neg next]
  split
  · rw [State.lines_count, State.lines_count]
  · rw [takeStriped_lines, State.lines_updQp, State.lines_count, State.lines_count]

/-- A Zynwin frame that is damaged or ahead of its link (12 R348). -/
theorem State.receiveFrame_asks {s : State} {f : ZynFrame} (h : f.crcOk = false ∨ (s.group f.group).zynRx < f.seq) :
    s.receiveFrame f = s.emit (.zynReplay f.group (s.group f.group).zynRx) := if_pos (by simpa using h)

/-- A Zynwin frame that its link has accepted before (12 R348). -/
theorem State.receiveFrame_again {s : State} {f : ZynFrame} (hc : f.crcOk = true) (h : f.seq < (s.group f.group).zynRx) :
    s.receiveFrame f = s := (if_neg (by simp [hc]; omega)).trans (if_pos h)

theorem State.failColls_lines (s : State) (qpn : Nat) : (s.failColls qpn).lines = s.lines := by
  unfold State.failColls
  dsimp only
  split
  · rfl
  · split
    · rfl
    · rfl

theorem State.qpError_lines (s : State) (qpn cause : Nat) : (s.qpError qpn cause).lines = s.lines := State.failColls_lines ..

theorem State.goBackN_lines (s : State) (qpn : Nat) : (s.goBackN qpn).lines = s.lines := by
  unfold State.goBackN
  dsimp only
  split
  · rfl
  · split
    · exact State.qpError_lines ..
    · refine (State.flushAll_lines _).trans ?_
      split
      · rfl
      · rfl

/-! ### The end of a recalibration -/

/-- A group that carries traffic, with nothing that waits for it (12 R347). -/
def State.flows (s : State) (n : Nat) : Prop := (s.group n).recalBusy = false ∧ (s.group n).rxWait = []

namespace State.flows

variable {s t : State} {n : Nat}

theorem lines (h : s.flows n) (e : t.lines = s.lines) : t.flows n := by
  have line := State.line_of_lines e n
  obtain ⟨busy, wait⟩ := h
  exact ⟨(congrArg EthGroup.recalBusy line :).trans busy, (congrArg EthGroup.rxWait line :).trans wait⟩

theorem updQp {q : Nat} {f : Qp → Qp} (h : s.flows n) : (s.updQp q f).flows n := h

theorem count {g : CntGroup} {m i k : Nat} (h : s.flows n) : (s.count g m i k).flows n := h

theorem updGroup {m : Nat} {f : EthGroup → EthGroup} (h : s.flows n)
    (hf : ∀ g, ((f g).recalBusy, (f g).rxWait) = (g.recalBusy, g.rxWait)) : (s.updGroup m f).flows n := by
  unfold State.flows
  rw [State.group_updGroup]
  split
  · next e =>
    obtain ⟨busy, wait⟩ := Prod.mk.injEq .. ▸ hf (s.group m)
    subst e
    exact ⟨busy.trans h.1, wait.trans h.2⟩
  · exact h

theorem of_ite {c : Prop} [Decidable c] {u : State} (ht : t.flows n) (hu : u.flows n) : (if c then t else u).flows n := by
  split
  · exact ht
  · exact hu

/-- What waits for another group waits there; what reaches this one is served. -/
theorem orWait {m : Nat} {c : Instr} {f : State → State} (h : s.flows n) (hf : (f s).flows n) : (s.orWait m c f).flows n := by
  cases hb : (s.group m).recalBusy with
  | false => rwa [State.orWait_of_idle hb]
  | true =>
    have other : n ≠ m := fun e => by simp [← e, h.1] at hb
    rw [State.orWait_of_busy hb, State.flows, State.group_updGroup_of_ne other]
    exact h

theorem packetAt {p : RdmaPkt} {imm : Option (BitVec 32)} (h : s.flows n) : (s.packetAt p imm).flows n := by
  unfold State.packetAt
  dsimp only
  split
  · exact h
  · exact h.orWait (h.lines (State.receivePacket_lines ..))

theorem receiveFrame {f : ZynFrame} (h : s.flows n) : (s.receiveFrame f).flows n := by
  by_cases asks : f.crcOk = false ∨ (s.group f.group).zynRx < f.seq
  · rw [State.receiveFrame_asks asks]
    exact h
  · obtain ⟨crc, near⟩ := not_or.1 asks
    rw [Bool.not_eq_false] at crc
    rcases Nat.lt_or_eq_of_le (Nat.not_lt.1 near) with again | next
    · rwa [State.receiveFrame_again crc again]
    · exact (h.updGroup (f := fun g => { g with zynRx := g.zynRx + 1 }) fun _ => rfl).lines (State.receiveFrame_next crc next)

theorem answer {qpn : Nat} {c : Instr} {f : State → State} (h : s.flows n) (hf : (f s).flows n) : (s.answer qpn c f).flows n := by
  unfold State.answer
  dsimp only
  split
  · refine h.orWait ?_
    split
    · exact h.lines (State.dropFrame_lines ..)
    · split
      · exact h
      · exact hf
  · exact h

/-- A replay sends frames, and changes what its group remembers of requests. -/
theorem replay {m : Nat} {l : List (Nat × Nat × List Byte × List Nat)} {f : EthGroup → EthGroup} (h : s.flows n)
    (hf : ∀ g, ((f g).recalBusy, (f g).rxWait) = (g.recalBusy, g.rxWait)) :
    ((l.foldl (fun s e => (s.count .eth m 6 1).emit (.zynFrame m e.1 e.2.1 e.2.2.1 e.2.2.2)) s).updGroup m f).flows n :=
  .updGroup (List.foldlRecOn (motive := fun t : State => t.flows n) l _ h fun _ h _ _ => h) hf

/-- What has waited for a group arrives without waiting again. -/
theorem arriveLate {c : Instr} (h : s.flows n) (e : arriveLate c s = .next t) : t.flows n := by
  unfold Machine.arriveLate at e
  split at e
  · cases e
    exact h.packetAt
  · cases e
    exact h.packetAt
  · cases e
    split
    · exact h
    · exact h.orWait h.receiveFrame
  · cases e
    split
    · exact h
    · exact h.orWait (h.replay fun _ => rfl)
  · cases e
    split
    · refine h.orWait (State.flows.lines ?_ (State.flushAll_lines _))
      exact h.updGroup fun _ => rfl
    · exact h
  · cases e
    refine h.answer ?_
    split
    · exact h
    · exact h
  · cases e
    refine h.answer ?_
    dsimp only
    split
    · exact h.lines (State.goBackN_lines ..)
    · exact h.lines (State.qpError_lines ..)
  · cases e
    exact h.answer (h.lines (State.qpError_lines ..))
  · cases e
    refine h.answer ?_
    dsimp only
    split
    · exact .of_ite h.updQp.count.updQp h.updQp.count
    · exact .of_ite h.updQp.updQp h.updQp
  · cases e
    exact h

end State.flows

theorem recalDone_flows (s : State) (n : Nat) (hb : (s.group n).recalBusy = true) :
    ∃ t, exec (.recalDone n) s = .next t ∧ (t.group n).recalBusy = false ∧ (t.group n).rxWait = [] ∧
      ((s.group n).rxWait = [] → (t.group n).link = (s.group n).link ∧ t.basins = s.basins ∧ t.cores = s.cores) := by
  let u := s.updGroup n fun g => { g with recalBusy := false, rxWait := [] }
  let v := (s.group n).rxWait.foldl (fun s c => match arriveLate c s with | .next t => t | _ => s) u
  have own : u.group n = { s.group n with recalBusy := false, rxWait := [] } := State.group_updGroup_self ..
  have run : exec (.recalDone n) s = .next v.flushAll := congrArg Host.Outcome.next (if_pos hb)
  have resumed : u.flows n := by rw [State.flows, own]; exact ⟨rfl, rfl⟩
  have arrived : v.flows n := by
    refine List.foldlRecOn (motive := fun t : State => t.flows n) _ _ resumed fun t h c _ => ?_
    split
    · next e => exact h.arriveLate e
    · exact h
  obtain ⟨busy, wait⟩ := arrived.lines v.flushAll_lines
  refine ⟨_, run, busy, wait, fun hw => ?_⟩
  have none : v = u := by
    show List.foldl _ _ _ = _
    rw [hw]
    rfl
  have beside := u.flushAll_besideSends
  have line := State.line_of_lines u.flushAll_lines n
  rw [own] at line
  rw [none]
  exact ⟨(congrArg EthGroup.link line :), State.basins_of_besideSends beside, State.cores_of_besideSends beside⟩

/-- Settles O42: each command's clause is its own lemma; what waited for a recalibrated group arrives without waiting again
(`State.flows.arriveLate`). -/
theorem ethernetGroups : Obligations.EthernetGroups :=
  ⟨ethGroupCtrlWrite_sets, recal_starts, recalDone_flows, ethLinkNegotiation_links, ethLinkLoss_unlinks, pauseFrameRx_pauses,
    frameDropped_counts⟩

end Sys2Proof.Machine

/-! Received write packets, Zynwin frames, replay requests and retrainings (12 R348, R350, R351, R353, R358, R359). -/

namespace Sys2Proof.Machine

/-! ### Payloads and logs -/

theorem length_withPoison (bs : List Byte) (blks : List Nat) : (withPoison bs blks).length = bs.length := by simp [withPoison]

/-- A payload for which the log holds frames takes none (12 R359). -/
theorem State.logPayload_of_fits {s : State} {b : Nat} {bs : List (Byte × Bool)} (qpn : Nat)
    (h : bs.length + (s.basin b).logBytes ≤ (s.basin b).logFrames.length * pageBytes) :
    s.logPayload b qpn bs = s.updBasin b (·.logged qpn bs) := by
  have bytes : ((s.updBasin b (·.logged qpn bs)).basin b).logBytes = (s.basin b).logBytes + bs.length := by
    rw [State.basin_updBasin_self]
    simp [Basin.logBytes, Basin.logged]
  have frames : ((s.updBasin b (·.logged qpn bs)).basin b).logFrames = (s.basin b).logFrames := by
    rw [State.basin_updBasin_self]
    rfl
  show State.fillLog (s.updBasin b (·.logged qpn bs)) b = _
  rw [State.fillLog, bytes, frames]
  have none : ceilDiv ((s.basin b).logBytes + bs.length) pageBytes - (s.basin b).logFrames.length = 0 := by
    unfold ceilDiv pageBytes at *
    omega
  rw [none, growLog]

/-- A payload for which the log holds frames, in a basin without collectives, leaves every core. -/
theorem State.acceptPayload_cores {s : State} {qpn b : Nat} {bs : List (Byte × Bool)} (h : s.qsetOwner (qsetOf qpn) = some b) (g : Nat)
    (hc : (s.basin b).colls = []) (hf : bs.length + (s.basin b).logBytes ≤ (s.basin b).logFrames.length * pageBytes) :
    (s.acceptPayload g qpn bs).cores = s.cores := by
  rw [State.acceptPayload_of_owner h, State.logPayload_of_fits qpn hf]
  generalize hu : ((s.updBasin b (·.logged qpn bs)).updGroup g fun e =>
    { e with rxBuf := e.rxBuf ++ [(b, (s.qp qpn).prio, bs.length)] }) = u
  have cores : u.cores = s.cores := hu ▸ rfl
  have colls : (u.basin b).colls = [] := by
    rw [← hu, State.basin_updGroup, State.basin_updBasin_self]
    exact hc
  have drained : ((u.drainGroup g).basin b).colls = [] :=
    (congrArg Basin.colls (State.basin_of_still (u.drainGroup_still g) b) :).trans colls
  rw [State.runColls, drained]
  exact (State.cores_of_still (u.drainGroup_still g)).trans cores

/-! ### Write packets -/

theorem State.emit_outbox (s : State) (m : Msg) : (s.emit m).outbox = s.outbox ++ [m] := rfl

/-- The blocks of a packet's payload that its immediate marks as poisoned (12 R358). -/
def immPoison : Option (BitVec 32) → List Nat
  | some m => immBlocks m
  | none => []

/-- The device once a packet for one of its queue pairs is counted and a congestion mark is answered (12 R353; 16 R448). -/
def State.heard (s : State) (p : RdmaPkt) : State :=
  ((s.count .eth p.group 1 p.payload.length).count .eth p.group 3 1).answerCe p.group p.qpn p.ce

/-- The device at the acceptance of a packet, before its payload enters the log (12 R351). -/
def State.acked (s : State) (p : RdmaPkt) : State :=
  ((s.heard p).updQp p.qpn fun q => { q with rxNext := (q.rxNext + 1) % 2 ^ 24 }).emit (.ethAck p.qpn p.psn)

theorem State.heard_of_unmarked {p : RdmaPkt} (h : p.ce = false) (s : State) :
    s.heard p = (s.count .eth p.group 1 p.payload.length).count .eth p.group 3 1 := by
  rw [State.heard, h, State.answerCe_unmarked]

theorem State.heard_leaves (s : State) (p : RdmaPkt) : (s.heard p).basins = s.basins ∧ (s.heard p).cores = s.cores ∧
    ((s.heard p).qp p.qpn).rxNext = (s.qp p.qpn).rxNext :=
  State.answerCe_leaves ((s.count .eth p.group 1 p.payload.length).count .eth p.group 3 1) p.group p.qpn p.ce

/-- A write packet that reaches a queue pair in RTS of a group in Ethernet mode, where nothing holds it up (12 R345, R347, R350, R353). -/
structure State.reaches (s : State) (p : RdmaPkt) : Prop where
  group : p.group < 4
  mode : (s.group p.group).mode = 1
  link : (s.group p.group).link = true
  idle : (s.group p.group).recalBusy = false
  qpn : isQpn p.qpn = true
  rts : (s.qp p.qpn).st = .rts
  names : (s.qp p.qpn).groups.getLsbD p.group = true

theorem State.packetAt_of_link {s : State} {p : RdmaPkt} (hg : p.group < 4) (hm : (s.group p.group).mode = 1)
    (hl : (s.group p.group).link = true) (imm : Option (BitVec 32)) : s.packetAt p imm =
      s.orWait p.group (match imm with | some m => .rdmaWriteImm p m | none => .rdmaWrite p) fun s => s.receivePacket p imm :=
  if_neg (by simp [hg, hm, hl])

namespace State.reaches

variable {s : State} {p : RdmaPkt} (h : s.reaches p) (imm : Option (BitVec 32))

include h

theorem packetAt : s.packetAt p imm = s.receivePacket p imm := by
  rw [State.packetAt_of_link h.group h.mode h.link, State.orWait_of_idle h.idle]

/-- A packet that finds the receive buffer full is lost. -/
theorem lost (hr : (s.group p.group).hasRoom p.payload.length = false) : s.packetAt p imm = s := by
  rw [h.packetAt]
  exact (if_neg (by simp [h.qpn, h.rts, h.names])).trans (if_pos (by simp [hr]))

variable (hr : (s.group p.group).hasRoom p.payload.length = true)

include hr

theorem packetAt_heard : s.packetAt p imm =
    if p.psn = (s.qp p.qpn).rxNext then
      if p.rkey ≠ (s.qp p.qpn).localRkey ∨ Config.recvRegion p.qpn < p.offset + p.payload.length then
        (s.heard p).emit (.ethNakAccess p.qpn p.psn)
      else
        (s.acked p).acceptPayload p.group p.qpn (withPoison p.payload (immPoison imm))
    else (s.heard p).emit (if psnAhead p.psn (s.qp p.qpn).rxNext then .ethNakSeq p.qpn (s.qp p.qpn).rxNext else .ethAck p.qpn p.psn) := by
  rw [h.packetAt, apply_ite ((s.heard p).emit ·)]
  refine (if_neg (by simp [h.qpn, h.rts, h.names])).trans ((if_neg (by simp [hr])).trans ?_)
  cases imm <;> rfl

end State.reaches

/-! ### What a packet's answer leaves -/

theorem State.sameBytes_of_same {s t : State} (hb : t.basins = s.basins) (hc : t.cores = s.cores) : s.sameBytes t :=
  State.sameBytes_of_coresMem (State.coresMem_of_same hb hc)

theorem State.acked_leaves (s : State) (p : RdmaPkt) : (s.acked p).basins = s.basins ∧ (s.acked p).cores = s.cores ∧
    ((s.acked p).qp p.qpn).rxNext = ((s.qp p.qpn).rxNext + 1) % 2 ^ 24 := by
  obtain ⟨basins, cores, rxNext⟩ := s.heard_leaves p
  refine ⟨basins, cores, ?_⟩
  rw [State.acked, State.qp_emit, State.qp_updQp_self, ← rxNext]

theorem State.acked_of_unmarked {p : RdmaPkt} (h : p.ce = false) (s : State) :
    (s.acked p).qp p.qpn = { s.qp p.qpn with rxNext := ((s.qp p.qpn).rxNext + 1) % 2 ^ 24 } ∧
    (s.acked p).outbox = s.outbox ++ [.ethAck p.qpn p.psn] := by
  rw [State.acked, State.heard_of_unmarked h, State.qp_emit, State.qp_updQp_self, State.emit_outbox]
  simp

/-- A payload that its queue pair accepts (12 R351, R358, R359). -/
theorem State.acked_accepts (s : State) (p : RdmaPkt) {b : Nat} (hb : s.qsetOwner (qsetOf p.qpn) = some b) (bs : List (Byte × Bool)) :
    let t := (s.acked p).acceptPayload p.group p.qpn bs
    s.sameBytes t ∧ (t.qp p.qpn).rxNext = ((s.qp p.qpn).rxNext + 1) % 2 ^ 24 ∧ Msg.ethAck p.qpn p.psn ∈ t.outbox ∧
      (t.basin b).rxLog = (s.basin b).rxLog ++ [(p.qpn, bs)] ∧
      (p.ce = false → (s.basin b).colls = [] → t.qp p.qpn = { s.qp p.qpn with rxNext := ((s.qp p.qpn).rxNext + 1) % 2 ^ 24 } ∧
        (bs.length + (s.basin b).logBytes ≤ (s.basin b).logFrames.length * pageBytes →
          t.cores = s.cores ∧ ∃ l, t.outbox = s.outbox ++ .ethAck p.qpn p.psn :: l)) := by
  obtain ⟨basins, cores, rxNext⟩ := s.acked_leaves p
  have basin : (s.acked p).basin b = s.basin b := SMap.get_congr basins b
  have owner : (s.acked p).qsetOwner (qsetOf p.qpn) = some b := by rw [← hb, State.qsetOwner, State.qsetOwner, basins]
  have carried := State.acceptPayload_carries (idle := (s.basin b).colls = []) owner (fun h => basin ▸ h) p.group bs
  have logged : s.sameBytes ((s.acked p).updBasin b (·.logged p.qpn bs)) :=
    (State.sameBytes_of_same basins cores).trans (State.sameBytes_of_coresMem (State.updBasin_coresMem fun _ => rfl))
  have acked : Msg.ethAck p.qpn p.psn ∈ (s.acked p).outbox := by
    rw [State.acked]
    exact List.mem_append_right _ (List.mem_singleton.2 rfl)
  refine ⟨logged.trans carried.sameBytes, (carried.rxNext _).trans rxNext, carried.outbox.subset acked, ?_,
    fun hce hc => ⟨?_, fun hf => ⟨?_, ?_⟩⟩⟩
  · rw [carried.rxLog, State.basin_updBasin_self, basin]
    rfl
  · exact (SMap.get_congr (carried.qps hc) _).trans (State.acked_of_unmarked hce s).1
  · rw [← basin] at hc hf
    exact (State.acceptPayload_cores owner p.group hc hf).trans cores
  · obtain ⟨l, sent⟩ := carried.outbox
    refine ⟨l, sent.symm.trans ?_⟩
    show (s.acked p).outbox ++ l = _
    rw [(State.acked_of_unmarked hce s).2, List.append_assoc]
    rfl

/-- The device after an answer that accepts nothing (12 R351). -/
theorem State.heard_emit_leaves (s : State) (p : RdmaPkt) (m : Msg) :
    s.sameBytes ((s.heard p).emit m) ∧
    (p.ce = false → ((s.heard p).emit m).qps = s.qps ∧ ((s.heard p).emit m).outbox = s.outbox ++ [m] ∧
      ((s.heard p).emit m).basins = s.basins ∧ ((s.heard p).emit m).cores = s.cores) := by
  obtain ⟨basins, cores, -⟩ := s.heard_leaves p
  refine ⟨State.sameBytes_of_same basins cores, fun h => ?_⟩
  rw [State.heard_of_unmarked h, State.emit_outbox]
  simp

theorem State.reaches.answers {s : State} {p : RdmaPkt} (h : s.reaches p) (hr : (s.group p.group).hasRoom p.payload.length = true) {b : Nat}
    (hb : s.qsetOwner (qsetOf p.qpn) = some b) (imm : Option (BitVec 32)) :
    let q := s.qp p.qpn
    let t := s.packetAt p imm
    s.sameBytes t ∧
      (p.psn = q.rxNext → p.rkey = q.localRkey → p.offset + p.payload.length ≤ Config.recvRegion p.qpn →
        (t.qp p.qpn).rxNext = (q.rxNext + 1) % 2 ^ 24 ∧ Msg.ethAck p.qpn p.psn ∈ t.outbox ∧
        (t.basin b).rxLog = (s.basin b).rxLog ++ [(p.qpn, withPoison p.payload (immPoison imm))] ∧
        (p.ce = false → (s.basin b).colls = [] → t.qp p.qpn = { q with rxNext := (q.rxNext + 1) % 2 ^ 24 } ∧
          (p.payload.length + (s.basin b).logBytes ≤ (s.basin b).logFrames.length * pageBytes →
            t.cores = s.cores ∧ ∃ l, t.outbox = s.outbox ++ .ethAck p.qpn p.psn :: l))) ∧
      (p.ce = false → p.psn = q.rxNext → p.rkey ≠ q.localRkey ∨ Config.recvRegion p.qpn < p.offset + p.payload.length →
        t.qps = s.qps ∧ t.outbox = s.outbox ++ [.ethNakAccess p.qpn p.psn] ∧ t.basins = s.basins ∧ t.cores = s.cores) ∧
      (p.ce = false → p.psn ≠ q.rxNext → t.qps = s.qps ∧ t.basins = s.basins ∧ t.cores = s.cores ∧ t.outbox = s.outbox ++
        [if psnAhead p.psn q.rxNext then .ethNakSeq p.qpn q.rxNext else .ethAck p.qpn p.psn]) := by
  intro q t
  have run : t = _ := h.packetAt_heard imm hr
  clear_value t
  by_cases hpsn : p.psn = q.rxNext
  · rw [if_pos hpsn] at run
    by_cases hbad : p.rkey ≠ q.localRkey ∨ Config.recvRegion p.qpn < p.offset + p.payload.length
    · obtain ⟨bytes, rest⟩ := s.heard_emit_leaves p (.ethNakAccess p.qpn p.psn)
      rw [if_pos hbad] at run
      subst run
      exact ⟨bytes, fun _ hk ho => absurd hbad (by omega), fun hce _ _ => rest hce, fun _ hne => absurd hpsn hne⟩
    · obtain ⟨bytes, accepted⟩ := s.acked_accepts p hb (withPoison p.payload (immPoison imm))
      rw [length_withPoison] at accepted
      rw [if_neg hbad] at run
      subst run
      exact ⟨bytes, fun _ _ _ => accepted, fun _ _ h => absurd h hbad, fun _ hne => absurd hpsn hne⟩
  · rw [if_neg hpsn] at run
    obtain ⟨bytes, rest⟩ := s.heard_emit_leaves p (if psnAhead p.psn q.rxNext then .ethNakSeq p.qpn q.rxNext else .ethAck p.qpn p.psn)
    subst run
    refine ⟨bytes, fun h => absurd h hpsn, fun _ h => absurd h hpsn, fun hce _ => ?_⟩
    obtain ⟨qps, outbox, basins, cores⟩ := rest hce
    exact ⟨qps, basins, cores, outbox⟩

/-! ### Zynwin frames -/

/-- Payloads for a queue set that no basin holds go nowhere. -/
theorem takeStriped_of_none {s : State} {qpn : Nat} (h : s.qsetOwner (qsetOf qpn) = none) (n : Nat) :
    (takeStriped qpn n s).basins = s.basins ∧ (takeStriped qpn n s).cores = s.cores := by
  induction n generalizing s with
  | zero => exact ⟨rfl, rfl⟩
  | succ n ih =>
    unfold takeStriped
    dsimp only
    split
    · exact ⟨rfl, rfl⟩
    · split
      · exact ⟨rfl, rfl⟩
      · have unowned : ∀ f, (s.updQp qpn f).qsetOwner (qsetOf qpn) = none := fun _ => h
        rw [State.acceptPayload_of_none (unowned _)]
        exact ih (unowned _)

theorem State.receiveFrame_of_none {s : State} {f : ZynFrame} (h : s.qsetOwner (qsetOf f.qpn) = none) :
    (s.receiveFrame f).basins = s.basins ∧ (s.receiveFrame f).cores = s.cores := by
  unfold State.receiveFrame
  dsimp only
  split
  · exact ⟨rfl, rfl⟩
  · split
    · exact ⟨rfl, rfl⟩
    · generalize hu : ((s.updGroup f.group fun g => { g with zynRx := g.zynRx + 1 }).count .eth f.group 1 f.payload.length).count .eth
        f.group 3 1 = u
      have basins : u.basins = s.basins := by rw [← hu, State.count_basins, State.count_basins, State.updGroup_basins]
      have cores : u.cores = s.cores := by rw [← hu, State.count_cores, State.count_cores, State.updGroup_cores]
      have unowned : ∀ g, (u.updQp f.qpn g).qsetOwner (qsetOf f.qpn) = none := fun g => by
        rw [← h, State.qsetOwner, State.qsetOwner, State.updQp_basins, basins]
      split
      · exact ⟨basins, cores⟩
      · obtain ⟨tb, tc⟩ := takeStriped_of_none (unowned _) _
        exact ⟨tb.trans basins, tc.trans cores⟩

/-- A command of a Zynwin link that is up and neither retrains nor recalibrates is carried out (12 R345, R347, R348). -/
theorem State.onZynwin {s : State} {n : Nat} (hn : n < 4) (hm : (s.group n).mode = 2) (hl : (s.group n).link = true)
    (ht : (s.group n).zynRetraining = false) (hb : (s.group n).recalBusy = false) (c : Instr) (f : State → State) :
    (if 4 ≤ n ∨ (s.group n).mode ≠ 2 ∨ !(s.group n).link ∨ (s.group n).zynRetraining then s else s.orWait n c f) = f s :=
  (if_neg (by simp [hn, hm, hl, ht])).trans (State.orWait_of_idle hb c f)

theorem zynwinFrameRx_receives (s : State) (f : ZynFrame) (hn : f.group < 4) (hm : (s.group f.group).mode = 2)
    (hl : (s.group f.group).link = true) (ht : (s.group f.group).zynRetraining = false) (hb : (s.group f.group).recalBusy = false) :
    ∃ t, exec (.zynwinFrameRx f) s = .next t ∧
      (s.qsetOwner (qsetOf f.qpn) = none → t.basins = s.basins ∧ t.cores = s.cores) ∧
      (f.crcOk = false ∨ (s.group f.group).zynRx < f.seq →
        t.outbox = s.outbox ++ [.zynReplay f.group (s.group f.group).zynRx] ∧ t.eth = s.eth ∧ t.qps = s.qps) ∧
      (f.crcOk = true → f.seq = (s.group f.group).zynRx → (t.group f.group).zynRx = f.seq + 1) ∧
      (f.crcOk = true → f.seq < (s.group f.group).zynRx → t = s) := by
  refine ⟨_, congrArg Host.Outcome.next (State.onZynwin hn hm hl ht hb (.zynwinFrameRx f) fun s => s.receiveFrame f),
    State.receiveFrame_of_none, fun h => ?_, fun hc hs => ?_, State.receiveFrame_again⟩
  · rw [State.receiveFrame_asks h]
    exact ⟨rfl, rfl, rfl⟩
  · have line := State.line_of_lines (State.receiveFrame_next hc hs) f.group
    rw [State.group_updGroup_self] at line
    rw [hs]
    exact (congrArg EthGroup.zynRx line :)

/-- Frames that are sent again go out in order, and nothing else but performance counters changes. -/
theorem State.resend_leaves {α : Type} (n : Nat) (m : α → Msg) (l : List α) (s : State) :
    let t := l.foldl (fun s e => (s.count .eth n 6 1).emit (m e)) s
    t.outbox = s.outbox ++ l.map m ∧ t.eth = s.eth ∧ t.qps = s.qps ∧ t.basins = s.basins := by
  induction l generalizing s with
  | nil => exact ⟨(List.append_nil _).symm, rfl, rfl, rfl⟩
  | cons a l ih =>
    obtain ⟨outbox, rest⟩ := ih ((s.count .eth n 6 1).emit (m a))
    exact ⟨outbox.trans (List.append_assoc ..), rest⟩

theorem zynwinReplayRequest_replays (s : State) (n seq : Nat) (hn : n < 4) (hm : (s.group n).mode = 2) (hl : (s.group n).link = true)
    (ht : (s.group n).zynRetraining = false) (hb : (s.group n).recalBusy = false) :
    let k := if seq = (s.group n).zynAsked then (s.group n).zynReplays + 1 else 1
    ∃ t, exec (.zynwinReplayRequest n seq) s = .next t ∧ (t.group n).zynRetraining = decide (8 ≤ k) ∧
      (t.group n).zynAsked = seq ∧ (k < 8 → (t.group n).zynReplays = k) ∧ t.qps = s.qps ∧ t.basins = s.basins ∧
      t.outbox = s.outbox ++ (((s.group n).zynTx.filter fun e => decide (seq ≤ e.1)).reverse.map fun e =>
        .zynFrame n e.1 e.2.1 e.2.2.1 e.2.2.2) := by
  intro k
  obtain ⟨outbox, eth, qps, basins⟩ :=
    s.resend_leaves n (fun e : Nat × Nat × List Byte × List Nat => .zynFrame n e.1 e.2.1 e.2.2.1 e.2.2.2)
    ((s.group n).zynTx.filter fun e => decide (seq ≤ e.1)).reverse
  refine ⟨_, congrArg Host.Outcome.next (State.onZynwin hn hm hl ht hb (.zynwinReplayRequest n seq) _), ?_, ?_, fun hk => ?_, qps, basins,
    outbox⟩
  · rw [State.group_updGroup_self]
  · rw [State.group_updGroup_self]
  · rw [State.group_updGroup_self]
    exact if_pos hk

/-! ### Retraining -/

theorem State.failColls_qps (s : State) (qpn : Nat) : (s.failColls qpn).qps = s.qps := by
  unfold State.failColls
  dsimp only
  split
  · rfl
  · split
    · rfl
    · rfl

theorem State.qp_qpError (s : State) (n cause m : Nat) : (s.qpError n cause).qp m =
    if n = m then { s.qp n with st := .error, errCause := cause, unacked := [], heldTx := [] } else s.qp m :=
  (SMap.get_congr (State.failColls_qps ..) m).trans (State.qp_updQp ..)

/-- The queue pairs that use a group whose link has gone down enter ERROR (12 R348, R352). -/
def failUsers (n : Nat) (l : List (Nat × Qp)) (s : State) : State :=
  l.foldl (fun s e => if e.2.groups.getLsbD n && decide (e.2.st = .rts) then s.qpError e.1 4 else s) s

theorem failUsers_lines (n : Nat) (l : List (Nat × Qp)) (s : State) : (failUsers n l s).lines = s.lines := by
  refine List.foldlRecOn (motive := fun t : State => t.lines = s.lines) l _ rfl fun t h e _ => ?_
  split
  · exact (State.qpError_lines ..).trans h
  · exact h

theorem failUsers_fails {n : Nat} {l : List (Nat × Qp)} {e : Nat × Qp} (he : e ∈ l) (hg : e.2.groups.getLsbD n = true)
    (hs : e.2.st = .rts) (s : State) : ((failUsers n l s).qp e.1).st = .error ∧ ((failUsers n l s).qp e.1).errCause = 4 := by
  have stays : ∀ (l : List (Nat × Qp)) (s : State), (s.qp e.1).st = .error ∧ (s.qp e.1).errCause = 4 →
      ((failUsers n l s).qp e.1).st = .error ∧ ((failUsers n l s).qp e.1).errCause = 4 := fun l s h => by
    refine List.foldlRecOn (motive := fun t : State => (t.qp e.1).st = .error ∧ (t.qp e.1).errCause = 4) l _ h fun t h d _ => ?_
    split
    · rw [State.qp_qpError]
      split
      · exact ⟨rfl, rfl⟩
      · exact h
    · exact h
  induction l generalizing s with
  | nil => cases he
  | cons d l ih =>
    rcases List.mem_cons.1 he with rfl | he
    · refine stays l _ ?_
      dsimp only
      rw [if_pos (by simp [hg, hs]), State.qp_qpError, if_pos rfl]
      exact ⟨rfl, rfl⟩
    · exact ih he _

theorem zynwinRetrainEnd_ends (s : State) (n : Nat) (ok : Bool) (ht : (s.group n).zynRetraining = true) :
    ∃ t, exec (.zynwinRetrainEnd n ok) s = .next t ∧
      (ok = true → (t.group n).zynRetraining = false ∧ (t.group n).zynRetrains = 0 ∧ (t.group n).link = (s.group n).link) ∧
      (ok = false → (s.group n).zynRetrains + 1 < 3 → (t.group n).zynRetrains = (s.group n).zynRetrains + 1 ∧
        (t.group n).link = (s.group n).link ∧ t.qps = s.qps) ∧
      (ok = false → 3 ≤ (s.group n).zynRetrains + 1 → (t.group n).link = false ∧
        ∀ e ∈ s.qps, e.2 = s.qp e.1 → e.2.groups.getLsbD n = true → e.2.st = .rts →
          (t.qp e.1).st = .error ∧ (t.qp e.1).errCause = 4) := by
  have trained : exec (.zynwinRetrainEnd n ok) s = _ := congrArg Host.Outcome.next (if_neg (by simp [ht]))
  cases ok with
  | true =>
    let u := s.updGroup n fun g => { g with zynRetraining := false, zynRetrains := 0 }
    have line := State.line_of_lines u.flushAll_lines n
    rw [State.group_updGroup_self] at line
    exact ⟨u.flushAll, trained, fun _ => ⟨(congrArg EthGroup.zynRetraining line :), (congrArg EthGroup.zynRetrains line :),
      (congrArg EthGroup.link line :)⟩, nofun, nofun⟩
  | false =>
    by_cases few : (s.group n).zynRetrains + 1 < 3
    · refine ⟨_, trained.trans (congrArg Host.Outcome.next (if_pos few)), nofun, fun _ _ => ?_, fun _ h => absurd h (by omega)⟩
      rw [State.group_updGroup_self]
      exact ⟨rfl, rfl, rfl⟩
    · let u := s.updGroup n fun g => { g with zynRetrains := 0 }.down
      have line := State.line_of_lines (failUsers_lines n s.qps u) n
      rw [State.group_updGroup_self] at line
      exact ⟨failUsers n s.qps u, trained.trans (congrArg Host.Outcome.next (if_neg few)), nofun, fun _ h => absurd h few,
        fun _ _ => ⟨(congrArg EthGroup.link line :), fun e he _ hg hs => failUsers_fails he hg hs u⟩⟩

/-! ### The obligation -/

/-- Settles O44: a packet by the answer that it calls for (`State.reaches.answers`), frames, requests and retrainings by their own
lemmas. -/
theorem packetsAndFrames : Obligations.PacketsAndFrames := by
  refine ⟨fun s p imm b hg hm hl hi hq hs hn hr hb => ?_, fun s p imm hg hm hl => ?_, zynwinFrameRx_receives, zynwinReplayRequest_replays,
    zynwinRetrainEnd_ends⟩
  · have answered := State.reaches.answers ⟨hg, hm, hl, hi, hq, hs, hn⟩ hr hb imm
    cases imm with
    | none => exact ⟨_, rfl, answered⟩
    | some m => exact ⟨_, rfl, answered⟩
  · have linked := State.packetAt_of_link hg hm hl imm
    have lost : (s.group p.group).recalBusy = false → isQpn p.qpn = true → (s.qp p.qpn).st = .rts →
        (s.qp p.qpn).groups.getLsbD p.group = true → (s.group p.group).hasRoom p.payload.length = false → s.packetAt p imm = s :=
      fun hi hq hs hn hr => State.reaches.lost ⟨hg, hm, hl, hi, hq, hs, hn⟩ imm hr
    cases imm with
    | none =>
      exact ⟨fun hb => congrArg Host.Outcome.next (linked.trans (State.orWait_of_busy hb ..)),
        fun hi hq hs hn hr => congrArg Host.Outcome.next (lost hi hq hs hn hr)⟩
    | some m =>
      exact ⟨fun hb => congrArg Host.Outcome.next (linked.trans (State.orWait_of_busy hb ..)),
        fun hi hq hs hn hr => congrArg Host.Outcome.next (lost hi hq hs hn hr)⟩

end Sys2Proof.Machine

/-! The end of a collective: what it writes, and what follows it (06 R191, R192, R196; 09 R270, R271, R280, R481; 12 R355, R356). -/

namespace Sys2Proof.Machine

/-! ### What a write of memory leaves of a basin's run -/

/-- How a basin's run stands: its phase, its collectives, its program and its sluice. -/
def Basin.run (v : Basin) : BasinPhase × List Coll × Option Image × Option Sluice := (v.phase, v.colls, v.img, v.sluice)

theorem State.run_of_still {s t : State} (h : t.still = s.still) (b : Nat) : (t.basin b).run = (s.basin b).run :=
  (congrArg Basin.run (State.basin_of_still h b) :)

theorem Basin.openTile_run (v : Basin) (t : Nat) : (v.openTile t).run = v.run := by
  unfold Basin.openTile
  dsimp only
  split
  · split
    · dsimp only [Basin.run]
    · dsimp only [Basin.run]
  · split
    · dsimp only [Basin.run]
    · dsimp only [Basin.run]

theorem Basin.writeMem_run (v : Basin) (ba : Nat) (bs : List Byte) (bad : List Nat) : (v.writeMem ba bs bad).run = v.run :=
  List.foldlRecOn (motive := fun w : Basin => w.run = v.run) _ _ rfl fun w h t _ => (w.openTile_run t).trans h

theorem State.writeMem_run (s : State) (b ba : Nat) (bs : List Byte) (bad : List Nat) (b' : Nat) :
    ((s.writeMem b ba bs bad).basin b').run = (s.basin b').run := by
  have stores : ∃ (u : State) (f : Basin → Basin), u.still = s.still ∧ (∀ v, (f v).run = v.run) ∧
      s.writeMem b ba bs bad = (u.updBasin b f).dropMerged b ba bs.length := by
    refine ⟨_, _, ?_, fun v => ?_, rfl⟩
    · rw [State.clearWriteFails_still, foldl_still, State.countOpen_still]
      simp
    · dsimp only
      split
      · exact v.writeMem_run ba bs bad
      · exact v.writeMem_run ba bs bad
  obtain ⟨u, f, still, leaves, run⟩ := stores
  have basin : (s.writeMem b ba bs bad).basin b' = (u.updBasin b f).basin b' := by
    rw [run]
    rfl
  rw [basin, State.basin_updBasin, ← State.run_of_still still]
  split
  · next e => exact e ▸ leaves _
  · rfl

theorem State.writeRuns_run (s : State) (b : Nat) (l : List (Nat × List (Byte × Bool))) (b' : Nat) :
    ((l.foldl (fun s w => s.writeBytes b w.1 w.2) s).basin b').run = (s.basin b').run :=
  List.foldlRecOn (motive := fun t : State => (t.basin b').run = (s.basin b').run) l _ rfl fun t h _ _ => (t.writeMem_run ..).trans h

/-- What an engine stores stands in memory; beside it, only what the tier engine works on changes. -/
theorem State.storeParts_stores {s t : State} {b : Nat} {ws : List (Nat × List (Byte × Bool))} (h : s.storeParts b ws = (t, .ready)) :
    ∃ u : State, u.still = s.still ∧ t.still = (ws.foldl (fun s w => s.writeBytes b w.1 w.2) u).still := by
  unfold State.storeParts at h
  dsimp only at h
  split at h
  · next v hv =>
    have ready : v.still = s.still := by
      rw [← s.prepPages_still b (ws.flatMap fun w => span pageBytes w.1 w.2.length).dedup, hv]
    split at h
    · cases h
    · cases h
      refine ⟨_, ?_, State.countIo_still ..⟩
      exact (foldl_still _ (fun t p => t.resolveBias_still b p true) _ _).trans ready
  · next r hr => exact absurd h (hr t)

/-- What an engine stores leaves of the cores and of the basins' runs. -/
theorem State.storeParts_leaves {s t : State} {b : Nat} {ws : List (Nat × List (Byte × Bool))} (h : s.storeParts b ws = (t, .ready)) :
    t.cores = s.cores ∧ (∀ b', (t.basin b').run = (s.basin b').run) ∧
    ∀ b' a, (b = b' → ∀ w ∈ ws, a < w.1 ∨ w.1 + w.2.length ≤ a) → t.memByte b' a = s.memByte b' a := by
  obtain ⟨u, before, after⟩ := State.storeParts_stores h
  refine ⟨?_, fun b' => ?_, fun b' a ha => ?_⟩
  · rw [State.cores_of_still after, State.writeRuns_cores, State.cores_of_still before]
  · rw [State.run_of_still after, State.writeRuns_run, State.run_of_still before]
  · rw [State.memByte_of_still after, State.writeRuns_memByte ha, State.memByte_of_still before]

theorem State.storeParts_single {s t : State} {b out : Nat} {bs : List (Byte × Bool)} (h : s.storeParts b [(out, bs)] = (t, .ready))
    {i : Nat} (hi : i < bs.length) : t.memByte b (out + i) = (bs.getD i (0, false)).1 := by
  obtain ⟨u, -, after⟩ := State.storeParts_stores h
  rw [State.memByte_of_still after]
  have stored := State.writeBytes_memByte_inside (s := u) (b := b) (ba := out) hi
  rw [List.getElem?_eq_getElem hi] at stored
  rw [List.getD_eq_getElem?_getD, List.getElem?_eq_getElem hi]
  exact Option.some.inj stored

/-! ### What follows a collective -/

/-- An entry that no collective in progress runs. -/
theorem Basin.coll_eq_none_iff {v : Basin} {e : Nat} : v.coll e = none ↔ e ∉ v.colls.map Coll.entry := by
  simp [Basin.coll, List.find?_eq_none]

namespace State.Carries

variable {idle : Prop} {s t : State} {b : Nat}

/-- The verdict and the passes that it starts (06 R192, R193; 10 R294). -/
theorem tryVerdict (h : s.Carries idle t) : s.Carries idle (t.tryVerdict b) := by
  have passes : ∀ {u : State}, s.Carries idle u → s.Carries idle (u.startPasses b) := fun hu => hu.foldl fun _ _ h => h.same rfl
  unfold State.tryVerdict State.giveVerdict
  dsimp only
  split
  · split
    · exact passes (.count (.count (h.updBasin fun _ => rfl)))
    · exact .count (.count (h.updBasin fun _ => rfl))
  · exact h

/-- The closing sluice that can no longer complete (06 R196). -/
theorem checkClosing (h : s.Carries idle t) : s.Carries idle (t.checkClosing b) := by
  unfold State.checkClosing
  dsimp only
  split
  · split
    · exact .haltBasin (h.updCores fun _ _ => rfl)
    · exact h
  · exact h

end State.Carries

/-- A basin whose entry `e` has ended (12 R355). -/
def Basin.endColl (v : Basin) (e : Nat) : Basin :=
  { v with colls := v.colls.filter fun d => decide (d.entry ≠ e), collRan := v.collRan ++ [e] }

theorem Basin.coll_endColl (v : Basin) (e : Nat) : (v.endColl e).coll e = none := by
  simp [Basin.coll, Basin.endColl, List.find?_eq_none]

/-- A collective that is done and whose output is written leaves, and its layer takes its record. -/
theorem exec_collectiveComplete {s s1 : State} {b e : Nat} {r : CollRec} {c : Coll} (hp : (s.basin b).phase = .running)
    (hc : (s.basin b).coll e = some c) (hr : (s.basin b).collTable[e]? = some r) (hd : s.collDone b e = true)
    (hw : s.storeParts b ((s.basin b).collWrites r c) = (s1, .ready)) :
    ∃ u : State, (s1.updBasin b (·.endColl e)).Carries True u ∧ (c.layer = none → u = s1.updBasin b (·.endColl e)) ∧
      exec (.collectiveComplete b e) s = .next (((u.tryVerdict b).checkClosing b).runColls b) := by
  have written : s.collWrite b ((s.basin b).collWrites r c) = (s1, true) := by rw [State.collWrite, hw]
  have run : exec (.collectiveComplete b e) s = .next ((((match c.layer with
      | some n => (s1.updBasin b (·.endColl e)).updBasin b fun v => if (v.grad n).collective then v.updLayer n fun a =>
          a.merge c (v.converts r c && convOverflow ((s.basin b).collWrites r c)) else v
      | none => s1.updBasin b (·.endColl e)).tryVerdict b).checkClosing b).runColls b) := by
    show execCollectiveComplete b e s = _
    simp only [execCollectiveComplete, hc, hr, hp, hd, written]
    rfl
  refine ⟨_, ?_, fun hl => ?_, run⟩
  · split
    · refine (State.Carries.refl _).updBasin fun v => ?_
      split
      · rfl
      · rfl
    · exact .refl _
  · rw [hl]

/-- The outputs of an entry: none for a SEND, one for every other operation (12 R355). -/
theorem CollRec.outputs_cases (r : CollRec) : (r.op = opSend → r.outputs = []) ∧ (r.op ≠ opSend → ∃ p, r.outputs = [p]) := by
  refine ⟨fun h => if_pos h, fun h => ?_⟩
  rw [CollRec.outputs, if_neg h]
  split
  · exact ⟨_, rfl⟩
  · exact ⟨_, rfl⟩

/-- A collective that ends alone is followed by nothing. -/
theorem State.ended_alone {s : State} {b e : Nat} {c : Coll} (he : c.entry = e)
    (hr : (s.basin b).run = (.running, [c], (s.basin b).img, none)) (hv : (s.basin b).validLayers = []) :
    let u := s.updBasin b (·.endColl e)
    ((u.tryVerdict b).checkClosing b).runColls b = u ∧ (u.basin b).colls = [] ∧ (u.basin b).phase = .running := by
  intro u
  simp only [Basin.run, Prod.mk.injEq] at hr
  obtain ⟨phase, colls, -, sluice⟩ := hr
  have own : u.basin b = (s.basin b).endColl e := State.basin_updBasin_self ..
  have none : (u.basin b).colls = [] := by rw [own, Basin.endColl, colls]; simp [he]
  have layers : (u.basin b).validLayers = [] := own ▸ hv
  have open_ : (u.basin b).sluice = .none := own ▸ sluice
  have verdict : u.tryVerdict b = u := if_neg (by simp [layers])
  have closing : u.checkClosing b = u := by rw [State.checkClosing, open_]
  refine ⟨?_, none, own ▸ phase⟩
  rw [verdict, closing, State.runColls, none]
  rfl

/-- Settles O40: the output by what an engine stores (`State.storeParts_leaves`), the end of the entry by what follows it
(`State.Carries.runColls`). -/
theorem collectiveCompletes : Obligations.CollectiveCompletes := by
  intro s s1 b e r c hp hc hr hd ws hw
  obtain ⟨u, carried, alone, run⟩ := exec_collectiveComplete hp hc hr hd hw
  obtain ⟨cores, runs, mem⟩ := State.storeParts_leaves hw
  refine ⟨_, run, ?_, fun hl hcs hv hs => ?_⟩
  · have checked := ((State.Carries.refl (idle := False) u).tryVerdict (b := b)).checkClosing (b := b)
    have entries := (checked.runColls (b := b) nofun).entries b
    rw [Basin.coll_eq_none_iff, entries, carried.entries, ← Basin.coll_eq_none_iff, State.basin_updBasin_self]
    exact Basin.coll_endColl ..
  · have entry : c.entry = e := by simpa using List.find?_some hc
    have here := runs b
    have img : (s1.basin b).img = (s.basin b).img := congrArg (·.2.2.1) here
    have layers : (s1.basin b).validLayers = [] := by
      rw [← hv, Basin.validLayers, Basin.validLayers, Basin.grads, Basin.grads, img]
    have stands : (s1.basin b).run = (.running, [c], (s1.basin b).img, none) := by
      rw [here, img, Basin.run, hp, hcs, hs]
    obtain ⟨rests, colls, phase⟩ := State.ended_alone entry stands layers
    rw [alone hl, rests]
    have after : ∀ b' a, (s1.updBasin b (·.endColl e)).memByte b' a = s1.memByte b' a :=
      State.memByte_of_coresMem (State.updBasin_coresMem fun _ => rfl)
    obtain ⟨send, others⟩ := r.outputs_cases
    refine ⟨colls, phase, fun b' a hb => ?_, fun x a => ?_, fun ho a => ?_, fun ho => ?_⟩
    · rw [after, mem b' a fun e => absurd e.symm hb]
    · exact (congrArg (fun k : Core => SMap.get 0 k.sp a) (SMap.get_congr cores x) :)
    · rw [after, mem b a]
      simp [ws, Basin.collWrites, send ho]
    · obtain ⟨p, outputs⟩ := others ho
      obtain ⟨⟨out, bs⟩, single⟩ : ∃ w, ws = [w] := ⟨_, by simp only [ws, Basin.collWrites, outputs]; rfl⟩
      refine ⟨out, bs, single, fun i hi => ?_, fun a ha => ?_⟩
      · rw [after]
        exact State.storeParts_single (single ▸ hw) hi
      · rw [after, mem b a fun _ w hw => ?_]
        rw [show _ = ws from rfl, single, List.mem_singleton] at hw
        exact hw ▸ ha

end Sys2Proof.Machine

/-! What a command keeps of the queue of commands, the blown fuses and the limits of the power state (13 R375, R380, R388). -/

namespace Sys2Proof.Machine

/-! ### Ways to the device -/

theorem State.overLink_kept {f : State → State} (h : ∀ s, (f s).kept = s.kept) (s : State) : (s.overLink f).kept = s.kept := by
  unfold State.overLink
  split
  · exact h s
  · rfl

theorem State.toFwu_kept {f : State → State} (h : ∀ s, (f s).kept = s.kept) (s : State) : (s.toFwu f).kept = s.kept := by
  unfold State.toFwu
  split
  · exact State.overLink_kept h s
  · exact State.overLink_kept h s
  · rfl

theorem State.overI3c_kept {f : State → State} (h : ∀ s, (f s).kept = s.kept) (s : State) : (s.overI3c f).kept = s.kept := by
  unfold State.overI3c
  split
  · exact h s
  · exact s.emit_kept _

theorem State.spdm_kept {f : State → State} (h : ∀ s, (f s).kept = s.kept) (p : SpdmPort) (s : State) :
    (s.spdm p f).kept = s.kept := by
  unfold State.spdm
  split
  · exact s.emit_kept _
  · exact h s

theorem State.toSpdm_kept {f : State → State} (h : ∀ s, (f s).kept = s.kept) (p : SpdmPort) (s : State) :
    (s.toSpdm p f).kept = s.kept := by
  cases p with
  | doe fn =>
    refine State.fromHost_kept _ _ fun s => ?_
    split
    · exact State.spdm_kept h _ s
    · rfl
  | mctp => exact State.overI3c_kept (State.spdm_kept h _) s

theorem State.toSession_kept {f : State → State} (h : ∀ s, (f s).kept = s.kept) (p : SpdmPort) (s : State) :
    (s.toSession p f).kept = s.kept := by
  cases p with
  | doe fn =>
    unfold State.toSession
    dsimp only
    split
    · rfl
    · exact State.spdm_kept h _ s
  | mctp => exact State.overI3c_kept (State.spdm_kept h _) s

theorem State.answer_kept {f : State → State} (h : ∀ s, (f s).kept = s.kept) (qpn : Nat) (c : Instr) (s : State) :
    (s.answer qpn c f).kept = s.kept := by
  unfold State.answer
  dsimp only
  split
  · refine State.orWait_kept _ _ _ _ fun s => ?_
    split
    · exact s.dropFrame_kept _
    · split
      · rfl
      · exact h s
  · rfl

/-! ### Keyed commands -/

/-- Every keyed command but FW_ACTIVATE, which may blow fuses. -/
theorem State.runKeyed_kept {op : Nat} (h : op ≠ 5) (k : KBlock) (s : State) : (s.runKeyed op k).kept = s.kept := by
  unfold State.runKeyed
  split
  · dsimp only
    split <;> simp
  · dsimp only
    split
    · simp
    · split
      case h_5 => exact absurd rfl h
      all_goals simp

theorem State.keyedCommand_kept {op : Nat} (h : op ≠ 5) (k : KBlock) (s : State) : (s.keyedCommand op k).kept = s.kept := by
  refine State.overLink_kept (fun s => ?_) s
  unfold State.goKeyed
  split
  · simp
  · dsimp only
    split
    · exact (State.runKeyed_kept h k _).trans (by simp)
    · split
      · simp
      · exact (State.runKeyed_kept h k _).trans (by simp)
    · simp

/-! ### Commands that answer with the same limits -/

/-- An answer of a command that leaves the queue, the fuses and the limits of the power state. -/
def State.Keeps (s : State) (o : Out State) : Prop := ∃ t, o = .next t ∧ t.kept = s.kept

theorem State.Keeps.next {s t : State} (h : t.kept = s.kept) : s.Keeps (.next t) := ⟨t, rfl, h⟩

theorem execHomingMove_keeps (b p : Nat) (s : State) : s.Keeps (execHomingMove b p s) := by
  refine .next ?_
  split
  · split
    · exact s.addMove_kept ..
    · next h => exact State.supply_kept h
    · exact s.updPage_kept ..
  · rfl

theorem execFrameWaitDone_keeps (b p : Nat) (s : State) : s.Keeps (execFrameWaitDone b p s) := by
  refine .next ((State.wake_kept _).trans ?_)
  split
  · rfl
  · exact s.retryMove_kept b p
  · exact s.rescue_kept b p
  · split
    · exact s.returnTo_kept ..
    · next h => exact State.supply_kept h
    · exact s.updPage_kept ..
  · exact s.prepPage_kept b p

theorem execHostTierResponse_keeps (b : Nat) (r : TierReq) (a : HostAnswer) (s : State) : s.Keeps (execHostTierResponse b r a s) := by
  refine .next (State.fromHost_kept _ _ fun s => ?_)
  split
  · rfl
  · refine (State.wake_kept _).trans ?_
    cases a with
    | data => cases r.who <;> simp [State.hostDone]
    | poisoned ls => cases r.who <;> simp [State.hostDone]
    | error lost => simp

theorem execWhetstoneChunk_keeps (n : Nat) (first repeated : Bool) (e : ChunkEvents) (s : State) :
    s.Keeps (execWhetstoneChunk n first repeated e s) := by
  refine .next ?_
  split
  · rfl
  · dsimp only
    split
    · exact s.finishPasses_kept n
    · split
      · simp
      · have read := fun k => State.readReady_kept (s.finishPasses n) k.basin ((s.finishPasses n).chunkInputs k)
        split
        · next h => exact (kept_of_eq h (read _)).trans (s.finishPasses_kept n)
        · next u h =>
          have before : u.kept = s.kept := (kept_of_eq h (read _)).trans (s.finishPasses_kept n)
          split
          · next h => exact (kept_of_eq h (u.outputsReady_kept _)).trans before
          · next h => exact ((State.computeAt_kept ..).trans (kept_of_eq h (u.outputsReady_kept _))).trans before

theorem execCollectiveComplete_keeps (b e : Nat) (s : State) : s.Keeps (execCollectiveComplete b e s) := by
  refine .next ?_
  split
  · split
    · dsimp only
      split
      · next h => exact kept_of_eq h (s.collWrite_kept ..)
      · next h =>
        refine Eq.trans ?_ (kept_of_eq h (s.collWrite_kept ..))
        split <;> simp
    · rfl
  · rfl

theorem execQpWrite_keeps (set i : Nat) (v : Word) (s : State) : s.Keeps (execQpWrite set i v s) := by
  unfold execQpWrite
  split
  · exact .next rfl
  · split
    · exact .next (s.undefine_kept _)
    · exact .next (s.updQp_kept ..)

/-! ### Arrivals at a lane group -/

theorem execPauseFrameRx_keeps (n prio : Nat) (pause : Bool) (s : State) : s.Keeps (execPauseFrameRx n prio pause s) := by
  refine .next ?_
  split
  · exact State.orWait_kept _ _ _ _ fun s => by simp
  · rfl

theorem execZynwinFrameRx_keeps (f : ZynFrame) (s : State) : s.Keeps (execZynwinFrameRx f s) := by
  refine .next ?_
  split
  · rfl
  · exact State.orWait_kept _ _ _ _ fun s => s.receiveFrame_kept f

theorem execZynwinReplayRequest_keeps (n seq : Nat) (s : State) : s.Keeps (execZynwinReplayRequest n seq s) := by
  refine .next ?_
  split
  · rfl
  · refine State.orWait_kept _ _ _ _ fun s => ?_
    exact (State.updGroup_kept ..).trans (foldl_kept _ (fun s e => by simp) _ _)

theorem execAck_keeps (qpn psn : Nat) (s : State) : s.Keeps (execAck qpn psn s) :=
  .next (State.answer_kept (fun s => by simp) _ _ s)

theorem execPsnSequenceNak_keeps (qpn psn : Nat) (s : State) : s.Keeps (execPsnSequenceNak qpn psn s) :=
  .next (State.answer_kept (fun s => by simp) _ _ s)

theorem execRemoteAccessNak_keeps (qpn : Nat) (s : State) : s.Keeps (execRemoteAccessNak qpn s) :=
  .next (State.answer_kept (fun s => s.qpError_kept qpn 2) _ _ s)

theorem execCnpRx_keeps (qpn : Nat) (s : State) : s.Keeps (execCnpRx qpn s) := by
  refine .next (State.answer_kept (fun s => ?_) _ _ s)
  dsimp only
  split <;> simp

theorem arriveLate_keeps (c : Instr) (s : State) : s.Keeps (arriveLate c s) := by
  unfold arriveLate
  split
  · exact .next (s.packetAt_kept ..)
  · exact .next (s.packetAt_kept ..)
  · exact execZynwinFrameRx_keeps ..
  · exact execZynwinReplayRequest_keeps ..
  · exact execPauseFrameRx_keeps ..
  · exact execAck_keeps ..
  · exact execPsnSequenceNak_keeps ..
  · exact execRemoteAccessNak_keeps ..
  · exact execCnpRx_keeps ..
  · exact .next rfl

theorem execRecalDone_keeps (n : Nat) (s : State) : s.Keeps (execRecalDone n s) := by
  refine .next ?_
  split
  · refine (State.flushAll_kept _).trans ((foldl_kept _ (fun s c => ?_) _ _).trans (s.updGroup_kept ..))
    obtain ⟨t, arrives, kept⟩ := arriveLate_keeps c s
    rw [arrives]
    exact kept
  · rfl

/-! ### Boots -/

theorem execWatchdogRecovery_keeps (component cause : Nat) (s : State) : s.Keeps (execWatchdogRecovery component cause s) := by
  refine .next ?_
  split
  · rfl
  · dsimp only
    split
    · split <;> simp
    · split
      · next h =>
        refine (State.romBoot_kept h).trans ?_
        split <;> simp
      · split <;> simp

/-- The ROM boots a slot, or enters its recovery mode (15 R418). -/
def State.romRuns (s : State) : State :=
  match s.romBoot with
  | some u => { u with mgmt := { u.mgmt with phase := .poweringUp } }
  | none => s.markActive.enterRecovery

theorem State.romRuns_of_boot {s u : State} (h : s.romBoot = some u) :
    s.romRuns = { u with mgmt := { u.mgmt with phase := .poweringUp } } := by
  rw [State.romRuns, h]

theorem State.romRuns_of_none {s : State} (h : s.romBoot = none) : s.romRuns = s.markActive.enterRecovery := by
  rw [State.romRuns, h]

@[simp] theorem State.romRuns_kept (s : State) : s.romRuns.kept = s.kept := by
  cases h : s.romBoot with
  | some u => exact (congrArg State.kept (State.romRuns_of_boot h)).trans (State.romBoot_kept h : u.kept = s.kept)
  | none => simp [State.romRuns_of_none h]

/-- The device out of power-on reset, before its ROM reads the slot directory (13 R371; 17 R464, R470). -/
def State.outOfReset (s : State) (strap : Bool) (rom : RomChecks) : State :=
  State.emit { s with
    mgmt := { s.mgmt with pwrgood := true, vioOk := true, recoveryStrap := strap }
    power := { s.power with undervoltage := false, faultN := decide (600 < s.power.vin), pllLock := true }
    sec := { s.sec with fips := if rom.selfTestOk then .operational else .error } } .xspiReset

/-- The same with the directory read (15 R413, R418). -/
def State.romStarts (s : State) (strap : Bool) (rom : RomChecks) : State :=
  (s.outOfReset strap rom).readDirectory rom.badDir0 rom.badDir1

@[simp] theorem State.romStarts_kept (s : State) (strap : Bool) (rom : RomChecks) : (s.romStarts strap rom).kept = s.kept :=
  (State.readDirectory_kept ..).trans (State.emit_kept ..)

/-- Out of power-on reset the ROM runs, but where RECOVERY_N or the directory sends it to its recovery mode. -/
theorem execPowerOnResetExit_eq (strap : Bool) (rom : RomChecks) (s : State) : execPowerOnResetExit strap rom s =
    .next (if s.mgmt.phase ≠ .inReset ∨ 640 < s.power.vin ∨ (s.power.undervoltage = true ∧ s.power.vin ≤ 400) then s
      else if strap || (s.romStarts strap rom).fwu.directory.isNone then (s.romStarts strap rom).enterRecovery
      else (s.romStarts strap rom).romRuns) := rfl

theorem execPowerOnResetExit_keeps (strap : Bool) (rom : RomChecks) (s : State) : s.Keeps (execPowerOnResetExit strap rom s) := by
  rw [execPowerOnResetExit_eq]
  refine .next ?_
  split
  · rfl
  · split
    · simp
    · simp

theorem execRecoverBoot_keeps (s : State) : s.Keeps (execRecoverBoot s) := by
  refine .next (State.toFwu_kept (fun s => ?_) s)
  dsimp only
  split
  · split
    · next u h =>
      have boots := State.romBoot_kept h
      exact Eq.trans (b := u.kept) rfl (boots.trans (by simp))
    · simp
  · rfl

/-! ### All commands -/

/-- The commands that set a limit of the power state themselves, or let what waited set it, blow fuses or lose all state. -/
def setsLimits : Instr → Bool
  | .fwActivate _ | .latticeSlot _ | .powerSample .. | .ilimRecheck | .powerLimitStep | .gateRelax | .junctionReading ..
  | .powerManagerEval .. | .clockStepUpDone _ | .pwrCapWrite _ | .pwrTjWrite _ | .powerUpReady | .pwrgoodFall | .vioMgtLoss
  | .activationReady | .recoveryGapEnd | .registerWrite .. => true
  | _ => false

/-- Every other command leaves the queue, the fuses and the limits of the power state. -/
theorem exec_keeps {c : Instr} (hc : setsLimits c = false) (s : State) : s.Keeps (exec c s) := by
  cases c with
  | nop | halt | br | brc | loop | sluice | qpush | qpop | waitf | setf | movs | movsw | movi | movhi
  | brg | brgt | reds | bcan | oparm | opstr | opdrn | vldx | vstx =>
    exact .next (State.present_kept _ _ _ _ _ fun s => by simp)
  | fence => exact .next (State.present_kept _ _ _ _ _ fun s => by dsimp only; split <;> simp)
  | put => exact .next (State.present_kept _ _ _ _ _ fun s => by split <;> simp)
  | add | sub | mul | and | or | xor | shl | shr | sra | min | max => exact .next (State.alu_kept ..)
  | vadd | vmul | vfma | vexp | vrsq | vmax | vcvt | vred => exact .next (State.vec_kept ..)
  | stackRetire | parkReq | launch | resume | bsnLscaleWrite | hostMemRead | hostMemWrite | hostSnoop | biasChange | ifDeclare
  | pf0Flr | tpInItemWrite | tpInBulkWrite | advance | flush | tpCtrlWrite | msixUnmask | ethGroupCtrlWrite | recal
  | mempWeirThWrite | tierHostExtWrite | errConsumedWrite | newNonce | debugLock | pmcCtrlWrite | rdOffWrite =>
    exact .next (State.fromHost_kept _ _ fun s => by simp)
  | vfFlr => exact .next (State.fromHost_kept _ _ fun s => by split <;> simp)
  | tpOutItemRead => exact .next (State.fromHost_kept _ _ fun s => by dsimp only; (repeat' split) <;> simp)
  | bind | rebind | unbind | keyedFence | keyRotate | debugUnlock | zeroize =>
    exact .next (State.keyedCommand_kept (by decide) _ s)
  | fwuStart | fwuBlock | fwuVerify | fwuAbort => exact .next (State.toFwu_kept (fun s => by simp) s)
  | setCmdKey | getCertificate | challenge => exact .next (State.toSpdm_kept (fun s => by simp) _ s)
  | getMeasurements => exact .next (State.toSpdm_kept (fun s => by split <;> simp) _ s)
  | keyExchange | ideKmKeyProg | spdmKeyUpdate => exact .next (State.toSession_kept (fun s => by simp) _ s)
  | pldmSensorRead => exact .next (State.overI3c_kept (fun s => by simp) s)
  | mctpControlRequest => exact .next (State.overI3c_kept (fun s => by split <;> simp) s)
  | ack => exact execAck_keeps ..
  | psnSequenceNak => exact execPsnSequenceNak_keeps ..
  | remoteAccessNak => exact execRemoteAccessNak_keeps ..
  | cnpRx => exact execCnpRx_keeps ..
  | pauseFrameRx => exact execPauseFrameRx_keeps ..
  | zynwinFrameRx => exact execZynwinFrameRx_keeps ..
  | zynwinReplayRequest => exact execZynwinReplayRequest_keeps ..
  | recalDone => exact execRecalDone_keeps ..
  | homingMove => exact execHomingMove_keeps ..
  | frameWaitDone => exact execFrameWaitDone_keeps ..
  | hostTierResponse => exact execHostTierResponse_keeps ..
  | whetstoneChunk => exact execWhetstoneChunk_keeps ..
  | collectiveComplete => exact execCollectiveComplete_keeps ..
  | qpWrite => exact execQpWrite_keeps ..
  | watchdogRecovery => exact execWatchdogRecovery_keeps ..
  | powerOnResetExit => exact execPowerOnResetExit_keeps ..
  | recoverBoot => exact execRecoverBoot_keeps ..
  | stackRetrain =>
    refine .next ?_
    split
    · split <;> simp
    · exact State.fromHost_kept _ _ fun s => by simp
  | fwActivate | latticeSlot | powerSample | ilimRecheck | powerLimitStep | gateRelax | junctionReading | powerManagerEval
  | clockStepUpDone | pwrCapWrite | pwrTjWrite | powerUpReady | pwrgoodFall | vioMgtLoss | activationReady | recoveryGapEnd
  | registerWrite => cases hc
  | queueStageRefill | restartResume | segmentStart | hbmWriteCrcFail | stackRetrainDone | stackRetrainTimeout | stackDrained
  | stackRetired | weirReading | hostTierTimeout | trustNormCombine | perstN | ideFail | tpPtrMismatch | tpIdleTimeout
  | ethLinkNegotiation | rdmaWrite | rdmaWriteImm | frameDropped | ackTimeout | rateIncrease | zynwinRetrainEnd | dieStepReunion
  | refclkLost | refclkHoldoverExpiry | refclkReturn | quarryDomainOff | activationFallback | poweredTimeSave | quarryTestDone
  | quarryOverdue | fwuVerifyDone | nonceExpiry | fipsError | sensorRefresh | pmcRecordWritten | perstNDeassert | cxlLinkRetrain
  | ethLinkLoss | i3cDynamicAddress | jtagTapOperation =>
    exact .next (by simp)
  | opstrComplete | opdrnComplete | vectorComplete | bargeComplete | sluiceReady | sluiceComplete | sluiceTimeout | overtimeStart
  | slotOverrun | mergeWindowExpiry | mempReadData | tileCopyDone | binderCompletion | biasChangeDone | latchClear
  | mgmtRecoveryClassify | shadowCompare =>
    exact .next (by split <;> simp)
  | fenceRelease | queueStallRelease | waitfSatisfied | mempWriteGrant | patrolScrub | reclaim | bargeResume | launchStart =>
    exact .next (by (repeat' split) <;> simp)
  | mutualWait | quarryDue | fwuBlockDone | pmcSnapshot | mempRequest =>
    exact .next (by dsimp only; (repeat' split) <;> simp)

end Sys2Proof.Machine

/-! The limits of the power state hold after every step (13 R375, R380, R388). -/

namespace Sys2Proof.Machine

/-! ### The limits -/

/-- The limits of a power state: the gate, the steps in force and those asked for, the power target and THROTTLE. -/
structure Power.Legal (p : Power) : Prop where
  gate : p.gate ≤ 12
  step0 : p.step0 ≤ 2
  step1 : p.step1 ≤ 2
  up0 : ∀ n, p.up0 = some n → n ≤ 2
  up1 : ∀ n, p.up1 = some n → n ≤ 2
  held : ∀ x, p.heldStep = some x → x.1 ≤ 2 ∧ x.2 ≤ 2
  capLow : 600 ≤ p.cap
  capHigh : p.cap ≤ 2600
  throttle : p.throttle ≤ 95

theorem State.powerLegal_iff (s : State) : s.powerLegal ↔ s.power.Legal :=
  ⟨fun ⟨gate, step0, step1, up0, up1, held, low, high, throttle⟩ => ⟨gate, step0, step1, up0, up1, held, low, high, throttle⟩,
    fun h => ⟨h.gate, h.step0, h.step1, h.up0, h.up1, h.held, h.capLow, h.capHigh, h.throttle⟩⟩

/-- The limits speak of what `State.kept` keeps. -/
theorem Power.Legal.of_kept {s t : State} (h : s.power.Legal) (e : t.kept = s.kept) : t.power.Legal := by
  simp only [State.kept, Kept.mk.injEq] at e
  obtain ⟨-, -, gate, step0, step1, up0, up1, cap, throttle, held⟩ := e
  exact ⟨gate ▸ h.gate, step0 ▸ h.step0, step1 ▸ h.step1, up0 ▸ h.up0, up1 ▸ h.up1, held ▸ h.held, cap ▸ h.capLow, cap ▸ h.capHigh,
    throttle ▸ h.throttle⟩

/-- A state chosen by a condition. -/
theorem Power.Legal.ite {c : Prop} [Decidable c] {s t : State} (hs : s.power.Legal) (ht : t.power.Legal) :
    (if c then s else t).power.Legal := by
  split
  · exact hs
  · exact ht

/-! ### Changes of the power state -/

namespace Power.Legal

variable {p : Power}

theorem toSteps (h : p.Legal) {a b : Nat} (ha : a ≤ 2) (hb : b ≤ 2) : (p.toSteps a b).Legal :=
  { h with step0 := ha, step1 := hb, up0 := nofun, up1 := nofun, held := nofun }

theorem stepDown (h : p.Legal) : p.stepDown.Legal := h.toSteps (Nat.min_le_left ..) (Nat.min_le_left ..)

theorem raiseGate (h : p.Legal) (n : Nat) : (p.raiseGate n).Legal := { h with gate := Nat.min_le_left .. }

theorem tighten (h : p.Legal) (l : FwLimits) : (p.tighten l).Legal := { h with }

theorem request0 (h : p.Legal) {l : Bool} {t : Nat} (ht : t ≤ 2) : (p.request0 l t).Legal := by
  rw [Power.request0_eq]
  exact { h with step0 := Nat.max_le.2 ⟨h.step0, ht⟩, up0 := by grind }

theorem request1 (h : p.Legal) {l : Bool} {t : Nat} (ht : t ≤ 2) : (p.request1 l t).Legal := by
  rw [Power.request1_eq]
  exact { h with step1 := Nat.max_le.2 ⟨h.step1, ht⟩, up1 := by grind }

theorem raised (h : p.Legal) (d0 d1 : Bool) : (p.raised d0 d1).Legal := by
  have rise : ∀ (u : Option Nat) (n : Nat), (∀ m, u = some m → m ≤ 2) → n ≤ 2 → u.getD n ≤ 2 := fun u n hu hn => by
    cases u with
    | none => exact hn
    | some m => exact hu m rfl
  refine { h with step0 := ?_, step1 := ?_, up0 := fun n hn => ?_, up1 := fun n hn => ?_ }
  · cases d0
    · exact h.step0
    · exact rise _ _ h.up0 h.step0
  · cases d1
    · exact h.step1
    · exact rise _ _ h.up1 h.step1
  · cases d0
    · exact h.up0 n hn
    · cases hn
  · cases d1
    · exact h.up1 n hn
    · cases hn

end Power.Legal

/-- The manager asks a die for one of the three steps. -/
theorem Power.target_le (p : Power) (want tj : Nat) {step : Nat} (h : step ≤ 2) : p.target want step tj ≤ 2 := by
  unfold Power.target Power.fastest
  dsimp only
  split
  · omega
  · split <;> omega

/-! ### Requests for steps -/

theorem State.requestSteps_legal {s : State} (h : s.power.Legal) {a b : Nat} (ha : a ≤ 2) (hb : b ≤ 2) :
    (s.requestSteps a b).power.Legal :=
  { (h.request0 ha).request1 hb with held := nofun }

theorem State.chooseSteps_legal {s : State} (h : s.power.Legal) {a b : Nat} (ha : a ≤ 2) (hb : b ≤ 2) :
    (s.chooseSteps a b).power.Legal := by
  unfold State.chooseSteps
  dsimp only
  split
  · exact State.requestSteps_legal h ha hb
  · split
    · exact State.requestSteps_legal h (Nat.max_le.2 ⟨ha, hb⟩) (Nat.max_le.2 ⟨ha, hb⟩)
    · exact { h with held := by rintro x ⟨⟩; exact ⟨ha, hb⟩ }

theorem State.releaseStep_legal {s : State} (h : s.power.Legal) : s.releaseStep.power.Legal := by
  unfold State.releaseStep
  split
  · next t ht =>
    split
    · exact h
    · exact State.requestSteps_legal h (h.held t ht).1 (h.held t ht).2
  · exact h

/-! ### Samples and readings -/

/-- The device when a power sample has been taken, before it is compared with a limit (13 R369, R373). -/
def State.sampled (s : State) (vin iin : Nat) : State :=
  let p := s.passUs.power
  { s.passUs with power := { p with
    vin := vin, iin := iin, samples := (vin * iin :: p.samples).take 1000000
    low40 := if vin < 400 then p.low40 + 1 else 0, low36 := if vin < 360 then p.low36 + 1 else 0 } }

theorem State.sampled_kept (s : State) (vin iin : Nat) : (s.sampled vin iin).kept = s.kept := by
  rw [← s.passUs_kept]
  generalize h : s.passUs = u
  simp only [State.sampled, h, State.kept]

theorem execPowerSample_of_inReset {s : State} {vin iin : Nat} (hp : s.mgmt.phase = .inReset) :
    execPowerSample vin iin s = .next { s with power := { s.power with vin := vin } } :=
  congrArg Host.Outcome.next (if_pos hp)

theorem execPowerSample_of_none {s : State} {vin iin : Nat} (hp : s.mgmt.phase ≠ .inReset) (hv : (s.sampled vin iin).voltage = none) :
    execPowerSample vin iin s = .next (State.loseAll { s.sampled vin iin with
      power := { (s.sampled vin iin).power with faultN := true, undervoltage := decide (vin < 360) } }) := by
  refine congrArg Host.Outcome.next ((if_neg hp).trans ?_)
  dsimp only [State.sampled] at hv ⊢
  rw [hv]

theorem execPowerSample_of_some {s u : State} {vin iin : Nat} (hp : s.mgmt.phase ≠ .inReset)
    (hv : (s.sampled vin iin).voltage = some u) : execPowerSample vin iin s = .next u.current.averages := by
  refine congrArg Host.Outcome.next ((if_neg hp).trans ?_)
  dsimp only [State.sampled] at hv ⊢
  rw [hv]

theorem State.latch_legal {s : State} (h : s.power.Legal) (thermal : Bool) (i : Nat) : (s.latch thermal i).power.Legal :=
  h.of_kept (s.latch_kept thermal i)

theorem State.loseAll_legal (s : State) : s.loseAll.power.Legal where
  gate := (by decide : 0 ≤ 12)
  step0 := (by decide : 2 ≤ 2)
  step1 := (by decide : 2 ≤ 2)
  up0 := nofun
  up1 := nofun
  held := nofun
  capLow := (by decide : 600 ≤ 2600)
  capHigh := (by decide : 2600 ≤ 2600)
  throttle := (by decide : 95 ≤ 95)

theorem State.voltage_legal {s t : State} (h : s.power.Legal) (e : s.voltage = some t) : t.power.Legal := by
  unfold State.voltage at e
  dsimp only at e
  split at e
  · cases e
  · cases e
    split
    · have latched := State.latch_legal (s := { s with power := { s.power with
        vinNow := decide (600 < s.power.vin) || decide (10 ≤ s.power.low40),
        faultN := decide (600 < s.power.vin) || s.power.refStop } }) { h with } false 11
      split
      · exact latched.toSteps le_rfl le_rfl
      · exact latched
    · exact { h with }

theorem State.current_legal {s : State} (h : s.power.Legal) : s.current.power.Legal := by
  unfold State.current
  dsimp only
  split
  · have latched := State.latch_legal (s := { s with power := { s.power with ilimNow := decide (s.power.ilim ≤ s.power.iin) } })
      { h with } false 10
    split
    · exact latched
    · exact latched.stepDown
  · exact { h with }

theorem State.averages_legal {s : State} (h : s.power.Legal) : s.averages.power.Legal := by
  have latched : ∀ (c : Prop) [Decidable c] (i : Nat) (u : State), u.power.Legal → (if c then u.latch false i else u).power.Legal :=
    fun c _ i u hu => .ite (State.latch_legal hu ..) hu
  unfold State.averages
  dsimp only
  refine .ite (Power.Legal.stepDown ?_) ?_
  · exact latched _ 9 _ (latched _ 8 _ (by exact { h with }))
  · exact latched _ 9 _ (latched _ 8 _ (by exact { h with }))

theorem State.leaveTrip_legal {s : State} (h : s.power.Legal) : s.leaveTrip.power.Legal := by
  have left : Power.Legal { s.power.toSteps 2 2 with tripped := false, thermN := false, clocksStopped := s.power.refStop } :=
    { h.toSteps le_rfl le_rfl with }
  refine left.of_kept (s := { s with power := _ }) ?_
  exact (State.testUnbound_kept _).trans (foldl_kept _ (fun s e => by split <;> simp) _ _)

theorem State.junction_legal {s : State} (h : s.power.Legal) : s.junction.power.Legal := by
  have latched : Power.Legal (if 3 ≤ s.power.hot then s.latch true 7 else s).power := .ite (State.latch_legal h ..) h
  have slowed : ∀ u : State, u.power.Legal →
      (if s.power.hot0 = 3 ∨ s.power.hot1 = 3 then { u with power := u.power.toSteps 2 2 } else u).power.Legal :=
    fun u hu => .ite (hu.toSteps le_rfl le_rfl) hu
  have gated : ∀ u : State, u.power.Legal →
      (if 3 < s.power.hot ∧ (s.power.hot - 3) % 100 = 0 then { u with power := u.power.raiseGate 2 } else u).power.Legal :=
    fun u hu => .ite (hu.raiseGate 2) hu
  have before := gated _ (slowed _ latched)
  exact .ite (.ite (State.leaveTrip_legal before) before) (.ite (before.of_kept (State.thermalTrip_kept _)) before)

/-! ### What waited for the end of a gap -/

theorem State.setCap_legal {s : State} (h : s.power.Legal) (v : BitVec 32) : (s.setCap v).power.Legal :=
  { h with
    capLow := Nat.le_max_left ..
    capHigh := Nat.max_le.2 ⟨by decide, Nat.min_le_left ..⟩ }

theorem State.setTj_legal {s : State} (h : s.power.Legal) (v : Word) : (s.setTj v).power.Legal := by
  refine { h with throttle := ?_ }
  show (if 95 < bits v.toNat 23 16 ∨ s.power.emerg ≤ bits v.toNat 23 16 then min 95 s.power.emerg else bits v.toNat 23 16) ≤ 95
  split <;> omega

theorem State.blowFuses_legal {s : State} (h : s.power.Legal) (svn : Nat) : (s.blowFuses svn).power.Legal := by
  unfold State.blowFuses
  split
  · exact h
  · refine Power.Legal.of_kept (s := { s with sec := { s.sec with svn := max s.sec.svn (min 64 svn) } }) h ?_
    exact (State.updSlot_kept ..).trans (State.updSlot_kept ..)

theorem State.runActivate_legal {s : State} (h : s.power.Legal) (k : KBlock) : (s.runActivate k).power.Legal := by
  have ends : ∀ st, (s.endKeyed st).power.Legal := fun st => h.of_kept (s.endKeyed_kept st)
  unfold State.runActivate
  dsimp only
  split
  · exact ends _
  · split
    · exact ends _
    · split
      · exact ends _
      · split
        · exact (State.blowFuses_legal h _).of_kept (State.endKeyed_kept ..)
        · split
          · exact ends _
          · exact h

theorem State.runKeyed_legal {s : State} (h : s.power.Legal) (op : Nat) (k : KBlock) : (s.runKeyed op k).power.Legal := by
  by_cases hop : op = 5
  · subst hop
    unfold State.runKeyed
    split
    · refine h.of_kept ?_
      dsimp only
      split <;> simp
    · dsimp only
      split
      · exact h.of_kept (by simp)
      · exact State.runActivate_legal (s := { s with sec := { s.sec with lastCounter := k.counter.toNat } }) h k
  · exact h.of_kept (State.runKeyed_kept hop k s)

theorem State.keyedCommand_legal {s : State} (h : s.power.Legal) (op : Nat) (k : KBlock) : (s.keyedCommand op k).power.Legal := by
  unfold State.keyedCommand State.overLink
  split
  · dsimp only [State.goKeyed]
    split
    · exact h
    · split
      · exact State.runKeyed_legal (by exact h) op k
      · split
        · exact h
        · exact State.runKeyed_legal (by exact h) op k
      · exact h
  · exact h

theorem State.runHeld_legal {s : State} (h : s.power.Legal) (x : Held) : (s.runHeld x).power.Legal := by
  cases x with
  | launch b img | resume b img =>
    refine h.of_kept ?_
    unfold State.runHeld
    dsimp only
    split <;> simp
  | pwrCap v => exact State.setCap_legal h v
  | pwrTj v => exact State.setTj_legal h v
  | clkCtrl v => exact { h with }
  | keyed op k => exact State.runKeyed_legal h op k

theorem State.runWaiting_legal {s : State} (h : s.power.Legal) : s.runWaiting.power.Legal :=
  List.foldlRecOn (motive := fun t : State => t.power.Legal) s.mgmt.held State.runHeld h fun _ ht x _ => State.runHeld_legal ht x

/-- The device when a management gap is over, before anything that waited for its end goes on (13 R386, R388). -/
def State.gapOver (s : State) : State :=
  { s with
    mgmt := { s.mgmt with
      gap := false, recovering := false, activating := none, fallback := false, gapMs := min 65535 (s.mgmt.gapUs / 1000) }
    rel := { s.rel with gapQueue := [] } }

theorem State.endGap_eq (s : State) : s.endGap =
    (((s.rel.gapQueue.foldl State.postReport s.gapOver).reportLost.runWaiting.advanceTier).ethDomains.leaveClusters).startDue := rfl

theorem State.endGap_legal {s : State} (h : s.power.Legal) : s.endGap.power.Legal := by
  have posted : (s.rel.gapQueue.foldl State.postReport s.gapOver).reportLost.power.Legal :=
    Power.Legal.of_kept (s := s.gapOver) h ((State.reportLost_kept _).trans (foldl_kept _ (fun s r => s.postReport_kept r) _ _))
  rw [State.endGap_eq]
  exact (State.runWaiting_legal posted).of_kept (by simp)

/-! ### Commands -/

/-- An answer that keeps the limits where they held. -/
def State.Legalizes (s : State) (o : Out State) : Prop := ∀ t, o = .next t → s.power.Legal → t.power.Legal

theorem State.Legalizes.next {s t : State} (h : s.power.Legal → t.power.Legal) : s.Legalizes (.next t) := by
  rintro _ ⟨⟩ hs
  exact h hs

theorem State.Keeps.legalizes {s : State} {o : Out State} (h : s.Keeps o) : s.Legalizes o := by
  obtain ⟨t, rfl, kept⟩ := h
  exact .next fun hs => hs.of_kept kept

theorem State.fromHost_legal {s : State} {f : State → State} (hf : s.power.Legal → (f s).power.Legal) (h : s.power.Legal) :
    (s.fromHost f).power.Legal := by
  unfold State.fromHost State.overLink
  split
  · exact h
  · split
    · exact hf h
    · exact h

theorem State.heldWrite_legal {s : State} {x : Held} {f : State → State} (hf : s.power.Legal → (f s).power.Legal)
    (h : s.power.Legal) : (s.heldWrite x f).power.Legal := by
  unfold State.heldWrite
  split
  · exact h
  · exact hf h

theorem execPwrCapWrite_legalizes (v : BitVec 32) (s : State) : s.Legalizes (execPwrCapWrite v s) :=
  .next (State.fromHost_legal (State.heldWrite_legal fun h => State.setCap_legal h v))

theorem execPwrTjWrite_legalizes (v : Word) (s : State) : s.Legalizes (execPwrTjWrite v s) :=
  .next (State.fromHost_legal (State.heldWrite_legal fun h => State.setTj_legal h v))

theorem execPowerSample_legalizes (vin iin : Nat) (s : State) : s.Legalizes (execPowerSample vin iin s) := by
  by_cases hp : s.mgmt.phase = .inReset
  · rw [execPowerSample_of_inReset hp]
    exact .next fun h => { h with }
  · cases hv : (s.sampled vin iin).voltage with
    | none =>
      rw [execPowerSample_of_none hp hv]
      exact .next fun _ => State.loseAll_legal _
    | some u =>
      rw [execPowerSample_of_some hp hv]
      refine .next fun h => State.averages_legal (State.current_legal (State.voltage_legal ?_ hv))
      exact h.of_kept (s.sampled_kept vin iin)

theorem execIlimRecheck_legalizes (s : State) : s.Legalizes (execIlimRecheck s) := by
  refine .next fun h => ?_
  split
  · dsimp only
    split
    · exact h.raiseGate 2
    · exact h.stepDown
  · exact h

theorem execPowerLimitStep_legalizes (s : State) : s.Legalizes (execPowerLimitStep s) := by
  refine .next fun h => ?_
  split
  · split
    · exact h.raiseGate _
    · exact h.stepDown
  · exact h

theorem execGateRelax_legalizes (s : State) : s.Legalizes (execGateRelax s) := by
  refine .next fun h => ?_
  split
  · exact h
  · exact { h with gate := (Nat.sub_le ..).trans h.gate }

theorem execJunctionReading_legalizes (d0 d1 : Option Nat) (s : State) : s.Legalizes (execJunctionReading d0 d1 s) := by
  refine .next fun h => ?_
  split
  · exact { h with }
  · exact State.junction_legal (by exact { h with })

theorem execPowerManagerEval_legalizes (want : Nat × Nat) (limits : FwLimits) (s : State) :
    s.Legalizes (execPowerManagerEval want limits s) := by
  refine .next fun h => ?_
  split
  · exact h
  · have tight := h.tighten limits
    exact State.chooseSteps_legal (by exact tight) (Power.target_le _ _ _ tight.step0) (Power.target_le _ _ _ tight.step1)

theorem execClockStepUpDone_legalizes (die : Nat) (s : State) : s.Legalizes (execClockStepUpDone die s) := by
  refine .next fun h => ?_
  exact .ite h (.ite (h.raised ..) (.ite (h.raised ..) h))

theorem execLatticeSlot_legalizes (env : SlotEnv) (s : State) : s.Legalizes (execLatticeSlot env s) := by
  refine .next fun h => ?_
  split
  · exact h
  · exact (State.releaseStep_legal h).of_kept (by simp)

theorem execPowerUpReady_legalizes (s : State) : s.Legalizes (execPowerUpReady s) := by
  refine .next fun h => ?_
  split
  · exact h
  · refine Power.Legal.of_kept (State.runWaiting_legal ?_) (State.ethDomains_kept _)
    refine Power.Legal.of_kept (s := s) h ((foldl_kept _ (fun s r => s.postReport_kept r) _ _).trans ?_)
    exact (State.rebuildHistory_kept _).trans ((foldl_kept _ (fun s e => s.applyEntry_kept e) _ _).trans (by simp))

theorem execRecoveryGapEnd_legalizes (s : State) : s.Legalizes (execRecoveryGapEnd s) := by
  refine .next fun h => ?_
  split
  · exact h
  · split
    · split
      · exact State.endGap_legal (h.of_kept ((State.endActivation_kept ..).trans rfl))
      · exact h
    · exact State.endGap_legal h

theorem execActivationReady_legalizes (s : State) : s.Legalizes (execActivationReady s) := by
  refine .next fun h => ?_
  split
  · next slot commit _ =>
    split
    · exact h
    · have runs : (s.runSlot slot).power.Legal := h.of_kept (s.runSlot_kept slot)
      have blown : (if commit then (s.runSlot slot).blowFuses ((s.runSlot slot).slot slot).svn else s.runSlot slot).power.Legal := by
        split
        · exact State.blowFuses_legal runs _
        · exact runs
      exact State.endGap_legal (blown.of_kept ((State.endActivation_kept ..).trans rfl))
  · exact h

/-! ### Register writes -/

theorem State.Legalizes.getD {s : State} {o : Option (Out State)} {d : Out State} (ho : ∀ x ∈ o, s.Legalizes x)
    (hd : s.Legalizes d) : s.Legalizes (o.getD d) := by
  cases o with
  | none => exact hd
  | some x => exact ho x rfl

/-- A command of its own that a register write starts. -/
theorem exec_legalizes_of_keeps {c : Instr} {s : State} (hc : setsLimits c = false) : s.Legalizes (exec c s) :=
  (exec_keeps hc s).legalizes

theorem msixWrite_legalizes (fn : HostFn) (v : Nat) (second : Bool) (a : RegAcc) (s : State) :
    s.Legalizes (msixWrite fn v second a s) := by
  have written : ∀ u : State, (u.fromHost fun s => s.setMsix fn v ((s.msixOf fn v).write a second)).kept = u.kept := fun u =>
    State.fromHost_kept _ _ fun s => s.setMsix_kept ..
  unfold msixWrite
  dsimp only
  split
  · obtain ⟨t, run, kept⟩ := exec_keeps (c := .msixUnmask fn v) rfl (s.fromHost fun s => s.setMsix fn v ((s.msixOf fn v).write a second))
    exact State.Keeps.legalizes ⟨t, run, kept.trans (written s)⟩
  · exact (State.Keeps.next (written s)).legalizes

theorem pageCommand_legalizes (b w : Nat) (a : RegAcc) (s : State) : ∀ x ∈ pageCommand b w a s, s.Legalizes x := by
  intro x hx
  unfold pageCommand at hx
  dsimp only at hx
  split at hx
  · cases hx
    exact (State.Keeps.next (State.fromHost_kept _ _ fun s => by split <;> simp)).legalizes
  · split at hx
    · cases hx
      exact exec_legalizes_of_keeps (c := .biasChange ..) rfl
    · split at hx
      · cases hx
        exact exec_legalizes_of_keeps (c := .bsnLscaleWrite ..) rfl
      · split at hx
        · split at hx
          · cases hx
            exact exec_legalizes_of_keeps (c := .tpCtrlWrite ..) rfl
          · split at hx
            · cases hx
              exact exec_legalizes_of_keeps (c := .advance ..) rfl
            · cases hx
              exact exec_legalizes_of_keeps (c := .flush ..) rfl
            · cases hx
          · cases hx
        · split at hx
          · cases hx
            exact msixWrite_legalizes _ _ _ _ _
          · cases hx

theorem narrowCommand_legalizes (off : Nat) (x : BitVec 32) (s : State) : ∀ o ∈ narrowCommand off x s, s.Legalizes o := by
  intro o ho
  unfold narrowCommand at ho
  dsimp only at ho
  split at ho
  · cases ho
    exact exec_legalizes_of_keeps (c := .ifDeclare ..) rfl
  · split at ho
    · cases ho
      exact exec_legalizes_of_keeps (c := .mempWeirThWrite ..) rfl
    · split at ho
      · split at ho
        · cases ho
          exact (State.Keeps.next (State.fromHost_kept _ _ fun s => s.ctrlRetrain_kept _)).legalizes
        · cases ho
          exact (State.Keeps.next (State.fromHost_kept _ _ fun s => s.ctrlRetire_kept _)).legalizes
        · cases ho
      · split at ho
        · cases ho
          exact exec_legalizes_of_keeps (c := .ethGroupCtrlWrite ..) rfl
        · split at ho
          · cases ho
            exact execPwrCapWrite_legalizes x s
          · split at ho
            · cases ho
              exact (State.Keeps.next (State.fromHost_kept _ _ fun s => by split <;> simp)).legalizes
            · cases ho

theorem wideCommand_legalizes (w : Nat) (wide : Bool) (a : RegAcc) (s : State) : ∀ o ∈ wideCommand w wide a s, s.Legalizes o := by
  intro o ho
  unfold wideCommand at ho
  dsimp only at ho
  split at ho
  · cases ho
    exact exec_legalizes_of_keeps (c := .tierHostExtWrite ..) rfl
  · split at ho
    · cases ho
      exact msixWrite_legalizes _ _ _ _ _
    · split at ho
      · split at ho <;> cases ho
        exact execPwrTjWrite_legalizes _ s
      · split at ho
        · split at ho <;> cases ho
          exact exec_legalizes_of_keeps (c := .errConsumedWrite ..) rfl
        · split at ho
          · split at ho <;> cases ho
            exact exec_legalizes_of_keeps (c := .pmcCtrlWrite ..) rfl
          · split at ho
            · split at ho <;> cases ho
              exact exec_legalizes_of_keeps (c := .rdOffWrite ..) rfl
            · cases ho

theorem fwuCommand_legalizes (off : Nat) (wide : Bool) (v : Word) (s : State) : ∀ o ∈ fwuCommand off wide v s, s.Legalizes o := by
  intro o ho
  unfold fwuCommand at ho
  split at ho
  · split at ho
    · cases ho
      exact exec_legalizes_of_keeps (c := .fwuStart) rfl
    · cases ho
      exact exec_legalizes_of_keeps (c := .fwuVerify) rfl
    · cases ho
      exact exec_legalizes_of_keeps (c := .fwuAbort) rfl
    · cases ho
      exact exec_legalizes_of_keeps (c := .recoverBoot) rfl
    · cases ho
  · split at ho <;> cases ho
    exact exec_legalizes_of_keeps (c := .fwuBlock ..) rfl

@[simp] theorem State.narrowWrite_kept (s : State) (off x : Nat) (a : RegAcc) : (s.narrowWrite off x a).kept = s.kept := by
  unfold State.narrowWrite State.heldWrite
  (repeat' split) <;> simp [Power.clearCauses]

theorem globalWrite_legalizes (off : Nat) (wide : Bool) (v : Word) (s : State) : s.Legalizes (globalWrite off wide v s) := by
  unfold globalWrite
  dsimp only
  split
  · exact .getD (fwuCommand_legalizes _ _ _ _) (State.Keeps.next (State.toFwu_kept (fun s => s.fwuWrite_kept ..) s)).legalizes
  · split
    · split
      · exact .next id
      · exact .getD (narrowCommand_legalizes _ _ _) (State.Keeps.next (State.fromHost_kept _ _ fun s => s.narrowWrite_kept ..)).legalizes
    · exact .getD (wideCommand_legalizes _ _ _ _) (State.Keeps.next (State.fromHost_kept _ _ fun s => s.wideWrite_kept ..)).legalizes

theorem State.Legalizes.ite {s : State} {c : Prop} [Decidable c] {o o' : Out State} (h : s.Legalizes o) (h' : s.Legalizes o') :
    s.Legalizes (if c then o else o') := by
  split
  · exact h
  · exact h'

theorem execRegisterWrite_legalizes (fn : HostFn) (off : Nat) (wide : Bool) (v : Word) (s : State) :
    s.Legalizes (execRegisterWrite fn off wide v s) := by
  have undefined : ∀ b, s.Legalizes (.next (s.undefine b)) := fun b => (State.Keeps.next (s.undefine_kept b)).legalizes
  unfold execRegisterWrite
  dsimp only
  generalize decide (off % (if wide then 8 else 4) = 0) = aligned
  split
  · exact .ite (.next id) (.ite (undefined _) (.ite (.next id)
      (.getD (pageCommand_legalizes _ _ _ _) (State.Keeps.next (s.updBasin_kept ..)).legalizes)))
  · refine .ite (.next id) ?_
    split
    · exact (State.Keeps.next (State.fromHost_kept _ _ fun s => s.undefine_kept _)).legalizes
    · exact globalWrite_legalizes _ _ _ _

/-! ### Every step -/

theorem exec_legalizes (c : Instr) (s : State) : s.Legalizes (exec c s) := by
  by_cases hc : setsLimits c = false
  · exact exec_legalizes_of_keeps hc
  · cases c with
    | fwActivate k => exact .next fun h => State.keyedCommand_legal h 5 k
    | latticeSlot env => exact execLatticeSlot_legalizes env s
    | powerSample vin iin => exact execPowerSample_legalizes vin iin s
    | ilimRecheck => exact execIlimRecheck_legalizes s
    | powerLimitStep => exact execPowerLimitStep_legalizes s
    | gateRelax => exact execGateRelax_legalizes s
    | junctionReading d0 d1 => exact execJunctionReading_legalizes d0 d1 s
    | powerManagerEval want limits => exact execPowerManagerEval_legalizes want limits s
    | clockStepUpDone die => exact execClockStepUpDone_legalizes die s
    | pwrCapWrite v => exact execPwrCapWrite_legalizes v s
    | pwrTjWrite v => exact execPwrTjWrite_legalizes v s
    | powerUpReady => exact execPowerUpReady_legalizes s
    | pwrgoodFall => exact .next fun h => .ite (State.loseAll_legal _) h
    | vioMgtLoss =>
      have lost := State.loseAll_legal { s with mgmt := { s.mgmt with vioOk := false } }
      exact .next fun h => .ite (by exact { lost with }) h
    | activationReady => exact execActivationReady_legalizes s
    | recoveryGapEnd => exact execRecoveryGapEnd_legalizes s
    | registerWrite fn off wide v => exact execRegisterWrite_legalizes fn off wide v s
    | _ => exact absurd rfl hc

/-- Settles O59: a command that sets no limit leaves them (`exec_keeps`), and each of the others sets them within their ranges. -/
theorem powerStaysLegal : Obligations.PowerStaysLegal := by
  intro s t legal run
  rw [State.powerLegal_iff] at legal ⊢
  unfold step at run
  split at run
  · cases run
    exact legal
  · next c rest _ => exact exec_legalizes c { s with pending := rest } t run legal

end Sys2Proof.Machine

/-! Power samples, the gate and the power target (13 R369, R373 to R375, R386, R388). -/

namespace Sys2Proof.Machine

/-! ### One µs of real time -/

/-- A fold whose steps leave a part of the state leaves it. -/
theorem foldl_leaves {α β : Type} (part : State → β) {f : State → α → State} (h : ∀ s a, part (f s a) = part s) (l : List α)
    (s : State) : part (l.foldl f s) = part s :=
  List.foldlRecOn (motive := fun t => part t = part s) l f rfl fun t ht a _ => (h t a).trans ht

/-- The parts of a state that one µs of real time leaves, and the time itself. -/
def State.usView (s : State) : Nat × SMap Core × Power × Fwu × Sec × Rel := (s.usec, s.cores, s.power, s.fwu, s.sec, s.rel)

theorem State.count_usView (s : State) (g : CntGroup) (n i k : Nat) : (s.count g n i k).usView = s.usView := rfl

theorem State.updPort_usView (s : State) (n : Nat) (f : Stack → Stack) : (s.updPort n f).usView = s.usView := rfl

theorem State.usView_ite {s u v : State} {c : Prop} [Decidable c] (hu : u.usView = s.usView) (hv : v.usView = s.usView) :
    (if c then u else v).usView = s.usView := by
  split
  · exact hu
  · exact hv

theorem State.portUs_usView (s : State) (n : Nat) : (s.portUs n).usView = s.usView := by
  have counted : ∀ (c : Prop) [Decidable c] (u : State) (i : Nat), u.usView = s.usView →
      (if c then u.count .memp n i 1 else u).usView = s.usView := fun c _ u i h => State.usView_ite (h ▸ u.count_usView ..) h
  unfold State.portUs
  refine State.usView_ite rfl ((State.updPort_usView ..).trans ?_)
  exact counted _ _ _ (counted _ _ _ (counted _ _ _ rfl))

theorem State.passUs_usView (s : State) : s.passUs.usView = (s.usec + 1, s.usView.2) := by
  have ports : ∀ u : State, ((List.range 12).foldl State.portUs u).usView = u.usView :=
    foldl_leaves State.usView State.portUs_usView _
  have groups : ∀ u : State, ((List.range 4).foldl (fun s n => if (s.group n).paused = 0 then s else s.count .eth n 4 1) u).usView =
      u.usView := foldl_leaves State.usView (fun s _ => State.usView_ite rfl (s.count_usView ..)) _
  have basins : ∀ (l : List (Nat × Basin)) (u : State), (l.foldl (fun s e =>
      if e.2.phase = .running ∧ !e.2.testPause then s.count .basin e.1 0 1 else s) u).usView = u.usView :=
    foldl_leaves State.usView fun s _ => State.usView_ite (s.count_usView ..) rfl
  unfold State.passUs
  dsimp only
  generalize counted : (List.foldl _ _ _ : State) = u
  have passed : u.usView = (s.usec + 1, s.usView.2) := by
    rw [← counted, basins, groups, ports]
    rfl
  split
  · exact passed
  · exact passed

/-- What a sample leaves of the state before it is compared with a limit. -/
theorem State.sampled_leaves (s : State) (vin iin : Nat) :
    (s.sampled vin iin).usec = s.usec + 1 ∧ (s.sampled vin iin).cores = s.cores ∧ (s.sampled vin iin).fwu = s.fwu ∧
    (s.sampled vin iin).sec = s.sec ∧ (s.sampled vin iin).rel = s.rel ∧
    (s.sampled vin iin).power = { s.power with
      vin := vin, iin := iin, samples := (vin * iin :: s.power.samples).take 1000000
      low40 := if vin < 400 then s.power.low40 + 1 else 0, low36 := if vin < 360 then s.power.low36 + 1 else 0 } := by
  have passed := s.passUs_usView
  generalize h : s.passUs = u at passed
  simp only [State.usView, Prod.mk.injEq] at passed
  obtain ⟨usec, cores, power, fwu, sec, rel⟩ := passed
  simp only [State.sampled, h, power]
  exact ⟨usec, cores, fwu, sec, rel, trivial⟩

/-! ### What the responses to a sample leave -/

/-- A state that comes from another by responses to a sample: causes are latched, and the dies slow down. -/
structure State.Slows (s t : State) : Prop where
  usec : t.usec = s.usec
  cores : t.cores = s.cores
  sample : (t.power.vin, t.power.iin, t.power.samples, t.power.ilim, t.power.ilimNow) =
    (s.power.vin, s.power.iin, s.power.samples, s.power.ilim, s.power.ilimNow)
  latch : s.power.powerLatch = true → t.power.powerLatch = true
  step0 : min 2 s.power.step0 ≤ t.power.step0
  step1 : min 2 s.power.step1 ≤ t.power.step1

theorem State.latch_usec (s : State) (thermal : Bool) (i : Nat) : (s.latch thermal i).usec = s.usec := by
  have sent : ∀ (u : State) (m : Msg), ((u.notify .pf0 3).emit m).usec = u.usec := fun u m => by
    unfold State.notify
    dsimp only
    split <;> rfl
  by_cases h : (if thermal then s.power.thermalLatch else s.power.powerLatch) = true
  · have run : s.latch thermal i = { s with power := { s.power with causes := setBit s.power.causes i true } } := if_pos h
    rw [run]
  · have run : s.latch thermal i = _ := if_neg h
    rw [run]
    exact sent _ _

namespace State.Slows

variable {s t u : State}

theorem refl (s : State) : s.Slows s := ⟨rfl, rfl, rfl, id, Nat.min_le_right .., Nat.min_le_right ..⟩

theorem trans (h : s.Slows t) (g : t.Slows u) : s.Slows u where
  usec := g.usec.trans h.usec
  cores := g.cores.trans h.cores
  sample := g.sample.trans h.sample
  latch := g.latch ∘ h.latch
  step0 := by have := h.step0; have := g.step0; omega
  step1 := by have := h.step1; have := g.step1; omega

theorem ite {c : Prop} [Decidable c] (ht : s.Slows t) (hu : s.Slows u) : s.Slows (if c then t else u) := by
  split
  · exact ht
  · exact hu

theorem latched (h : s.Slows t) (i : Nat) : s.Slows (t.latch false i) := by
  obtain ⟨power, -, cores⟩ := t.latch_power i
  exact h.trans ⟨t.latch_usec .., cores, by rw [power], fun _ => by rw [power], by rw [power]; exact Nat.min_le_right ..,
    by rw [power]; exact Nat.min_le_right ..⟩

theorem toLowest (h : s.Slows t) : s.Slows { t with power := t.power.toSteps 2 2 } :=
  h.trans ⟨rfl, rfl, rfl, id, Nat.min_le_left .., Nat.min_le_left ..⟩

theorem stepDown (h : s.Slows t) : s.Slows { t with power := t.power.stepDown } := by
  have down : ∀ n, min 2 n ≤ min 2 (n + 1) := fun n => by omega
  exact h.trans ⟨rfl, rfl, rfl, id, down _, down _⟩

end State.Slows

/-- A supply within its range is compared with its limits, and the device runs on (13 R369). -/
theorem State.voltage_inRange {s : State} (hv : s.power.vin ≤ 640) (hl : s.power.low36 < 50) :
    ∃ u, s.voltage = some u ∧ s.Slows u := by
  refine ⟨_, if_neg (by omega), ?_⟩
  have marked : s.Slows { s with power := { s.power with
      vinNow := decide (600 < s.power.vin) || decide (10 ≤ s.power.low40)
      faultN := decide (600 < s.power.vin) || s.power.refStop } } :=
    ⟨rfl, rfl, rfl, id, Nat.min_le_right .., Nat.min_le_right ..⟩
  exact .ite (.ite (marked.latched 11).toLowest (marked.latched 11)) marked

theorem State.voltage_lost {s : State} (h : 640 < s.power.vin) : s.voltage = none := if_pos (.inl h)

/-- The state with the comparison of its current recorded. -/
def State.compared (s : State) : State := { s with power := { s.power with ilimNow := decide (s.power.ilim ≤ s.power.iin) } }

/-- A current at ILIM latches its cause, and one that was below steps both dies down (13 R374). -/
theorem State.current_responds (s : State) : s.compared.Slows s.current ∧
    (s.power.ilim ≤ s.power.iin → s.current.power.powerLatch = true) ∧
    (s.power.ilim ≤ s.power.iin → s.power.ilimNow = false →
      s.current.power.step0 = min 2 (s.power.step0 + 1) ∧ s.current.power.step1 = min 2 (s.power.step1 + 1)) := by
  have latched := (State.Slows.refl s.compared).latched 10
  have run : s.current = if decide (s.power.ilim ≤ s.power.iin) = true then
      if s.power.ilimNow = true then s.compared.latch false 10
      else { s.compared.latch false 10 with power := (s.compared.latch false 10).power.stepDown }
    else s.compared := rfl
  obtain ⟨power, -⟩ := s.compared.latch_power 10
  rw [run]
  refine ⟨.ite (.ite latched latched.stepDown) (.refl _), fun h => ?_, fun h hn => ?_⟩
  · rw [if_pos (decide_eq_true h)]
    split
    · rw [power]
    · exact congrArg Power.powerLatch power
  · rw [if_pos (decide_eq_true h), if_neg (by simp [hn])]
    exact ⟨(congrArg (fun p : Power => min 2 (p.step0 + 1)) power :), (congrArg (fun p : Power => min 2 (p.step1 + 1)) power :)⟩

/-- The averages latch their causes and step the dies down (13 R373). -/
theorem State.averages_slows (s : State) : s.Slows s.averages := by
  have marked : ∀ x, s.Slows { s with power := { s.power with limitNow := x } } := fun x =>
    ⟨rfl, rfl, rfl, id, Nat.min_le_right .., Nat.min_le_right ..⟩
  have latched : ∀ (c : Prop) [Decidable c] (i : Nat) (u : State), s.Slows u → s.Slows (if c then u.latch false i else u) :=
    fun c _ i u hu => .ite (hu.latched i) hu
  unfold State.averages
  dsimp only
  refine .ite (State.Slows.stepDown ?_) ?_
  · exact latched _ 9 _ (latched _ 8 _ (marked _))
  · exact latched _ 9 _ (latched _ 8 _ (marked _))

/-! ### The sample -/

theorem powerSample_inRange {s : State} {vin iin : Nat} (hp : s.mgmt.phase ≠ .inReset) (hv : vin ≤ 640)
    (hl : vin < 360 → s.power.low36 + 1 < 50) :
    ∃ t, exec (.powerSample vin iin) s = .next t ∧
      t.power.vin = vin ∧ t.power.iin = iin ∧ t.power.samples = (vin * iin :: s.power.samples).take 1000000 ∧
      t.usec = s.usec + 1 ∧ t.cores = s.cores ∧ t.power.ilimNow = decide (s.power.ilim ≤ iin) ∧
      (s.power.ilim ≤ iin → t.power.powerLatch = true) ∧
      (s.power.ilim ≤ iin → s.power.ilimNow = false →
        min 2 (s.power.step0 + 1) ≤ t.power.step0 ∧ min 2 (s.power.step1 + 1) ≤ t.power.step1) := by
  obtain ⟨usec, cores, -, -, -, power⟩ := s.sampled_leaves vin iin
  have low : (if vin < 360 then s.power.low36 + 1 else 0) < 50 := by
    split
    · next h => exact hl h
    · decide
  obtain ⟨u, voltage, toU⟩ := State.voltage_inRange (s := s.sampled vin iin) (by rw [power]; exact hv) (by rw [power]; exact low)
  obtain ⟨toCurrent, hitLatches, hitSlows⟩ := u.current_responds
  have toEnd := u.current.averages_slows
  have sampleU := toU.sample
  rw [power] at sampleU
  have sampleW := toCurrent.sample
  have sampleT := toEnd.sample
  simp only [State.compared, Prod.mk.injEq] at sampleU sampleW sampleT
  obtain ⟨vinU, iinU, samplesU, ilimU, nowU⟩ := sampleU
  obtain ⟨vinW, iinW, samplesW, -, nowW⟩ := sampleW
  obtain ⟨vinT, iinT, samplesT, -, nowT⟩ := sampleT
  refine ⟨_, execPowerSample_of_some hp voltage, by rw [vinT, vinW, vinU], by rw [iinT, iinW, iinU],
    by rw [samplesT, samplesW, samplesU], ?_, ?_, by rw [nowT, nowW, ilimU, iinU], fun h => ?_, fun h hn => ?_⟩
  · exact (toEnd.usec.trans (toCurrent.usec.trans toU.usec)).trans usec
  · exact (toEnd.cores.trans (toCurrent.cores.trans toU.cores)).trans cores
  · exact toEnd.latch (hitLatches (by rw [ilimU, iinU]; exact h))
  · obtain ⟨slow0, slow1⟩ := hitSlows (by rw [ilimU, iinU]; exact h) (by rw [nowU]; exact hn)
    have u0 := toU.step0
    have u1 := toU.step1
    rw [power] at u0 u1
    have t0 := toEnd.step0
    have t1 := toEnd.step1
    dsimp only at u0 u1
    omega

theorem powerSample_loses {s : State} {vin iin : Nat} (hp : s.mgmt.phase ≠ .inReset) (hv : 640 < vin) :
    ∃ t, exec (.powerSample vin iin) s = .next t ∧ t.mgmt.phase = .inReset ∧ t.cores = [] ∧ t.basins = [] ∧ t.power.faultN = true ∧
      t.fwu.slotA = s.fwu.slotA ∧ t.fwu.slotB = s.fwu.slotB ∧ t.sec.svn = s.sec.svn ∧ t.sec.cmdKey = s.sec.cmdKey ∧
      t.rel.fenceTable = s.rel.fenceTable ∧ t.rel.log = s.rel.log := by
  obtain ⟨-, -, fwu, sec, rel, power⟩ := s.sampled_leaves vin iin
  have lost : (s.sampled vin iin).voltage = none := State.voltage_lost (by rw [power]; exact hv)
  have run := execPowerSample_of_none hp lost
  generalize s.sampled vin iin = u at run fwu sec rel
  exact ⟨_, run, rfl, rfl, rfl, rfl, (congrArg Fwu.slotA fwu :), (congrArg Fwu.slotB fwu :), (congrArg Sec.svn sec :),
    (congrArg Sec.cmdKey sec :), (congrArg Rel.fenceTable rel :), (congrArg Rel.log rel :)⟩

theorem powerSample_taken (s : State) (vin iin : Nat) (hp : s.mgmt.phase ≠ .inReset) :
    ∃ t, exec (.powerSample vin iin) s = .next t ∧
      (vin ≤ 640 → (vin < 360 → s.power.low36 + 1 < 50) →
        t.power.vin = vin ∧ t.power.iin = iin ∧ t.power.samples = (vin * iin :: s.power.samples).take 1000000 ∧
        t.usec = s.usec + 1 ∧ t.cores = s.cores ∧ t.power.ilimNow = decide (s.power.ilim ≤ iin) ∧
        (s.power.ilim ≤ iin → t.power.powerLatch = true) ∧
        (s.power.ilim ≤ iin → s.power.ilimNow = false →
          min 2 (s.power.step0 + 1) ≤ t.power.step0 ∧ min 2 (s.power.step1 + 1) ≤ t.power.step1)) ∧
      (640 < vin → t.mgmt.phase = .inReset ∧ t.cores = [] ∧ t.basins = [] ∧ t.power.faultN = true ∧
        t.fwu.slotA = s.fwu.slotA ∧ t.fwu.slotB = s.fwu.slotB ∧ t.sec.svn = s.sec.svn ∧ t.sec.cmdKey = s.sec.cmdKey ∧
        t.rel.fenceTable = s.rel.fenceTable ∧ t.rel.log = s.rel.log) := by
  by_cases hv : 640 < vin
  · obtain ⟨t, run, lost⟩ := powerSample_loses (iin := iin) hp hv
    exact ⟨t, run, fun h => absurd hv (by omega), fun _ => lost⟩
  · by_cases hl : vin < 360 → s.power.low36 + 1 < 50
    · obtain ⟨t, run, taken⟩ := powerSample_inRange (iin := iin) hp (by omega) hl
      exact ⟨t, run, fun _ _ => taken, fun h => absurd h hv⟩
    · cases voltage : (s.sampled vin iin).voltage with
      | none => exact ⟨_, execPowerSample_of_none hp voltage, fun _ h => absurd h hl, fun h => absurd h hv⟩
      | some u => exact ⟨_, execPowerSample_of_some hp voltage, fun _ h => absurd h hl, fun h => absurd h hv⟩

/-! ### The gate and the power target -/

theorem ilimRecheck_slows (s : State) (h : s.power.ilimNow = true) :
    ∃ t, exec .ilimRecheck s = .next t ∧ t.basins = s.basins ∧ t.cores = s.cores ∧
      (s.power.step0 = 2 → s.power.step1 = 2 → t.power = { s.power with gate := min 12 (s.power.gate + 2) }) ∧
      (s.power.step0 < 2 ∨ s.power.step1 < 2 → t.power.step0 = min 2 (s.power.step0 + 1) ∧
        t.power.step1 = min 2 (s.power.step1 + 1) ∧ t.power.gate = s.power.gate) := by
  refine ⟨_, congrArg Host.Outcome.next (if_pos h), rfl, rfl, fun h0 h1 => ?_, fun hs => ?_⟩
  · exact if_pos (by simp [Power.lowest, h0, h1])
  · have above : ¬ s.power.lowest = true := by
      simp only [Power.lowest, Bool.and_eq_true, decide_eq_true_eq]
      omega
    dsimp only
    rw [if_neg above]
    exact ⟨rfl, rfl, rfl⟩

theorem powerLimitStep_slows (s : State) (h : s.power.limitNow = true) (hg : s.power.gate ≤ 12) :
    ∃ t, exec .powerLimitStep s = .next t ∧ t.basins = s.basins ∧ t.cores = s.cores ∧
      (s.power.step0 = 2 → s.power.step1 = 2 → t.power.gate ≤ 12 ∧ min 12 (s.power.gate + 1) ≤ t.power.gate ∧
        t.power.step0 = 2 ∧ t.power.step1 = 2) ∧
      (s.power.step0 < 2 ∨ s.power.step1 < 2 → t.power.step0 = min 2 (s.power.step0 + 1) ∧
        t.power.step1 = min 2 (s.power.step1 + 1) ∧ t.power.gate = s.power.gate) := by
  by_cases low : s.power.lowest = true
  · have run : exec .powerLimitStep s = .next (State.tick { s with power := s.power.raiseGate (1 + (s.freeVal 4).toNat % 12) }) :=
      congrArg Host.Outcome.next ((if_pos h).trans (if_pos low))
    simp only [Power.lowest, Bool.and_eq_true, decide_eq_true_eq] at low
    refine ⟨_, run, rfl, rfl, fun h0 h1 => ⟨Nat.min_le_left .., ?_, h0, h1⟩, fun hs => by omega⟩
    show min 12 (s.power.gate + 1) ≤ min 12 (s.power.gate + (1 + (s.freeVal 4).toNat % 12))
    omega
  · have run : exec .powerLimitStep s = .next { s with power := s.power.stepDown } :=
      congrArg Host.Outcome.next ((if_pos h).trans (if_neg low))
    refine ⟨_, run, rfl, rfl, fun h0 h1 => absurd ?_ low, fun _ => ⟨rfl, rfl, rfl⟩⟩
    simp [Power.lowest, h0, h1]

theorem gateRelax_opens (s : State) (hl : s.latched = false) (hi : 10 * s.power.iin < 9 * s.power.ilim)
    (hs : s.power.sum 10000 < 2700 * 100000) (hm : s.power.sum 1000000 < 2340 * 10000000) :
    exec .gateRelax s = .next { s with power := { s.power with gate := s.power.gate - 1 } } := by
  refine congrArg Host.Outcome.next (if_neg ?_)
  simp only [hl, Bool.false_eq_true, false_or, not_or, Nat.not_le]
  exact ⟨hi, hs, hm⟩

theorem pwrCapWrite_clamps (s : State) (v : BitVec 32) (hr : s.hostReaches = true) :
    ∃ t, exec (.pwrCapWrite v) s = .next t ∧ t.basins = s.basins ∧ t.cores = s.cores ∧
      (s.mgmt.gap = false → t.power = { s.power with cap := max 600 (min 2600 (v.toNat % 2 ^ 12)) } ∧ t.mgmt = s.mgmt) ∧
      (s.mgmt.gap = true → t.power = s.power ∧ t.mgmt.held = s.mgmt.held ++ [.pwrCap v]) := by
  have run : exec (.pwrCapWrite v) s = .next (s.heldWrite (.pwrCap v) fun s => s.setCap v) :=
    congrArg Host.Outcome.next (State.fromHost_of_reaches hr _)
  refine ⟨_, run, ?_⟩
  unfold State.heldWrite
  split
  · next hg => exact ⟨rfl, rfl, fun h => by simp [hg] at h, fun _ => ⟨rfl, rfl⟩⟩
  · next hg => exact ⟨rfl, rfl, fun _ => ⟨rfl, rfl⟩, fun h => absurd h hg⟩

/-- Settles O45: a sample by what its responses leave (`State.Slows`), each other command by its branches. -/
theorem powerLimits : Obligations.PowerLimits :=
  ⟨powerSample_taken, ilimRecheck_slows, powerLimitStep_slows, gateRelax_opens, pwrCapWrite_clamps⟩

end Sys2Proof.Machine

/-! Junction temperature, the latches and the thermal trip (13 R370, R376 to R378, R388). -/

namespace Sys2Proof.Machine

/-! ### The thermal latch -/

/-- The thermal latch is set with its cause; beside it, a first cause is counted and sent. -/
theorem State.latch_thermal_power (s : State) (i : Nat) :
    (s.latch true i).power = { s.power with causes := setBit s.power.causes i true, thermalLatch := true } ∧
    (s.latch true i).basins = s.basins := by
  have sent : ∀ (u : State) (m : Msg), ((u.notify .pf0 3).emit m).power = u.power ∧ ((u.notify .pf0 3).emit m).basins = u.basins := by
    intro u m
    unfold State.notify
    dsimp only
    split
    · exact ⟨rfl, rfl⟩
    · exact ⟨rfl, rfl⟩
  by_cases h : s.power.thermalLatch = true
  · have run : s.latch true i = { s with power := { s.power with causes := setBit s.power.causes i true } } := if_pos h
    rw [run]
    refine ⟨?_, rfl⟩
    rw [← h]
  · have run : s.latch true i = _ := if_neg h
    rw [run]
    exact sent _ _

theorem State.ethDomain_clock (s : State) (n : Nat) : (s.ethDomain n).clock = s.clock := by
  unfold State.ethDomain
  dsimp only
  split
  · rfl
  · rfl

theorem State.switchClusters_clock (s : State) (on : Bool) (cs : List Nat) : (s.switchClusters on cs).clock = s.clock := by
  refine foldl_clock _ (fun t c => ?_) _ _
  split
  · rfl
  · rfl

/-! ### The response to hot readings -/

/-- The device after its response to readings at EMERG, before it trips or leaves a trip (13 R376). -/
def State.hotResponse (s : State) : State :=
  let p := s.power
  let s := if 3 ≤ p.hot then s.latch true 7 else s
  let s := if p.hot0 = 3 ∨ p.hot1 = 3 then { s with power := s.power.toSteps 2 2 } else s
  if 3 < p.hot ∧ (p.hot - 3) % 100 = 0 then { s with power := s.power.raiseGate 2 } else s

theorem State.junction_eq (s : State) : s.junction =
    if s.power.tripped then
      if s.power.tj0 + 20 < s.power.trip ∧ s.power.tj1 + 20 < s.power.trip then s.hotResponse.leaveTrip else s.hotResponse
    else if 3 ≤ s.power.over then s.hotResponse.thermalTrip
    else s.hotResponse := rfl

theorem State.hotResponse_of_cool {s : State} (h0 : s.power.hot0 = 0) (h1 : s.power.hot1 = 0) : s.hotResponse = s := by
  have cool : s.power.hot = 0 := by simp [Power.hot, h0, h1]
  unfold State.hotResponse
  simp [cool, h0, h1]

/-- The third reading in a row at EMERG takes both dies to step 2, and does not yet raise the gate. -/
theorem State.hotResponse_of_third {s : State} (h0 : s.power.hot0 = 3) (h1 : s.power.hot1 = 0) :
    s.hotResponse = { s.latch true 7 with power := (s.latch true 7).power.toSteps 2 2 } := by
  have hot : s.power.hot = 3 := by simp [Power.hot, h0, h1]
  unfold State.hotResponse
  simp [hot, h0]

/-- The part of a power state that the response to hot readings leaves. -/
def Power.readings (p : Power) : Nat × Nat × Bool × Bool := (p.tj0, p.tj1, p.tripped, p.refStop)

theorem State.hotResponse_leaves (s : State) : s.hotResponse.power.readings = s.power.readings ∧ s.hotResponse.basins = s.basins := by
  have ite : ∀ {c : Prop} [Decidable c] {u v : State}, (u.power.readings = s.power.readings ∧ u.basins = s.basins) →
      (v.power.readings = s.power.readings ∧ v.basins = s.basins) →
      (if c then u else v).power.readings = s.power.readings ∧ (if c then u else v).basins = s.basins := fun hu hv => by
    split
    · exact hu
    · exact hv
  obtain ⟨power, basins⟩ := s.latch_thermal_power 7
  have latched : (if 3 ≤ s.power.hot then s.latch true 7 else s).power.readings = s.power.readings ∧
      (if 3 ≤ s.power.hot then s.latch true 7 else s).basins = s.basins :=
    ite ⟨(congrArg Power.readings power :), basins⟩ ⟨rfl, rfl⟩
  unfold State.hotResponse
  dsimp only
  generalize (if 3 ≤ s.power.hot then s.latch true 7 else s) = u at latched
  exact ite (ite latched latched) (ite latched latched)

/-! ### The thermal trip -/

/-- Cluster domains that are switched off are off, and the rest stay as they are. -/
theorem State.switchClusters_off (cs : List Nat) (s : State) (i : Nat) :
    (s.switchClusters false cs).power.clusterOn.getLsbD i = (s.power.clusterOn.getLsbD i && decide (i ∉ cs)) := by
  induction cs generalizing s with
  | nil => simp [State.switchClusters]
  | cons c cs ih =>
    have head : ∀ u : State, u = (if s.power.clusterOn.getLsbD c = false then s
        else ({ s with power := { s.power with clusterOn := setBit s.power.clusterOn c false } }).count .device 0 9 1) →
        u.power.clusterOn.getLsbD i = (s.power.clusterOn.getLsbD i && decide (i ≠ c)) := by
      rintro _ rfl
      split
      · next h => by_cases e : i = c <;> simp [e, h]
      · show (setBit s.power.clusterOn c false).getLsbD i = _
        rw [setBit_getLsbD]
        by_cases e : i = c
        · subst e; split <;> simp_all [BitVec.getLsbD_of_ge]
        · simp [e, Ne.symm e]
    refine (ih _).trans ?_
    rw [head _ rfl, Bool.and_assoc]
    simp [List.mem_cons, not_or]

theorem State.switchClusters_allOff (s : State) : (s.switchClusters false (List.range 64)).power.clusterOn = 0 := by
  refine BitVec.eq_of_getLsbD_eq fun i hi => ?_
  rw [State.switchClusters_off]
  simp [hi]

theorem State.switchClusters_basins (s : State) (on : Bool) (cs : List Nat) : (s.switchClusters on cs).basins = s.basins := by
  refine foldl_leaves State.basins (fun t c => ?_) _ _
  split
  · rfl
  · rfl

/-- The programs of a list of basins are cleared, and nothing else of any basin changes but its measurement. -/
theorem State.clearProgram_list (l : List Nat) (s : State) (b : Nat) :
    ((l.foldl State.clearProgram s).basin b).phase = (s.basin b).phase ∧
    (b ∈ l ∨ (s.basin b).img = none → ((l.foldl State.clearProgram s).basin b).img = none) := by
  induction l generalizing s with
  | nil => exact ⟨rfl, fun h => h.elim nofun id⟩
  | cons a l ih =>
    have cleared : ((s.clearProgram a).basin b) = if a = b then { s.basin b with img := none, measurement := 0 } else s.basin b := by
      unfold State.clearProgram
      dsimp only
      rw [State.basin_updBasin]
      split
      · next e => rw [e, State.basin_updCores]
      · exact State.basin_updCores ..
    obtain ⟨phase, img⟩ := ih (s.clearProgram a)
    rw [cleared] at phase img
    refine ⟨phase.trans (by split <;> rfl), fun h => img ?_⟩
    by_cases e : a = b
    · exact .inr (by rw [if_pos e])
    · exact h.imp (fun h => (List.mem_cons.1 h).resolve_left (Ne.symm e)) fun h => by rw [if_neg e]; exact h

theorem State.clearProgram_clock (s : State) (b : Nat) : (s.clearProgram b).clock = s.clock :=
  (State.Quiets.refl s).updCores.clock

/-- The device as a trip finds it: its clocks stopped, its latch set. -/
def State.tripping (s : State) : State :=
  State.latch { s with
    power := { s.power with clocksStopped := true, tripped := true, thermN := true }
    rel := { s.rel with testing := [] } } true 12

/-- The basins that are bound. -/
def State.boundBasins (s : State) : List Nat := (s.basins.filter fun e => decide (e.2.phase ≠ .free)).map (·.1)

theorem State.thermalTrip_eq (s : State) : s.thermalTrip =
    (s.tripping.boundBasins.foldl State.clearProgram
      (s.tripping.boundBasins.foldl State.haltForClocks s.tripping)).switchClusters false (List.range 64) := rfl

theorem State.mem_boundBasins {s : State} {b : Nat} (h : (s.basin b).phase ≠ .free) : b ∈ s.boundBasins :=
  List.mem_map.2 ⟨_, List.mem_filter.2 ⟨SMap.mem_of_get_ne fun e => h (congrArg Basin.phase e), decide_eq_true h⟩, rfl⟩

/-- The part of a power state that a trip and its end speak of. -/
def Power.thermal (p : Power) : Nat × Nat × Bool × Bool × Bool × Bool × Nat × Nat :=
  (p.tj0, p.tj1, p.tripped, p.clocksStopped, p.thermN, p.thermalLatch, p.step0, p.step1)

theorem State.thermal_of_clock {s t : State} (h : t.clock = s.clock) : t.power.thermal = s.power.thermal :=
  congrArg (fun x => x.2.2.thermal) h

theorem State.thermalTrip_power (s : State) :
    s.thermalTrip.power.thermal = (s.power.tj0, s.power.tj1, true, true, true, true, s.power.step0, s.power.step1) ∧
    s.thermalTrip.power.clusterOn = 0 := by
  obtain ⟨power, -⟩ := State.latch_thermal_power { s with
    power := { s.power with clocksStopped := true, tripped := true, thermN := true }
    rel := { s.rel with testing := [] } } 12
  have tripping : s.tripping.power.thermal = (s.power.tj0, s.power.tj1, true, true, true, true, s.power.step0, s.power.step1) :=
    (congrArg Power.thermal power :)
  obtain ⟨halted, -⟩ := State.haltForClocks_list s.tripping.boundBasins s.tripping
  rw [State.thermalTrip_eq]
  refine ⟨(State.thermal_of_clock ?_).trans tripping, State.switchClusters_allOff _⟩
  rw [State.switchClusters_clock, foldl_clock _ State.clearProgram_clock]
  exact halted.clock

/-- A trip clears the program of every bound basin, and none of them goes on running (13 R377). -/
theorem State.thermalTrip_basin {s : State} {b : Nat} (h : (s.basin b).phase ≠ .free) :
    (s.thermalTrip.basin b).img = none ∧ (s.thermalTrip.basin b).phase ≠ .running := by
  obtain ⟨-, basins⟩ := State.latch_thermal_power { s with
    power := { s.power with clocksStopped := true, tripped := true, thermN := true }
    rel := { s.rel with testing := [] } } 12
  have bound : b ∈ s.tripping.boundBasins :=
    State.mem_boundBasins (congrArg (fun m : SMap Basin => (SMap.get {} m b).phase) basins ▸ h)
  obtain ⟨-, halted⟩ := State.haltForClocks_list s.tripping.boundBasins s.tripping
  obtain ⟨phase, img⟩ := State.clearProgram_list s.tripping.boundBasins
    (s.tripping.boundBasins.foldl State.haltForClocks s.tripping) b
  rw [State.thermalTrip_eq, State.basin, State.switchClusters_basins]
  exact ⟨img (.inl bound), fun e => halted b bound (phase.symm.trans e)⟩

/-- The device leaves a trip at step 2, and its clocks run again where the reference does (13 R377). -/
theorem State.leaveTrip_power (s : State) : s.leaveTrip.power.thermal =
    (s.power.tj0, s.power.tj1, false, s.power.refStop, false, s.power.thermalLatch, 2, 2) := by
  have clock : s.leaveTrip.clock = State.clock { s with power :=
      { s.power.toSteps 2 2 with tripped := false, thermN := false, clocksStopped := s.power.refStop } } := by
    unfold State.leaveTrip
    dsimp only
    rw [State.testUnbound_clock, foldl_clock]
    intro u e
    split
    · exact State.restTest_clock ..
    · rfl
  exact State.thermal_of_clock clock

/-! ### Readings -/

theorem State.junction_tj (s : State) : s.junction.power.tj0 = s.power.tj0 ∧ s.junction.power.tj1 = s.power.tj1 := by
  obtain ⟨readings, -⟩ := s.hotResponse_leaves
  simp only [Power.readings, Prod.mk.injEq] at readings
  obtain ⟨tj0, tj1, -⟩ := readings
  have left := s.hotResponse.leaveTrip_power
  obtain ⟨tripped, -⟩ := s.hotResponse.thermalTrip_power
  simp only [Power.thermal, Prod.mk.injEq] at left tripped
  rw [State.junction_eq]
  split
  · split
    · exact ⟨left.1.trans tj0, left.2.1.trans tj1⟩
    · exact ⟨tj0, tj1⟩
  · split
    · exact ⟨tripped.1.trans tj0, tripped.2.1.trans tj1⟩
    · exact ⟨tj0, tj1⟩

theorem State.junction_of_cool {s : State} (h0 : s.power.hot0 = 0) (h1 : s.power.hot1 = 0) (o0 : s.power.over0 = 0)
    (o1 : s.power.over1 = 0) (ht : s.power.tripped = false) : s.junction = s := by
  rw [State.junction_eq, if_neg (by simp [ht]), if_neg (by simp [Power.over, o0, o1]), State.hotResponse_of_cool h0 h1]

theorem State.junction_of_third {s : State} (h0 : s.power.hot0 = 3) (h1 : s.power.hot1 = 0) (o0 : s.power.over0 = 0)
    (o1 : s.power.over1 = 0) (ht : s.power.tripped = false) :
    s.junction.power.step0 = 2 ∧ s.junction.power.step1 = 2 ∧ s.junction.power.thermalLatch = true ∧
    s.junction.power.gate = s.power.gate := by
  obtain ⟨power, -⟩ := s.latch_thermal_power 7
  rw [State.junction_eq, if_neg (by simp [ht]), if_neg (by simp [Power.over, o0, o1]), State.hotResponse_of_third h0 h1]
  exact ⟨rfl, rfl, (congrArg Power.thermalLatch power :), (congrArg Power.gate power :)⟩

theorem State.junction_of_over {s : State} (h : s.power.over0 = 3) (ht : s.power.tripped = false) :
    s.junction = s.hotResponse.thermalTrip := by
  rw [State.junction_eq, if_neg (by simp [ht]), if_pos (by simp [Power.over, h])]

theorem State.junction_of_cooled {s : State} (h0 : s.power.tj0 + 20 < s.power.trip) (h1 : s.power.tj1 + 20 < s.power.trip)
    (ht : s.power.tripped = true) : s.junction = s.hotResponse.leaveTrip := by
  rw [State.junction_eq, if_pos ht, if_pos ⟨h0, h1⟩]

/-- The device when its junction temperatures have been read, before it responds (13 R376). -/
def State.junctionRead (s : State) (t0 t1 : Nat) : State :=
  { s with power := { s.power with
    tj0 := t0, tj1 := t1
    hot0 := if s.power.emerg ≤ t0 then s.power.hot0 + 1 else 0, hot1 := if s.power.emerg ≤ t1 then s.power.hot1 + 1 else 0
    over0 := if s.power.trip ≤ t0 then s.power.over0 + 1 else 0, over1 := if s.power.trip ≤ t1 then s.power.over1 + 1 else 0 } }

theorem junctionReading_responds (s : State) (d0 d1 : Option Nat) (hp : s.mgmt.phase ≠ .inReset) :
    let t0 := d0.getD s.power.trip
    let t1 := d1.getD s.power.trip
    ∃ t, exec (.junctionReading d0 d1) s = .next t ∧ t.power.tj0 = t0 ∧ t.power.tj1 = t1 ∧
      (t0 < s.power.emerg → t1 < s.power.emerg → s.power.emerg ≤ s.power.trip → s.power.tripped = false →
        t.power = { s.power with tj0 := t0, tj1 := t1, hot0 := 0, hot1 := 0, over0 := 0, over1 := 0 } ∧
        t.basins = s.basins ∧ t.cores = s.cores) ∧
      (s.power.emerg ≤ t0 → s.power.hot0 = 2 → s.power.hot1 = 0 → t0 < s.power.trip → t1 < s.power.emerg →
        s.power.emerg ≤ s.power.trip → s.power.tripped = false →
        t.power.step0 = 2 ∧ t.power.step1 = 2 ∧ t.power.thermalLatch = true ∧ t.power.gate = s.power.gate) ∧
      (s.power.trip ≤ t0 → s.power.over0 = 2 → s.power.tripped = false →
        t.power.tripped = true ∧ t.power.clocksStopped = true ∧ t.power.clusterOn = 0 ∧ t.power.thermN = true ∧
        t.power.thermalLatch = true ∧
        ∀ b, (s.basin b).phase ≠ .free → (t.basin b).img = none ∧ (t.basin b).phase ≠ .running) ∧
      (t0 + 20 < s.power.trip → t1 + 20 < s.power.trip → s.power.tripped = true → s.power.refStop = false →
        t.power.tripped = false ∧ t.power.thermN = false ∧ t.power.clocksStopped = false ∧ t.power.step0 = 2 ∧
        t.power.step1 = 2) := by
  intro t0 t1
  have run : exec (.junctionReading d0 d1) s = .next (s.junctionRead t0 t1).junction := congrArg Host.Outcome.next (if_neg hp)
  clear_value t0 t1
  obtain ⟨tj0, tj1⟩ := (s.junctionRead t0 t1).junction_tj
  refine ⟨_, run, tj0, tj1, fun h0 h1 he ht => ?_, fun h0 hot0 hot1 ho h1 he ht => ?_, fun h0 hover ht => ?_,
    fun h0 h1 ht hr => ?_⟩
  · have e0 : ¬ s.power.emerg ≤ t0 := by omega
    have e1 : ¬ s.power.emerg ≤ t1 := by omega
    have o0 : ¬ s.power.trip ≤ t0 := by omega
    have o1 : ¬ s.power.trip ≤ t1 := by omega
    rw [State.junction_of_cool (s := s.junctionRead t0 t1) (if_neg e0) (if_neg e1) (if_neg o0) (if_neg o1) ht]
    simp only [State.junctionRead, if_neg e0, if_neg e1, if_neg o0, if_neg o1, and_self]
  · exact State.junction_of_third (s := s.junctionRead t0 t1) ((if_pos h0).trans (by rw [hot0])) (if_neg (by omega))
      (if_neg (by omega)) (if_neg (by omega)) ht
  · rw [State.junction_of_over (s := s.junctionRead t0 t1) ((if_pos h0).trans (by rw [hover])) ht]
    obtain ⟨thermal, clusters⟩ := (s.junctionRead t0 t1).hotResponse.thermalTrip_power
    simp only [Power.thermal, Prod.mk.injEq] at thermal
    obtain ⟨-, -, tripped, stopped, thermN, latch, -, -⟩ := thermal
    obtain ⟨-, basins⟩ := (s.junctionRead t0 t1).hotResponse_leaves
    refine ⟨tripped, stopped, clusters, thermN, latch, fun b hb => State.thermalTrip_basin ?_⟩
    rw [State.basin, basins]
    exact hb
  · rw [State.junction_of_cooled (s := s.junctionRead t0 t1) h0 h1 ht]
    have thermal := (s.junctionRead t0 t1).hotResponse.leaveTrip_power
    obtain ⟨readings, -⟩ := (s.junctionRead t0 t1).hotResponse_leaves
    simp only [Power.readings, Prod.mk.injEq] at readings
    obtain ⟨-, -, -, refStop⟩ := readings
    simp only [Power.thermal, Prod.mk.injEq] at thermal
    obtain ⟨-, -, tripped, stopped, thermN, -, step0, step1⟩ := thermal
    exact ⟨tripped, thermN, stopped.trans (refStop.trans hr), step0, step1⟩

/-! ### The latches, THROTTLE and the Quarry domain -/

/-- What ends with a latch leaves of the clocks all but the latch. -/
theorem State.unlatched_clock (s : State) (m : Msg) : ((s.notify .pf0 3).emit m).ethDomains.testUnbound.clock = s.clock := by
  rw [State.testUnbound_clock]
  exact (foldl_clock _ State.ethDomain_clock _ _).trans (s.notify_clock .pf0 3)

theorem latchClear_clears (s : State) (thermal : Bool)
    (h : (if thermal then s.power.thermalLatch else s.power.powerLatch) = true) :
    ∃ t, exec (.latchClear thermal) s = .next t ∧ (s.causePresent thermal = true → t = s) ∧
      (s.causePresent thermal = false → (if thermal then t.power.thermalLatch else t.power.powerLatch) = false ∧
        (if thermal then t.power.powerLatch = s.power.powerLatch else t.power.thermalLatch = s.power.thermalLatch) ∧
        t.power.causes = s.power.causes) := by
  by_cases hc : s.causePresent thermal = true
  · exact ⟨s, congrArg Host.Outcome.next (if_neg (by simp [hc])), fun _ => rfl, fun e => absurd hc (by simp [e])⟩
  · refine ⟨_, congrArg Host.Outcome.next (if_pos (by simp [h, hc])), fun e => absurd e hc, fun _ => ?_⟩
    have clock := State.unlatched_clock { s with power :=
      if thermal then { s.power with thermalLatch := false } else { s.power with powerLatch := false } } (.pldmEvent thermal false)
    have causes := congrArg (fun x => x.2.2.causes) clock
    have powerLatch := congrArg (fun x => x.2.2.powerLatch) clock
    have thermalLatch := congrArg (fun x => x.2.2.thermalLatch) clock
    cases thermal with
    | true => exact ⟨thermalLatch, powerLatch, causes⟩
    | false => exact ⟨powerLatch, thermalLatch, causes⟩

theorem pwrTjWrite_bounds (s : State) (v : Word) (hr : s.hostReaches = true) (hg : s.mgmt.gap = false) :
    ∃ t, exec (.pwrTjWrite v) s = .next t ∧ t.basins = s.basins ∧ t.cores = s.cores ∧
      (v.toNat / 2 ^ 16 % 2 ^ 8 ≤ 95 → v.toNat / 2 ^ 16 % 2 ^ 8 < s.power.emerg →
        t.power = { s.power with throttle := v.toNat / 2 ^ 16 % 2 ^ 8 }) ∧
      (95 < v.toNat / 2 ^ 16 % 2 ^ 8 ∨ s.power.emerg ≤ v.toNat / 2 ^ 16 % 2 ^ 8 →
        t.power = { s.power with throttle := min 95 s.power.emerg }) := by
  have run : exec (.pwrTjWrite v) s = .next (s.setTj v) :=
    congrArg Host.Outcome.next ((State.fromHost_of_reaches hr _).trans (if_neg (by simp [hg])))
  have throttle := bits_eq v.toNat 23 16
  refine ⟨_, run, rfl, rfl, fun h95 he => ?_, fun h => ?_⟩
  · simp only [State.setTj, throttle]
    rw [if_neg (by omega)]
  · simp only [State.setTj, throttle]
    rw [if_pos h]

theorem quarryDomainOff_rests (s : State) (h : s.rel.testing = []) :
    ∃ t, exec .quarryDomainOff s = .next t ∧ t.power.quarryOn = false ∧ t.basins = s.basins ∧ t.cores = s.cores := by
  have run : exec .quarryDomainOff s = .next (s.switchQuarry false) := congrArg Host.Outcome.next (if_pos (by simp [h]))
  refine ⟨_, run, ?_⟩
  unfold State.switchQuarry
  split
  · next off => exact ⟨off, rfl, rfl⟩
  · exact ⟨rfl, rfl, rfl⟩

/-- Settles O46: a reading by the counts it leaves (`State.junctionRead`) and what a trip and its end set; a latch's end by what follows
it leaves of the clocks. -/
theorem thermal : Obligations.Thermal :=
  ⟨junctionReading_responds, latchClear_clears, pwrTjWrite_bounds, quarryDomainOff_rests⟩

end Sys2Proof.Machine

/-! What stops, fences, the tier engine and the keyed commands leave of the management core and of the fences (02 R35 to R41; 13 R371,
R386; 14 R405 to R407). -/

namespace Sys2Proof.Machine

/-! ### The relations -/

/-- What the management core, its flash and its keys hold, and the supply of the lattice and of the memory ports. -/
def State.office (s : State) : Mgmt × Fwu × Sec × BitVec 2 × BitVec 12 := (s.mgmt, s.fwu, s.sec, s.power.latOn, s.power.mempOn)

/-- The part of it that no keyed command changes. -/
def State.term (s : State) : DevPhase × Nat × Nat × BitVec 2 × BitVec 12 :=
  (s.mgmt.phase, s.mgmt.gapMs, s.mgmt.activations, s.power.latOn, s.power.mempOn)

/-- A state that comes from another by stops, fences, reports and the tier engine's work: the management core has not acted, and no
core is unfenced. -/
structure State.SameOffice (s t : State) : Prop where
  office : t.office = s.office
  fenced : ∀ c, (s.core c).fenced = true → (t.core c).fenced = true

/-- A state that comes from another by commands that waited. -/
structure State.SameTerm (s t : State) : Prop where
  term : t.term = s.term
  fenced : ∀ c, (s.core c).fenced = true → (t.core c).fenced = true

theorem State.parts_of_term {s t : State} (h : t.term = s.term) : t.mgmt.phase = s.mgmt.phase ∧ t.mgmt.gapMs = s.mgmt.gapMs ∧
    t.mgmt.activations = s.mgmt.activations ∧ t.power.latOn = s.power.latOn ∧ t.power.mempOn = s.power.mempOn := by
  simpa only [State.term, Prod.mk.injEq] using h

theorem State.parts_of_office {s t : State} (h : t.office = s.office) : t.mgmt = s.mgmt ∧ t.fwu = s.fwu ∧ t.sec = s.sec := by
  simp only [State.office, Prod.mk.injEq] at h
  obtain ⟨mgmt, fwu, sec, -⟩ := h
  exact ⟨mgmt, fwu, sec⟩

theorem State.term_of_office {s t : State} (h : t.office = s.office) : t.term = s.term :=
  congrArg (fun x : Mgmt × Fwu × Sec × BitVec 2 × BitVec 12 => (x.1.phase, x.1.gapMs, x.1.activations, x.2.2.2.1, x.2.2.2.2)) h

/-- A page for which no frame is free waits; an eviction may begin for it. -/
theorem State.supply_waits {s t : State} {b p : Nat} (h : s.supply b p = .waits t) : t = s ∨ ∃ v f, t = s.evict v f := by
  unfold State.supply at h
  grind

namespace State.SameOffice

variable {s t u : State} {b p : Nat}

theorem refl (s : State) : s.SameOffice s := ⟨rfl, fun _ => id⟩

theorem trans (h : s.SameOffice t) (g : t.SameOffice u) : s.SameOffice u :=
  ⟨g.office.trans h.office, fun c => g.fenced c ∘ h.fenced c⟩

theorem same (h : s.SameOffice t) (e : (u.office, u.cores) = (t.office, t.cores)) : s.SameOffice u := by
  simp only [Prod.mk.injEq] at e
  obtain ⟨office, cores⟩ := e
  refine h.trans ⟨office, fun c => ?_⟩
  simp only [State.core, cores, imp_self]

theorem ite {c : Prop} [Decidable c] (ht : s.SameOffice t) (hu : s.SameOffice u) : s.SameOffice (if c then t else u) := by
  split
  · exact ht
  · exact hu

theorem foldl {α : Type} {f : State → α → State} {l : List α} (h : s.SameOffice t)
    (hf : ∀ t a, s.SameOffice t → s.SameOffice (f t a)) : s.SameOffice (l.foldl f t) :=
  List.foldlRecOn l f h fun t h a _ => hf t a h

/-! ### Updates of the state -/

theorem updBasin {f : Basin → Basin} (h : s.SameOffice t) : s.SameOffice (t.updBasin b f) := h.same rfl

theorem updPage {f : Page → Page} (h : s.SameOffice t) : s.SameOffice (t.updPage b p f) := h.same rfl

theorem updCore {c : Nat} {f : Core → Core} (h : s.SameOffice t) (hf : ∀ k, k.fenced = true → (f k).fenced = true) :
    s.SameOffice (t.updCore c f) := by
  refine h.trans ⟨rfl, fun c' => ?_⟩
  rw [State.core_updCore]
  split
  · next e => subst e; exact hf _
  · exact id

theorem updCores {cs : List Nat} {f : Nat → Core → Core} (h : s.SameOffice t)
    (hf : ∀ c k, k.fenced = true → (f c k).fenced = true) : s.SameOffice (t.updCores cs f) :=
  h.foldl fun _ c h => h.updCore (hf c)

/-! ### Stops, tests, reports and fences -/

theorem notify {fn : HostFn} {v : Nat} (h : s.SameOffice t) : s.SameOffice (t.notify fn v) := by
  unfold State.notify
  dsimp only
  split
  · cases fn with
    | pf0 => exact h.same rfl
    | vf b => exact h.updBasin (f := fun x => { x with msix := _ })
  · exact h.same rfl

theorem markEvent {i : Nat} (h : s.SameOffice t) : s.SameOffice (t.markEvent b i) := h.updBasin

theorem setEvent {i : Nat} (h : s.SameOffice t) : s.SameOffice (t.setEvent b i) := .notify (.notify h.markEvent)

theorem postReport {r : Report} (h : s.SameOffice t) : s.SameOffice (t.postReport r) := by
  unfold State.postReport
  split
  · exact .notify (h.same rfl)
  · exact h.same rfl

theorem report {r : Report} (h : s.SameOffice t) : s.SameOffice (t.report r) := by
  unfold State.report
  dsimp only
  split
  · split
    · exact h.same rfl
    · exact h.same rfl
  · exact .postReport (h.same rfl)

theorem reportLost (h : s.SameOffice t) : s.SameOffice t.reportLost := .ite h (.report (h.same rfl))

theorem stopCores (h : s.SameOffice t) : s.SameOffice (t.stopCores b) := h.updCores fun _ _ => id

theorem switchQuarry {on : Bool} (h : s.SameOffice t) : s.SameOffice (t.switchQuarry on) := .ite h (h.same rfl)

theorem switchClusters {on : Bool} {cs : List Nat} (h : s.SameOffice t) : s.SameOffice (t.switchClusters on cs) :=
  h.foldl fun _ _ h => .ite h (h.same rfl)

theorem ethDomains (h : s.SameOffice t) : s.SameOffice t.ethDomains := h.foldl fun _ _ h => .ite h (h.same rfl)

theorem startTest (h : s.SameOffice t) : s.SameOffice (t.startTest b) := by
  have on : s.SameOffice (State.switchQuarry { t with rel := { t.rel with testing := (t.rel.testing ++ t.liveCores b).dedup } } true) :=
    .switchQuarry (h.same rfl)
  exact .ite on.updBasin on

theorem takeRebind (h : s.SameOffice t) : s.SameOffice (t.takeRebind b) := by
  unfold State.takeRebind
  split
  · exact h.updBasin
  · exact h

theorem restTest (h : s.SameOffice t) : s.SameOffice (t.restTest b) := .ite h (.ite h.startTest h.takeRebind)

theorem testUnbound (h : s.SameOffice t) : s.SameOffice t.testUnbound := by
  unfold State.testUnbound
  exact .ite h (.ite h (.switchClusters (.switchQuarry (h.same rfl))))

theorem enterParked (h : s.SameOffice t) : s.SameOffice (t.enterParked b) := .restTest (.setEvent h.updBasin)

theorem beginUnbind (h : s.SameOffice t) : s.SameOffice (t.beginUnbind b) := .updBasin (.stopCores (h.same rfl))

theorem enterFence {o : Option Nat} {kind c : Nat} (h : s.SameOffice t) : s.SameOffice (t.enterFence o kind c) := by
  have stopped : s.SameOffice (t.updCore c fun k => { k.stop with fenced := true }) := h.updCore fun _ _ => rfl
  exact .report (stopped.same rfl)

theorem applyFences (h : s.SameOffice t) : s.SameOffice (t.applyFences b) := by
  have fenced : s.SameOffice ((t.basin b).fencePending.foldl (fun s f => s.enterFence (some b) f.1 f.2)
      (t.updBasin b fun x => { x with fencePending := [] })) := .foldl h.updBasin fun _ _ g => g.enterFence
  unfold State.applyFences
  exact .ite fenced.beginUnbind (.enterParked (.markEvent (.updBasin (fenced.updCores fun _ _ => id))))

theorem settle (h : s.SameOffice t) : s.SameOffice (t.settle b) := .ite h.restTest h.applyFences

theorem haltBasin {cause : Nat} (h : s.SameOffice t) : s.SameOffice (t.haltBasin b cause) :=
  .settle (.setEvent h.stopCores.updBasin)

theorem fenceCore {kind c : Nat} (h : s.SameOffice t) : s.SameOffice (t.fenceCore kind c) := by
  unfold State.fenceCore
  refine .ite h ?_
  split
  · exact h.enterFence
  · exact .ite h.updBasin.applyFences h.updBasin

theorem startDue (h : s.SameOffice t) : s.SameOffice t.startDue :=
  .testUnbound (h.foldl fun _ _ h => .ite h.restTest h)

theorem leaveClusters (h : s.SameOffice t) : s.SameOffice t.leaveClusters := h.foldl fun _ _ h => .ite h h.switchClusters

/-! ### The tier engine -/

theorem zeroFill (h : s.SameOffice t) : s.SameOffice (t.zeroFill b p) := by
  unfold State.zeroFill
  dsimp only
  split
  · exact .updPage (h.same rfl)
  · exact h.updPage

theorem takeMap (h : s.SameOffice t) (e : t.takeMap b p = some u) : s.SameOffice u := by
  unfold State.takeMap at e
  split at e
  · cases e; exact h
  · obtain ⟨x, -, rfl⟩ := Option.map_eq_some_iff.1 e
    exact .zeroFill (h.same rfl)

theorem askMove (h : s.SameOffice t) : s.SameOffice (t.askMove b p) :=
  .ite h (.ite (.updPage (h.same rfl)) (.ite (.updPage (h.same rfl)) h))

theorem addMove {c : MoveCause} {f : Page → Page} (h : s.SameOffice t) : s.SameOffice (t.addMove b p c f) := by
  unfold State.addMove
  split
  · exact h
  · next v e =>
      have moved : s.SameOffice (v.updPage b p fun g => { f g with moved := 0 }) := .updPage (h.takeMap e)
      exact .askMove (moved.same rfl)

theorem supply (h : s.SameOffice t) (e : t.supply b p = .waits u) : s.SameOffice u := by
  obtain rfl | ⟨v, f, rfl⟩ := State.supply_waits e
  · exact h
  · exact h.addMove

theorem retryMove (h : s.SameOffice t) : s.SameOffice (t.retryMove b p) := by
  unfold State.retryMove
  refine .ite h (.ite ?_ h.updPage)
  split
  · exact h.addMove
  · next e => exact h.supply e
  · exact h

theorem takeFrames {n : Nat} {l : List Nat} (h : s.SameOffice t) (e : takeFrames b n t l = .waits u) : s.SameOffice u := by
  induction n generalizing t l with
  | zero => cases e
  | succ n ih =>
    unfold Machine.takeFrames at e
    split at e
    · exact ih h.updBasin e
    · next hs => cases e; exact h.supply hs
    · cases e

theorem setDepth {j d : Nat} (h : s.SameOffice t) : s.SameOffice (t.setDepth b j d) := by
  unfold State.setDepth
  refine .ite h.updBasin ?_
  split
  · exact h.updBasin
  · next e => exact .updBasin (.updBasin (h.updBasin.takeFrames e))
  · exact h.updBasin

theorem retryDepths (h : s.SameOffice t) : s.SameOffice (t.retryDepths b) := by
  refine h.foldl fun t e h => ?_
  split
  · exact h.setDepth
  · exact h

theorem growLog {n : Nat} (h : s.SameOffice t) : s.SameOffice (growLog b n t) := by
  induction n generalizing t with
  | zero => exact h
  | succ n ih =>
    unfold Machine.growLog
    refine .ite h ?_
    split
    · exact ih h.updBasin
    · next e => exact h.supply e
    · exact h.markEvent.haltBasin

theorem pausePrio {n i : Nat} (h : s.SameOffice t) : s.SameOffice (t.pausePrio n i) := by
  unfold State.pausePrio
  dsimp only
  repeat' refine .ite ?_ ?_
  all_goals exact h.same rfl

theorem drainGroup {n : Nat} (h : s.SameOffice t) : s.SameOffice (t.drainGroup n) :=
  .ite h (.foldl (h.same rfl) fun _ _ h => h.pausePrio)

theorem startPushes (h : s.SameOffice t) : s.SameOffice (t.startPushes b) := by
  refine h.foldl fun t p h => ?_
  dsimp only
  refine .ite (.ite h h.updBasin) ?_
  split
  · exact h.addMove.updBasin
  · exact h

theorem rawMove {f : Nat} {c : MoveCause} (h : s.SameOffice t) : s.SameOffice (t.rawMove f c) := by
  unfold State.rawMove
  split
  · exact .ite h (h.same rfl)
  · exact h

theorem drain {n : Nat} (h : s.SameOffice t) : s.SameOffice (t.drain n) := by
  refine .foldl (h.foldl fun t f h => h.rawMove) fun t e h => h.foldl fun t q h => ?_
  dsimp only
  refine .ite h (.ite h ?_)
  split
  · exact h.addMove
  · split
    · exact .ite h h.addMove
    · exact h

theorem fenceMoves {f : Nat} (h : s.SameOffice t) : s.SameOffice (t.fenceMoves f) := by
  have placed : ∀ {t : State} {b p : Nat} {o : Option Nat} {g : Nat → Page → Page}, s.SameOffice t →
      s.SameOffice (match o with | some n => t.addMove b p .fence (g n) | none => t) := fun h => by
    split
    · exact h.addMove
    · exact h
  refine .foldl h.rawMove fun t e h => h.foldl fun t q h => ?_
  exact .ite h (.ite (placed h) (.ite (placed h) h))

theorem advanceTier (h : s.SameOffice t) : s.SameOffice t.advanceTier := by
  refine .foldl (.foldl (.foldl (.foldl (.foldl (.foldl (.foldl h ?retry) ?depths) ?logs) ?groups) ?pushes) ?drains) ?fences
  case retry => exact fun _ e h => h.foldl fun _ q h => h.retryMove
  case depths => exact fun _ e h => h.retryDepths
  case logs => exact fun _ e h => h.growLog
  case groups => exact fun _ n h => h.drainGroup
  case pushes => exact fun _ e h => h.startPushes
  case drains => exact fun _ n h => .ite h.drain h
  case fences => exact fun _ n h => h.foldl fun _ f h => h.fenceMoves

theorem fenceFrame {f : Nat} (h : s.SameOffice t) : s.SameOffice (t.fenceFrame f) :=
  .ite h (.report (.fenceMoves (h.same rfl)))

theorem moveChunks {n : Nat} (h : s.SameOffice t) : s.SameOffice (t.moveChunks n) :=
  .foldl (h.same rfl) fun _ _ h => h.same rfl

theorem keyedFenceEngine {n : Nat} (h : s.SameOffice t) : s.SameOffice (t.keyedFenceEngine n) :=
  .ite h (.moveChunks (.report (h.same rfl)))

end State.SameOffice

namespace State.SameTerm

variable {s t u : State} {b : Nat}

theorem of_office (h : s.SameOffice t) : s.SameTerm t := ⟨State.term_of_office h.office, h.fenced⟩

theorem trans (h : s.SameTerm t) (g : t.SameTerm u) : s.SameTerm u :=
  ⟨g.term.trans h.term, fun c => g.fenced c ∘ h.fenced c⟩

theorem same (h : s.SameTerm t) (e : (u.term, u.cores) = (t.term, t.cores)) : s.SameTerm u := by
  simp only [Prod.mk.injEq] at e
  obtain ⟨term, cores⟩ := e
  refine h.trans ⟨term, fun c => ?_⟩
  simp only [State.core, cores, imp_self]

theorem ite {c : Prop} [Decidable c] (ht : s.SameTerm t) (hu : s.SameTerm u) : s.SameTerm (if c then t else u) := by
  split
  · exact ht
  · exact hu

theorem updBasin {f : Basin → Basin} (h : s.SameTerm t) : s.SameTerm (t.updBasin b f) := h.same rfl

theorem withSec {x : Sec} (h : s.SameTerm t) : s.SameTerm { t with sec := x } := h.same rfl

/-- What leaves the office leaves the term. -/
theorem office (h : s.SameTerm t) (g : t.SameOffice u) : s.SameTerm u := h.trans (of_office g)

theorem notify {fn : HostFn} {v : Nat} (h : s.SameTerm t) : s.SameTerm (t.notify fn v) := h.office (.notify (.refl t))

/-! ### Keyed commands -/

theorem endKeyed {st : Nat} (h : s.SameTerm t) : s.SameTerm (t.endKeyed st) := .notify (h.same rfl)

theorem updSlot {i : Bool} {f : FwSlot → FwSlot} (h : s.SameTerm t) : s.SameTerm (t.updSlot i f) := by
  unfold State.updSlot
  exact .ite (h.same rfl) (h.same rfl)

theorem blowFuses {svn : Nat} (h : s.SameTerm t) : s.SameTerm (t.blowFuses svn) := .ite h (.updSlot (.updSlot (h.same rfl)))

theorem runBind {k : KBlock} (h : s.SameTerm t) : s.SameTerm (t.runBind b k) := by
  unfold State.runBind
  refine .ite h.endKeyed ?_
  split
  · exact h.endKeyed
  · exact h.same rfl

theorem runRebind {k : KBlock} (h : s.SameTerm t) : s.SameTerm (t.runRebind b k) := by
  unfold State.runRebind
  refine .ite h.endKeyed ?_
  split
  · exact h.endKeyed
  · split
    · exact h.updBasin.endKeyed
    · exact h.updBasin.endKeyed
    · exact h.updBasin

theorem runUnbind {k : KBlock} (h : s.SameTerm t) : s.SameTerm (t.runUnbind b k) :=
  .ite h.endKeyed (.ite h.endKeyed (.updBasin (h.office (.beginUnbind (.refl t)))))

theorem runFence {k : KBlock} (h : s.SameTerm t) : s.SameTerm (t.runFence k) := by
  refine .ite h.endKeyed (.endKeyed ?_)
  split
  · exact h.office (.keyedFenceEngine (.refl t))
  · exact h.office (.fenceFrame (.refl t))
  · exact h.office (.fenceCore (.refl t))

theorem runActivate {k : KBlock} (h : s.SameTerm t) : s.SameTerm (t.runActivate k) :=
  .ite h.endKeyed (.ite h.endKeyed (.ite h.endKeyed (.ite h.blowFuses.endKeyed (.ite h.endKeyed (h.same rfl)))))

theorem runRotate {k : KBlock} (h : s.SameTerm t) : s.SameTerm (t.runRotate k) := by
  unfold State.runRotate
  refine .ite h.endKeyed (.ite (.ite h.endKeyed ?_) (.ite h.endKeyed h.withSec.endKeyed))
  split
  · exact h.endKeyed
  · exact h.withSec.endKeyed

theorem runUnlock {k : KBlock} (h : s.SameTerm t) : s.SameTerm (t.runUnlock k) := by
  unfold State.runUnlock
  refine .ite h.endKeyed (.ite h.endKeyed (.ite h.endKeyed ?_))
  split
  · exact h.endKeyed
  · exact .ite h.withSec.endKeyed (.ite h.withSec.endKeyed h.withSec.endKeyed)

theorem runZeroize {k : KBlock} (h : s.SameTerm t) : s.SameTerm (t.runZeroize k) := by
  unfold State.runZeroize
  exact .ite h.endKeyed (.ite h.endKeyed (.endKeyed (h.same rfl)))

theorem runKeyed {op : Nat} {k : KBlock} (h : s.SameTerm t) : s.SameTerm (t.runKeyed op k) := by
  have counted : s.SameTerm { t with sec := { t.sec with lastCounter := k.counter.toNat } } := h.same rfl
  unfold State.runKeyed
  split
  · exact .endKeyed (.ite (h.same rfl) h)
  · refine .ite counted.endKeyed ?_
    split
    · exact counted.runBind
    · exact counted.runRebind
    · exact counted.runUnbind
    · exact counted.runFence
    · exact counted.runActivate
    · exact counted.runRotate
    · exact counted.runUnlock
    · exact counted.runZeroize
    · exact counted.endKeyed

/-! ### What waits in a gap -/

theorem loadImage {m : Image} (h : s.SameTerm t) : s.SameTerm (t.loadImage b m) := by
  unfold State.loadImage
  refine .updBasin (h.office (.updCores (.refl t) fun c k hk => ?_))
  split
  · exact hk
  · exact hk

theorem endLaunch {st : Nat} (h : s.SameTerm t) : s.SameTerm (t.endLaunch b st) := h.updBasin.notify

theorem runLaunch {resume : Bool} {img : Option Image} (h : s.SameTerm t) : s.SameTerm (t.runLaunch b resume img) := by
  unfold State.runLaunch
  split
  · exact h.updBasin.endLaunch
  · split
    · exact .ite h.loadImage.updBasin h.loadImage
    · exact h

theorem runHeld {w : Held} (h : s.SameTerm t) : s.SameTerm (t.runHeld w) := by
  cases w with
  | launch b img => exact .ite h.runLaunch h
  | resume b img => exact .ite h.runLaunch h
  | pwrCap v => exact h.same rfl
  | pwrTj v => exact h.same rfl
  | clkCtrl v => exact h.same rfl
  | keyed op k => exact h.runKeyed

theorem runWaiting (h : s.SameTerm t) : s.SameTerm t.runWaiting :=
  List.foldlRecOn t.mgmt.held State.runHeld (h.same rfl) fun _ h _ _ => h.runHeld

end State.SameTerm

/-- Where nothing waits, nothing runs. -/
theorem State.runWaiting_of_empty {s : State} (h : s.mgmt.held = []) : s.runWaiting = s := by
  unfold State.runWaiting
  rw [h]
  show { s with mgmt := { s.mgmt with held := [] } } = s
  rw [← h]

/-! ### The end of a gap -/

/-- The reports that a gap queued, posted when it has ended (13 R386). -/
theorem State.gapReported_office (s : State) :
    s.gapOver.SameOffice (s.rel.gapQueue.foldl State.postReport s.gapOver).reportLost :=
  .reportLost (.foldl (.refl _) fun _ _ h => h.postReport)

theorem State.endGap_term (s : State) : s.endGap.term = s.gapOver.term := by
  have waited : s.gapOver.SameTerm (s.rel.gapQueue.foldl State.postReport s.gapOver).reportLost.runWaiting :=
    .runWaiting (.of_office s.gapReported_office)
  rw [State.endGap_eq]
  exact (waited.office (.startDue (.leaveClusters (.ethDomains (.advanceTier (.refl _)))))).term

theorem State.endGap_office {s : State} (h : s.mgmt.held = []) : s.endGap.office = s.gapOver.office := by
  have reported := s.gapReported_office
  obtain ⟨mgmt, -⟩ := State.parts_of_office reported.office
  rw [State.endGap_eq, State.runWaiting_of_empty ((congrArg Mgmt.held mgmt).trans h)]
  exact reported.advanceTier.ethDomains.leaveClusters.startDue.office

end Sys2Proof.Machine

/-! Power-up and the loss of supplies (13 R369, R371; 14 R407; 15 R413, R418; 17 R460, R464, R465, R470). -/

namespace Sys2Proof.Machine

/-! ### The ROM -/

/-- The part of a state that a boot of the ROM leaves: all of the management core but which slot it runs and what that hands off, of the
update engine but the flash, and the outbox and the supplies. -/
def State.bootView (s : State) : List Msg × Mgmt × Fwu × Power :=
  (s.outbox, { s.mgmt with slot := false, handoff := 0 },
    { s.fwu with slotA := {}, slotB := {}, active := false, dir0 := none, dir1 := none }, s.power)

theorem State.writeDirectory_bootView (s : State) : s.writeDirectory.bootView = s.bootView := by
  unfold State.writeDirectory
  dsimp only
  split
  · rfl
  · rfl

theorem State.updSlot_bootView (s : State) (b : Bool) (f : FwSlot → FwSlot) : (s.updSlot b f).bootView = s.bootView := by
  have put : State.bootView { s with fwu :=
      if b then { s.fwu with slotB := f s.fwu.slotB } else { s.fwu with slotA := f s.fwu.slotA } } = s.bootView := by
    cases b
    · rfl
    · rfl
  unfold State.updSlot
  dsimp only
  generalize (State.mk ..) = u at put
  split
  · exact put
  · exact u.writeDirectory_bootView.trans put

theorem State.runSlot_bootView (s : State) (b : Bool) : (s.runSlot b).bootView = s.bootView := by
  have active : (s.activate b).bootView = s.bootView := by
    unfold State.activate
    split
    · rfl
    · exact State.writeDirectory_bootView _
  exact active

theorem State.romBoot_bootView {s t : State} (h : s.romBoot = some t) : t.bootView = s.bootView := by
  unfold State.romBoot at h
  dsimp only at h
  split at h
  · cases h
  · split at h
    · cases h
      exact s.runSlot_bootView _
    · split at h
      · cases h
        exact (State.runSlot_bootView ..).trans (State.updSlot_bootView ..)
      · cases h

theorem State.markActive_bootView (s : State) : s.markActive.bootView = s.bootView := by
  unfold State.markActive
  split
  · rfl
  · exact State.updSlot_bootView ..

/-- The ROM's recovery mode drops the domains, and a keyed command in progress (15 R418, R426). -/
theorem State.enterRecovery_enters (s : State) : ∃ l, s.enterRecovery.outbox = s.outbox ++ l ∧
    s.enterRecovery.mgmt = { s.mgmt with phase := .recovery, gap := false, recovering := false, activating := none, held := [] } ∧
    s.enterRecovery.fwu.state = 0 ∧ s.enterRecovery.fwu.busy = false ∧ s.enterRecovery.power.pllLock = s.power.pllLock := by
  have dropped : s.dropDomains.outbox = s.outbox ∧ s.dropDomains.mgmt = s.mgmt ∧
      s.dropDomains.power.pllLock = s.power.pllLock := by
    unfold State.dropDomains
    dsimp only
    split
    · exact ⟨rfl, rfl, rfl⟩
    · exact ⟨rfl, rfl, rfl⟩
  have sent : ∀ u : State, ∃ l, (u.notify .pf0 2).outbox = u.outbox ++ l ∧ (u.notify .pf0 2).mgmt = u.mgmt ∧
      (u.notify .pf0 2).power = u.power := by
    intro u
    unfold State.notify
    dsimp only
    split
    · exact ⟨[], (List.append_nil _).symm, rfl, rfl⟩
    · exact ⟨_, rfl, rfl, rfl⟩
  obtain ⟨outbox, mgmt, pll⟩ := dropped
  unfold State.enterRecovery
  dsimp only
  split
  · obtain ⟨l, outbox', mgmt', power'⟩ :=
      sent { s.dropDomains with sec := { s.dropDomains.sec with status := 0x14, busy := false } }
    refine ⟨l, outbox'.trans (by rw [outbox]), ?_, rfl, rfl, (congrArg Power.pllLock power').trans pll⟩
    rw [mgmt', mgmt]
  · refine ⟨[], outbox.trans (List.append_nil _).symm, ?_, rfl, rfl, pll⟩
    rw [mgmt]

/-! ### Out of power-on reset -/

/-- What the device has set when its ROM starts, and that the ROM has it boot or enter its recovery mode. -/
def State.OutOfReset (s : State) (strap : Bool) (t : State) : Prop :=
  t.mgmt.pwrgood = true ∧ t.mgmt.vioOk = true ∧ t.mgmt.recoveryStrap = strap ∧ t.power.pllLock = true ∧
    ∃ l, t.outbox = s.outbox ++ .xspiReset :: l

theorem State.romStarts_sets (s : State) (strap : Bool) (rom : RomChecks) {u : State}
    (h : u.bootView = (s.romStarts strap rom).bootView) : s.OutOfReset strap u ∧ s.OutOfReset strap u.enterRecovery := by
  simp only [State.bootView, Prod.mk.injEq] at h
  obtain ⟨outbox, mgmt, -, power⟩ := h
  have pwrgood : u.mgmt.pwrgood = true := (congrArg Mgmt.pwrgood mgmt :)
  have vioOk : u.mgmt.vioOk = true := (congrArg Mgmt.vioOk mgmt :)
  have strapped : u.mgmt.recoveryStrap = strap := (congrArg Mgmt.recoveryStrap mgmt :)
  have pll : u.power.pllLock = true := (congrArg Power.pllLock power :)
  have sent : u.outbox = s.outbox ++ [.xspiReset] := outbox
  obtain ⟨l, outbox', mgmt', -, -, pll'⟩ := u.enterRecovery_enters
  refine ⟨⟨pwrgood, vioOk, strapped, pll, [], sent⟩, ?_, ?_, ?_, pll'.trans pll, l, ?_⟩
  · rw [mgmt']; exact pwrgood
  · rw [mgmt']; exact vioOk
  · rw [mgmt']; exact strapped
  · rw [outbox', sent, List.append_assoc]
    rfl

theorem State.romStarts_directory (s : State) (strap ok : Bool) : (s.romStarts strap ⟨ok, true, true⟩).fwu.directory = none := rfl

theorem State.romRuns_starts (s : State) (strap : Bool) (rom : RomChecks) : s.OutOfReset strap (s.romStarts strap rom).romRuns ∧
    ((s.romStarts strap rom).romRuns.mgmt.phase = .poweringUp ∨ (s.romStarts strap rom).romRuns.mgmt.phase = .recovery) := by
  cases boot : (s.romStarts strap rom).romBoot with
  | some u =>
    obtain ⟨starts, -⟩ := s.romStarts_sets strap rom (State.romBoot_bootView boot)
    rw [State.romRuns_of_boot boot]
    exact ⟨starts, .inl rfl⟩
  | none =>
    obtain ⟨-, starts⟩ := s.romStarts_sets strap rom (State.markActive_bootView _)
    rw [State.romRuns_of_none boot]
    exact ⟨starts, .inr rfl⟩

theorem powerOnResetExit_starts (s : State) (strap ok bad0 bad1 : Bool) (hp : s.mgmt.phase = .inReset) (hv : s.power.vin ≤ 640)
    (hu : s.power.undervoltage = false ∨ 400 < s.power.vin) :
    ∃ t, exec (.powerOnResetExit strap ⟨ok, bad0, bad1⟩) s = .next t ∧ t.mgmt.pwrgood = true ∧ t.mgmt.vioOk = true ∧
      t.mgmt.recoveryStrap = strap ∧ t.power.pllLock = true ∧ (∃ l, t.outbox = s.outbox ++ .xspiReset :: l) ∧
      (strap = true → t.mgmt.phase = .recovery) ∧ (bad0 = true → bad1 = true → t.mgmt.phase = .recovery) ∧
      (strap = false → t.mgmt.phase = .poweringUp ∨ t.mgmt.phase = .recovery) := by
  have held : ¬ (s.mgmt.phase ≠ .inReset ∨ 640 < s.power.vin ∨ (s.power.undervoltage = true ∧ s.power.vin ≤ 400)) := by
    rcases hu with hu | hu
    · simp [hp, hu, hv]
    · simp [hp]
      omega
  have run := execPowerOnResetExit_eq strap ⟨ok, bad0, bad1⟩ s
  rw [if_neg held] at run
  by_cases h : (strap || (s.romStarts strap ⟨ok, bad0, bad1⟩).fwu.directory.isNone) = true
  · rw [if_pos h] at run
    obtain ⟨-, pwrgood, vioOk, strapped, pll, sent⟩ := s.romStarts_sets strap ⟨ok, bad0, bad1⟩ rfl
    exact ⟨_, run, pwrgood, vioOk, strapped, pll, sent, fun _ => rfl, fun _ _ => rfl, fun _ => .inr rfl⟩
  · rw [if_neg h] at run
    obtain ⟨⟨pwrgood, vioOk, strapped, pll, sent⟩, phase⟩ := s.romRuns_starts strap ⟨ok, bad0, bad1⟩
    refine ⟨_, run, pwrgood, vioOk, strapped, pll, sent, fun e => absurd ?_ h, fun e0 e1 => absurd ?_ h, fun _ => phase⟩
    · rw [e, Bool.true_or]
    · rw [e0, e1, State.romStarts_directory, Option.isNone_none, Bool.or_true]

/-! ### Ready -/

theorem State.SameOffice.applyEntry {s t : State} {e : Nat × Nat} (h : s.SameOffice t) : s.SameOffice (t.applyEntry e) := by
  unfold State.applyEntry
  split
  · exact h.updCore fun _ _ => rfl
  · exact .same (h.updCore (c := e.2) (f := fun k => { k with fenced := true }) fun _ _ => rfl) rfl
  · exact h.same rfl
  · exact h.same rfl
  · exact h

/-- The fence table fences its cores (14 R407). -/
theorem State.applyEntries_fence (l : List (Nat × Nat)) (s : State) : s.SameOffice (l.foldl State.applyEntry s) ∧
    ∀ c, (1, c) ∈ l → ((l.foldl State.applyEntry s).core c).fenced = true := by
  induction l generalizing s with
  | nil => exact ⟨.refl s, nofun⟩
  | cons e l ih =>
    obtain ⟨rest, listed⟩ := ih (s.applyEntry e)
    refine ⟨(State.SameOffice.applyEntry (.refl s)).trans rest, fun c hc => ?_⟩
    rcases List.mem_cons.1 hc with rfl | hc
    · refine rest.fenced c ?_
      show ((s.updCore c fun k => { k with fenced := true }).core c).fenced = true
      rw [State.core_updCore_self]
    · exact listed c hc

/-- The device with its lattice and its memory ports on, before the fence table is applied (13 R370, R371). -/
def State.domainsOn (s : State) : State :=
  State.count { s with
    mgmt := { s.mgmt with phase := .ready }
    power := { s.power with latOn := 3, mempOn := 0xFFF }
    rel := { s.rel with gapQueue := [], testBase := s.powered } } .device 0 9
    (onBits (3 &&& ~~~s.power.latOn) + onBits (0xFFF &&& ~~~s.power.mempOn))

theorem powerUpReady_readies (s : State) (hp : s.mgmt.phase = .poweringUp) :
    ∃ t, exec .powerUpReady s = .next t ∧ t.mgmt.phase = .ready ∧ t.power.latOn = 3 ∧ t.power.mempOn = 0xFFF ∧
      ∀ c, (1, c) ∈ s.rel.fenceTable → (t.core c).fenced = true := by
  have run : exec .powerUpReady s = .next (s.rel.gapQueue.foldl State.postReport
      (s.rel.fenceTable.foldl State.applyEntry s.domainsOn).rebuildHistory).runWaiting.ethDomains :=
    congrArg Host.Outcome.next (if_neg (by simp [hp]))
  obtain ⟨entries, listed⟩ := State.applyEntries_fence s.rel.fenceTable s.domainsOn
  generalize s.rel.fenceTable.foldl State.applyEntry s.domainsOn = u at run entries listed
  have posted : u.SameOffice (s.rel.gapQueue.foldl State.postReport u.rebuildHistory) :=
    .foldl ((State.SameOffice.refl u).same rfl) fun _ _ h => h.postReport
  have ready : u.SameTerm (s.rel.gapQueue.foldl State.postReport u.rebuildHistory).runWaiting.ethDomains :=
    (State.SameTerm.of_office posted).runWaiting.office (.ethDomains (.refl _))
  obtain ⟨phase, -, -, lattice, ports⟩ := State.parts_of_term (ready.term.trans (State.term_of_office entries.office))
  exact ⟨_, run, phase, lattice, ports, fun c hc => ready.fenced c (listed c hc)⟩

/-! ### The loss of supplies -/

theorem pwrgoodFall_loses (s : State) (h : s.mgmt.pwrgood = true) :
    ∃ t, exec .pwrgoodFall s = .next t ∧ t.mgmt.phase = .inReset ∧ t.mgmt.pwrgood = false ∧ t.cores = [] ∧ t.basins = [] ∧
      t.link.up = false ∧ t.pending = s.pending ∧ t.sec.cmdKey = s.sec.cmdKey ∧ t.sec.ownerKeys = s.sec.ownerKeys ∧
      t.sec.svn = s.sec.svn ∧ t.fwu.slotA = s.fwu.slotA ∧ t.fwu.slotB = s.fwu.slotB ∧ t.rel.log = s.rel.log :=
  ⟨_, congrArg Host.Outcome.next (if_pos h), rfl, rfl, rfl, rfl, rfl, rfl, rfl, rfl, rfl, rfl, rfl, rfl⟩

theorem vioMgtLoss_loses (s : State) (h : s.mgmt.vioOk = true) :
    ∃ t, exec .vioMgtLoss s = .next t ∧ t.mgmt.phase = .inReset ∧ t.mgmt.vioOk = false ∧ t.power.thermN = false ∧
      t.power.faultN = false ∧ t.cores = [] ∧ t.basins = [] ∧ t.sec.svn = s.sec.svn ∧ t.rel.log = s.rel.log :=
  ⟨_, congrArg Host.Outcome.next (if_pos h), rfl, rfl, rfl, rfl, rfl, rfl, rfl, rfl⟩

/-- Settles O49: the ROM by what its boot leaves (`State.bootView`), READY by what waited leaves of the domains and of the fences
(`State.SameTerm`), a loss of supplies by what it keeps. -/
theorem powerUp : Obligations.PowerUp := ⟨powerOnResetExit_starts, powerUpReady_readies, pwrgoodFall_loses, vioMgtLoss_loses⟩

end Sys2Proof.Machine

/-! Recoveries, activations and the management gap (13 R366, R384 to R387; 14 R403, R408; 15 R424, R425). -/

namespace Sys2Proof.Machine

/-! ### Recoveries -/

/-- The device at a recovery, before its core boots again (13 R366; 14 R403): the gap has begun, staging has ended and the recovery is
reported. -/
def State.recovered (s : State) (component cause : Nat) : State :=
  let again := s.mgmt.unsettled.contains (component, cause)
  let us := s.mgmt.unsettled.filter fun e => decide (e ≠ (component, cause))
  let s := State.beginGap { s with mgmt := { s.mgmt with
    wdog := satAdd 16 s.mgmt.wdog 1
    recoveries := s.usec :: s.mgmt.recoveries.filter fun t => decide (s.usec ≤ t + 600000000)
    unsettled := if again then us else us ++ [(component, cause)] } } true
  { s with fwu := s.fwu.endStaging }.report
    { event := 0x0F, kind := 6, cls := if again then 1 else 2, addr := component, detail := cause }

/-- The core boots again, in the ROM's recovery mode where no slot boots. -/
def State.bootAgain (s : State) : State :=
  match s.romBoot with
  | some u => u
  | none => s.markActive.enterRecovery

/-- What a boot leaves of the counts of recoveries; staging has ended with it. -/
theorem State.bootAgain_keeps (s : State) :
    s.bootAgain.mgmt.wdog = s.mgmt.wdog ∧ s.bootAgain.mgmt.recoveries = s.mgmt.recoveries ∧
    (s.fwu.state = 0 → s.fwu.busy = false → s.bootAgain.fwu.state = 0 ∧ s.bootAgain.fwu.busy = false) := by
  cases boot : s.romBoot with
  | some u =>
    have view := State.romBoot_bootView boot
    simp only [State.bootView, Prod.mk.injEq] at view
    obtain ⟨-, mgmt, fwu, -⟩ := view
    rw [State.bootAgain, boot]
    exact ⟨(congrArg Mgmt.wdog mgmt :), (congrArg Mgmt.recoveries mgmt :),
      fun hs hb => ⟨(congrArg Fwu.state fwu :).trans hs, (congrArg Fwu.busy fwu :).trans hb⟩⟩
  | none =>
    have view := s.markActive_bootView
    simp only [State.bootView, Prod.mk.injEq] at view
    obtain ⟨-, mgmt, -, -⟩ := view
    obtain ⟨-, -, mgmt', -⟩ := s.markActive.enterRecovery_enters
    rw [State.bootAgain, boot]
    dsimp only
    rw [mgmt']
    exact ⟨(congrArg Mgmt.wdog mgmt :), (congrArg Mgmt.recoveries mgmt :), fun _ _ => ⟨rfl, rfl⟩⟩

theorem State.report_office (s : State) (r : Report) : (s.report r).office = s.office := (State.SameOffice.report (.refl s)).office

theorem State.recovered_counts (s : State) (component cause : Nat) :
    (s.recovered component cause).mgmt.wdog = satAdd 16 s.mgmt.wdog 1 ∧
    (s.recovered component cause).mgmt.recoveries =
      s.usec :: (s.mgmt.recoveries.filter fun u => decide (s.usec ≤ u + 600000000)) ∧
    (s.recovered component cause).fwu = s.fwu.endStaging := by
  obtain ⟨mgmt, fwu, -⟩ := State.parts_of_office (State.report_office _ _ : (s.recovered component cause).office = _)
  exact ⟨congrArg Mgmt.wdog mgmt, congrArg Mgmt.recoveries mgmt, fwu⟩

theorem Fwu.endStaging_ends {f : Fwu} (h : f.state = 1 ∨ f.state = 2) : f.endStaging.state = 0 ∧ f.endStaging.busy = false := by
  rw [Fwu.endStaging, if_pos h]
  exact ⟨rfl, rfl⟩

theorem watchdogRecovery_recovers (s : State) (component cause : Nat) (hp : s.mgmt.phase = .ready) (hg : s.mgmt.gap = false)
    (hc : component ≤ 5) (h1 : 1 ≤ cause) (h4 : cause ≤ 4) :
    ∃ t, exec (.watchdogRecovery component cause) s = .next t ∧ t.mgmt.wdog = min (2 ^ 16 - 1) (s.mgmt.wdog + 1) ∧
      t.mgmt.recoveries = s.usec :: (s.mgmt.recoveries.filter fun u => decide (s.usec ≤ u + 600000000)) ∧
      (s.fwu.state = 1 ∨ s.fwu.state = 2 → t.fwu.busy = false ∧ t.fwu.state = 0) ∧
      ((s.mgmt.recoveries.filter fun u => decide (s.usec ≤ u + 600000000)).length = 2 → t.mgmt.phase = .recovery) := by
  have taken : ¬ (s.mgmt.phase ≠ .ready ∨ (s.mgmt.gap = true ∧ (!s.mgmt.recovering) = true) ∨ 5 < component ∨ cause < 1 ∨ 4 < cause) := by
    simp [hp, hg]
    omega
  have run : exec (.watchdogRecovery component cause) s = .next
      (if 3 ≤ (s.usec :: s.mgmt.recoveries.filter fun u => decide (s.usec ≤ u + 600000000)).length
        then (s.recovered component cause).enterRecovery else (s.recovered component cause).bootAgain) := by
    refine congrArg Host.Outcome.next ((if_neg taken).trans ?_)
    simp only [hg, Bool.false_eq_true, if_false]
    rfl
  obtain ⟨wdog, recoveries, fwu⟩ := s.recovered_counts component cause
  generalize s.recovered component cause = u at run wdog recoveries fwu
  by_cases third : 3 ≤ (s.usec :: s.mgmt.recoveries.filter fun u => decide (s.usec ≤ u + 600000000)).length
  · rw [if_pos third] at run
    obtain ⟨-, -, mgmt, -⟩ := u.enterRecovery_enters
    exact ⟨_, run, (congrArg Mgmt.wdog mgmt).trans wdog, (congrArg Mgmt.recoveries mgmt).trans recoveries,
      fun _ => ⟨rfl, rfl⟩, fun _ => rfl⟩
  · rw [if_neg third] at run
    obtain ⟨wdog', recoveries', staging⟩ := u.bootAgain_keeps
    refine ⟨_, run, wdog'.trans wdog, recoveries'.trans recoveries, fun hs => ?_, fun h => absurd ?_ third⟩
    · obtain ⟨state, busy⟩ := Fwu.endStaging_ends hs
      rw [← fwu] at state busy
      exact (staging state busy).symm
    · rw [List.length_cons, h]

theorem State.report_seq (s : State) (r : Report) : (s.report r).rel.seq = (s.rel.seq + 1) % 2 ^ 32 := by
  unfold State.report State.postReport
  dsimp only
  split
  · split
    · rfl
    · rfl
  · split
    · rw [State.notify_pf0_rel]
      rfl
    · rfl

theorem mgmtRecoveryClassify_reports (s : State) (e : Nat × Nat) (es : List (Nat × Nat)) (h : s.mgmt.unsettled = e :: es)
    (hg : s.mgmt.gap = false) :
    ∃ t, exec .mgmtRecoveryClassify s = .next t ∧ t.mgmt.unsettled = es ∧ t.rel.seq = (s.rel.seq + 1) % 2 ^ 32 ∧
      t.rel.log.head? = some { event := 0x0F, kind := 6, cls := 0, addr := e.1, detail := e.2, seq := s.rel.seq,
                               time := s.powered } ∧ t.basins = s.basins ∧ t.cores = s.cores := by
  let u : State := { s with mgmt := { s.mgmt with unsettled := es } }
  let r : Report := { event := 0x0F, kind := 6, cls := 0, addr := e.1, detail := e.2 }
  have run : exec .mgmtRecoveryClassify s = .next (u.report r) := by
    refine congrArg Host.Outcome.next ?_
    rw [h]
    exact if_neg (by simp [hg])
  obtain ⟨mgmt, -⟩ := State.parts_of_office (u.report_office r)
  have parts := u.report_stopParts r
  simp only [State.stopParts, Prod.mk.injEq] at parts
  obtain ⟨basins, cores, -⟩ := parts
  refine ⟨_, run, congrArg Mgmt.unsettled mgmt, u.report_seq r, ?_, basins, cores⟩
  rw [State.report_log]
  rfl

/-! ### The end of an activation and of a gap -/

theorem State.endActivation_sets (s : State) (st : Nat) :
    (s.endActivation st).mgmt = { s.mgmt with activations := satAdd 16 s.mgmt.activations 1 } ∧
    (s.endActivation st).fwu = s.fwu ∧ (s.endActivation st).sec = { s.sec with status := st, busy := false } := by
  have sent : ∀ (u : State) (v : Nat), (u.notify .pf0 v).mgmt = u.mgmt ∧ (u.notify .pf0 v).fwu = u.fwu ∧
      (u.notify .pf0 v).sec = u.sec := fun u v => State.parts_of_office (State.SameOffice.notify (.refl u)).office
  obtain ⟨mgmt, fwu, sec⟩ := sent { s with mgmt := { s.mgmt with activations := satAdd 16 s.mgmt.activations 1 } } 1
  unfold State.endActivation State.endKeyed
  generalize State.notify _ _ 1 = u at mgmt fwu sec
  obtain ⟨mgmt', fwu', sec'⟩ := sent { u with sec := { u.sec with status := st, busy := false } } 2
  exact ⟨mgmt'.trans mgmt, fwu'.trans fwu, sec'.trans (congrArg (fun x : Sec => { x with status := st, busy := false }) sec)⟩

/-- What a gap's end sets, whatever waited in it, and where nothing did. -/
theorem State.endGap_ends (s : State) : s.endGap.mgmt.gapMs = min 65535 (s.mgmt.gapUs / 1000) ∧
    s.endGap.mgmt.activations = s.mgmt.activations ∧
    (s.mgmt.held = [] → s.endGap.mgmt.gap = false ∧ s.endGap.mgmt.recovering = false ∧ s.endGap.mgmt.activating = none ∧
      s.endGap.fwu = s.fwu ∧ s.endGap.sec = s.sec) := by
  obtain ⟨-, gapMs, activations, -⟩ := State.parts_of_term s.endGap_term
  refine ⟨gapMs.trans (by rw [State.gapOver]), activations, fun h => ?_⟩
  obtain ⟨mgmt, fwu, sec⟩ := State.parts_of_office (State.endGap_office h)
  rw [mgmt]
  exact ⟨rfl, rfl, rfl, fwu, sec⟩

theorem recoveryGapEnd_ends (s : State) (hg : s.mgmt.gap = true) (h : s.mgmt.activating = none ∨ s.mgmt.fallback = true) :
    ∃ t, exec .recoveryGapEnd s = .next t ∧ t.mgmt.gapMs = min 65535 (s.mgmt.gapUs / 1000) ∧
      (s.mgmt.held = [] → t.mgmt.gap = false ∧ t.mgmt.recovering = false ∧ t.mgmt.activating = none ∧
        (s.mgmt.activating.isSome = true → t.fwu.state = 3 ∧ t.sec.status = 0x1B)) := by
  by_cases ha : s.mgmt.activating.isSome = true
  · have fell : s.mgmt.fallback = true := h.resolve_left fun e => by simp [e] at ha
    have run : exec .recoveryGapEnd s = .next (State.endActivation { s with fwu := { s.fwu with state := 3 } } kActFailed).endGap :=
      congrArg Host.Outcome.next ((if_neg (by simp [hg])).trans ((if_pos ha).trans (if_pos fell)))
    obtain ⟨mgmt, fwu, sec⟩ := State.endActivation_sets { s with fwu := { s.fwu with state := 3 } } kActFailed
    generalize State.endActivation _ kActFailed = u at run mgmt fwu sec
    obtain ⟨gapMs, -, ended⟩ := u.endGap_ends
    refine ⟨_, run, gapMs.trans (by rw [mgmt]), fun hh => ?_⟩
    obtain ⟨gap, recovering, activating, fwu', sec'⟩ := ended ((congrArg Mgmt.held mgmt).trans hh)
    exact ⟨gap, recovering, activating, fun _ => ⟨congrArg Fwu.state (fwu'.trans fwu), congrArg Sec.status (sec'.trans sec)⟩⟩
  · have run : exec .recoveryGapEnd s = .next s.endGap :=
      congrArg Host.Outcome.next ((if_neg (by simp [hg])).trans (if_neg ha))
    obtain ⟨gapMs, -, ended⟩ := s.endGap_ends
    refine ⟨_, run, gapMs, fun hh => ?_⟩
    obtain ⟨gap, recovering, activating, -⟩ := ended hh
    exact ⟨gap, recovering, activating, fun e => absurd e ha⟩

/-! ### An activation that is ready -/

/-- A write of the directory leaves which slot is the active one, and the image of each. -/
def Fwu.choice (f : Fwu) : Bool × FwSlot × FwSlot := (f.active, f.slotA, f.slotB)

theorem State.writeDirectory_choice (s : State) : s.writeDirectory.fwu.choice = s.fwu.choice := by
  unfold State.writeDirectory
  dsimp only
  split
  · rfl
  · rfl

theorem State.runSlot_choice (s : State) (b : Bool) : (s.runSlot b).fwu.choice = (b, s.fwu.slotA, s.fwu.slotB) := by
  show (s.activate b).fwu.choice = _
  unfold State.activate
  split
  · next e => rw [← e]; rfl
  · exact State.writeDirectory_choice _

theorem State.slot_runSlot (s : State) (b : Bool) : (s.runSlot b).slot b = s.slot b := by
  have choice := s.runSlot_choice b
  simp only [Fwu.choice, Prod.mk.injEq] at choice
  obtain ⟨-, slotA, slotB⟩ := choice
  simp only [State.slot, slotA, slotB]

/-- The parts of a state that a change of a slot's image leaves. -/
def State.besideImages (s : State) : Bool × Sec := (s.fwu.active, s.sec)

theorem State.updSlot_besideImages (s : State) (b : Bool) (f : FwSlot → FwSlot) :
    (s.updSlot b f).besideImages = s.besideImages := by
  have written : ∀ u : State, u.writeDirectory.besideImages = u.besideImages := fun u =>
    congrArg (fun a => (a, u.sec)) (congrArg Prod.fst u.writeDirectory_choice)
  have put : State.besideImages { s with fwu :=
      if b then { s.fwu with slotB := f s.fwu.slotB } else { s.fwu with slotA := f s.fwu.slotA } } = s.besideImages := by
    cases b
    · rfl
    · rfl
  unfold State.updSlot
  dsimp only
  generalize (State.mk ..) = u at put
  split
  · exact put
  · exact (written u).trans put

/-- The fuses take a higher SVN, of 64 at most (15 R415). -/
theorem State.blowFuses_sets (s : State) (n : Nat) : (s.blowFuses n).bootView = s.bootView ∧
    (s.blowFuses n).fwu.active = s.fwu.active ∧ (s.blowFuses n).sec.svn = max s.sec.svn (min 64 n) := by
  unfold State.blowFuses
  dsimp only
  split
  · exact ⟨rfl, rfl, by omega⟩
  · have images := fun f : FwSlot → FwSlot => (State.updSlot_besideImages (State.updSlot { s with sec :=
      { s.sec with svn := max s.sec.svn (min 64 n) } } false f) true f).trans (State.updSlot_besideImages ..)
    refine ⟨(State.updSlot_bootView ..).trans (State.updSlot_bootView ..), congrArg Prod.fst (images _), ?_⟩
    exact congrArg (fun x : Bool × Sec => x.2.svn) (images _)

/-- The slot of an activation runs, with its SVN in the fuses where it is committed (15 R424, R425). -/
def State.activated (s : State) (slot commit : Bool) : State :=
  if commit then (s.runSlot slot).blowFuses ((s.runSlot slot).slot slot).svn else s.runSlot slot

theorem State.activated_sets (s : State) (slot commit : Bool) : (s.activated slot commit).bootView = s.bootView ∧
    (s.activated slot commit).fwu.active = slot ∧
    (s.activated slot commit).sec.svn = (if commit then max s.sec.svn (min 64 (s.slot slot).svn) else s.sec.svn) := by
  have active : (s.runSlot slot).fwu.active = slot := congrArg Prod.fst (s.runSlot_choice slot)
  have svn : (s.runSlot slot).sec.svn = s.sec.svn := congrArg Kept.svn (s.runSlot_kept slot)
  unfold State.activated
  split
  · obtain ⟨view, active', svn'⟩ := (s.runSlot slot).blowFuses_sets ((s.runSlot slot).slot slot).svn
    rw [svn, State.slot_runSlot] at svn'
    rw [State.slot_runSlot] at view active' ⊢
    exact ⟨view.trans (s.runSlot_bootView slot), active'.trans active, svn'⟩
  · exact ⟨s.runSlot_bootView slot, active, svn⟩

theorem activationReady_activates (s : State) (slot commit : Bool) (ha : s.mgmt.activating = some (slot, commit))
    (hg : s.mgmt.gap = true) (hf : s.mgmt.fallback = false) :
    ∃ t, exec .activationReady s = .next t ∧ t.mgmt.activations = min (2 ^ 16 - 1) (s.mgmt.activations + 1) ∧
      (s.mgmt.held = [] → t.fwu.active = slot ∧ t.fwu.state = 0 ∧ t.mgmt.gap = false ∧ t.mgmt.activating = none ∧
      t.sec.svn = (if commit then max s.sec.svn (min 64 (s.slot slot).svn) else s.sec.svn)) := by
  let v : State := { s.activated slot commit with fwu := { (s.activated slot commit).fwu with state := 0, units := [], block := none } }
  have run : exec .activationReady s = .next (v.endActivation kDone).endGap := by
    refine congrArg Host.Outcome.next ?_
    rw [ha]
    exact if_neg (by simp [hg, hf])
  obtain ⟨view, active, svn⟩ := s.activated_sets slot commit
  simp only [State.bootView, Prod.mk.injEq] at view
  obtain ⟨-, mgmt, -, -⟩ := view
  have counted : v.mgmt.activations = s.mgmt.activations := (congrArg Mgmt.activations mgmt :)
  have waiting : v.mgmt.held = s.mgmt.held := (congrArg Mgmt.held mgmt :)
  have runs : v.fwu.active = slot := active
  have state : v.fwu.state = 0 := rfl
  have fused : v.sec.svn = _ := svn
  clear_value v
  obtain ⟨mgmt', fwu', sec'⟩ := v.endActivation_sets kDone
  generalize v.endActivation kDone = u at run mgmt' fwu' sec'
  obtain ⟨-, activations, ended⟩ := u.endGap_ends
  refine ⟨_, run, activations.trans ?_, fun hh => ?_⟩
  · rw [mgmt']
    exact congrArg (fun n => satAdd 16 n 1) counted
  · obtain ⟨gap, -, activating, fwu, sec⟩ := ended ((congrArg Mgmt.held mgmt').trans (waiting.trans hh))
    rw [fwu, sec, fwu', sec']
    exact ⟨runs, state, gap, activating, fused⟩

/-- Settles O48: a recovery and an activation by what the boot they end in leaves (`State.bootView`), a gap by what its end leaves of the
management core (`State.endGap_ends`). -/
theorem management : Obligations.Management :=
  ⟨watchdogRecovery_recovers, mgmtRecoveryClassify_reports, recoveryGapEnd_ends,
    fun _ h => ⟨_, congrArg Host.Outcome.next (if_pos h), rfl⟩, activationReady_activates,
    fun _ hg ha => congrArg Host.Outcome.next (if_pos ⟨hg, ha⟩)⟩

end Sys2Proof.Machine
